-- ==== Sys2Proof/Word.lean ====
section
/-! DEFINITION. The word types of the KL-5: bytes and the bit vectors the manual moves as whole words (05 R81: little-endian; 19 R359: 32-bit and 64-bit accesses). -/

namespace Sys2Proof

/-- One byte. -/
abbrev Byte := BitVec 8

/-- A 16-bit status or event code (05 Table 5.6, 18 Table 18.3). -/
abbrev W16 := BitVec 16

/-- A 32-bit register word. -/
abbrev W32 := BitVec 32

/-- A 64-bit register or parameter word (05 R81). -/
abbrev W64 := BitVec 64

/-- One 128-bit Wren instruction word (09 Table 9.5), and an IPv6 address (12 R226). -/
abbrev W128 := BitVec 128

end Sys2Proof
end

