-- ==== Sys2Proof/Syntax.lean ====
section
/-! DEFINITION. The commands of the block: one constructor of Instr for each row of the operation table, with the operands a command carries from outside. What the chip already holds (a packet in a ring, a Wren's instruction word, a descriptor in memory) is read from State by the command's meaning. -/

namespace Sys2Proof

/-- Causes of a stop, as the cause latch names them (03 R44, R47, Table 3.15). -/
inductive StopCause where
  | overvolt | undervolt | thermalAnalog | thermal | removal | coldPin
  deriving DecidableEq, Repr

/-- The queue a Koloing Command Packet runs on: a host queue by number, or the management
pseudo-queue of the out-of-band path (05 R104). -/
inductive QRef where
  | host (n : Nat)
  | mgmt
  deriving DecidableEq, Repr

/-- What waits on a completion counter (06 R121, R122): a queue, or the head descriptor of a queue pair. -/
inductive Waiter where
  | queue (n : Nat)
  | qp (n : Nat)
  deriving DecidableEq, Repr

/-- The PCI Express function that makes an access (19 R366): the physical function or one virtual function. -/
inductive Fn where
  | pf
  | vf (v : Nat)
  deriving DecidableEq, Repr

/-- The engines that take part in a context reset (06 Table 6.10). -/
inductive Engine where
  | dunnock | linnet (e : Nat) | ingress | chaffinch | thrush | goldcrest | warbler | wrens | nuthatch | hbm
  deriving DecidableEq, Repr

/-- The time-shared units of Shared tenancy (07 R144). -/
inductive TimeShared where
  | dunnock | linnet (e : Nat) | ingress | warbler | nuthatch | quintidy
  deriving DecidableEq, Repr

/-- Accumulator formats (09 Table 9.2, codes 0 to 5). -/
inductive AccFmt where
  | f32 | f32c | x704 | z64 | p255 | i64s
  deriving DecidableEq, Repr

/-- Sensors the PLDM Type 2 responder serves (05 R103). -/
inductive PldmSensor where
  | tj | vin | pin | hbm (n : Nat) | powerState | bootStatus
  deriving DecidableEq, Repr

/-- The levels at which a manager is elected (14 R284 to R288). -/
inductive Level where
  | rack | fabric | slice (p : Nat)
  deriving DecidableEq, Repr

/-- A debug unlock token (04 R73) with the root public keys its signatures are checked under. -/
structure UnlockToken where
  deviceId : List Byte
  nonce : List Byte
  scope : BitVec 3
  rootIndex : Nat
  mldsaKey : List Byte
  p384Key : List Byte
  mldsaSig : List Byte
  p384Sig : List Byte
  deriving DecidableEq, Repr

/-- A recovery message for a lost anti-rollback record (04, Edges). -/
structure RecoveryMsg where
  deviceId : List Byte
  epoch : Nat
  floor : Nat
  counter : Nat
  rootIndex : Nat
  mldsaKey : List Byte
  p384Key : List Byte
  mldsaSig : List Byte
  p384Sig : List Byte
  deriving DecidableEq, Repr

/-- A Linnet packet as an engine receives it: the header of 12 Table 12.1, its payload and tag,
the engine, and what the layers below report (12 R226). `ipOk` is false for IPv4, a fragment, an
extension header or a wrong UDP checksum. `srcAddr` is the IPv6 address, or on engine 4 the chip number. -/
structure LntPkt where
  engine : Nat
  ipOk : Bool
  srcAddr : Nat
  srcPort : Nat
  dstPort : Nat
  typ : Nat
  flags : BitVec 8
  len : Nat
  dest : Nat
  src : Nat
  psn : Nat
  apsn : Nat
  msn : Nat
  ts : Nat
  offset : Nat
  wkey : Nat
  imm : Nat
  payload : List Byte
  tag : List Byte
  deriving DecidableEq, Repr

/-- A Quintidy packet (14 Table 14.2). `rsvd` says that some Rsvd bit is set; `inPort` is the port it
came in on, 24 when this chip is the source. -/
structure QtdPkt where
  inPort : Nat
  rsvd : Bool
  typ : Nat
  cls : Nat
  vc : Nat
  hops : Nat
  len : Nat
  dest : Nat
  src : Nat
  slice : Nat
  part : Nat
  flow : Nat
  addr : Nat
  corr : Nat
  chord : Nat
  order : BitVec 5
  via : Nat
  stage : Nat
  pair : Nat
  pairHops : Nat
  payload : List Byte
  deriving DecidableEq, Repr

/-- A Siskin data frame as its receiver decodes it (13 R253, R254, Table 13.2). `corrected` counts the RS symbols corrected in it;
`aligned` says that an alignment codeword at the width in use arrived since the frame before it. -/
structure Frame where
  rsOk : Bool
  crcOk : Bool
  fseq : Nat
  aseq : Nat
  nak : Bool
  payload : List Byte
  corrected : Nat
  aligned : Bool
  deriving DecidableEq, Repr

/-- What one training of a Siskin port finds (13 Table 13.4): usable lanes of each direction, optical
mode, and the EXCHANGE report of the partner; `roleClass` is 0 to 3 in the order of Table 13.1. `kd1` is the rack and plane a Dovecote KD-1 reports. -/
structure TrainReport where
  txLanes : BitVec 8
  rxLanes : BitVec 8
  optical : Bool
  chip : Nat
  port : Nat
  roleClass : Nat
  bootMode : Bool
  roost : Bool
  delay : Nat
  kd1 : Option (Nat × Nat)
  deriving DecidableEq, Repr

/-- The phases of a PLDM Type 5 firmware update (05 R103, R105): the request, and the image with which it ends. -/
inductive FwPhase where
  | request
  | image (img : List Byte)
  deriving DecidableEq, Repr

/-- The four timestamps of a TIME_SYNC exchange and its CORR, all in ns (14 R295). -/
structure TimeSyncMsg where
  t1 : Nat
  t2 : Nat
  t3 : Nat
  t4 : Nat
  corr : Nat
  deriving DecidableEq, Repr

/-- A join report: chip number, claim nonce and the check result of each port (14 R283). -/
structure JoinReport where
  chip : Nat
  nonce : BitVec 64
  ports : List (Nat × Nat)
  deriving DecidableEq, Repr

/-- A link-state advertisement for one inter-rack dimension (0 to 9) or chord (10 to 12) of a chip (14 R283). -/
structure LinkAdv where
  chip : Nat
  link : Nat
  up : Bool
  deriving DecidableEq, Repr

/-- What a claim or beacon carries (14 R284): priority strap, chip number and nonce, and whether the sender is a rack manager
(14 R288). -/
structure Bid where
  rackMgr : Bool
  prio : Bool
  chip : Nat
  nonce : BitVec 64
  deriving DecidableEq, Repr

/-- A round message: its 16-byte header and payload (15, Round messages, Table 15.4). -/
structure RoundMsg where
  flags : BitVec 8
  rsvd : BitVec 16
  index : Nat
  offset : Nat
  payload : List Byte
  deriving DecidableEq, Repr

/-- The commands of the KL-5: one constructor for each row of spec/opcode_table.json. -/
inductive Instr where
  /-- R39. VIN rises through VIN_ON, the KL-5 soft-starts VMID and its rails and enters Standby from Off. -/
  | vinOn
  /-- R48. Straps are sampled 8 times and latched once CAR_MATED_N has been low for 5 ms, and then the boot ROM may start. -/
  | strapLatch (samples : List (BitVec 23))
  /-- R40. VIN falls below 38.5 V, the input-voltage ceiling becomes PP1 and event 0x0C07 is raised. -/
  | vinLow
  /-- R40. VIN has stayed above 39.5 V for 1 ms and the input-voltage ceiling is removed. -/
  | vinLowClear
  /-- R44. VIN falls below 35 V and the KL-5 stops with cause UNDERVOLT. -/
  | vinUv (also : List StopCause)
  /-- R44. VIN rises above 61.5 V and the KL-5 stops with cause OVERVOLT. -/
  | vinOv (also : List StopCause)
  /-- R44. The independent comparator sees 120 °C and stops the chip with cause THERMAL_ANALOG. -/
  | thermalAnalogStop (also : List StopCause)
  /-- R49. CAR_MATED_N has been high for 20 µs in Idle or Run, so link-down sets are sent, Ethernet transmission stops and cause REMOVAL is latched. -/
  | removal (also : List StopCause)
  /-- R49. CAR_MATED_N returns low after a removal began and before VIN fell, and the KL-5 stops under R44 anyway. -/
  | matedReturnStop
  /-- R50. MOD_LATCH_N goes high and event 0x0C0F is raised once. -/
  | modLatchOpen
  /-- R51. CAR_PWR_EN goes low, outstanding work completes with 0x0704 and the chip passes through Idle into Standby. -/
  | carPwrEnLow (held : Bool)
  /-- R52. COLD_RESET_N has been low for 10 µs, which stops the chip with cause COLD_PIN and holds it off. -/
  | coldResetPin (also : List StopCause)
  /-- R52. COLD_RESET_N returns high and the KL-5 restarts as if VIN had crossed VIN_ON. -/
  | coldResetRelease
  /-- R40. The carrier drives PROCHOT_N low, so the carrier ceiling becomes PP1 and event 0x0C0E is raised. -/
  | prochotLow
  /-- R53. 20 µs after the KL-5 releases PROCHOT_N it samples the pad, and a low level is taken as the carrier's. -/
  | prochotReleaseSample (low : Bool)
  /-- R54. Tj crosses WARN and event 0x0C0A is raised once for the crossing. -/
  | thermalWarn (tj : Int) (sensor : Nat)
  /-- R55. A 2 ms period in which every sample reached THROTTLE ends, and the thermal ceiling falls one point below the lower of the ceiling and the effective point. -/
  | throttlePeriod (tj : Int) (sensor : Nat)
  /-- R55. After 100 ms with every sample at or below THROTTLE − 8 °C, the thermal ceiling rises by one point. -/
  | throttleRecovery (tj : Int) (sensor : Nat)
  /-- R21. VCORE settles at the new effective point, and the new point's figures bind for work that starts afterwards. -/
  | pointChangeSettled
  /-- R56. Tj reaches CRIT, so all non-Standby rails switch off, THERMTRIP_N is driven low and the chip enters Tripped. -/
  | critTrip (tj : Int) (sensor : Nat)
  /-- R54. An HBM stack crosses 85, 95 or 105 °C, which doubles refresh, limits the stack's bandwidth or trips the chip under Table 3.8. -/
  | hbmStackLimit (stack : Nat) (temp : Int)
  /-- R41. A 1 ms power window ends above PWR_CAP and the power ceiling falls by one point, down to PP1. -/
  | powerWindow (mean vin : Nat)
  /-- R41. After 50 ms with every window below 90 % of PWR_CAP, the power ceiling rises by one point. -/
  | powerCeilingRise
  /-- R39. No run or firmware round work needs a Wren, so the chip gates the Wren islands and returns to Idle by itself. -/
  | runToIdle
  /-- R38. A state transition that takes time, such as Standby to Idle, completes. -/
  | powerTransitionDone
  /-- R63. PERST_N has been low for 100 µs, so work is discarded, link-down sets are sent and the SRAM and HBM scrub starts. -/
  | warmResetPin
  /-- R63. The warm-reset scrub completes, PERST_N is high, the chip is in Standby and the boot ROM reruns. -/
  | warmResetScrubDone
  /-- R64. A PCI Express function reset resets the contexts of the physical function or of one virtual function. -/
  | functionLevelReset (f : Fn)
  /-- R148. A write to SR-IOV VF Enable creates function contexts in Shared tenancy, or is refused in Sole tenancy with event 0x0201. -/
  | vfEnableWrite (value : Bool) (num : Nat)
  /-- R66. The boot ROM reads the fuses, picks the firmware source, verifies and measures the image and derives the keys. -/
  | bootSequence
  /-- R65. The resident firmware finishes step 7 and sets STAGE to RUNNING. -/
  | firmwareReady
  /-- R66. Host software sets RBN_BOOT_MBX_CTL.GO and the boot ROM checks the image in the mailbox. -/
  | bootMbxGo
  /-- R66. Every 2 s in fabric-manager boot the boot ROM sends a boot request on its boot link ports. -/
  | fabricBootRequest
  /-- R66. 10 s pass without an image from a fabric manager and the boot ROM gives up on that source. -/
  | fabricBootTimeout
  /-- R73. A debugger sets TAP HOLD and the boot ROM pauses for up to 10 s with a nonce. -/
  | debugHold
  /-- R73. An unlock token arrives during the pause and, if it verifies, debug is UNLOCKED until the next reset. -/
  | debugUnlockToken (tok : UnlockToken)
  /-- R73. The 10 s debug pause ends without a valid token. -/
  | debugHoldTimeout
  /-- R77. A signed recovery message during RECORD_LOST writes both anti-rollback record copies at the current epoch. -/
  | recoveryMessage (msg : RecoveryMsg)
  /-- R25. A forced stage's data path completes after its replica, so the result is discarded, 0x0C05 is raised and the unit is quarantined. -/
  | replicaOverrun (unit : BitVec 16) (w : Nat)
  /-- R26. A counter slot passes from 0xFFFF_FFFF_FFFF to zero, sets WRAP and raises event 0x0611. -/
  | counterWrap (blk inst slot : Nat)
  /-- R27. A write of 1 freezes every counter slot and fabric time at the next reference edge and increments LRK_SNAP_SEQ. -/
  | lrkSnap (v : BitVec 32)
  /-- R29. At a PPS edge Lark measures its offset and sets the remaining correction and STATE. -/
  | ppsMeasurement
  /-- R29. A PTP delay request-response exchange completes and Lark takes an offset measurement. -/
  | ptpSyncExchange (offset : Int)
  /-- R29. The remaining correction falls to 100 ns or less during a slew and STATE becomes LOCKED. -/
  | slewLocked
  /-- R29. A write to LRK_CTL selects the discipline source, the PTP port and whether holdover is allowed. -/
  | lrkCtlWrite (v : BitVec 32)
  /-- R30. Fabric time is stepped forward by the written value unless a beat generator is enabled, in which case event 0x0409 is raised. -/
  | lrkStep (v : BitVec 64)
  /-- R31. The rack reference shows no edge for 64 ns, Lark enters HOLDOVER or UNSYNC and raises event 0x0C06. -/
  | referenceLoss
  /-- R31. While the reference is lost, a port or partner Lark state changes and Lark selects its source again without a step. -/
  | holdoverReselect
  /-- R31. The reference returns and Lark advances on its edges again until the next measurement. -/
  | referenceReturn
  /-- R31. 3 PTP sync intervals are missed and Lark enters HOLDOVER. -/
  | ptpSyncLoss
  /-- R33. LARK_PPS_OUT rises at each whole second of fabric time unless Lark is UNSYNC. -/
  | ppsOutRise
  /-- R33. LARK_PPS_OUT falls 100 ms of fabric time after it rose. -/
  | ppsOutFall
  /-- R34. A beat generator fires at a multiple of 2^k ns and counts any missed multiples. -/
  | beatFire (n : Nat)
  /-- R34. A write to LRK_BEAT_CFG arms, re-arms or disarms a beat generator. -/
  | lrkBeatCfgWrite (n : Nat) (v : BitVec 32)
  /-- R82. A write to DNK_KQ_DB sets a queue's producer index, or is ignored with event 0x0107. -/
  | doorbell (f : Fn) (q : Nat) (v : BitVec 32)
  /-- R83. A write to DNK_KQ_CQH releases status records and frees room for fetching. -/
  | statusRelease (f : Fn) (q : Nat) (v : BitVec 32)
  /-- R85. The KL-5 fetches a packet covered by the producer index when the status ring has room, and checks its header. -/
  | kcpFetch (q : Nat)
  /-- R121. The target counter reaches the awaited value and the waiting entry starts. -/
  | waitMet (q : Waiter)
  /-- R94. TIMEOUT passes before the command starts and it completes with 0x0705. -/
  | startTimeout (q : QRef)
  /-- R380. A write to DNK_ADMQ_CTL or VF_ADMQ_CTL enables the admin queue with its configuration, or disables it as a queue reset. -/
  | admqCtlWrite (f : Fn) (v : BitVec 32)
  /-- R102. The command does nothing and completes OK. -/
  | nop (q : QRef)
  /-- R102. Returns the part code, chip number, running SVN and device identifier bytes. -/
  | getInfo (q : QRef)
  /-- R38. Moves the chip along the state chain toward Standby or Idle. -/
  | setPowerState (q : QRef)
  /-- R40. Writes the requested point and reports the effective point. -/
  | setPoint (q : QRef)
  /-- R41. Sets PWR_CAP within 400 to 1,150 W. -/
  | setPowerCap (q : QRef)
  /-- R99. Writes its own status record and then performs a warm reset. -/
  | reset (q : QRef)
  /-- R79. Raises the SVN floor through an anti-rollback advance. -/
  | raiseSvnFloor (q : QRef)
  /-- R68. Writes and verifies a firmware image in the inactive flash slot and then updates the descriptor. -/
  | fwUpdate (q : QRef)
  /-- R142. Sets Sole or Shared tenancy and the partition count, measured into accumulator 6. -/
  | setTenancy (q : QRef)
  /-- R131. Sets Open or Confidential host mode, measured into accumulator 6. -/
  | setHostMode (q : QRef)
  /-- R107. Creates a context with its page-table mode and fault mode in a partition. -/
  | ctxCreate (q : QRef)
  /-- R128. Aborts the context's work in every engine and removes the context. -/
  | ctxDestroy (q : QRef)
  /-- R128. Aborts the context's work in every engine and leaves the context Active and empty. -/
  | ctxReset (q : QRef)
  /-- R128. An engine finishes aborting and scrubbing the context and acknowledges, and the last acknowledgement completes the reset or destroy. -/
  | engineAck (c : Nat) (e : Engine)
  /-- R129. An engine has not acknowledged after 1 ms, so it is quarantined, reset, and taken as acknowledged. -/
  | engineAckTimeout (c : Nat) (e : Engine)
  /-- R130. The context's HBM and thicket SRAM scrub completes and waiting allocations proceed. -/
  | contextScrubDone (c : Nat)
  /-- R101. Returns a context's state and last fault address. -/
  | ctxQuery (q : QRef)
  /-- R118. Creates a KCP, DMA, launch or mirror queue and zeroes its counter. -/
  | queueCreate (q : QRef)
  /-- R123. Removes a queue and completes entries waiting on it with 0x0403. -/
  | queueDestroy (q : QRef)
  /-- R98. Lets the running command finish, discards every other packet and zeroes the ring indexes. -/
  | queueReset (q : QRef)
  /-- R127. Drops an object's host reference and returns the references that remain. -/
  | objRelease (q : QRef)
  /-- R115. Retries or fails the pending faulting entry of a stalled queue. -/
  | faultResume (q : QRef)
  /-- R124. Allocates a zeroed HBM, thicket SRAM or host memory object. -/
  | memAlloc (q : QRef)
  /-- R127. Drops a memory object's host reference and removes its mappings and windows. -/
  | memFree (q : QRef)
  /-- R110. Maps part of a memory object at a DVA with given rights. -/
  | memMap (q : QRef)
  /-- R111. Removes mappings in a range once every engine has dropped the cached translations. -/
  | memUnmap (q : QRef)
  /-- R125. Exposes part of a memory object, or a program's roosts, to remote peers. -/
  | winOpen (q : QRef)
  /-- R126. Revokes a window so that no later packet using its key is placed. -/
  | winRevoke (q : QRef)
  /-- R119. Copies bytes between DVAs on Dunnock's DMA engine. -/
  | memCopy (q : QRef)
  /-- R119. Fills a range with a 64-bit pattern on Dunnock's DMA engine. -/
  | memFill (q : QRef)
  /-- R119. A DMA descriptor copies bytes from source to destination. -/
  | dmaCopy (q : Nat)
  /-- R119. A DMA descriptor fills the destination with the pattern. -/
  | dmaFill (q : Nat)
  /-- R119. A marker descriptor touches no memory and completes OK. -/
  | dmaMarker (q : Nat)
  /-- R156. Checks a key blob and loads it into the lowest empty slot. -/
  | keyLoad (q : QRef)
  /-- R161. Ends a slot's use and empties it once its material is scrubbed. -/
  | keyEvict (q : QRef)
  /-- R158. Derives a child key from a parent slot in the Stable or Measured domain. -/
  | keyDerive (q : QRef)
  /-- R157. Exports an EXPORTABLE slot as a blob under a wrapping slot. -/
  | keyWrap (q : QRef)
  /-- R159. Stages a higher version of a live key in its slot. -/
  | keyStage (q : QRef)
  /-- R160. Switches a slot to its staged key, or abandons the staged key. -/
  | keyCommit (q : QRef)
  /-- R160. The last engine releases the old key, which is scrubbed, and the slot returns to Live. -/
  | keyOldReleased (slot : Nat)
  /-- R163. Checks a signed update message and applies new floors, counter and authority. -/
  | keyUpdate (q : QRef)
  /-- R155. Returns a slot's attribute bitmap and state. -/
  | keyQuery (q : QRef)
  /-- R149. Returns a dual-signed platform report with the requester nonce. -/
  | reportPlatform (q : QRef)
  /-- R150. Returns a dual-signed context report. -/
  | reportContext (q : QRef)
  /-- R71. Returns entries of the measurement log. -/
  | measLogRead (q : QRef)
  /-- R76. Returns the identity chain or the alias certificate. -/
  | certRead (q : QRef)
  /-- R181. Checks a .jkp image and writes it into the thickets of the mask. -/
  | progLoad (q : QRef)
  /-- R127. Drops a program's host reference. -/
  | progUnload (q : QRef)
  /-- R185. Launches a run of a program from command parameters. -/
  | progRun (q : QRef)
  /-- R185. A launch descriptor queues a run of a program on a thicket set. -/
  | launch (q : Nat)
  /-- R185. A marker launch descriptor completes without a run. -/
  | launchMarker (q : Nat)
  /-- R185. A queued run's Wrens become free and its wait is met, so the argument block is copied and the run starts. -/
  | runStart (r : Nat)
  /-- R189. A run has been blocked only in SEMWAIT, BAR or RSV with no retirement for 10 ms and becomes stalled. -/
  | runStalled (r : Nat)
  /-- R190. Each millisecond Robin examines stalled runs and faults the youngest of a wholly stalled set with 0x0708. -/
  | stallExamination
  /-- R324. Checks a weight package and its plan and places the segments under Strict or Spill. -/
  | modelLoad (q : QRef)
  /-- R329. Drops a model and scrubs its regions, spilled ranges and decryptor keys. -/
  | modelUnload (q : QRef)
  /-- R326. Returns a model's residency mode and its spilled bytes per chip. -/
  | modelQuery (q : QRef)
  /-- R297. Creates a Masked or Sealed round on the slice manager after checking the parameter block. -/
  | roundCreate (q : QRef)
  /-- R299. Makes the chip a worker of a round and distributes k_round to it. -/
  | roundJoin (q : QRef)
  /-- R300. Freezes the worker list, the listeners and the guard history, and starts the round at the start beat. -/
  | roundStart (q : QRef)
  /-- R322. Ends a round as Aborted and scrubs its state. -/
  | roundAbort (q : QRef)
  /-- R301. Returns a round's phase, survivors and dropouts. -/
  | roundStatus (q : QRef)
  /-- R320. Writes the announcement, the publication or the failure header to a DVA. -/
  | roundResult (q : QRef)
  /-- R315. Sets the tenant floor k_min for rounds created later. -/
  | setFloor (q : QRef)
  /-- R230. Creates a session listener with a fresh key pair on an Ethernet port. -/
  | sessionListen (q : QRef)
  /-- R230. Closes a listener and erases its keys. -/
  | listenClose (q : QRef)
  /-- R235. Returns a session's state. -/
  | sessionQuery (q : QRef)
  /-- R235. Frees a session and advances its generation. -/
  | sessionEvict (q : QRef)
  /-- R237. Creates a queue pair in Init on a Linnet engine. -/
  | qpCreate (q : QRef)
  /-- R240. Moves a queue pair to Connecting, Error or Init. -/
  | qpModify (q : QRef)
  /-- R251. Removes a queue pair and sends TERMINATE. -/
  | qpDestroy (q : QRef)
  /-- R252. Sets an Ethernet port's flap hold and IPv6 address. -/
  | portConfig (q : QRef)
  /-- R250. Sets congestion parameters of a queue pair or the engine default. -/
  | ccConfig (q : QRef)
  /-- R287. Returns the chip's fabric roles and trained ports. -/
  | fabricStatus (q : QRef)
  /-- R293. The fabric manager creates a slice of whole boards or racks for one partition. -/
  | sliceCreate (q : QRef)
  /-- R293. The fabric manager destroys a slice with no live context. -/
  | sliceDestroy (q : QRef)
  /-- R264. Sets a Siskin port's flap hold and Roost enable. -/
  | linkConfig (q : QRef)
  /-- R263. Clears the Quarantine of Siskin receive lanes. -/
  | laneRelease (q : QRef)
  /-- R292. Yields every manager role and moves the chip's sessions away before removal. -/
  | fabricDrain (q : QRef)
  /-- R334. Checks and loads a grammar or normalization table into table memory. -/
  | wblTableLoad (q : QRef)
  /-- R334. Drops a Warbler table's host reference. -/
  | wblTableUnload (q : QRef)
  /-- R338. Opens a Warbler stream with a grammar, normalization chain and limits. -/
  | wblStreamOpen (q : QRef)
  /-- R338. Frees a stream and scrubs its stack and mask. -/
  | wblStreamClose (q : QRef)
  /-- R335. Normalizes input text through the stream's chain and truncates it to L_in. -/
  | wblNormalize (q : QRef)
  /-- R36. Returns fabric time, the Lark state and the last offset. -/
  | timeRead (q : QRef)
  /-- R29. Sets the Lark source, PTP port, holdover enable and slew limit. -/
  | timeConfig (q : QRef)
  /-- R34. Arms a free beat generator at exponent k for the context. -/
  | beatArm (q : QRef)
  /-- R34. Disarms a beat generator owned by the context. -/
  | beatDisarm (q : QRef)
  /-- R349. Sets the wall offset and records a discontinuity if wall time moved back. -/
  | wallOffsetSet (q : QRef)
  /-- R351. Closes the open billing period at a wall time, at once or as a pending close. -/
  | periodClose (q : QRef)
  /-- R351. A pending close reaches its fabric time and the next period opens on that edge. -/
  | periodCloseTakesEffect
  /-- R350. Returns the meter records of a period. -/
  | meterRead (q : QRef)
  /-- R347. Returns event log entries from a sequence, together with the lost count. -/
  | eventLogRead (q : QRef)
  /-- R381. Selects the event that a block's counter slot counts. -/
  | counterSelect (q : QRef)
  /-- R27. Freezes all counter slots and fabric time as a write to LRK_SNAP does. -/
  | snapshot (q : QRef)
  /-- R352. Returns a unit's data-path and Robin states. -/
  | unitStatus (q : QRef)
  /-- R354. Resets a quarantined unit and starts its health check. -/
  | unitRelease (q : QRef)
  /-- R354. The 100 ms health check window ends and the unit leaves Quarantine or returns to it. -/
  | unitReleaseCheck (unit : BitVec 16) (dataPath robin : Nat)
  /-- R352. The two paths have disagreed on a unit for 100 ms, so the unit is quarantined with event 0x0C02. -/
  | unitDisagreement (unit : BitVec 16) (dataPath robin : Nat)
  /-- R85. Returns a copy of the parameters in the result buffer. -/
  | echo (q : QRef)
  /-- R104. A KCP packet over MCTP runs on the management pseudo-queue as context 0. -/
  | mctpKcp (pkt : List Byte)
  /-- R103. A PLDM Type 0 request is answered with base discovery data. -/
  | pldmBaseDiscovery
  /-- R103. A PLDM Type 2 request reads a numeric or state sensor. -/
  | pldmSensorRead (sensor : PldmSensor)
  /-- R105. A PLDM Type 5 firmware update writes the inactive slot unless another update is running. -/
  | pldmFwUpdate (ph : FwPhase)
  /-- R103. The SPDM responder answers GET_VERSION. -/
  | getVersion
  /-- R103. The SPDM responder answers GET_CAPABILITIES. -/
  | getCapabilities
  /-- R103. The SPDM responder answers NEGOTIATE_ALGORITHMS. -/
  | negotiateAlgorithms
  /-- R103. The SPDM responder returns certificate digests. -/
  | getDigests
  /-- R103. The SPDM responder returns the certificate chain. -/
  | getCertificate (offset len : Nat)
  /-- R103. The SPDM responder signs a challenge with the alias key. -/
  | challenge (nonce : List Byte)
  /-- R103. The SPDM responder returns accumulators or, at index 0xF0, the platform report. -/
  | getMeasurements (index : Nat) (nonce : List Byte)
  /-- R144. A 1 µs slot of a time-shared unit begins and steps of its partition that fit are started. -/
  | timeShareSlot (unit : TimeShared)
  /-- R147. The partition scrub completes, the owner binding is cleared and the partition is Vacant. -/
  | partitionScrubDone (p : Nat)
  /-- R174. The Wren control NOP retires without effect. -/
  | wrenNop (w : Nat)
  /-- R187. A Wren ends its part of the run and its open groups close. -/
  | endRun (w : Nat)
  /-- R174. Jumps to TARGET. -/
  | br (w : Nat)
  /-- R174. Runs the loop body SR[CNT] times. -/
  | loop (w : Nat)
  /-- R174. Scalar add. -/
  | add (w : Nat)
  /-- R174. Scalar subtract. -/
  | sub (w : Nat)
  /-- R174. Scalar AND. -/
  | and (w : Nat)
  /-- R174. Scalar OR. -/
  | or (w : Nat)
  /-- R174. Scalar XOR. -/
  | xor (w : Nat)
  /-- R174. Scalar shift left. -/
  | shl (w : Nat)
  /-- R174. Scalar shift right. -/
  | shr (w : Nat)
  /-- R174. Scalar multiply, low 64 bits. -/
  | mul (w : Nat)
  /-- R174. Scalar compare for equality. -/
  | cmpeq (w : Nat)
  /-- R174. Scalar unsigned less-than. -/
  | cmpltu (w : Nat)
  /-- R174. Scalar signed less-than. -/
  | cmplts (w : Nat)
  /-- R174. Scalar move. -/
  | mov (w : Nat)
  /-- R186. Reads an argument word, or zero beyond ARGLEN. -/
  | rdarg (w : Nat)
  /-- R174. Reads fabric time into a register. -/
  | rdtime (w : Nat)
  /-- R171. Block copy between working area, thicket SRAM and DVAs by MODE. -/
  | move (w : Nat)
  /-- R180. Copies bytes to the same Wren of the partner run on another board slot. -/
  | peer (w : Nat)
  /-- R119. Fills local or thicket bytes with a 64-bit pattern. -/
  | fill (w : Nat)
  /-- R175. An asynchronous MOVE, FILL, PEER or ENG operation completes and the waits on it release. -/
  | wrenAsyncComplete (w i : Nat)
  /-- R180. All bytes of a PEER are placed at the partner and its arrival counter increments. -/
  | peerPlaced (w : Nat) (tag : Nat)
  /-- R180. PEER finds no partner run for 100 µs and the run faults with 0x0801. -/
  | peerTimeout (w : Nat)
  /-- R173. Fills the shadow weight tile from the working area or model residency. -/
  | wld (w : Nat)
  /-- R173. Exchanges the active and shadow weight tiles once earlier WLDs and MMAs are done. -/
  | wswap (w : Nat)
  /-- R172. Streams activation rows through the systolic array and adds column sums into roost tiles. -/
  | mma (w : Nat)
  /-- R194. Adds source rows into roost tiles as terms. -/
  | vadd (w : Nat)
  /-- R199. Opens a group and sets its tiles to the source rows. -/
  | preload (w : Nat)
  /-- R197. Writes tile values to the working area in OUTFMT. -/
  | tread (w : Nat)
  /-- R198. Stores raw rows into tiles and sets their TSWs. -/
  | twrite (w : Nat)
  /-- R209. Writes the positions of the k largest elements. -/
  | topk (w : Nat)
  /-- R210. Writes the position and value of the largest element. -/
  | maxi (w : Nat)
  /-- R210. Writes the position and value of the smallest element. -/
  | mini (w : Nat)
  /-- R212. Adds raw partial rows into tiles as one node of the combining tree. -/
  | combine (w : Nat)
  /-- R215. Thrush modular add. -/
  | madd (w : Nat)
  /-- R215. Thrush modular subtract. -/
  | msub (w : Nat)
  /-- R215. Thrush elementwise modular multiply. -/
  | mmul (w : Nat)
  /-- R215. Thrush modular multiply-accumulate. -/
  | mmac (w : Nat)
  /-- R215. Thrush multiply by a scalar. -/
  | mscal (w : Nat)
  /-- R216. Forward negacyclic transform of each limb. -/
  | ntt (w : Nat)
  /-- R216. Inverse transform with the 1/N factor. -/
  | intt (w : Nat)
  /-- R216. Adds a plaintext lifted by Δ. -/
  | plift (w : Nat)
  /-- R216. Writes uniform values from the Thrush DRBG. -/
  | sample (w : Nat)
  /-- R216. Drops top limbs with rounding. -/
  | modsw (w : Nat)
  /-- R217. Collective key switch of a batch against one streamed key pass. -/
  | ksw (w : Nat)
  /-- R216. Extracts coefficients of a one-limb ciphertext as LWE records. -/
  | extract (w : Nat)
  /-- R219. Partial decryption with a key share and smudging noise. -/
  | pdec (w : Nat)
  /-- R176. Waits for a semaphore to reach a value and then subtracts it atomically. -/
  | semwait (w : Nat)
  /-- R176. Adds to a semaphore, saturating, after a FENCE. -/
  | semsig (w : Nat)
  /-- R177. Barrier that releases once every Wren of the run that has not ended has arrived. -/
  | bar (w : Nat)
  /-- R178. Waits for a queue's completion counter to reach a value. -/
  | cwait (w : Nat)
  /-- R178. Waits for the next firing of a beat generator. -/
  | bwait (w : Nat)
  /-- R178. Waits for an arrival counter to reach a value and then subtracts it. -/
  | arrwait (w : Nat)
  /-- R178. An event wait's LIMIT in µs passes and SR[DST] is set to 1. -/
  | eventWaitTimeout (w : Nat)
  /-- R179. Reserves a Chaffinch or Goldcrest instance once no other run holds it. -/
  | rsv (w : Nat)
  /-- R179. Releases a reservation. -/
  | rls (w : Nat)
  /-- R175. Waits until every earlier asynchronous instruction of the Wren has completed. -/
  | fence (w : Nat)
  /-- R179. Submits a descriptor to a reserved Chaffinch instance. -/
  | eng (w : Nat)
  /-- R342. Writes 258 logits with every masked-out entry set to −Inf. -/
  | mask (w : Nat)
  /-- R221. Goldcrest AND gate with one refresh. -/
  | gateAnd (w : Nat)
  /-- R221. Goldcrest OR gate. -/
  | gateOr (w : Nat)
  /-- R221. Goldcrest NAND gate. -/
  | gateNand (w : Nat)
  /-- R221. Goldcrest NOR gate. -/
  | gateNor (w : Nat)
  /-- R221. Goldcrest XOR gate. -/
  | gateXor (w : Nat)
  /-- R221. Goldcrest XNOR gate. -/
  | gateXnor (w : Nat)
  /-- R221. Goldcrest gate ¬A ∧ B. -/
  | andny (w : Nat)
  /-- R221. Goldcrest gate ¬A ∨ B. -/
  | orny (w : Nat)
  /-- R221. Goldcrest MUX with two refreshes. -/
  | gateMux (w : Nat)
  /-- R221. Goldcrest linear NOT with no refresh. -/
  | gateNot (w : Nat)
  /-- R221. Goldcrest linear COPY with no refresh. -/
  | gateCopy (w : Nat)
  /-- R222. Switches ring records to w Goldcrest bits. -/
  | switchBits (w : Nat)
  /-- R339. A byte submitted to a stream is checked against the mask and advances the grammar configuration. -/
  | wblByte (w : Nat)
  /-- R339. END submitted in an accepting configuration completes the notice. -/
  | wblEnd (w : Nat)
  /-- R339. PAD submitted to a Done stream changes nothing. -/
  | wblPad (w : Nat)
  /-- R339. RESTART returns the stream to the start configuration with e := 0. -/
  | wblRestart (w : Nat)
  /-- R213. Starling ingress adds an arriving row into a tile as an ungrouped sequential add. -/
  | ingressRowAdd (w tile : Nat) (fmt : AccFmt) (row : List Byte)
  /-- R252. An Ethernet port loses its link, its engine holds frames and its queue pairs enter Held. -/
  | ethLinkDown (e : Nat)
  /-- R252. The link returns within the hold and frames resume with their original PSNs. -/
  | ethLinkUp (e : Nat)
  /-- R252. The flap hold expires and every queue pair of the engine enters Error with 0x0702. -/
  | ethHoldExpiry (e : Nat)
  /-- R226. The port answers an ICMPv6 Echo for its own address. -/
  | icmpv6Echo (e : Nat) (src dst : BitVec 128) (body : List Byte)
  /-- R226. The port answers a Neighbour Solicitation for its own address. -/
  | neighbourSolicitation (e : Nat) (src target : BitVec 128)
  /-- R226. A Router Advertisement sets the default router for off-link destinations. -/
  | routerAdvertisement (e : Nat) (router : BitVec 128)
  /-- R231. A contributor handshake is checked, a session is opened with derived keys and S_READY is sent. -/
  | sHello (p : LntPkt)
  /-- R233. Session data is authenticated, PSN-checked, acknowledged and delivered in order. -/
  | sData (p : LntPkt)
  /-- R235. An authenticated close from the contributor moves the session to Closed. -/
  | sClose (p : LntPkt)
  /-- R235. No accepted packet for LNT_SESS_CFG.IDLE seconds closes the session. -/
  | sessionIdleTimeout (i : Nat)
  /-- R236. A spilled session state arrives from the store and packets waiting in the miss buffer proceed. -/
  | coldSessionFetch (i : Nat)
  /-- R242. A posted WRITE descriptor sends its message. -/
  | postWrite (f : Fn) (qp : Nat) (d : List Byte)
  /-- R244. A posted WRITE_IMM descriptor sends its message with notification. -/
  | postWriteImm (f : Fn) (qp : Nat) (d : List Byte)
  /-- R242. A posted READ descriptor requests remote data. -/
  | postRead (f : Fn) (qp : Nat) (d : List Byte)
  /-- R242. A posted FLUSH asks the target to confirm placement of every earlier message. -/
  | postFlush (f : Fn) (qp : Nat) (d : List Byte)
  /-- R247. A posted ACC_WRITE sends rows to accumulate at the target. -/
  | postAccWrite (f : Fn) (qp : Nat) (d : List Byte)
  /-- R243. A received WRITE packet is window-checked and placed in PSN order. -/
  | rxWrite (p : LntPkt)
  /-- R244. A received WRITE_IMM places data and writes a receive record. -/
  | writeImm (p : LntPkt)
  /-- R243. A read request is window-checked and answered with READ_RESP packets. -/
  | readReq (p : LntPkt)
  /-- R242. Read response data is placed locally and the READ completes once all of it is placed. -/
  | readResp (p : LntPkt)
  /-- R243. A received FLUSH is answered once every earlier message is placed. -/
  | flush (p : LntPkt)
  /-- R247. Received rows are added atomically into tiles or memory rows. -/
  | accWrite (p : LntPkt)
  /-- R250. A cumulative acknowledgement frees sent packets and updates the congestion window. -/
  | ack (p : LntPkt)
  /-- R229. The sender retransmits from APSN. -/
  | nakSequence (p : LntPkt)
  /-- R251. The sender completes with 0x0204 and the queue pairs at both ends enter Error. -/
  | nakAccess (p : LntPkt)
  /-- R249. The sender resets its retry count and waits. -/
  | nakStalled (p : LntPkt)
  /-- R244. The sender sends again after 100 µs. -/
  | nakReceiveFull (p : LntPkt)
  /-- R247. The sender completes with 0x0401 and the queue pair enters Error. -/
  | nakGroup (p : LntPkt)
  /-- R251. An uncorrectable memory error at the target ends the queue pair with 0x0C03. -/
  | nakMemoryError (p : LntPkt)
  /-- R249. The sender stops at the faulting PSN and resends after a growing backoff. -/
  | notReady (p : LntPkt)
  /-- R249. The NOT_READY backoff expires and the sender resends, or ends the queue pair after 1 s. -/
  | notReadyResend (qp : Nat)
  /-- R249. Every 1 ms a target in stall sends NAK STALLED. -/
  | stallNakTimer (qp : Nat)
  /-- R250. RTO expires and the PSN is retransmitted, or the queue pair enters Error after RETRY tries. -/
  | retransmitTimeout (qp : Nat)
  /-- R244. 100 µs after RECEIVE_FULL the sender sends the message again. -/
  | receiveFullResend (qp : Nat)
  /-- R240. A CONNECT binds provisionally to a matching queue pair and is answered with ACCEPT or REJECT. -/
  | connect (p : LntPkt)
  /-- R240. A Connecting queue pair resends CONNECT every 1 ms, and enters Error after 100 ms. -/
  | connectRetry (qp : Nat)
  /-- R240. The initiator verifies ACCEPT, sends CONFIRM and becomes Connected. -/
  | accept (p : LntPkt)
  /-- R240. The responder verifies CONFIRM and becomes Connected. -/
  | confirm (p : LntPkt)
  /-- R240. A provisional binding with no valid CONFIRM within 1 ms is dropped. -/
  | provisionalBindTimeout (qp : Nat)
  /-- R240. A REJECT answers a CONNECT that no queue pair accepted. -/
  | reject (p : LntPkt)
  /-- R251. A verified TERMINATE moves the queue pair to Error with the carried status. -/
  | terminate (p : LntPkt)
  /-- R238. A 32-byte read returns and removes the next status record of a queue pair. -/
  | lntQpCqRead (f : Fn) (qp width : Nat)
  /-- R238. A 32-byte read returns and removes the next receive record of a queue pair. -/
  | lntQpRqRead (f : Fn) (qp width : Nat)
  /-- R257. A port detects energy and trains at the largest usable width. -/
  | linkTraining (n : Nat) (r : TrainReport)
  /-- R257. Every 1 s a port with fewer than 4 usable lanes retries detection. -/
  | detectRetry (n : Nat) (r : TrainReport)
  /-- R254. A data frame that decodes, checks and is in sequence is delivered to Quintidy, or it is discarded with NAK. -/
  | dataFrame (n : Nat) (fr : Frame)
  /-- R255. ASEQ has not advanced for 10 µs and the sender resends from its oldest unacknowledged frame. -/
  | replayTimeout (n : Nat)
  /-- R265. A received link-down ordered set takes the expired-hold path at once. -/
  | linkDown (n : Nat)
  /-- R260. The partner's LANE_DROP makes the sender change width at an alignment codeword and resend. -/
  | laneDrop (n lane : Nat)
  /-- R261. Both ends widen at an alignment codeword to re-admit a lane. -/
  | laneAdd (n lane : Nat)
  /-- R261. A dropped lane has read clear for 100 ms and re-adapts for LANE_ADD. -/
  | laneClearReadmit (n lane : Nat)
  /-- R260. A lane loses lock and is dropped. -/
  | laneLockLoss (n lane : Nat)
  /-- R260. A lane's RS symbol-error rate exceeds 10^−3 over 1 ms and it is dropped. -/
  | laneErrorRate (n lane : Nat)
  /-- R262. The DC test trips on a receive lane, raising event 0x0820. -/
  | floodDcTrip (n lane : Nat)
  /-- R262. The 100 or 120 Hz envelope test trips on a receive lane. -/
  | floodEnvelopeTrip (n lane : Nat)
  /-- R263. A flood has persisted 5 s and the lane enters Quarantine with event 0x0C13. -/
  | floodQuarantine (n lane : Nat)
  /-- R264. A port loses its link and holds its replay buffer and queued frames. -/
  | siskinLinkLoss (n : Nat)
  /-- R264. The hold expires, held packets go back to Quintidy and event 0x0823 is raised. -/
  | siskinHoldExpiry (n : Nat)
  /-- R266. A ROOST_REQ starts or answers the Roost handshake and sets the link's k. -/
  | roostReq (n k : Nat)
  /-- R266. After ROOST_ACK both ends darken their transmitters. -/
  | roostAck (n : Nat)
  /-- R266. A port idle for 10 µs with Roost conditions met starts the handshake. -/
  | roostIdle (n : Nat)
  /-- R267. At a multiple of 2^k a roosting end sends a wake burst and checks the partner's. -/
  | roostWake (n : Nat) (seen : Option Int)
  /-- R267. The WAKE exchange returns both ends to ACTIVE or to Roost. -/
  | wake (n : Nat) (partnerActive : Bool) (lane : Nat)
  /-- R268. A frame is queued with DEMAND set, so the wake pattern is sent at once. -/
  | demandWake (n : Nat)
  /-- R268. The wake detector hears the partner's tone, burst or chorus and the link relocks to ACTIVE. -/
  | wakePatternHeard (n : Nat) (offset : Int)
  /-- R269. No burst is seen within the guard, so the end sends the dawn chorus and raises event 0x0824. -/
  | dawnChorus (n : Nat)
  /-- R269. 20 ms of chorus go unanswered and the link is lost. -/
  | chorusTimeout (n : Nat)
  /-- R256. A STATUS control message every 1 ms carries the sender's Lark state. -/
  | status (n : Nat) (lark : BitVec 2)
  /-- R276. Returned credits let the sender forward waiting packets. -/
  | creditReturn (n cls vc reserve shared : Nat)
  /-- R277. A transit chip chooses the next hop by stage and enforces the fence. -/
  | qtdForward (p : QtdPkt)
  /-- R227. A Linnet payload arriving on the fabric is handed to engine 4. -/
  | qtdLinnet (p : QtdPkt)
  /-- R357. A fabric write is placed at its offset within the reach of Table 19.2. -/
  | memWr (p : QtdPkt)
  /-- R275. A fabric read request is answered with MEM_RD_RESP. -/
  | memRdReq (p : QtdPkt)
  /-- R275. Read response data is placed in the space reserved for it. -/
  | memRdResp (p : QtdPkt)
  /-- R213. A fabric ACC packet adds rows into tiles. -/
  | acc (p : QtdPkt)
  /-- R180. A PEER packet is placed into the partner Wren's working area. -/
  | qtdPeer (p : QtdPkt)
  /-- R299. Encrypted resident-firmware round traffic is delivered to Robin. -/
  | fw (p : QtdPkt)
  /-- R282. A NOTICE reports a discarded packet to its source. -/
  | notice (p : QtdPkt)
  /-- R295. A TIME_SYNC exchange measures the offset from the manager and steps, slews or stays UNSYNC. -/
  | timeSync (m : TimeSyncMsg)
  /-- R296. Once a second a chip measures its skew to its manager. -/
  | timeSyncPeriod (m : TimeSyncMsg)
  /-- R290. A running chip answers a boot request with its image. -/
  | boot (n : Nat)
  /-- R283. A chip reports its ports to the rack manager, which installs routes. -/
  | joinReport (r : JoinReport)
  /-- R283. A rack manager receives a link change and recomputes its rack's route tables. -/
  | linkStateAdvertisement (a : LinkAdv)
  /-- R284. A received beacon resets the claim wait, or a weaker manager yields. -/
  | beacon (lvl : Level) (b : Bid)
  /-- R284. Every 10 ms a manager sends a beacon. -/
  | beaconSend (lvl : Level)
  /-- R284. 50 ms pass with no beacon or stronger claim and the chip claims the role. -/
  | claimWaitExpiry (lvl : Level)
  /-- R285. A received claim is compared, and a weaker claimant loses silently or restarts its wait. -/
  | claim (lvl : Level) (b : Bid)
  /-- R285. 200 µs after an unchallenged claim the chip takes the manager role. -/
  | claimWindowEnd (lvl : Level)
  /-- R289. 5 consecutive beacons are missed and the chip claims again. -/
  | managerLoss (lvl : Level)
  /-- R303. An ENROL message is admitted by its admission tag up to the limit. -/
  | enrol (sess : Nat) (m : RoundMsg)
  /-- R305. Share ciphertexts are relayed unread and the contributor enters A. -/
  | shares (sess : Nat) (m : RoundMsg)
  /-- R307. A vector chunk is staged at the owning worker. -/
  | vector (sess : Nat) (m : RoundMsg)
  /-- R307. A complete vector is committed and added into the owners' tiles. -/
  | commit (sess : Nat) (m : RoundMsg)
  /-- R309. Share responses reach the owner, which reconstructs and checks seeds. -/
  | response (sess : Nat) (m : RoundMsg)
  /-- R313. A norm declaration is checked against B for admission to A. -/
  | norm (sess : Nat) (m : RoundMsg)
  /-- R312. A committee member's partial decryption of the round sum arrives. -/
  | partialDecryption (rnd member : Nat) (data : List Byte)
  /-- R301. A phase window ends, or closes early, and the job manager announces the next phase. -/
  | roundPhaseEnd (rnd : Nat)
  /-- R310. Workers subtract the regenerated masks, or the Sealed sum is decoded, and the gate runs. -/
  | unmask (rnd : Nat)
  /-- R319. The job manager writes and signs the publication and the guard records move. -/
  | publish (rnd : Nat)
  /-- R321. A lost worker's uncommitted contributors drop and the round continues or fails with 0x0805. -/
  | workerLost (rnd chip : Nat)
  /-- R112. A write to the host pool length is ignored with event 0x0411 while host-kind objects exist. -/
  | dnkHpoolLenWrite (v : BitVec 64)
  /-- R40. A write sets the requested point, checked under R362. -/
  | pwrPtReqWrite (v : BitVec 32)
  /-- R41. A write sets the power cap, checked under R362. -/
  | pwrCapWrite (v : BitVec 32)
  /-- R55. A write sets WARN, THROTTLE and PH_OUT, checked under R362. -/
  | pwrThermCfgWrite (v : BitVec 32)
  /-- R361. A read of an RC register returns its value and subtracts that value in one step. -/
  | rcRead (f : Fn) (off width : Nat)
  /-- R360. A 32-bit low-half read of a 64-bit register latches the high half for that function. -/
  | halfReadLatch (f : Fn) (off : Nat)
  /-- R362. A write to any other register stores it, or is discarded whole with event 0x0109 if a field is out of range. -/
  | registerWrite (f : Fn) (off width : Nat) (v : BitVec 64)
  /-- R63. PERST_N returns high after a warm reset whose scrub has already completed, and the boot ROM then reruns. -/
  | perstNRelease
  /-- R40. The carrier releases PROCHOT_N, the carrier ceiling is removed and event 0x0C0E is raised. -/
  | prochotHigh
  /-- R112. An ATS invalidation request from the host makes Dunnock drop its cached translations of host bus addresses. -/
  | atsInvalidation (addr len : Nat)
  /-- R66. In fabric-manager boot, the image from the first running KL-5 that answers arrives, is checked under R69, and the boot link ports are darkened again. -/
  | fabricBootImage (img : List Byte)
  /-- R256. A Siskin control message that needs an answer is sent again every 1 µs until the answer arrives. -/
  | controlMessageRepeat (n : Nat)
  deriving DecidableEq, Repr

end Sys2Proof
end

