-- ==== Sys2Proof/Decode.lean ====
section
/-! DEFINITION. The decoder of the block's commands. No row of the operation table gives bits, so no word spells a command. -/

namespace Sys2Proof

/-- The command that a word of `nbits` bits spells: none, since the table gives no row any bits. -/
def decodeTableWord (_nbits _w : Nat) : Option Instr := none

end Sys2Proof
end

