-- ==== Sys2Proof/Config.lean ====
section
/-! DEFINITION. What the model leaves uninterpreted: the published cryptographic standards the manual calls by name, the tables the manual does not print, and the free values it leaves open. No constant here has a body, so no proof can use a value of one. -/

namespace Sys2Proof.Config

/-- Free value number `n` (a Nat): a value the manual leaves open. State.free numbers them (log 2). -/
opaque freeNat : Nat → Nat

/-- Byte `i` of free value number `n`: output of a random generator (08 R157) or an open value (log 2). -/
opaque freeByte : Nat → Nat → Byte

/-- Byte `i` of SHA-384 of a message (log 6). -/
opaque sha384Byte : List Byte → Nat → Byte

/-- Byte `i` of HMAC-SHA-384 under a key of a message (log 6). -/
opaque hmacByte : List Byte → List Byte → Nat → Byte

/-- Byte `i` of the AES-256 encryption under a key of one block (log 6). -/
opaque aesByte : List Byte → List Byte → Nat → Byte

/-- Byte `i` of the AES-256-GCM tag: key, nonce, associated data, ciphertext (log 6). -/
opaque gcmTagByte : List Byte → List Byte → List Byte → List Byte → Nat → Byte

/-- Byte `i` of X25519 of a scalar and a u-coordinate, RFC 7748 (log 6). -/
opaque x25519Byte : List Byte → List Byte → Nat → Byte

/-- Byte `i` of the ML-KEM-768 encapsulation key made from a decapsulation seed (log 6). -/
opaque mlkemEkByte : List Byte → Nat → Byte

/-- Byte `i` of the ML-KEM-768 ciphertext for an encapsulation key and a random message (log 6). -/
opaque mlkemCtByte : List Byte → List Byte → Nat → Byte

/-- Byte `i` of the ML-KEM-768 shared secret the sender obtains (log 6). -/
opaque mlkemSendByte : List Byte → List Byte → Nat → Byte

/-- Byte `i` of the ML-KEM-768 shared secret the receiver obtains from its seed and a ciphertext (log 6). -/
opaque mlkemRecvByte : List Byte → List Byte → Nat → Byte

/-- FIPS 203 checks of an ML-KEM-768 encapsulation key (log 6). -/
opaque mlkemEkOk : List Byte → Bool

/-- Byte `i` of the ML-DSA-65 public key of a seed (log 6). -/
opaque mldsaPkByte : List Byte → Nat → Byte

/-- Byte `i` of the ML-DSA-65 signature under a seed of a message (log 6). -/
opaque mldsaSigByte : List Byte → List Byte → Nat → Byte

/-- Whether an ML-DSA-65 signature verifies: public key, message, signature (log 6). -/
opaque mldsaOk : List Byte → List Byte → List Byte → Bool

/-- Byte `i` of the ECDSA P-384 public key of a seed (log 6). -/
opaque p384PkByte : List Byte → Nat → Byte

/-- Byte `i` of the ECDSA P-384 signature under a seed of a message (log 6). -/
opaque p384SigByte : List Byte → List Byte → Nat → Byte

/-- Whether an ECDSA P-384 signature verifies: public key, message, signature (log 6). -/
opaque p384Ok : List Byte → List Byte → List Byte → Bool

/-- Byte `i` of the SHA-384 of the boot ROM (04 R70; log 19). -/
opaque romDigestByte : Nat → Byte

/-- The event type code of a measurement log entry: accumulator and place in the extend sequence (04 R71; log 19). -/
opaque measType : Nat → Nat

/-- CRC-32C of bytes (log 6). -/
opaque crc32c : List Byte → BitVec 32

/-- The DETAIL of an event whose raising rule states none (log 11). -/
opaque eventDetail : Nat → Nat

/-- The DETAIL of a status for which the spec names nothing that it could carry (log 11). -/
opaque statusDetail : Nat → Nat

/-- The 16-bit PCI Express Requester ID of a function, as the host enumerated it: 0 for the physical function, v for
virtual function v (19 R366; log 22). -/
opaque requesterIdOf : Nat → Nat

/-- The primitive 2N-th root of unity that the transform of limb `l` of parameter set `p` uses (11 R215, Table 11.2; log 36). -/
opaque thrRoot : Nat → Nat → Nat

/-- A key-switched residue: parameter set, key, c1 polynomial, output polynomial, limb and coefficient (11 R217; log 36). -/
opaque kswResidue : Nat → List Byte → List Byte → Nat → Nat → Nat → Nat

/-- Whether the plaintext modulus of a Sealed round's parameter set is 2^48, else 2^32 (11, Terms; 15 R298, R312; log 46). -/
opaque roundWide : Nat → Bool

/-- Word `i` of a refreshed Goldcrest bit: refresh key, the gate's linear input record and i (11 R220, R221; log 37). -/
opaque refreshWord : List Byte → List Byte → Nat → Nat

/-- Word `i` of bit `j` that SWITCH_BITS makes of a ring record: refresh key, ring-to-bit key, bit count, record, j and i (11 R222;
log 37). -/
opaque switchWord : List Byte → List Byte → Nat → List Byte → Nat → Nat → Nat

end Sys2Proof.Config
end

