-- ==== Sys2Proof/Machine/State.lean ====
section
/-! DEFINITION. The state of the KL-5 block as plain data: one structure for each block of the chip, and the whole in State. A table of many like things is a Tab: a list of (number, value) pairs in rising order that lists only the entries that differ from the default. -/

namespace Sys2Proof.Machine

/-- A sparse table by number: strictly rising keys, no entry equal to the table's default. -/
abbrev Tab (α : Type) := List (Nat × α)

/-- No command of the block ends in a fault: what the manual calls a fault is a status, an event or a
queue state, that is, data of State. -/
inductive Fault where
  deriving DecidableEq, Repr

/-- Refusals of the model. -/
inductive Refusal where
  /-- An arm of exec that has no meaning yet answers this with the row's mnemonic. It is safe: the model stops. -/
  | notModelled (mnemonic : String)
  deriving DecidableEq, Repr

/-- Power states (03 R38, Table 3.2). -/
inductive PState where
  | off | standby | idle | run | tripped
  deriving DecidableEq, Repr

/-- The latched straps (03 R59, R60, PWR_STRAP). -/
structure Straps where
  latched : Bool
  fault : Bool
  pos : BitVec 17
  par : Bool
  prio : Bool
  boot : BitVec 2
  pcie : BitVec 2
  deriving DecidableEq, Repr

/-- The low-speed pads the model reads and drives (03 Table 3.12), by level. -/
structure Pins where
  carMatedN : Bool
  modLatchN : Bool
  carPwrEn : Bool
  coldResetN : Bool
  perstN : Bool
  prochotExt : Bool
  prochotDrive : Bool
  thermtripN : Bool
  pwrGood : Bool
  pwrFaultN : Bool
  ppsOut : Bool
  mgmtAlertN : Bool
  deriving DecidableEq, Repr

/-- Power, thermal and pin state (03 Tables 3.14, 3.15; warm-reset progress of 04 R63). Ceilings and points
are 1 to 5; `cause` none is NONE. `phSample` waits for the sample of R53. `target` and `ptFrom` record a state change and a point move in progress. -/
structure Pwr where
  st : PState
  target : Option PState
  req : Option QRef
  curPt : Nat
  settling : Bool
  ceilTherm : Nat
  ceilPower : Nat
  ceilVin : Nat
  ceilCar : Nat
  duty : Bool
  ptReq : Nat
  cap : Nat
  vin : Nat
  pin : Nat
  tj : Int
  hotSensor : Nat
  hbmT : List Int
  warn : Nat
  throttle : Nat
  phOut : Bool
  cause : Option StopCause
  causeHeld : Bool
  straps : Straps
  pins : Pins
  removing : Bool
  coldHeld : Bool
  stackDouble : BitVec 6
  stackLimit : BitVec 6
  warmBusy : Bool
  warmScrubbed : Bool
  warmFromPin : Bool
  phSample : Bool
  deriving DecidableEq, Repr

/-- The fuse bank (04 Table 4.5). `crcOk` says that every field CRC checks; `epochMargin` is the epoch count
at margin sense. -/
structure Fuses where
  part : BitVec 4
  thkMap : BitVec 64
  spare : Tab Nat
  hbmRepair : Tab Nat
  rootDigest : List (List Byte)
  revoked : BitVec 4
  lifecycle : BitVec 8
  epoch : Nat
  epochMargin : Nat
  serial : BitVec 64
  dus : List Byte
  crcOk : Bool
  deriving DecidableEq, Repr

/-- One copy of the flash descriptor (04 Table 4.3). -/
structure DescCopy where
  crcOk : Bool
  seq : Nat
  active : Bool
  deriving DecidableEq, Repr

/-- One copy of the anti-rollback record (04 Table 4.6); `mac` is its 48-byte tag. -/
structure RollCopy where
  magicOk : Bool
  epoch : Nat
  seq : Nat
  floor : Nat
  counter : Nat
  mac : List Byte
  deriving DecidableEq, Repr

/-- One copy of the key policy record (08, Floors and the update authority). -/
structure PolicyCopy where
  authority : List Byte
  counter : Nat
  floors : List (List Byte × Nat)
  mac : List Byte
  deriving DecidableEq, Repr

/-- One guard record: the owner digest, for P and Q the round number, count and list digest, and the MAC (15 R318). -/
structure GuardRec where
  owner : List Byte
  p : Option (Nat × Nat × List Byte)
  q : Option (Nat × Nat × List Byte)
  mac : List Byte
  deriving DecidableEq, Repr

/-- The SPI flash (04 Table 4.3): descriptors, records, certificate store, the two firmware slots, and the
resident-firmware store with the policy copies and guard records. -/
structure Flash where
  desc0 : DescCopy
  desc1 : DescCopy
  roll0 : RollCopy
  roll1 : RollCopy
  certs : List Byte
  slotA : List Byte
  slotB : List Byte
  policy0 : PolicyCopy
  policy1 : PolicyCopy
  guards : List GuardRec
  deriving DecidableEq, Repr

/-- One entry of the measurement log (04 R71). -/
structure MeasEntry where
  acc : Nat
  typ : Nat
  time : Nat
  digest : List Byte
  deriving DecidableEq, Repr

/-- The boot ROM's debug pause (04 R73). -/
structure DebugPause where
  nonce : List Byte
  deriving DecidableEq, Repr

/-- Boot, identity, measurement and debug state (04). The boot ROM may run when `romReady` is set; `pldmUpd` says
that a PLDM firmware update is in progress (05 R105). -/
structure Boot where
  stage : Nat
  step : Nat
  code : Nat
  src : BitVec 2
  slot : Bool
  fallback : Bool
  romReady : Bool
  svn : Nat
  floor : Nat
  updCnt : Nat
  rollSel : Bool
  fuses : Fuses
  debugUnlocked : Bool
  debugScope : BitVec 3
  tokenPrefix : List Byte
  hold : Option DebugPause
  holdUntil : Nat
  deviceId : List Byte
  accs : List (List Byte)
  accClosed : Bool
  measLog : List MeasEntry
  mbxBusy : Bool
  mbxLen : Nat
  mbx : Tab Byte
  flash : Flash
  idPub : List Byte
  aliasPub : List Byte
  aliasSeed : List Byte
  aliasCert : List Byte
  image : List Byte
  fabricStart : Nat
  pldmUpd : Bool
  deriving DecidableEq, Repr

/-- One beat generator (02 R34, Table 2.9). `base` is the fabric time up to which its multiples have fired. -/
structure Beat where
  k : Nat
  en : Bool
  owner : Nat
  cnt : BitVec 32
  base : Nat
  deriving DecidableEq, Repr

/-- The timebase (02 Tables 2.7 to 2.9). `time` counts ns and `frac` parts of 10^-8 ns. `remaining` is the
correction still to slew in units of 10^-8 ns, positive when fabric time is ahead. -/
structure Lark where
  src : BitVec 2
  ptpPort : BitVec 2
  holdoverEn : Bool
  state : BitVec 2
  refLost : Bool
  ppsLost : Bool
  holdPort : BitVec 5
  time : Nat
  frac : Nat
  offset : Int
  slew : Nat
  remaining : Int
  refPresent : Bool
  stepLo : BitVec 32
  snapTime : Nat
  snapSeq : BitVec 32
  beats : Tab Beat
  ptpLost : Bool
  stepWait : Option Nat
  aheadStuck : Bool
  deriving DecidableEq, Repr

/-- One counter slot (02 R26, Table 2.10). `part` holds the events counted towards the next increment, where the event's
table defines one increment as a block of events or bytes; `by_` is the context that selected it (07 R145). -/
structure Slot where
  sel : Nat
  by_ : Nat
  part : Nat
  cnt : Nat
  wrap : Bool
  snap : Nat
  deriving DecidableEq, Repr

/-- Global registers (19 Table 19.4, 02 Table 2.11, 18 Table 18.8 control). -/
structure Glb where
  ccOverrun : BitVec 10
  dark : Bool
  width : Bool
  foreign : Bool
  range : Bool
  evEn : Bool
  evAlert : Bool
  evVec : Nat
  evMark : Nat
  evSince : Nat
  alerts : List (Nat × Nat)
  latches : List (Fn × Nat × BitVec 32)
  deriving DecidableEq, Repr

/-- One event log entry (18 Table 18.3); `ctx` none sets DEVICE. -/
structure Event where
  seq : Nat
  time : Nat
  code : Nat
  ctx : Option Nat
  part : Nat
  unit : Nat
  rep : Nat
  detail : Nat
  deriving DecidableEq, Repr

/-- One group of the event log (18 R346). -/
structure EvGroup where
  entries : List Event
  next : Nat
  lost : Nat
  deriving DecidableEq, Repr

/-- The meters of one partition or of the device in one period (18 Table 18.4). -/
structure Meter where
  wrenNs : Nat
  hbmMibMs : Nat
  lntRx : Nat
  lntTx : Nat
  pcie : Nat
  sessions : Nat
  rounds : Nat
  refreshes : Nat
  wblBytes : Nat
  energy : Nat
  deriving DecidableEq, Repr

/-- One billing period (18 R350, R351). -/
structure Period where
  num : Nat
  late : Bool
  discont : Nat
  openAt : Nat
  closeAt : Nat
  wallEnd : Int
  offset : Int
  discTime : Nat
  discBefore : Int
  discAfter : Int
  meters : Tab Meter
  deriving DecidableEq, Repr

/-- Metering state: the open period, the last closed ones, the pending close (fabric time and wall time), the
greatest wall end of a closed period, the wall offset, and the part of an edge not yet counted (18). `started` says that period 1 has opened. -/
structure Metering where
  started : Bool
  cur : Period
  closed : List Period
  pend : Option (Nat × Int)
  lastEnd : Option Int
  wall : Int
  wallSet : Bool
  frac : Nat
  nextMs : Nat
  deriving DecidableEq, Repr

/-- Admin-queue registers of the physical function or of one virtual function (05 Table 5.8, 19 Table 19.6). -/
structure Admq where
  en : Bool
  vec : Nat
  s : Nat
  c : Nat
  sq : BitVec 64
  cq : BitVec 64
  cnt : BitVec 64
  q : Nat
  deriving DecidableEq, Repr

/-- One partition (07 Table 7.5, R146). `st`: 0 Vacant, 1 Held, 2 Scrubbing. -/
structure Part where
  st : Nat
  scrubSeq : Nat
  owner : Option (List Byte)
  slice : Nat
  sliceOrigin : Nat
  sliceSpan : Nat
  deriving DecidableEq, Repr

/-- A packet as KCP_FETCH or MCTP_KCP leaves it (05 Table 5.1). `params` are the parameter bytes in the clear, `at_` the
fabric time of its fetch, `slots` the ring slots it took, `fence` the queue positions it waits for (R91), `accepted` that a
sealed packet passed R137, `started` that its command began and completes by a later step, and `kRes` is the result key of the
channel at its fetch (07 R136). -/
structure Packet where
  opcode : Nat
  flags : Nat
  ctx : Nat
  tag : Nat
  plen : Nat
  waitQ : Nat
  waitV : BitVec 32
  timeout : Nat
  rbuf : Nat
  rbufLen : Nat
  params : List Byte
  digest : List Byte
  at_ : Nat
  slots : Nat
  fence : List (Nat × BitVec 32)
  accepted : Bool
  started : Bool
  kRes : List Byte
  deriving DecidableEq, Repr

/-- A status record (05 Table 5.2). -/
structure StatusRec where
  tag : Nat
  status : Nat
  dup : Bool
  sealed : Bool
  phase : Bool
  detail : Nat
  rlen : Nat
  res0 : Nat
  res1 : Nat
  deriving DecidableEq, Repr

/-- One entry of a queue's duplicate window (05 R96), with the sealed result bytes it returned (07 R138). -/
structure DupEntry where
  tag : Nat
  digest : List Byte
  rec_ : StatusRec
  sealedOut : List Byte
  deriving DecidableEq, Repr

/-- Queue states (06 Table 6.7). -/
inductive QState where
  | absent | ready | waiting | running | error | resetting
  deriving DecidableEq, Repr

/-- A pending page fault of a queue (06 R115, Table 6.5). -/
structure QFault where
  cause : Nat
  access : Nat
  dva : Nat
  deriving DecidableEq, Repr

/-- One queue (05 Table 5.8, 06 Tables 6.7 and 6.11). `cur` is the fetched packet of a KCP queue, `desc` the fetched
descriptor of a DMA or launch queue; `edge` the armed wait; `db` the doorbells still uncovered, oldest first; `resetBy` a
reset (0), destroy (1) or disable (2) that waits for the running command, and the command that asked for it. -/
structure Queue where
  st : QState
  typ : Nat
  s : Nat
  c : Nat
  vec : Nat
  sq : Nat
  cq : Nat
  cntAddr : Nat
  cnt : BitVec 32
  fetch : BitVec 32
  prod : BitVec 32
  written : BitVec 32
  released : BitVec 32
  errStatus : Nat
  cur : Option Packet
  desc : Option (List Byte)
  edge : Option (Nat × BitVec 32)
  fault : Option QFault
  dup : List DupEntry
  ctx : Nat
  mirror : Nat
  mirrorRecv : Bool
  db : List (BitVec 32 × Nat)
  resetBy : Option (Nat × Option QRef)
  deriving DecidableEq, Repr

/-- A command that waits for the engines of a context reset or destroy (06 R128). -/
structure ResetWait where
  destroy : Bool
  acks : List Engine
  by_ : Option QRef
  since : Nat
  quar : Option Nat
  deriving DecidableEq, Repr

/-- A mapping of a device-managed table (06 R110): DVA, length, page size, object handle, offset in the object, rights. -/
structure Mapping where
  dva : Nat
  len : Nat
  page : Nat
  obj : Nat
  off : Nat
  r : Bool
  w : Bool
  acc : Bool
  deriving DecidableEq, Repr

/-- The tenant channel of a context (07, The channel): 0 none, 1 Awaiting, 2 Open. -/
structure Channel where
  st : Nat
  gen : Nat
  kCmd : List Byte
  kRes : List Byte
  kDin : List Byte
  kDout : List Byte
  kImp : List Byte
  tagHi : Option Nat
  tags : List Nat
  extHi : Option Nat
  exts : List Nat
  extOut : Nat
  sealedCnt : Nat
  xPriv : List Byte
  xPub : List Byte
  dk : List Byte
  ek : List Byte
  lastOpen : List Byte
  deriving DecidableEq, Repr

/-- One context (06 Table 6.2). `st`: 0 Absent, 1 Active, 2 Resetting, 3 Destroying. -/
structure Ctx where
  st : Nat
  part : Nat
  notReady : Bool
  root : Nat
  creator : Nat
  fn : Fn
  order : Nat
  lastFault : Nat
  maps : List Mapping
  chan : Channel
  wait : Option ResetWait
  deriving DecidableEq, Repr

/-- Kinds of memory object (05 Table 5.5, MEM_ALLOC w1). -/
inductive MemKind where
  | hbm | thk | host
  deriving DecidableEq, Repr

/-- A loaded program (09 Table 9.9, R181). `static_` gives the offset of the static allocation on each thicket. -/
structure Prog where
  mask : BitVec 64
  secret : Bool
  board : Bool
  roost : Nat
  wsize : Nat
  staticLen : Nat
  static_ : List (Nat × Nat)
  minT : Nat
  maxT : Nat
  engines : Nat
  code : List W128
  deriving DecidableEq, Repr

/-- One segment of a loaded model on this chip (16 Table 16.2): its index, the Wren, its region offset, and the base
of its ciphertext in HBM when it is spilled. -/
structure Seg where
  idx : Nat
  wren : Nat
  off : Nat
  len : Nat
  spill : Option Nat
  entry : List Byte
  deriving DecidableEq, Repr

/-- A loaded model (16 Tables 16.1, 16.2); `board` is SLOTS = 8. -/
structure Model where
  mask : BitVec 64
  board : Bool
  spillMode : Bool
  reserve : Nat
  wplan : Nat
  window : Nat
  segs : List Seg
  key : List Byte
  nonce : List Byte
  spilled : Nat
  deriving DecidableEq, Repr

/-- What an object is. -/
inductive ObjKind where
  | mem (k : MemKind) (base size page : Nat)
  | prog (p : Prog)
  | model (m : Model)
  deriving DecidableEq, Repr

/-- A memory object, program or model (06 R106, R127). `refs` counts device references other than mappings and windows. -/
structure Obj where
  idx : Nat
  gen : Nat
  ctx : Nat
  host : Bool
  refs : Nat
  sha : List Byte
  kind : ObjKind
  deriving DecidableEq, Repr

/-- A remote window (06 R125, R126). `live` false keeps the revoke time for the reuse rule. -/
structure Win where
  gen : Nat
  live : Bool
  obj : Nat
  off : Nat
  len : Nat
  r : Bool
  w : Bool
  acc : Bool
  peers : Nat
  ctx : Nat
  revokedAt : Nat
  deriving DecidableEq, Repr

/-- Storage that is being scrubbed: base offset, length, partition and the context it came from (06 R127, R130). -/
structure Scrub where
  base : Nat
  len : Nat
  ctx : Nat
  deriving DecidableEq, Repr

/-- Dunnock and the host objects (05, 06, 07). -/
structure HostSt where
  admq : Admq
  vfAdmq : Tab Admq
  vfEnable : Bool
  vfNum : Nat
  hpoolBase : BitVec 64
  hpoolLen : BitVec 64
  confidential : Bool
  shared : Bool
  parts : Nat
  part : Tab Part
  authFail : BitVec 32
  replayCnt : BitVec 32
  ats : List (Nat × Nat)
  ctxs : Tab Ctx
  queues : Tab Queue
  mgmt : Option Packet
  mgmtDup : List DupEntry
  objs : Tab Obj
  objGen : Tab Nat
  wins : Tab Win
  freedQ : List Nat
  scrubs : List Scrub
  nextOrder : Nat
  dbSerial : Nat
  deriving DecidableEq, Repr

/-- One key held in a slot (08 Table 8.3 fields). -/
structure Key where
  attr : BitVec 64
  id : List Byte
  version : Nat
  material : List Byte
  deriving DecidableEq, Repr

/-- One Nuthatch slot (08 Table 8.5): 0 Empty, 1 Live, 2 Staged, 3 Switching, while engine operations that started
earlier hold the old key; `by_` is the KEY_COMMIT that waits for them; `evicted` marks an Empty slot that KEY_EVICT emptied; `bound` marks a
round-bound share slot. -/
structure KSlot where
  st : Nat
  ctx : Nat
  root : Bool
  key : Key
  staged : Option Key
  old : Option Key
  by_ : Option QRef
  evicted : Bool
  bound : Bool
  deriving DecidableEq, Repr

/-- Nuthatch (08). -/
structure Nut where
  rootsReady : Bool
  policyLost : Bool
  stKey : List Byte
  msKey : List Byte
  slots : Tab KSlot
  authority : List Byte
  updCnt : Nat
  floors : List (List Byte × Nat)
  policySel : Bool
  deriving DecidableEq, Repr

/-- A tile status word (10 Table 10.3). -/
structure Tsw where
  empty : Bool
  opn : Bool
  group : Nat
  exhausted : Bool
  termLimit : Bool
  boundLost : Bool
  scale : Nat
  retries : Nat
  fmt : Nat
  terms : Nat
  deriving DecidableEq, Repr

/-- An accumulation group (10 R199). -/
structure Group where
  opn : Bool
  fmt : AccFmt
  order : Nat
  tile : Nat
  n : Nat
  deriving DecidableEq, Repr

/-- A weight tile (09 R173). -/
structure WTile where
  infmt : Nat
  bytes : List Byte
  deriving DecidableEq, Repr

/-- An asynchronous operation of a Wren (09 R175): what it copies once it completes. -/
inductive AsyncOp where
  | move (mode dst src len : Nat)
  | fill (side dst len : Nat) (pat : BitVec 64)
  | peer (slot dst src len arr : Nat) (notify : Bool) (since : Nat)
  | chaf (inst desc : Nat)
  | gate (inst op count width : Nat) (inA inB inC out key : Nat)
  deriving DecidableEq, Repr

/-- One level of LOOP (09 Table 9.6). -/
structure LoopLvl where
  first : Nat
  last : Nat
  left : Nat
  deriving DecidableEq, Repr

/-- One Wren (09 Tables 9.1, 9.14; 10 Table 10.7; 16 Table 16.7). `st`: 0 Free, 1 Running, 2 Ending, 3 Faulting,
4 Quarantined; `block` as WRN_STATUS.BLOCK. -/
structure Wren where
  st : Nat
  run : Option Nat
  block : Nat
  ix : Nat
  sr : Tab (BitVec 64)
  loops : List LoopLvl
  arr : Tab Nat
  groups : Tab Group
  tsw : Tab Tsw
  pend : Tab (List (List Byte))
  active : Option WTile
  shadow : Option WTile
  async : List AsyncOp
  pushed : List (Nat × Nat)
  faultStatus : Nat
  faultIx : Nat
  faultAddr : Nat
  blockedAt : Option Nat
  ended : Bool
  exitWord : BitVec 64
  region : Nat
  regionSpill : Bool
  keyHeld : Bool
  regionCtx : Nat
  spillCnt : BitVec 32
  sExh : Bool
  sTl : Bool
  sBl : Bool
  sNan : Bool
  deriving DecidableEq, Repr

/-- One thicket (09 Tables 9.1, 9.15; 11 THR_KS). `istore` lists programs (handles) with their instruction
counts; `ksw` the batch of the key pass in progress. -/
structure Thk where
  bound : Option Nat
  istore : List (Nat × Nat)
  sems : Tab Nat
  semSat : Bool
  ksw : Nat
  passes : BitVec 32
  deriving DecidableEq, Repr

/-- Where a run was launched from: a launch queue, or PROG_RUN on a KCP queue. -/
inductive RunSrc where
  | launch (q : Nat)
  | prog (q : QRef)
  deriving DecidableEq, Repr

/-- One run (09 R185 to R190, Table 9.13). `st`: 0 Queued, 1 Running, 2 Ending, 3 Faulting. -/
structure Run where
  id : Nat
  st : Nat
  ctx : Nat
  prog : Nat
  thks : List Nat
  argAddr : Nat
  argLen : Nat
  args : List Byte
  pins : List Nat
  board : Bool
  boardId : Nat
  src : RunSrc
  tag : Nat
  irq : Bool
  order : Nat
  retired : Nat
  stalled : Bool
  deriving DecidableEq, Repr

/-- One Chaffinch or Goldcrest instance (09 R179; 11 Table 11.9; 15 Table 15.10). -/
structure Inst where
  holder : Option Nat
  fw : Bool
  busy : Bool
  count : Nat
  deriving DecidableEq, Repr

/-- The compute fabric (09, 10, 11). -/
structure Fab where
  wrens : Tab Wren
  thks : Tab Thk
  runs : List Run
  nextRun : Nat
  chf : Tab Inst
  gcr : Tab Inst
  kindRefused : BitVec 32
  deriving DecidableEq, Repr

/-- One Ethernet port (12 Table 12.10, R252). `st`: 0 Down, 1 Up, 2 Holding since `downAt`. -/
structure EthPort where
  st : Nat
  downAt : Nat
  expired : Bool
  losses : BitVec 16
  hold : Nat
  addr : BitVec 128
  router : Option (BitVec 128)
  drop : BitVec 32
  deriving DecidableEq, Repr

/-- A listener (12 R230). -/
structure Listener where
  live : Bool
  port : Nat
  addr : BitVec 128
  udp : Nat
  rnd : Nat
  ctx : Nat
  xPriv : List Byte
  xPub : List Byte
  dk : List Byte
  ek : List Byte
  deriving DecidableEq, Repr

/-- A contributor session (12 Table 12.4, R231 to R236). `st`: 0 Free, 1 Open, 2 Closed with `reason`. `addr` and `port` are the
return path, `partial_` the message being received, and `inbox` the messages delivered and not yet taken by Robin or Starling
ingress. -/
structure Sess where
  st : Nat
  gen : Nat
  lst : Nat
  ident : List Byte
  random : List Byte
  kIn : List Byte
  kOut : List Byte
  kFin : List Byte
  granted : Nat
  rx : Nat
  tx : Nat
  ctlTx : Nat
  ctlRx : Nat
  addr : Nat
  port : Nat
  lastAt : Nat
  reorder : List LntPkt
  partial_ : List Byte
  inbox : List (List Byte)
  hot : Bool
  used : Nat
  ready : List Byte
  reason : Nat
  deriving DecidableEq, Repr

/-- Congestion parameters (12 Table 12.8). -/
structure CC where
  target : Nat
  ai : Nat
  beta : Nat
  cwndMin : Nat
  cwndMax : Nat
  cwndInit : Nat
  rtoMin : Nat
  retry : Nat
  deriving DecidableEq, Repr

/-- A posted send descriptor (12 Table 12.6) and where it stands. -/
structure SendDesc where
  op : Nat
  flags : Nat
  waitQ : Nat
  waitV : BitVec 32
  fmt : Nat
  tag : Nat
  loc : Nat
  remote : Nat
  length : Nat
  wkey : Nat
  imm : Nat
  msn : Nat
  started : Bool
  moved : Nat
  deriving DecidableEq, Repr

/-- A packet sent and not yet acknowledged (12 R229, R250). -/
structure Sent where
  psn : Nat
  pkt : LntPkt
  at_ : Nat
  deriving DecidableEq, Repr

/-- A NOT_READY wait of a sender (12 R249): the PSN, since when, the backoff, when the next resend is due, and whether it is
still waiting for it. -/
structure NotReady where
  psn : Nat
  since : Nat
  backoff : Nat
  due : Nat
  waiting : Bool
  deriving DecidableEq, Repr

/-- A queue pair (12 Tables 12.5, 12.10, R237 to R251). `st`: 0 Absent, 1 Init, 2 Connecting, 3 Connected, 4 Held,
5 Error. PSNs are the 64-bit extended counts. `base` is where its rings are carved, `txq` holds packets built and not yet sent,
`stall` the PSN and fault of an inbound stall, `sfault` the fault of the send queue, `rfull` the PSN and time of a RECEIVE_FULL. -/
structure Qp where
  st : Nat
  ctx : Nat
  engine : Nat
  notReady : Bool
  peer : Nat
  s : Nat
  r : Nat
  base : Nat
  sq : List SendDesc
  txq : List LntPkt
  unacked : List Sent
  txPsn : Nat
  rxPsn : Nat
  msn : Nat
  sendCnt : BitVec 32
  recvCnt : BitVec 32
  cq : List StatusRec
  rq : List StatusRec
  overrun : Bool
  errStatus : Nat
  peerQp : Option Nat
  initiator : Bool
  prot : Bool
  linkId : List Byte
  link : List Byte
  nonceI : List Byte
  nonceR : List Byte
  kTx : List Byte
  kRx : List Byte
  prov : Option (Nat × Nat)
  connSince : Nat
  cc : CC
  cwnd : Nat
  lastCut : Nat
  srtt : Nat
  retries : Nat
  nr : Option NotReady
  rfull : Option (Nat × Nat)
  stall : Option (Nat × QFault)
  held : List LntPkt
  reorder : List LntPkt
  ctlTx : Nat
  ctlRx : Nat
  edge : Option (Nat × BitVec 32)
  sfault : Option QFault
  failed : Nat
  pagesTold : List (Nat × Nat)
  deriving DecidableEq, Repr

/-- Linnet (12). -/
structure Lnt where
  ports : Tab EthPort
  drop4 : BitVec 32
  idle : Nat
  sessHost : Bool
  listeners : Tab Listener
  sess : Tab Sess
  freed : List Nat
  missBuf : List (Nat × LntPkt)
  qps : Tab Qp
  freedQp : List Nat
  ccDef : List (Nat × Nat × CC)
  useClock : Nat
  deriving DecidableEq, Repr

/-- One Siskin port (13 Table 13.7). `st`: 0 DETECT, 1 ADAPT, 2 ALIGN, 3 EXCHANGE, 4 ACTIVE, 5 Holding, 6 Roost,
7 MISWIRED. `check` is QTD_PORT_CHK of 14 Table 14.5. `unacked` lists sent data frames by FSEQ with the packet that each carries,
`credits` the reserve and shared credits in use by channel number 2 × class + VC, `await` the control messages that await an
answer. -/
structure Skn where
  en : Bool
  roostEn : Bool
  demand : Bool
  hold : Nat
  roostK : Nat
  st : Nat
  txWidth : Nat
  rxWidth : Nat
  optical : Bool
  bootMode : Bool
  losses : BitVec 16
  dropped : BitVec 8
  flooded : BitVec 8
  quar : BitVec 8
  txDropped : BitVec 8
  floodAt : Tab Nat
  peerChip : Nat
  peerPort : Nat
  peerLark : BitVec 2
  peerRoost : Bool
  delay : Nat
  k : Nat
  wakes : BitVec 24
  drift : Int
  txSeq : Nat
  unacked : List (Nat × List Byte × QtdPkt)
  rxSeq : Nat
  nakAt : Option Nat
  lost : Bool
  resends : Nat
  queued : List QtdPkt
  lastAseqAt : Nat
  lastTrafficAt : Nat
  downAt : Nat
  await : List Nat
  reqSent : Bool
  reqSeen : Bool
  nextWake : Nat
  chorusAt : Option Nat
  check : Nat
  credits : Tab (Nat × Nat)
  wakeLane : Nat
  txWakeLane : Nat
  deriving DecidableEq, Repr

/-- A manager role bid in progress or held at one level (14 R284, R285). -/
structure Elect where
  role : Bool
  mgr : Option Bid
  lastBeacon : Nat
  waitFrom : Option Nat
  claimAt : Option Nat
  missed : Nat
  deriving DecidableEq, Repr

/-- A slice as the fabric manager holds it (14 R293). -/
structure SliceRec where
  id : Nat
  origin : Nat
  span : Nat
  part : Nat
  deriving DecidableEq, Repr

/-- The space that a read request of resident firmware reserved for its response (14 R275), by FLOW, and the data once it came. -/
structure ReadBuf where
  flow : Nat
  dest : Nat
  len : Nat
  data : Option (List Byte)
  deriving DecidableEq, Repr

/-- Quintidy (14 Table 14.5 and the manager state of R280 to R293). The fabric holds 2^`racks` racks (R273). `links` lists the
inter-rack links (0 to 9) and chords (10 to 12) known to be up, by chip, and `installed` those that the route table in force was
computed from. -/
structure Qtd where
  bootServe : Bool
  mgrElig : Bool
  skewLim : Nat
  st : Nat
  dupChip : Bool
  drained : Bool
  routeGen : BitVec 28
  nonce : BitVec 64
  racks : Nat
  elect : List (Level × Elect)
  links : List (Nat × Nat)
  installed : List (Nat × Nat)
  reports : List JoinReport
  unreachable : List Nat
  slices : List SliceRec
  drop : BitVec 32
  fenceDrop : BitVec 32
  skew : Int
  reads : List ReadBuf
  deriving DecidableEq, Repr

/-- One contributor of a round (15): its session, identifier, public key and self-seed commitment; whether its SHARES came,
whether it is in A and has committed, the result of its norm check; `shares` are the relayed ciphertexts, `staged` the words received
(offset and words), `resp` the shares about it that survivors returned (x-coordinate and value), `seed` what was reconstructed. -/
structure Contrib where
  sess : Nat
  ident : Nat
  pk : List Byte
  commit : List Byte
  sent : Bool
  inA : Bool
  committed : Bool
  norm : Option Bool
  shares : List (List Byte)
  staged : List (Nat × List Nat)
  resp : List (Nat × List Byte)
  seed : Option (List Byte)
  deriving DecidableEq, Repr

/-- A round (15). `phase` as Table 15.3; `sigma`, `ef`, `pset` are the Sealed parameters; `phaseStart` and `earlyAt` are beat
numbers; `lost` are workers that left; `kinds` is the kind table by enrolment index (0 none, 1 self, 2 pairwise); `pds` the partial
decryptions by member; `pieces` the ranges gathered so far; `pSet` and `qSet` the guard lists of P and Q, `pRec` the record of P;
`closed` says that COLLECT has closed. -/
structure Round where
  num : Nat
  ctx : Nat
  part : Nat
  owner : List Byte
  sealed : Bool
  k : Nat
  limit : Nat
  m : Nat
  t : Nat
  d : Nat
  windows : List Nat
  norm : Nat
  replicas2 : Bool
  receipt : Option Nat
  startAt : Nat
  bound : Nat
  width : Nat
  committee : List (Nat × List Byte)
  sigma : Nat
  ef : Nat
  pset : Nat
  staging : Nat
  admKey : List Byte
  guardObj : Nat
  guardLen : Nat
  jointPk : Nat
  r2b : Nat
  refresh : Nat
  mask : BitVec 64
  kmin : Nat
  phase : Nat
  status : Nat
  detail : Nat
  manager : Bool
  mgrChip : Nat
  worker : Bool
  wctx : Nat
  member : Bool
  workers : List Nat
  lost : List Nat
  listeners : List Nat
  kRound : List Byte
  started : Bool
  phaseStart : Nat
  earlyAt : Option Nat
  contribs : List Contrib
  graphSeed : List Byte
  kinds : List Nat
  pds : List (Nat × List Byte)
  pieces : List (Nat × List Nat)
  pSet : Option (List Nat)
  qSet : Option (List Nat)
  pRec : Option (Nat × Nat × List Byte)
  pDiff : Nat
  closed : Bool
  nE : Nat
  nA : Nat
  survivors : List Nat
  publication : List Byte
  deriving DecidableEq, Repr

/-- Rounds and the differencing guard (15). `fw` keeps the round traffic that came from other chips, `guardLists` the guard range
(owner, round number, identifiers). -/
structure Rounds where
  rounds : List Round
  fw : List (Nat × List Byte)
  next : Nat
  floors : List (List Byte × Nat)
  guardLists : List (List Byte × Nat × List Nat)
  deriving DecidableEq, Repr

/-- A frame of a Warbler stack: return state and tail cost (17). -/
structure WFrame where
  ret : Nat
  tail : Nat
  deriving DecidableEq, Repr

/-- A Warbler stream (17 Table 17.7). `st`: 0 Free, 1 Drafting, 2 Done. -/
structure Stream where
  st : Nat
  secret : Bool
  ctx : Nat
  gram : Nat
  chain : List Nat
  lin : Nat
  lout : Nat
  q : Nat
  frames : List WFrame
  e : Nat
  deriving DecidableEq, Repr

/-- A Warbler table (17 R334). -/
structure WTable where
  gen : Nat
  ctx : Nat
  live : Bool
  host : Bool
  norm : Bool
  bytes : List Byte
  deriving DecidableEq, Repr

/-- Warbler (17). -/
structure Wbl where
  tables : Tab WTable
  streams : Tab Stream
  deriving DecidableEq, Repr

/-- The two-path record of one unit (18 Table 18.6, R352 to R354). -/
structure UnitSt where
  quar : Bool
  releasing : Bool
  relAt : Nat
  deriving DecidableEq, Repr

/-- One HBM pseudo-channel's error registers (19 Table 19.5). -/
structure HbmPc where
  ce : BitVec 32
  ue : BitVec 32
  ueAddr : Nat
  deriving DecidableEq, Repr

/-- What the chip sends or pulses: the model's record of its outputs. -/
inductive Out where
  | msix (fn : Fn) (vec : Nat)
  | mctp (bytes : List Byte)
  | lnt (engine : Nat) (dst : Nat) (p : LntPkt)
  | icmp (e : Nat) (typ : Nat) (dst : BitVec 128) (body : List Byte)
  | ctl (port : Nat) (kind : Nat) (arg : Nat)
  | frame (port : Nat) (fseq aseq : Nat) (nak : Bool) (bytes : List Byte)
  | qtd (port vc : Nat) (p : QtdPkt)
  | mgmt (lvl : Level) (kind : Nat) (b : Bid)
  | join (r : JoinReport)
  | adv (a : LinkAdv)
  | bootImage (port : Nat) (img : List Byte)
  | bootReq (port : Nat)
  | pldm (typ : Nat) (data : List Nat)
  | spdm (code : Nat) (body : List Byte)
  | session (i : Nat) (kind : Nat) (body : List Byte)
  | round (num kind : Nat) (body : List Byte)
  | ethStop
  deriving DecidableEq, Repr

/-- The whole machine. `out` lists what it has sent, oldest first; `lastRead` is what the last register read returned;
`free` numbers the free values drawn so far; `pending` is the queue of commands still to run, first in, first out. `hostMem` is the host's memory by bus address, and
`hostDeny` the host ranges (base, length) whose translation the host refuses (06 R112). -/
structure State where
  pwr : Pwr
  boot : Boot
  lark : Lark
  hsc : Tab Slot
  glb : Glb
  evlog : Tab EvGroup
  mtr : Metering
  host : HostSt
  nut : Nut
  fab : Fab
  lnt : Lnt
  skn : Tab Skn
  floodDc : BitVec 16
  floodEnv : BitVec 8
  qtd : Qtd
  rnd : Rounds
  wbl : Wbl
  units : Tab UnitSt
  hbmPc : Tab HbmPc
  mem : List Host.Cell
  hostMem : List Host.Cell
  hostDeny : List (Nat × Nat)
  lastRead : Nat
  out : List Out
  free : Nat
  pending : List Instr
  deriving DecidableEq, Repr

/-- Zero bytes. -/
def zeros (n : Nat) : List Byte := List.replicate n 0

/-- 03 Table 3.12: what the pads show before VIN_ON. The levels the carrier drives are a DESIGN CHOICE (log 3). -/
def Pins.init : Pins :=
  { carMatedN := false, modLatchN := false, carPwrEn := true, coldResetN := true, perstN := true, prochotExt := true
    prochotDrive := false, thermtripN := true, pwrGood := false, pwrFaultN := true, ppsOut := false, mgmtAlertN := true }

/-- 03 R48: no strap is latched yet. -/
def Straps.init : Straps :=
  { latched := false, fault := false, pos := 0, par := false, prio := false, boot := 0, pcie := 0 }

/-- 03 Tables 3.14 and 3.15. -/
def Pwr.init : Pwr :=
  { st := .off, target := none, req := none, curPt := 0, settling := false, ceilTherm := 5, ceilPower := 5, ceilVin := 5
    ceilCar := 5, duty := false, ptReq := 3, cap := 1150, vin := 0, pin := 0, tj := 0, hotSensor := 0
    hbmT := [0, 0, 0, 0, 0, 0], warn := 0x5F, throttle := 0x64, phOut := false, cause := none, causeHeld := false
    straps := Straps.init, pins := Pins.init, removing := false, coldHeld := false, stackDouble := 0, stackLimit := 0
    warmBusy := false, warmScrubbed := false, warmFromPin := false, phSample := false }

/-- The fuses of an unprogrammed KL5-A with 64 thickets: DESIGN CHOICE (log 4). -/
def Fuses.init : Fuses :=
  { part := 1, thkMap := BitVec.allOnes 64, spare := [], hbmRepair := [], rootDigest := List.replicate 4 (zeros 48)
    revoked := 0, lifecycle := 0, epoch := 0, epochMargin := 0, serial := 0, dus := zeros 32, crcOk := true }

/-- An erased descriptor copy: DESIGN CHOICE (log 4). -/
def DescCopy.init : DescCopy := { crcOk := false, seq := 0, active := false }

/-- An erased record copy: DESIGN CHOICE (log 4). -/
def RollCopy.init : RollCopy := { magicOk := false, epoch := 0, seq := 0, floor := 0, counter := 0, mac := [] }

/-- An erased policy copy: DESIGN CHOICE (log 4). -/
def PolicyCopy.init : PolicyCopy := { authority := [], counter := 0, floors := [], mac := [] }

/-- Erased flash: DESIGN CHOICE (log 4). -/
def Flash.init : Flash :=
  { desc0 := DescCopy.init, desc1 := DescCopy.init, roll0 := RollCopy.init, roll1 := RollCopy.init, certs := []
    slotA := [], slotB := [], policy0 := PolicyCopy.init, policy1 := PolicyCopy.init, guards := [] }

/-- 04 Tables 4.7 and 4.8. -/
def Boot.init : Boot :=
  { stage := 1, step := 0, code := 0, src := 0, slot := false, fallback := false, romReady := false, svn := 0, floor := 0
    updCnt := 0, rollSel := false, fuses := Fuses.init, debugUnlocked := false, debugScope := 0, tokenPrefix := []
    hold := none, holdUntil := 0, deviceId := [], accs := List.replicate 8 (zeros 48), accClosed := false, measLog := []
    mbxBusy := false, mbxLen := 0, mbx := [], flash := Flash.init, idPub := [], aliasPub := [], aliasSeed := []
    aliasCert := [], image := [], fabricStart := 0, pldmUpd := false }

/-- 02 R34, Table 2.9: a beat generator at reset. -/
def Beat.init : Beat := { k := 0, en := false, owner := 0, cnt := 0, base := 0 }

/-- 02 Tables 2.7 to 2.9. -/
def Lark.init : Lark :=
  { src := 0, ptpPort := 0, holdoverEn := true, state := 3, refLost := false, ppsLost := false, holdPort := 0x1F
    time := 0, frac := 0, offset := 0, slew := 500, remaining := 0, refPresent := true, stepLo := 0, snapTime := 0
    snapSeq := 0, beats := [], ptpLost := false, stepWait := none, aheadStuck := false }

/-- 02 Table 2.10. -/
def Slot.init : Slot := { sel := 0, by_ := 0, part := 0, cnt := 0, wrap := false, snap := 0 }

/-- 19 Table 19.4, 02 Table 2.11, 18 Table 18.8. -/
def Glb.init : Glb :=
  { ccOverrun := 0, dark := false, width := false, foreign := false, range := false, evEn := false
    evAlert := true, evVec := 0, evMark := 0x800, evSince := 0, alerts := [], latches := [] }

/-- 18 R346: an empty group. -/
def EvGroup.init : EvGroup := { entries := [], next := 0, lost := 0 }

/-- 18 Table 18.4: meters at zero. -/
def Meter.init : Meter :=
  { wrenNs := 0, hbmMibMs := 0, lntRx := 0, lntTx := 0, pcie := 0, sessions := 0, rounds := 0, refreshes := 0
    wblBytes := 0, energy := 0 }

/-- 18 R350: a period that opens at fabric time `at_`. -/
def Period.init (num at_ : Nat) : Period :=
  { num := num, late := false, discont := 0, openAt := at_, closeAt := 0, wallEnd := 0, offset := 0, discTime := 0
    discBefore := 0, discAfter := 0, meters := [] }

/-- 18 R351, Table 18.8: period 1 is open. -/
def Metering.init : Metering :=
  { started := false, cur := Period.init 1 0, closed := [], pend := none, lastEnd := none, wall := 0, wallSet := false
    frac := 0, nextMs := 0 }

/-- 05 Table 5.8, 19 Table 19.6. -/
def Admq.init : Admq := { en := false, vec := 0, s := 6, c := 6, sq := 0, cq := 0, cnt := 0, q := 0 }

/-- 07 Table 7.10: a Vacant partition. -/
def Part.init : Part := { st := 0, scrubSeq := 0, owner := none, slice := 0, sliceOrigin := 0, sliceSpan := 0 }

/-- 06 Table 6.7: an Absent queue. -/
def Queue.init : Queue :=
  { st := .absent, typ := 0, s := 0, c := 0, vec := 0, sq := 0, cq := 0, cntAddr := 0, cnt := 0, fetch := 0, prod := 0
    written := 0, released := 0, errStatus := 0, cur := none, desc := none, edge := none, fault := none, dup := []
    ctx := 0, mirror := 0, mirrorRecv := false, db := [], resetBy := none }

/-- 07: a context with no channel. -/
def Channel.init : Channel :=
  { st := 0, gen := 0, kCmd := [], kRes := [], kDin := [], kDout := [], kImp := [], tagHi := none, tags := []
    extHi := none, exts := [], extOut := 0, sealedCnt := 0, xPriv := [], xPub := [], dk := [], ek := [], lastOpen := [] }

/-- 06 Table 6.2: an Absent context. -/
def Ctx.init : Ctx :=
  { st := 0, part := 0, notReady := false, root := 0, creator := 0, fn := .pf, order := 0, lastFault := 0, maps := []
    chan := Channel.init, wait := none }

/-- Dunnock at reset (05, 06, 07). -/
def HostSt.init : HostSt :=
  { admq := Admq.init, vfAdmq := [], vfEnable := false, vfNum := 0, hpoolBase := 0, hpoolLen := 0, confidential := false
    shared := false, parts := 1, part := [], authFail := 0, replayCnt := 0, ats := [], ctxs := [], queues := [], mgmt := none
    mgmtDup := [], objs := [], objGen := [], wins := [], freedQ := [], scrubs := [], nextOrder := 0, dbSerial := 0 }

/-- No key. -/
def Key.init : Key := { attr := 0, id := [], version := 0, material := [] }

/-- 08 Table 8.5: an Empty slot. -/
def KSlot.init : KSlot :=
  { st := 0, ctx := 0, root := false, key := Key.init, staged := none, old := none, by_ := none
    evicted := false, bound := false }

/-- 08 Table 8.9. -/
def Nut.init : Nut :=
  { rootsReady := false, policyLost := false, stKey := [], msKey := [], slots := [], authority := [], updCnt := 0
    floors := [], policySel := false }

/-- 10 Table 10.3: an empty tile's status word. -/
def Tsw.init : Tsw :=
  { empty := true, opn := false, group := 0, exhausted := false, termLimit := false, boundLost := false, scale := 0
    retries := 0, fmt := 0, terms := 0 }

/-- 10 R199: a closed group. -/
def Group.init : Group := { opn := false, fmt := .f32, order := 0, tile := 0, n := 0 }

/-- 09 Table 9.14: a Free Wren. -/
def Wren.init : Wren :=
  { st := 0, run := none, block := 0, ix := 0, sr := [], loops := [], arr := [], groups := [], tsw := [], pend := []
    active := none, shadow := none, async := [], pushed := [], faultStatus := 0, faultIx := 0, faultAddr := 0
    blockedAt := none, ended := false, exitWord := 0, region := 0, regionSpill := false, keyHeld := false, regionCtx := 0
    spillCnt := 0, sExh := false, sTl := false, sBl := false, sNan := false }

/-- 09 Table 9.15: an unbound thicket. -/
def Thk.init : Thk :=
  { bound := none, istore := [], sems := [], semSat := false, ksw := 0, passes := 0 }

/-- 11 Table 11.9, 15 Table 15.10: an Idle instance. -/
def Inst.init : Inst := { holder := none, fw := false, busy := false, count := 0 }

/-- The fabric of Wrens at reset. -/
def Fab.init : Fab :=
  { wrens := [], thks := [], runs := [], nextRun := 0, chf := [], gcr := [], kindRefused := 0 }

/-- 12 Table 12.10. -/
def EthPort.init : EthPort :=
  { st := 0, downAt := 0, expired := false, losses := 0, hold := 0x14, addr := 0, router := none, drop := 0 }

/-- 12 R230: a closed listener. -/
def Listener.init : Listener :=
  { live := false, port := 0, addr := 0, udp := 0, rnd := 0, ctx := 0, xPriv := [], xPub := [], dk := [], ek := [] }

/-- 12 Table 12.4: a Free session. -/
def Sess.init : Sess :=
  { st := 0, gen := 0, lst := 0, ident := [], random := [], kIn := [], kOut := [], kFin := [], granted := 0, rx := 0
    tx := 0, ctlTx := 0, ctlRx := 0, addr := 0, port := 0, lastAt := 0, reorder := [], partial_ := [], inbox := []
    hot := false, used := 0, ready := [], reason := 0 }

/-- 12 Table 12.8: the defaults of engine `e`. -/
def CC.init (e : Nat) : CC :=
  { target := if e = 4 then 4000 else 12000, ai := 8192, beta := 0x8000, cwndMin := 8192, cwndMax := 16777216
    cwndInit := 1048576, rtoMin := if e = 4 then 20000 else 50000, retry := 7 }

/-- 12 Table 12.5: an Absent queue pair. -/
def Qp.init : Qp :=
  { st := 0, ctx := 0, engine := 0, notReady := false, peer := 0, s := 0, r := 0, base := 0, sq := [], txq := [], unacked := [], txPsn := 0
    rxPsn := 0, msn := 0, sendCnt := 0, recvCnt := 0, cq := [], rq := [], overrun := false, errStatus := 0, peerQp := none
    initiator := false, prot := false, linkId := [], link := [], nonceI := [], nonceR := [], kTx := [], kRx := []
    prov := none, connSince := 0, cc := CC.init 0, cwnd := 0, lastCut := 0, srtt := 0, retries := 0, nr := none, rfull := none
    stall := none, held := [], reorder := [], ctlTx := 0, ctlRx := 0, edge := none
    sfault := none, failed := 0, pagesTold := [] }

/-- 12 Table 12.10. -/
def Lnt.init : Lnt :=
  { ports := [], drop4 := 0, idle := 0x1E, sessHost := false, listeners := [], sess := [], freed := [], missBuf := []
    qps := [], freedQp := [], ccDef := [], useClock := 0 }

/-- 13 Table 13.7. -/
def Skn.init : Skn :=
  { en := true, roostEn := false, demand := false, hold := 0x14, roostK := 0x1B, st := 0, txWidth := 0, rxWidth := 0
    optical := false, bootMode := false, losses := 0, dropped := 0, flooded := 0, quar := 0, txDropped := 0, floodAt := []
    peerChip := 0, peerPort := 0x1F, peerLark := 3, peerRoost := false, delay := 0, k := 0, wakes := 0, drift := 0
    txSeq := 0, unacked := [], rxSeq := 0, nakAt := none, lost := false, resends := 0, queued := [], lastAseqAt := 0
    lastTrafficAt := 0, downAt := 0, await := [], reqSent := false, reqSeen := false, nextWake := 0, chorusAt := none
    check := 0, credits := [], wakeLane := 0, txWakeLane := 0 }

/-- 14 R284: no manager known. -/
def Elect.init : Elect :=
  { role := false, mgr := none, lastBeacon := 0, waitFrom := none, claimAt := none, missed := 0 }

/-- 14 Table 14.5. -/
def Qtd.init : Qtd :=
  { bootServe := true, mgrElig := true, skewLim := 0x3E8, st := 0, dupChip := false, drained := false, routeGen := 0
    nonce := 0, racks := 10, elect := [], links := [], installed := [], reports := [], unreachable := [], slices := []
    drop := 0, fenceDrop := 0, skew := 0, reads := [] }

/-- 15: no round. The first round number is a DESIGN CHOICE (log 46). -/
def Rounds.init : Rounds := { rounds := [], fw := [], next := 1, floors := [], guardLists := [] }

/-- 17 Table 17.7: a Free stream. -/
def Stream.init : Stream :=
  { st := 0, secret := false, ctx := 0, gram := 0, chain := [], lin := 0, lout := 0, q := 0, frames := [], e := 0 }

/-- 17 R334: no table. -/
def WTable.init : WTable := { gen := 0, ctx := 0, live := false, host := false, norm := false, bytes := [] }

/-- 18 Table 18.6: a unit in use. -/
def UnitSt.init : UnitSt := { quar := false, releasing := false, relAt := 0 }

/-- 19 Table 19.5. -/
def HbmPc.init : HbmPc := { ce := 0, ue := 0, ueAddr := 0 }

/-- The machine right after a cold reset, before VIN rises: every register at the reset value of its table (19 R369),
every table empty, nothing in memory and no command waiting. -/
def State.reset : State :=
  { pwr := Pwr.init, boot := Boot.init, lark := Lark.init, hsc := [], glb := Glb.init, evlog := [], mtr := Metering.init
    host := HostSt.init, nut := Nut.init, fab := Fab.init, lnt := Lnt.init, skn := [], floodDc := 0x190, floodEnv := 0x0A
    qtd := Qtd.init, rnd := Rounds.init, wbl := { tables := [], streams := [] }, units := [], hbmPc := [], mem := []
    hostMem := [], hostDeny := [], lastRead := 0, out := [], free := 0, pending := [] }

end Sys2Proof.Machine
end

