-- ==== Sys2Proof/Machine/Bits.lean ====
section
/-! DEFINITION. Bit fields, byte order and byte strings (05 R81: fields are little-endian; 00 R377: AES counter blocks are big-endian). -/

namespace Sys2Proof.Machine

/-- Bits [lo + n − 1 : lo] of a number. -/
def bits (v lo n : Nat) : Nat := v / 2 ^ lo % 2 ^ n

/-- Bit [lo] of a number. -/
def bitOf (v lo : Nat) : Bool := v / 2 ^ lo % 2 == 1

/-- A Bool as a bit. -/
def b2n (b : Bool) : Nat := if b then 1 else 0

/-- The number that little-endian bytes spell. -/
def leNat : List Byte → Nat
  | [] => 0
  | b :: bs => b.toNat + 256 * leNat bs

/-- `n` little-endian bytes of a number. -/
def natLE : Nat → Nat → List Byte
  | 0, _ => []
  | n + 1, v => BitVec.ofNat 8 v :: natLE n (v / 256)

/-- The number that big-endian bytes spell. -/
def beNat (bs : List Byte) : Nat := leNat bs.reverse

/-- `n` big-endian bytes of a number. -/
def natBE (n v : Nat) : List Byte := (natLE n v).reverse

/-- `len` bytes of a string from `off`; bytes past its end read as zero. -/
def sub (bs : List Byte) (off len : Nat) : List Byte :=
  (bs.drop off ++ List.replicate len 0).take len

/-- The little-endian field of `len` bytes at `off`. -/
def field (bs : List Byte) (off len : Nat) : Nat := leNat (sub bs off len)

/-- The 64-bit word `i` of a parameter list (05 R81). -/
def word (bs : List Byte) (i : Nat) : Nat := field bs (8 * i) 8

/-- The signed value of an `n`-bit two's-complement number. -/
def signed (n v : Nat) : Int := if v % 2 ^ n < 2 ^ (n - 1) then (v % 2 ^ n : Nat) else (v % 2 ^ n : Nat) - (2 ^ n : Nat)

/-- The `n`-bit two's-complement pattern of an integer. -/
def wrap (n : Nat) (v : Int) : Nat := (v % (2 ^ n : Nat)).toNat

/-- ASCII bytes of a label. -/
def ascii (t : String) : List Byte := t.toList.map fun c => BitVec.ofNat 8 c.toNat

/-- Bytewise exclusive or. -/
def xorBytes (a b : List Byte) : List Byte := List.zipWith (fun x y => x ^^^ y) a b

/-- The 64-bit little-endian words of a byte string. -/
def wordsOf (bs : List Byte) : List (BitVec 64) :=
  (List.range (bs.length / 8)).map fun i => BitVec.ofNat 64 (field bs (8 * i) 8)

/-- The byte string of 64-bit little-endian words. -/
def bytesOf (ws : List (BitVec 64)) : List Byte := ws.flatMap fun w => natLE 8 w.toNat

/-- ⌈a / b⌉. -/
def ceilDiv (a b : Nat) : Nat := (a + b - 1) / b

/-- Serial arithmetic on 32-bit counts: `a` has reached `b` (05, 06 R121: met when the difference, taken modulo 2^32, is below 2^31). -/
def reached (a b : BitVec 32) : Bool := (a - b).toNat < 2 ^ 31

/-- 18 R343: a 32-bit RC counter saturates. -/
def incSat (v : BitVec 32) : BitVec 32 := if v = BitVec.allOnes 32 then v else v + 1

/-- SHA-384, 48 bytes. -/
def sha384 (m : List Byte) : List Byte := (List.range 48).map (Config.sha384Byte m)

/-- HMAC-SHA-384, 48 bytes. -/
def hmac (key msg : List Byte) : List Byte := (List.range 48).map (Config.hmacByte key msg)

/-- RFC 5869 extract. -/
def hkdfExtract (salt ikm : List Byte) : List Byte := hmac salt ikm

/-- RFC 5869 expand: `n` blocks, the last one numbered `i`. -/
def hkdfBlocks (prk info : List Byte) : Nat → Nat → List Byte → List Byte
  | 0, _, _ => []
  | n + 1, i, prev =>
    let t := hmac prk (prev ++ info ++ [BitVec.ofNat 8 i])
    t ++ hkdfBlocks prk info n (i + 1) t

/-- RFC 5869 expand to `len` bytes. -/
def hkdfExpand (prk info : List Byte) (len : Nat) : List Byte :=
  (hkdfBlocks prk info (ceilDiv len 48) 1 []).take len

/-- One AES-256 block. -/
def aes (key block : List Byte) : List Byte := (List.range 16).map (Config.aesByte key block)

/-- 00 R377: keystream byte `j` under the initial counter block `icb`, a 128-bit number held big-endian. -/
def ctrByte (key : List Byte) (icb j : Nat) : Byte :=
  (aes key (natBE 16 ((icb + j / 16) % 2 ^ 128))).getD (j % 16) 0

/-- 00 R377: `len` bytes of AES-256-CTR keystream from byte `off`. -/
def ctrBytes (key : List Byte) (icb off len : Nat) : List Byte :=
  (List.range len).map fun i => ctrByte key icb (off + i)

/-- AES-256-GCM encryption with a 96-bit nonce: the counter part of NIST SP 800-38D. -/
def gcmCrypt (key nonce text : List Byte) : List Byte :=
  xorBytes text (ctrBytes key (beNat nonce * 2 ^ 32 + 2) 0 text.length)

/-- The 16-byte AES-256-GCM tag. -/
def gcmTag (key nonce aad ct : List Byte) : List Byte :=
  (List.range 16).map (Config.gcmTagByte key nonce aad ct)

/-- AES-256-GCM opening: the plaintext, or none when the tag does not verify. -/
def gcmOpen (key nonce aad ct tag : List Byte) : Option (List Byte) :=
  if gcmTag key nonce aad ct = tag then some (gcmCrypt key nonce ct) else none

/-- X25519 (RFC 7748). -/
def x25519 (k u : List Byte) : List Byte := (List.range 32).map (Config.x25519Byte k u)

/-- The X25519 public key of a private key: the base point is u = 9. -/
def x25519Pub (k : List Byte) : List Byte := x25519 k (natLE 32 9)

/-- The ML-KEM-768 encapsulation key (1,184 bytes) of a seed. -/
def mlkemEk (dk : List Byte) : List Byte := (List.range 1184).map (Config.mlkemEkByte dk)

/-- The ML-KEM-768 shared secret that the holder of `dk` obtains. -/
def mlkemDecaps (dk ct : List Byte) : List Byte := (List.range 32).map (Config.mlkemRecvByte dk ct)

/-- ML-KEM-768 encapsulation: ciphertext (1,088 bytes) and shared secret. -/
def mlkemEncaps (ek rnd : List Byte) : List Byte × List Byte :=
  ((List.range 1088).map (Config.mlkemCtByte ek rnd), (List.range 32).map (Config.mlkemSendByte ek rnd))

/-- The ML-DSA-65 public key (1,952 bytes) of a seed. -/
def mldsaPk (seed : List Byte) : List Byte := (List.range 1952).map (Config.mldsaPkByte seed)

/-- The ML-DSA-65 signature (3,309 bytes) of a message. -/
def mldsaSig (seed msg : List Byte) : List Byte := (List.range 3309).map (Config.mldsaSigByte seed msg)

/-- The ECDSA P-384 public key (97 bytes, uncompressed SEC1) of a seed. -/
def p384Pk (seed : List Byte) : List Byte := (List.range 97).map (Config.p384PkByte seed)

/-- The ECDSA P-384 signature (96 bytes, r then s) of a message. -/
def p384Sig (seed msg : List Byte) : List Byte := (List.range 96).map (Config.p384SigByte seed msg)

/-- 19 R366: the Requester ID of a function. -/
def requesterId : Fn → Nat
  | .pf => Config.requesterIdOf 0 % 65536
  | .vf v => Config.requesterIdOf v % 65536

end Sys2Proof.Machine
end

