-- ==== Sys2Proof/Machine/Ops.lean ====
section
/-! DEFINITION. The named operations that every meaning is written over: sparse tables, memory, free values, outputs, the event log (18 R346 to R348) and the counter slots (02 R26). -/

namespace Sys2Proof.Machine

/-! Sparse tables. -/

/-- The entry `k` of a table whose unlisted entries are `d`. -/
def tabGet {α : Type} (d : α) : Tab α → Nat → α
  | [], _ => d
  | (j, v) :: t, k => if j = k then v else tabGet d t k

/-- The table with the key removed. -/
def tabDel {α : Type} : Tab α → Nat → Tab α
  | [], _ => []
  | (j, v) :: t, k => if j = k then tabDel t k else (j, v) :: tabDel t k

/-- The table with a key, not in it, inserted in order. -/
def tabIns {α : Type} : Tab α → Nat → α → Tab α
  | [], k, v => [(k, v)]
  | (j, u) :: t, k, v => if k < j then (k, v) :: (j, u) :: t else (j, u) :: tabIns t k v

/-- Entry `k` becomes `v`; an entry equal to the default is not listed. -/
def tabPut {α : Type} [DecidableEq α] (d : α) (t : Tab α) (k : Nat) (v : α) : Tab α :=
  if v = d then tabDel t k else tabIns (tabDel t k) k v

/-- The canonical form of a table: keys strictly rising, no entry equal to the default. -/
def tabWf {α : Type} [DecidableEq α] (d : α) : Tab α → Bool
  | [] => true
  | [(_, v)] => v ≠ d
  | (j, v) :: (k, u) :: t => j < k && v ≠ d && tabWf d ((k, u) :: t)

/-- The first entry whose value satisfies a test. -/
def tabFind {α : Type} (p : Nat → α → Bool) (t : Tab α) : Option (Nat × α) := t.find? fun e => p e.1 e.2

/-! Memory: bytes by offset, in the same canonical form; an unlisted byte reads as zero (log 5). -/

/-- The byte at an address. -/
def memGet (m : List Host.Cell) (a : Nat) : Byte := tabGet 0 m a

/-- A byte stored. -/
def memPut (m : List Host.Cell) (a : Nat) (b : Byte) : List Host.Cell := tabPut 0 m a b

/-- The canonical form of a memory. -/
def Memory.wf (m : List Host.Cell) : Bool := tabWf 0 m

/-- `n` bytes from an address. -/
def memRead (m : List Host.Cell) (a n : Nat) : List Byte := (List.range n).map fun i => memGet m (a + i)

/-- Bytes stored from an address. -/
def memWrite (m : List Host.Cell) (a : Nat) : List Byte → List Host.Cell
  | [] => m
  | b :: bs => memWrite (memPut m a b) (a + 1) bs

/-- Zeros over `n` bytes from an address. -/
def memErase (m : List Host.Cell) (a n : Nat) : List Host.Cell := m.filter fun c => c.1 < a || a + n ≤ c.1

/-! One update for each block of the state. -/

def onPwr (f : Pwr → Pwr) (s : State) : State := { s with pwr := f s.pwr }
def onBoot (f : Boot → Boot) (s : State) : State := { s with boot := f s.boot }
def onLark (f : Lark → Lark) (s : State) : State := { s with lark := f s.lark }
def onGlb (f : Glb → Glb) (s : State) : State := { s with glb := f s.glb }
def onMtr (f : Metering → Metering) (s : State) : State := { s with mtr := f s.mtr }
def onHost (f : HostSt → HostSt) (s : State) : State := { s with host := f s.host }
def onNut (f : Nut → Nut) (s : State) : State := { s with nut := f s.nut }
def onFab (f : Fab → Fab) (s : State) : State := { s with fab := f s.fab }
def onLnt (f : Lnt → Lnt) (s : State) : State := { s with lnt := f s.lnt }
def onQtd (f : Qtd → Qtd) (s : State) : State := { s with qtd := f s.qtd }
def onRnd (f : Rounds → Rounds) (s : State) : State := { s with rnd := f s.rnd }
def onWbl (f : Wbl → Wbl) (s : State) : State := { s with wbl := f s.wbl }
def onPins (f : Pins → Pins) (s : State) : State := onPwr (fun p => { p with pins := f p.pins }) s
def setMem (m : List Host.Cell) (s : State) : State := { s with mem := m }
def setHostMem (m : List Host.Cell) (s : State) : State := { s with hostMem := m }
def setSlots (t : Tab Slot) (s : State) : State := { s with hsc := t }
def setEvlog (t : Tab EvGroup) (s : State) : State := { s with evlog := t }
def setUnits (t : Tab UnitSt) (s : State) : State := { s with units := t }
def setHbmPc (t : Tab HbmPc) (s : State) : State := { s with hbmPc := t }
def setSkn (t : Tab Skn) (s : State) : State := { s with skn := t }
def setLastRead (v : Nat) (s : State) : State := { s with lastRead := v }

/-- The chip sends or pulses something. -/
def emit (o : Out) (s : State) : State := { s with out := s.out ++ [o] }

/-- The chip sends several things. -/
def emitAll (os : List Out) (s : State) : State := { s with out := s.out ++ os }

/-! Free values (log 2). -/

/-- The next free number. -/
def drawNat (s : State) : Nat × State := (Config.freeNat s.free, { s with free := s.free + 1 })

/-- The next `n` free bytes. -/
def drawBytes (n : Nat) (s : State) : List Byte × State :=
  ((List.range n).map (Config.freeByte s.free), { s with free := s.free + 1 })

/-! Tables by name. -/

def getQ (s : State) (q : Nat) : Queue := tabGet Queue.init s.host.queues q
def putQ (q : Nat) (v : Queue) (s : State) : State :=
  onHost (fun h => { h with queues := tabPut Queue.init h.queues q v }) s
def modQ (q : Nat) (f : Queue → Queue) (s : State) : State := putQ q (f (getQ s q)) s
def getCtx (s : State) (c : Nat) : Ctx := tabGet Ctx.init s.host.ctxs c
def putCtx (c : Nat) (v : Ctx) (s : State) : State :=
  onHost (fun h => { h with ctxs := tabPut Ctx.init h.ctxs c v }) s
def modCtx (c : Nat) (f : Ctx → Ctx) (s : State) : State := putCtx c (f (getCtx s c)) s
def getPart (s : State) (p : Nat) : Part := tabGet Part.init s.host.part p
def putPart (p : Nat) (v : Part) (s : State) : State :=
  onHost (fun h => { h with part := tabPut Part.init h.part p v }) s
def getSlotK (s : State) (n : Nat) : KSlot := tabGet KSlot.init s.nut.slots n
def putSlotK (n : Nat) (v : KSlot) (s : State) : State :=
  onNut (fun u => { u with slots := tabPut KSlot.init u.slots n v }) s
def getWren (s : State) (w : Nat) : Wren := tabGet Wren.init s.fab.wrens w
def putWren (w : Nat) (v : Wren) (s : State) : State :=
  onFab (fun f => { f with wrens := tabPut Wren.init f.wrens w v }) s
def modWren (w : Nat) (f : Wren → Wren) (s : State) : State := putWren w (f (getWren s w)) s
def getThk (s : State) (t : Nat) : Thk := tabGet Thk.init s.fab.thks t
def putThk (t : Nat) (v : Thk) (s : State) : State :=
  onFab (fun f => { f with thks := tabPut Thk.init f.thks t v }) s
def modThk (t : Nat) (f : Thk → Thk) (s : State) : State := putThk t (f (getThk s t)) s
def getSkn (s : State) (n : Nat) : Skn := tabGet Skn.init s.skn n
def putSkn (n : Nat) (v : Skn) (s : State) : State := setSkn (tabPut Skn.init s.skn n v) s
def modSkn (n : Nat) (f : Skn → Skn) (s : State) : State := putSkn n (f (getSkn s n)) s
def getQp (s : State) (q : Nat) : Qp := tabGet Qp.init s.lnt.qps q
def putQp (q : Nat) (v : Qp) (s : State) : State :=
  onLnt (fun l => { l with qps := tabPut Qp.init l.qps q v }) s
def modQp (q : Nat) (f : Qp → Qp) (s : State) : State := putQp q (f (getQp s q)) s
def getEth (s : State) (e : Nat) : EthPort := tabGet EthPort.init s.lnt.ports e
def putEth (e : Nat) (v : EthPort) (s : State) : State :=
  onLnt (fun l => { l with ports := tabPut EthPort.init l.ports e v }) s
def modEth (e : Nat) (f : EthPort → EthPort) (s : State) : State := putEth e (f (getEth s e)) s
def getSess (s : State) (i : Nat) : Sess := tabGet Sess.init s.lnt.sess i
def putSess (i : Nat) (v : Sess) (s : State) : State :=
  onLnt (fun l => { l with sess := tabPut Sess.init l.sess i v }) s
def modSess (i : Nat) (f : Sess → Sess) (s : State) : State := putSess i (f (getSess s i)) s
def getBeat (s : State) (n : Nat) : Beat := tabGet Beat.init s.lark.beats n
def putBeat (n : Nat) (v : Beat) (s : State) : State :=
  onLark (fun l => { l with beats := tabPut Beat.init l.beats n v }) s
def getUnit (s : State) (u : Nat) : UnitSt := tabGet UnitSt.init s.units u
def putUnit (u : Nat) (v : UnitSt) (s : State) : State := setUnits (tabPut UnitSt.init s.units u v) s
def getStream (s : State) (i : Nat) : Stream := tabGet Stream.init s.wbl.streams i
def putStream (i : Nat) (v : Stream) (s : State) : State :=
  onWbl (fun w => { w with streams := tabPut Stream.init w.streams i v }) s
def getObj? (s : State) (h : Nat) : Option Obj := (s.host.objs.find? fun e => e.1 == h).map Prod.snd

/-! The event log. -/

/-- The group of the event log that a context's events go to (18 R346): group 0 in Sole tenancy and for context 0 and for
events tied to no context, else group p + 1 for partition p. -/
def evGroup (s : State) (ctx : Option Nat) : Nat :=
  match ctx with
  | none => 0
  | some c => if s.host.shared && c != 0 then (getCtx s c).part + 1 else 0

/-- The quota of each group (18 R346). -/
def evQuota (s : State) : Nat := if s.host.shared then 8192 / (s.host.parts + 1) else 8192

/-- Whether an entry repeats the newest one of its group (18 Table 18.3): equal code, context, unit and DETAIL within 1 ms. -/
def evSame (g : EvGroup) (time code : Nat) (ctx : Option Nat) (unit detail : Nat) : Bool :=
  match g.entries.getLast? with
  | none => false
  | some e => e.code == code && e.ctx == ctx && e.unit == unit && e.detail == detail && time ≤ e.time + 1000000

/-- The group after an event: REPEAT of the newest entry rises, or a new entry takes the place of the oldest at quota. -/
def evAdd (quota : Nat) (g : EvGroup) (time code : Nat) (ctx : Option Nat) (part unit detail : Nat) : EvGroup :=
  if evSame g time code ctx unit detail then
    { g with entries := g.entries.dropLast ++
        (match g.entries.getLast? with
         | some e => [{ e with rep := min (e.rep + 1) 0xFFFF }]
         | none => []) }
  else
    let e : Event := { seq := g.next, time := time, code := code, ctx := ctx, part := part, unit := unit, rep := 0, detail := detail }
    if g.entries.length < quota then { g with entries := g.entries ++ [e], next := g.next + 1 }
    else { entries := g.entries.drop 1 ++ [e], next := g.next + 1, lost := g.lost + 1 }

/-- MGMT_ALERT_N is low while ALERT is 1 and a 0x0Cxx entry is unread (18 R348), and in a boot halt (04 R67). -/
def syncAlert (s : State) : State :=
  onPins (fun p => { p with mgmtAlertN := !(s.glb.evAlert && !s.glb.alerts.isEmpty) && s.boot.stage != 4 }) s

/-- What a new entry of code `code` in group `g` with sequence `seq` does to the alert and the watermark (18 R348). The
vector goes out at each multiple of WATERMARK entries since the last read by context 0 (log 9). -/
def evNotify (code g seq : Nat) (s : State) : State :=
  let s := onGlb (fun b => { b with
    evSince := b.evSince + 1
    alerts := if code / 256 = 0x0C then b.alerts ++ [(g, seq)] else b.alerts }) s
  let s := syncAlert s
  if s.glb.evEn && s.glb.evMark != 0 && s.glb.evSince % s.glb.evMark = 0 then emit (.msix .pf s.glb.evVec) s else s

/-- 18 R346: an event with its code, context, unit and DETAIL is recorded. -/
def raiseEv (code : Nat) (ctx : Option Nat) (unit detail : Nat) (s : State) : State :=
  let g := evGroup s ctx
  let old := tabGet EvGroup.init s.evlog g
  let part := if s.host.shared then (match ctx with | some c => (getCtx s c).part | none => 0) else 0
  let s' := setEvlog (tabPut EvGroup.init s.evlog g (evAdd (evQuota s) old s.lark.time code ctx part unit detail)) s
  if evSame old s.lark.time code ctx unit detail then s' else evNotify code g old.next s'

/-- An event tied to no context and no unit. -/
def raiseDev (code detail : Nat) (s : State) : State := raiseEv code none 0xFFFF detail s

/-- An event whose raising rule states no DETAIL (log 11). -/
def raisePlain (code : Nat) (ctx : Option Nat) (unit : Nat) (s : State) : State :=
  raiseEv code ctx unit (Config.eventDetail code) s

/-! Meters (18 R350): record 0 is the device's, record p + 1 that of partition p. -/

/-- A meter record of the open period changes. -/
def meterAt (k : Nat) (f : Meter → Meter) (s : State) : State :=
  onMtr (fun m => { m with cur := { m.cur with meters := tabPut Meter.init m.cur.meters k (f (tabGet Meter.init m.cur.meters k)) } }) s

/-- Usage of a context: the device record and that of its partition. -/
def meter (c : Nat) (f : Meter → Meter) (s : State) : State :=
  if s.host.shared && c = 0 then meterAt 0 f s else meterAt 0 f (meterAt ((getCtx s c).part + 1) f s)

/-! Counter slots. -/

/-- The key of slot `slot` of instance `inst` of block `blk` (05 Table 5.9). -/
def slotKey (blk inst slot : Nat) : Nat := blk * 2 ^ 16 + inst * 4 + slot

/-- How many events one increment of an event code stands for in a block (09 Table 9.16, 10.8, 11.10, 13.8, 14.6, 15.11, 17.10). -/
def evUnit (blk code : Nat) : Nat :=
  if blk = 2 && code = 0x0001 then 16
  else if blk = 2 && code = 0x0002 then 8
  else if code = 0x0005 || code = 0x0034 || code = 0x0071 || code = 0x0063 then 4096
  else if code = 0x0007 then 512
  else if code = 0x0012 then 64
  else if code = 0x0031 then 1024
  else if code = 0x0032 then 16
  else if code = 0x0035 then 8
  else if code = 0x0061 || code = 0x0062 then 128
  else 1

/-- The register offset (19 Table 19.3) of the BLK_HSC register of a slot. -/
def hscOffset (blk inst slot : Nat) : Nat :=
  match blk with
  | 1 => 0x140000 + 0x80 * inst + 0x30 + 8 * slot
  | 2 => 0x180000 + 0x1000 * inst + 0x220 + 8 * slot
  | 3 => 0x100000 + 0x120 + 8 * slot
  | 4 => 0x100000 + 0x10010 + 0x40 * inst + 8 * slot
  | 5 => 0x18000 + 0x420 + 8 * slot
  | 6 => 0x16000 + 0x40 * inst + 0x10 + 8 * slot
  | 7 => 0x15000 + 0xE00 + 0x20 + 8 * slot
  | 8 => 0x60000 + 0x400 * inst + 0x200 + 0x20 + 8 * slot
  | 9 => 0x13000 + 0xE00 + 0x20 + 8 * slot
  | _ => 0x14000 + 0x620 + 8 * slot

/-- Slots per instance (05 Table 5.9); 0 for a code the table does not list. -/
def slotCount (blk : Nat) : Nat :=
  if blk = 1 || blk = 4 || blk = 6 || blk = 8 then 2
  else if blk = 2 || blk = 3 || blk = 5 || blk = 7 || blk = 9 || blk = 10 then 4
  else 0

/-- Instances of a block on the part (05 Table 5.9, 00 R1). -/
def slotInsts (s : State) (blk : Nat) : Nat :=
  let b := s.boot.fuses.part == 2
  if blk = 1 || blk = 4 then (if b then 1152 else 1536)
  else if blk = 2 then (if b then 48 else 64)
  else if blk = 6 then 8
  else if blk = 8 then 24
  else if slotCount blk = 0 then 0
  else 1

/-- The events a block's table lists (05 Table 5.9). -/
def slotEvents (blk : Nat) : List Nat :=
  match blk with
  | 1 => [0x01, 0x02, 0x03, 0x04, 0x05, 0x06, 0x07, 0x11, 0x12, 0x13]
  | 2 => [0x01, 0x02, 0x05, 0x06, 0x07, 0x08, 0x11]
  | 3 => [0x22, 0x24, 0x25, 0x29]
  | 4 => [0x21, 0x22, 0x24, 0x25, 0x26, 0x27, 0x28]
  | 5 => [0x31, 0x32, 0x33, 0x34, 0x35]
  | 6 => [0x33, 0x34, 0x41, 0x42, 0x43]
  | 7 => [0x71, 0x72, 0x73, 0x74]
  | 8 => [0x51, 0x52, 0x53, 0x54, 0x55, 0x56]
  | 9 => [0x61, 0x62, 0x63, 0x64, 0x65, 0x66]
  | 10 => [0x81, 0x82, 0x83, 0x84, 0x85]
  | _ => []

/-- 02 R26: `n` events reach one slot; a passage from 0xFFFF_FFFF_FFFF to zero sets WRAP and raises event 0x0611. -/
def slotAdd (blk inst slot n : Nat) (s : State) : State :=
  let k := slotKey blk inst slot
  let v := tabGet Slot.init s.hsc k
  let u := evUnit blk v.sel
  let t := v.cnt + (v.part + n) / u
  let v' := { v with part := (v.part + n) % u, cnt := t % 2 ^ 48, wrap := v.wrap || decide (2 ^ 48 ≤ t) }
  let s := setSlots (tabPut Slot.init s.hsc k v') s
  if 2 ^ 48 ≤ t then raiseDev 0x0611 (hscOffset blk inst slot) s else s

/-- 07 R145: whether a slot counts work of context `c`. In Shared tenancy a slot of a time-shared unit counts only the
selecting context's partition, and in Confidential host mode one that context 0 selected counts only context 0's work. -/
def slotSees (s : State) (v : Slot) (blk c : Nat) : Bool :=
  if !s.host.shared then true
  else if s.host.confidential && v.by_ == 0 then c == 0
  else if blk = 3 || blk = 9 || blk = 10 then v.by_ == 0 || (getCtx s v.by_).part == (getCtx s c).part
  else true

/-- Every slot of an instance that has the event selected counts it. -/
def countFrom (c blk inst code n : Nat) : Nat → State → State
  | 0, s => s
  | k + 1, s =>
    let s := countFrom c blk inst code n k s
    let v := tabGet Slot.init s.hsc (slotKey blk inst k)
    if v.sel = code && slotSees s v blk c then slotAdd blk inst k n s else s

/-- 02 R26: `n` occurrences of event `code` in instance `inst` of block `blk`, in work of context `c`. -/
def count (c blk inst code n : Nat) (s : State) : State :=
  if code = 0 then s else countFrom c blk inst code n (slotCount blk) s

end Sys2Proof.Machine
end

