-- ==== Sys2Proof/Machine/Operands.lean ====
section
/-! DEFINITION. Operand forms: device virtual addresses and their translation (06 Tables 6.3 to 6.5, R109 to R114), the offset map (19 Tables 19.1, 19.2, R355 to R357), and the fields of command parameters. -/

namespace Sys2Proof.Machine

/-- Kinds of access, coded as DNK_KQ_FAULT codes them (06 Table 6.11). -/
inductive Acc where
  | read | write | accum | fetch
  deriving DecidableEq, Repr

/-- The access code of DNK_KQ_FAULT [6:4]. -/
def Acc.code : Acc → Nat
  | .read => 1 | .write => 2 | .accum => 3 | .fetch => 4

/-- The rights needed, as a bitmap [0] read, [1] write, [2] accumulate, [3] fetch (05 Table 5.7). -/
def Acc.rights : Acc → Nat
  | .read => 1 | .write => 2 | .accum => 4 | .fetch => 8

/-- Where an address leads: an offset of this chip, or a host bus address. -/
inductive Loc where
  | dev (off : Nat)
  | host (addr : Nat)
  deriving DecidableEq, Repr

/-- Why an access fails: a cause of Table 6.5 at an address, or a pseudo-channel in Quarantine (18 R353). -/
inductive AccErr where
  | cause (n : Nat) (dva : Nat)
  | quarantined (unit : Nat)
  deriving DecidableEq, Repr

/-- The unit identifier of kind `k`, instance `i` (18 Table 18.5). -/
def unitId (k i : Nat) : Nat := k * 2048 + i

/-- 18 R353: whether a unit is in Quarantine or Releasing, and so admits no work. -/
def quarantined (s : State) (u : Nat) : Bool := (getUnit s u).quar || (getUnit s u).releasing

/-- 00 R1: the number of thickets of the part. -/
def thkCount (s : State) : Nat := if s.boot.fuses.part = 2 then 48 else 64

/-- 00 R1: the number of Wrens of the part. -/
def wrenCount (s : State) : Nat := 24 * thkCount s

/-- 19 R356: the pseudo-channel of an HBM offset. -/
def pcOf (s : State) (off : Nat) : Nat :=
  if s.host.shared then 12 * (off / 0x900000000) + (off % 0x900000000) / 4096 % 12 else off / 4096 % 96

/-- 19 Table 19.1: HBM offsets. -/
def isHbm (off : Nat) : Bool := off < 0x4800000000

/-- 19 Table 19.1: the offset of thicket `t`'s SRAM, and of Wren `w`'s local SRAM window. -/
def thkBase (t : Nat) : Nat := 0x110000000000 + 0x1000000 * t
def wrenBase (w : Nat) : Nat := 0x100000000000 + 0x100000 * w

/-- 19 R355, Table 19.1: an offset that exists on the part. -/
def offsetExists (s : State) (off : Nat) : Bool :=
  isHbm off && (!s.host.shared || off < 0x900000000 * s.host.parts)
  || (wrenBase 0 ≤ off && off < wrenBase (wrenCount s))
  || (thkBase 0 ≤ off && off < thkBase (thkCount s))
  || (0x3F0000000000 ≤ off && off < 0x3F0020000000)

/-- Whether the host refuses the translation of a bus address (06 R112): a cached translation stays usable. -/
def hostRefuses (s : State) (a : Nat) : Bool :=
  s.host.ats.all (fun r => a < r.1 || r.1 + r.2 ≤ a) && s.hostDeny.any (fun r => r.1 ≤ a && a < r.1 + r.2)

/-- The lower half of the address space maps host memory (06, Model). -/
def lowerHalf (a : Nat) : Bool := a < 0x800000000000

/-- One level of the walk of a host-managed table (06 Table 6.4, R109): levels `l` down to 1 remain, the table is at `t`. -/
def walkTable (s : State) (acc : Acc) (a : Nat) : Nat → Nat → Except Nat Loc
  | 0, _ => .error 3
  | l + 1, t =>
    let shift := 12 + 9 * l
    let at_ := t + 8 * bits a shift 9
    if hostRefuses s at_ then .error 5 else
    let e := leNat (memRead s.hostMem at_ 8)
    let leaf := bitOf e 6
    let addr := bits e 12 52 * 4096
    if !bitOf e 0 then .error 1
    else if bits e 7 5 != 0 then .error 3
    else if l = 0 && !leaf then .error 3
    else if leaf && l = 2 && bits e 12 18 != 0 then .error 3
    else if leaf && l = 1 && bits e 12 9 != 0 then .error 3
    else if leaf && l = 3 then .error 3
    else if !leaf then walkTable s acc a l addr
    else if !bitOf e 5 then .error 3
    else if (match acc with | .read => bitOf e 1 | .write => bitOf e 2 | .accum => bitOf e 3 | .fetch => bitOf e 4) then
      let b := addr + a % 2 ^ shift
      if hostRefuses s b then .error 5 else .ok (.host b)
    else .error 2

/-- The mapping of a context that covers an address. -/
def findMap (c : Ctx) (a : Nat) : Option Mapping := c.maps.find? fun m => m.dva ≤ a && a < m.dva + m.len

/-- Whether a mapping allows an access. A fetch of a program, package or table needs Read (log 10). -/
def mapAllows (m : Mapping) : Acc → Bool
  | .read => m.r | .write => m.w | .accum => m.acc | .fetch => m.r

/-- Translation of one device virtual address of context `c` (06 R109, R113). `bus` says that the access is one that
reaches host-kind memory in Confidential host mode (07 R133). -/
def translate (s : State) (c a : Nat) (acc : Acc) (bus : Bool) : Except Nat Loc :=
  if 2 ^ 48 ≤ a then .error 4
  else if s.host.confidential && c != 0 && lowerHalf a && !bus then .error 2
  else if lowerHalf a && (getCtx s c).root != 0 then walkTable s acc a 4 (getCtx s c).root
  else match findMap (getCtx s c) a with
    | none => .error 1
    | some m =>
      if !mapAllows m acc then .error 2
      else match getObj? s m.obj with
        | some o =>
          (match o.kind with
           | .mem .host base _ _ =>
             let b := s.host.hpoolBase.toNat + base + m.off + (a - m.dva)
             if hostRefuses s b then .error 5 else .ok (.host b)
           | .mem _ base _ _ => .ok (.dev (base + m.off + (a - m.dva)))
           | _ => .error 3)
        | none => .error 3

/-- The addresses at which a range of bytes enters each 4 KiB page. -/
def pageStarts (a n : Nat) : List Nat :=
  (List.range ((a + n - 1) / 4096 + 1 - a / 4096)).map fun i => max a ((a / 4096 + i) * 4096)

/-- The first failure of an access to `n` bytes (06 R113, 18 R353). -/
def rangeErr (s : State) (c a n : Nat) (acc : Acc) (bus : Bool) : Option AccErr :=
  if n = 0 then none else
  (pageStarts a n).findSome? fun p =>
    match translate s c p acc bus with
    | .error e => some (.cause e p)
    | .ok (.dev off) => if isHbm off && quarantined s (unitId 0x0D (pcOf s off)) then some (.quarantined (unitId 0x0D (pcOf s off))) else none
    | .ok (.host _) => none

/-- The byte at a location. -/
def locGet (s : State) : Loc → Byte
  | .dev off => memGet s.mem off
  | .host a => memGet s.hostMem a

/-- A byte stored at a location. -/
def locPut (s : State) (b : Byte) : Loc → State
  | .dev off => setMem (memPut s.mem off b) s
  | .host a => setHostMem (memPut s.hostMem a b) s

/-- The byte that a context reads at an address whose access was checked. -/
def dvaGet (s : State) (c a : Nat) (acc : Acc) (bus : Bool) : Byte :=
  match translate s c a acc bus with
  | .ok l => locGet s l
  | .error _ => 0

/-- A byte stored at an address whose access was checked. -/
def dvaPut (s : State) (c a : Nat) (acc : Acc) (bus : Bool) (b : Byte) : State :=
  match translate s c a acc bus with
  | .ok l => locPut s b l
  | .error _ => s

/-- Bytes stored from an address. -/
def dvaStore (c : Nat) (acc : Acc) (bus : Bool) : Nat → List Byte → State → State
  | _, [], s => s
  | a, b :: bs, s => dvaStore c acc bus (a + 1) bs (dvaPut s c a acc bus b)

/-- `n` bytes read from an address, or why the access fails. -/
def dvaRead (s : State) (c a n : Nat) (acc : Acc) (bus : Bool) : Except AccErr (List Byte) :=
  match rangeErr s c a n acc bus with
  | some e => .error e
  | none => .ok ((List.range n).map fun i => dvaGet s c (a + i) acc bus)

/-- Bytes written at an address, all or none, or why the access fails. -/
def dvaWrite (s : State) (c a : Nat) (bs : List Byte) (acc : Acc) (bus : Bool) : Except AccErr State :=
  match rangeErr s c a bs.length acc bus with
  | some e => .error e
  | none => .ok (dvaStore c acc bus a bs s)

/-- 06 R113, 18 R353: the status and DETAIL of a command whose access failed. -/
def accStatus (acc : Acc) : AccErr → Nat × Nat
  | .cause _ _ => (0x0204, acc.rights)
  | .quarantined u => (0x0C03, u)

/-! The fields of command parameters (05 R81, R86). -/

/-- Parameter word `i` of a packet. -/
def Packet.w (p : Packet) (i : Nat) : Nat := word p.params i

/-- The byte offset, in the packet, of bit `lo` of parameter word `i` (05 Table 5.7). -/
def paramAt (i lo : Nat) : Nat := 0x40 + 8 * i + lo / 8

/-- Where the Rsvd field that holds bit `k` begins: the bit after the highest listed bit below `k`. -/
def rsvdStart (mask : Nat) : Nat → Nat
  | 0 => 0
  | k + 1 => if bitOf mask k then k + 1 else rsvdStart mask k

/-- The offset of the first Rsvd field of word `i` that is not zero: `mask` marks the listed bits (05 R86). -/
def rsvdWord (i mask v : Nat) : Option Nat :=
  ((List.range 64).find? fun k => bitOf v k && !bitOf mask k).map fun k => paramAt i (rsvdStart mask k)

/-- The offset of the first Rsvd field that is not zero in a parameter list, given the listed bits of each word. -/
def rsvdParams (params : List Byte) : Nat → List Nat → Option Nat
  | _, [] => none
  | i, m :: ms => (rsvdWord i m (word params i)).or (rsvdParams params (i + 1) ms)

/-- Bits [hi:lo] of a word as a mask. -/
def maskOf (hi lo : Nat) : Nat := 2 ^ (hi + 1) - 2 ^ lo

end Sys2Proof.Machine
end

