-- ==== Sys2Proof/Machine/Flags.lean ====
section
/-! DEFINITION. Status words: the effective point and PWR_STATE (03 R40, Table 3.14), boot, Lark and tenancy status words, status records (05 Table 5.2), event log entries (18 Table 18.3) and tile status words (10 Table 10.3). -/

namespace Sys2Proof.Machine

/-- 03 R40: the point that Run would use now, the lowest of the requested point and the four ceilings. -/
def runPoint (p : Pwr) : Nat := min p.ptReq (min p.ceilTherm (min p.ceilPower (min p.ceilVin p.ceilCar)))

/-- PWR_STATE.EFF_PT (03 Table 3.14): the effective point, 0 outside Run. -/
def effPoint (p : Pwr) : Nat := if p.st = .run then runPoint p else 0

/-- PWR_STATE.STATE (03 Table 3.14). -/
def PState.code : PState → Nat
  | .off => 0 | .standby => 1 | .idle => 2 | .run => 3 | .tripped => 4

/-- PWR_STATE (03 Table 3.14). -/
def pwrState (p : Pwr) : Nat :=
  p.st.code + effPoint p * 2 ^ 3 + p.ceilTherm * 2 ^ 6 + p.ceilPower * 2 ^ 9 + p.ceilVin * 2 ^ 12 + p.ceilCar * 2 ^ 15
    + b2n p.duty * 2 ^ 18

/-- PWR_CAUSE (03 Table 3.15). -/
def causeCode : Option StopCause → Nat
  | none => 0
  | some .overvolt => 1 | some .undervolt => 2 | some .thermalAnalog => 3 | some .thermal => 4 | some .removal => 5
  | some .coldPin => 6

/-- PWR_STRAP (03 Table 3.15). -/
def strapWord (t : Straps) : Nat :=
  t.pos.toNat + b2n t.par * 2 ^ 17 + b2n t.prio * 2 ^ 18 + t.boot.toNat * 2 ^ 19 + t.pcie.toNat * 2 ^ 21 + b2n t.fault * 2 ^ 23

/-- The chip number (03 R59). -/
def chipNo (s : State) : Nat := s.pwr.straps.pos.toNat

/-- RBN_BOOT_STATUS (04 Table 4.7). -/
def bootStatus (s : State) : Nat :=
  let b := s.boot
  b.stage + b.step * 2 ^ 4 + b.code * 2 ^ 8 + b.src.toNat * 2 ^ 16 + b2n b.slot * 2 ^ 18 + b2n b.fallback * 2 ^ 19
    + b2n s.pwr.straps.fault * 2 ^ 20

/-- LRK_STATUS (02 Table 2.8). -/
def lrkStatus (l : Lark) : Nat :=
  l.state.toNat + b2n l.refLost * 4 + b2n l.ppsLost * 8 + l.holdPort.toNat * 16

/-- DNK_TENANCY (07 Table 7.10). -/
def tenancyWord (h : HostSt) : Nat := b2n h.confidential + b2n h.shared * 2 + h.parts * 4

/-- NUT_STATUS (08 Table 8.9). -/
def nutStatus (u : Nut) : Nat :=
  b2n u.rootsReady + b2n u.policyLost * 2 + b2n (!u.authority.isEmpty) * 4 + u.floors.length * 8

/-- The DETAIL of status 0x0409 (05 Table 5.7): source code and the low 24 bits of the source register. -/
def devState (src reg : Nat) : Nat := src * 2 ^ 24 + reg % 2 ^ 24

/-- Queue state codes (05 Table 5.8). -/
def QState.code : QState → Nat
  | .absent => 0 | .ready => 1 | .waiting => 2 | .running => 3 | .error => 4 | .resetting => 5

/-- SFLAGS (05 Table 5.2). -/
def sflags (r : StatusRec) : Nat := b2n r.dup + b2n r.sealed * 2 + b2n r.phase * 2 ^ 15

/-- The 32 bytes of a status record (05 Table 5.2). -/
def recBytes (r : StatusRec) : List Byte :=
  natLE 4 r.tag ++ natLE 2 r.status ++ natLE 2 (sflags r) ++ natLE 4 r.detail ++ natLE 4 r.rlen ++ natLE 8 r.res0
    ++ natLE 8 r.res1

/-- The 32 bytes of an event log entry (18 Table 18.3). -/
def eventBytes (e : Event) : List Byte :=
  natLE 8 e.seq ++ natLE 8 e.time ++ natLE 2 e.code
    ++ natLE 2 ((match e.ctx with | some c => c | none => 2 ^ 12) + e.part * 2 ^ 13)
    ++ natLE 2 e.unit ++ natLE 2 e.rep ++ natLE 8 e.detail

/-- RBN_DEBUG (04 Table 4.8): lifecycle, UNLOCKED, scope, and the token digest prefix. -/
def lifecycleCode (lc : BitVec 8) : Nat := if lc.getLsbD 4 then 2 else if lc.getLsbD 0 then 1 else 0

/-- RBN_DEBUG (04 Table 4.8). -/
def debugWord (b : Boot) : Nat :=
  lifecycleCode b.fuses.lifecycle + b2n b.debugUnlocked * 4 + b.debugScope.toNat * 8 + leNat (b.tokenPrefix.take 7) * 256

/-- The 64-bit tile status word (10 Table 10.3). -/
def tswWord (t : Tsw) : Nat :=
  b2n t.empty + b2n t.opn * 2 + t.group * 4 + b2n t.exhausted * 2 ^ 5 + b2n t.termLimit * 2 ^ 6 + b2n t.boundLost * 2 ^ 7
    + t.scale * 2 ^ 8 + t.retries * 2 ^ 14 + t.fmt * 2 ^ 18 + min t.terms 0xFFFFFFFF * 2 ^ 32

end Sys2Proof.Machine
end

