-- ==== Sys2Proof/Machine/Complete.lean ====
section
/-! DEFINITION. Completion: status records, completion counters, MSI-X, the duplicate window, sealed results, and the queue resets that wait for a running command (05 R83, R84, R96 to R98; 06 R120; 07 R138). -/

namespace Sys2Proof.Machine

/-- How a command completes: status, DETAIL, the two result words and the result data (05 Table 5.2). -/
structure Done where
  status : Nat
  detail : Nat
  res0 : Nat
  res1 : Nat
  data : List Byte
  deriving DecidableEq, Repr

/-- A refusal: a status and its DETAIL. -/
def Done.fail (status detail : Nat) : Done := { status := status, detail := detail, res0 := 0, res1 := 0, data := [] }

/-- Completion with status 0x0000. -/
def Done.ok : Done := Done.fail 0 0

/-- Completion with status 0x0000 and result words. -/
def Done.res (r0 r1 : Nat) : Done := { Done.ok with res0 := r0, res1 := r1 }

/-- The function whose MSI-X table a context's vectors are in. -/
def ctxFn (s : State) (c : Nat) : Fn := if c = 0 then .pf else (getCtx s c).fn

/-- 06 R120: the completion counter of a queue; a mirror queue shows the counter of its queue pair. -/
def counterOf (s : State) (q : Nat) : BitVec 32 :=
  let v := getQ s q
  if v.typ = 3 then (if v.mirrorRecv then (getQp s v.mirror).recvCnt else (getQp s v.mirror).sendCnt) else v.cnt

/-- 05 R83: the status ring has a free record. -/
def ringRoom (v : Queue) : Bool := (v.written - v.released).toNat < 2 ^ v.c

/-- 06 R120: the counter is written as one aligned 8-byte write, bytes 4 to 7 zero. -/
def writeCounter (v : Queue) (s : State) : State :=
  setHostMem (memWrite s.hostMem v.cntAddr (natLE 4 v.cnt.toNat ++ zeros 4)) s

/-- 05 R84: the record becomes visible, then the counter advances, and then MSI-X is sent if IRQ is set. PHASE is 1 on the
first pass through the ring. -/
def postRec (q : Nat) (r : StatusRec) (irq : Bool) (s : State) : State :=
  let v := getQ s q
  let r := { r with phase := v.written.toNat / 2 ^ v.c % 2 == 0 }
  let s := setHostMem (memWrite s.hostMem (v.cq + 32 * (v.written.toNat % 2 ^ v.c)) (recBytes r)) s
  let v' := { v with written := v.written + 1, cnt := v.cnt + 1 }
  let s := writeCounter v' (putQ q v' s)
  if irq then emit (.msix (ctxFn s v.ctx) v.vec) s else s

/-- 05 R96: a completion enters the duplicate window, which holds the last 64. -/
def dupPush (w : List DupEntry) (e : DupEntry) : List DupEntry := (w ++ [e]).drop (w.length + 1 - 64)

/-- 07 R137: the nonce of a sealed packet (direction 1) or result (direction 2). -/
def tagNonce (dir tag : Nat) : List Byte := natLE 8 dir ++ natLE 4 tag

/-- Whether a packet is sealed. -/
def Packet.isSealed (p : Packet) : Bool := bitOf p.flags 2

/-- 07 R138: the sealed result of a record and its data under the context's k_res. -/
def sealResult (k : List Byte) (r : StatusRec) (data : List Byte) : List Byte :=
  let text := recBytes r ++ data
  let ct := gcmCrypt k (tagNonce 2 r.tag) text
  ct ++ gcmTag k (tagNonce 2 r.tag) (natLE 4 r.tag ++ natLE 2 r.status) ct

/-- The status record and the bytes for the result buffer of a packet that completes on a queue (05 R87, 07 R138). -/
def resultOf (p : Packet) (d : Done) : StatusRec × List Byte :=
  let full : StatusRec := { tag := p.tag, status := d.status, dup := false, sealed := false, phase := false, detail := d.detail,
                            rlen := d.data.length, res0 := d.res0, res1 := d.res1 }
  if p.isSealed && p.accepted then
    if 48 ≤ p.rbufLen then
      let data := if p.rbufLen < 48 + d.data.length then [] else d.data
      let inner := { full with sealed := true, rlen := 48 + data.length }
      ({ inner with detail := 0, res0 := 0, res1 := 0 }, sealResult p.kRes inner data)
    else ({ full with rlen := 0, res0 := 0, res1 := 0 }, [])
  else (full, d.data)

/-- The result bytes are written to the result buffer of a packet (a failed access was refused before, under R88). -/
def writeResult (p : Packet) (bs : List Byte) (s : State) : State :=
  match dvaWrite s p.ctx p.rbuf bs .write true with
  | .ok s' => s'
  | .error _ => s

/-- A queue after R98: nothing running, ring indexes at zero, the counter and the duplicate window kept. Mode 0 leaves it
Ready, mode 1 removes it, mode 2 leaves it Absent with counter and window kept (R380). -/
def resetQueue (mode : Nat) (v : Queue) : Queue :=
  if mode = 1 then Queue.init else
  { v with st := (if mode = 2 then .absent else .ready), fetch := 0, prod := 0, written := 0, released := 0, errStatus := 0
           cur := none, desc := none, edge := none, fault := none, db := [], resetBy := none }

/-- The packets of a submission ring from slot `at_` on, of which `left` slots are rung, walked header by header; a packet
whose header cannot be located counts as one and ends the walk (05 R98). The first number bounds the walk. -/
def countPackets (s : State) (v : Queue) : Nat → Nat → Nat → Nat
  | 0, _, _ => 0
  | fuel + 1, at_, left =>
    if left = 0 then 0 else
    let h := memRead s.hostMem (v.sq + 64 * (at_ % 2 ^ v.s)) 16
    let plen := field h 12 2 % 512
    if field h 0 2 != 0x4B01 || 504 < plen then 1
    else 1 + countPackets s v fuel (at_ + ceilDiv (64 + 8 * plen) 64) (left - ceilDiv (64 + 8 * plen) 64)

/-- The entries of a queue that a reset discards: the fetched one that has not begun and the unfetched ones (05 R98). -/
def discarded (s : State) (v : Queue) : Nat :=
  let left := (v.prod - v.fetch).toNat
  let fetched := match v.cur with | some p => b2n (!p.started) | none => b2n v.desc.isSome
  fetched + (if v.typ = 0 then countPackets s v left v.fetch.toNat left else left)

/-- A command of a host queue completes: result bytes, record, counter, interrupt, duplicate window. -/
def finishPlain (q : Nat) (d : Done) (s : State) : State :=
  match (getQ s q).cur with
  | none => s
  | some p =>
    let r := (resultOf p d).1
    let bs := (resultOf p d).2
    let s := if bs.isEmpty then s else writeResult p bs s
    let e : DupEntry := { tag := p.tag, digest := p.digest, rec_ := r, sealedOut := if p.isSealed then bs else [] }
    let s := postRec q r (bitOf p.flags 3) s
    modQ q (fun w => { w with st := (if w.st = .error then .error else .ready), cur := none, edge := none, fault := none
                              dup := dupPush w.dup e }) s

/-- An entry of a DMA or launch queue completes with a record of its own (06 R118). -/
def finishEntry (q tag status detail rlen res0 res1 : Nat) (irq : Bool) (s : State) : State :=
  postRec q { tag := tag, status := status, dup := false, sealed := false, phase := false, detail := detail, rlen := rlen,
              res0 := res0, res1 := res1 } irq s

/-- The descriptor that a DMA or launch queue holds completes, and the queue goes on (06 Table 6.7). -/
def finishDesc (q status detail res0 res1 : Nat) (s : State) : State :=
  match (getQ s q).desc with
  | none => s
  | some b =>
    modQ q (fun w => { w with st := (if w.st = .error then .error else .ready), desc := none, edge := none, fault := none })
      (finishEntry q (field b 8 4) status detail 0 res0 res1 (bitOf (field b 2 2) 3) s)

/-- No fence waits for a queue any more: its ring starts again or it is gone. -/
def unfence (q : Nat) (s : State) : State :=
  let f (p : Packet) : Packet := { p with fence := p.fence.filter fun e => e.1 != q }
  onHost (fun h => { h with queues := h.queues.map (fun e => (e.1, { e.2 with cur := e.2.cur.map f })), mgmt := h.mgmt.map f }) s

/-- 06 R123: an entry whose armed edge targets a destroyed queue completes with 0x0403. -/
def failWaiter (q : Nat) (s : State) (w : Nat) : State :=
  if (getQ s w).edge.map Prod.fst = some q then finishDesc w 0x0403 0 0 0 (finishPlain w (Done.fail 0x0403 0) s) else s

/-- 06 R123: every entry that waits on a destroyed queue; a queue pair's head descriptor fails at its next turn. -/
def failWaiters (q : Nat) (s : State) : State :=
  let s := (s.host.queues.map Prod.fst).foldl (failWaiter q) s
  (s.lnt.qps.map Prod.fst).foldl (fun s n =>
    if (getQp s n).edge.map Prod.fst = some q then modQp n (fun v => { v with edge := none, failed := 0x0403 }) s else s) s

/-- A queue is reset (mode 0), destroyed (mode 1, R123) or disabled (mode 2, R380). -/
def clearQueue (q mode : Nat) (s : State) : State :=
  let s := unfence q (putQ q (resetQueue mode (getQ s q)) s)
  if mode = 1 then failWaiters q (onHost (fun h => { h with freedQ := h.freedQ ++ [q] }) s) else s

/-- A command of a host queue completes. On a queue that a reset waits on, the record enters the window but not the ring, and
the reset takes effect (05 R98). -/
def finishHost (q : Nat) (d : Done) (s : State) : State :=
  let v := getQ s q
  match v.resetBy, v.cur with
  | some (mode, _), some p =>
    let r := (resultOf p d).1
    let bs := (resultOf p d).2
    let s := if bs.isEmpty then s else writeResult p bs s
    clearQueue q mode (modQ q (fun w => { w with dup := dupPush w.dup { tag := p.tag, digest := p.digest, rec_ := r, sealedOut := if p.isSealed then bs else [] } }) s)
  | _, _ => finishPlain q d s

/-- A command of the management pseudo-queue completes: the record and the data go back over MCTP (05 R104). -/
def finishMgmt (d : Done) (s : State) : State :=
  match s.host.mgmt with
  | none => s
  | some p =>
    let r := (resultOf p d).1
    emit (.mctp (recBytes r ++ d.data))
      (onHost (fun h => { h with mgmt := none
                                 mgmtDup := dupPush h.mgmtDup { tag := p.tag, digest := p.digest, rec_ := r, sealedOut := [] } }) s)

/-- A command completes; where a queue reset waited for it, the command that asked for the reset completes too. The number
bounds the chain of resets. -/
def finishChain : Nat → QRef → Done → State → State
  | 0, _, _, s => s
  | _ + 1, .mgmt, d, s => finishMgmt d s
  | fuel + 1, .host q, d, s =>
    let v := getQ s q
    let s' := finishHost q d s
    match v.resetBy with
    | some (_, some by_) => finishChain fuel by_ (Done.res (discarded s { v with cur := none }) 0) s'
    | _ => s'

/-- A command completes. -/
def finish (q : QRef) (d : Done) (s : State) : State := finishChain (s.host.queues.length + 2) q d s

/-- DETAIL of a 0x07xx status: fabric time [63:32] at the abort (05 Table 5.7). -/
def abortDetail (s : State) : Nat := s.lark.time / 2 ^ 32

/-- Whatever a queue has fetched is completed with a status of the 0x07xx family. -/
def abortQueue (status q : Nat) (s : State) : State :=
  let s := if (getQ s q).cur.isSome then finish (.host q) (Done.fail status (abortDetail s)) s else s
  finishDesc q status (abortDetail s) 0 0 s

end Sys2Proof.Machine
end

