-- ==== Sys2Proof/Machine/Power.lean ====
section
/-! DEFINITION. Power, thermal and pin commands (03), and what a stop and a warm reset leave (03 R44; 04 R62, R63, Table 4.1; 19 R369). -/

namespace Sys2Proof.Machine

/-- The outcome of a command. -/
abbrev Res := Host.Outcome State Fault Refusal

/-- The power state changes; PWR_GOOD is high in Idle and Run (03 R379). -/
def setSt (st : PState) (p : Pwr) : Pwr :=
  { p with st := st, pins := { p.pins with pwrGood := st == .idle || st == .run } }

/-- The four ceilings (03 Table 3.4). -/
inductive Ceiling where
  | therm | power | vin | car
  deriving DecidableEq, Repr

/-- A ceiling's value. -/
def Ceiling.get (p : Pwr) : Ceiling → Nat
  | .therm => p.ceilTherm | .power => p.ceilPower | .vin => p.ceilVin | .car => p.ceilCar

/-- A ceiling set. -/
def Ceiling.set (v : Nat) (p : Pwr) : Ceiling → Pwr
  | .therm => { p with ceilTherm := v } | .power => { p with ceilPower := v }
  | .vin => { p with ceilVin := v } | .car => { p with ceilCar := v }

/-- The event of a ceiling (03 Table 3.4). -/
def Ceiling.event : Ceiling → Nat
  | .therm => 0x0C0B | .power => 0x0C0D | .vin => 0x0C07 | .car => 0x0C0E

/-- What sets the effective point changes; in Run, VCORE starts to move when the effective point does (03 R40, 02 R21). -/
def repoint (f : Pwr → Pwr) (p : Pwr) : Pwr :=
  let q := f p
  { q with settling := q.settling || (q.st == .run && effPoint q != effPoint p) }

/-- 03 R53: the KL-5 drives PROCHOT_N low only while PH_OUT is 1 and its thermal ceiling lies below PP5 or it is Tripped. A
release is followed by a sample. -/
def syncProchot (p : Pwr) : Pwr :=
  let d := p.phOut && (decide (p.ceilTherm < 5) || p.st == .tripped)
  { p with pins := { p.pins with prochotDrive := d }, phSample := !d && (p.phSample || p.pins.prochotDrive) }

/-- 03 R40: a ceiling changes and raises its event with the new ceiling in [2:0] and the previous one in [5:3]. -/
def setCeil (c : Ceiling) (v : Nat) (s : State) : State :=
  let old := c.get s.pwr
  if old = v then s
  else raiseDev c.event (v + old * 8) (onPwr (fun p => syncProchot (repoint (fun p => c.set v p) p)) s)

/-- 03 R41, R55: one point below the lower of the ceiling and the effective point, but not below PP1. -/
def lowered (c : Ceiling) (p : Pwr) : Nat := max 1 (min (c.get p) (runPoint p) - 1)

/-- The priority of the causes (03 R47). -/
def causeRank : StopCause → Nat
  | .overvolt => 1 | .undervolt => 2 | .thermalAnalog => 3 | .thermal => 4 | .removal => 5 | .coldPin => 6

/-- 03 R47: of the causes detected in one 50 µs period, the first in the fixed order. -/
def firstCause (c : StopCause) : List StopCause → StopCause
  | [] => c
  | d :: ds => firstCause (if causeRank d < causeRank c then d else c) ds

/-- 03 R47: the cause latch keeps the cause detected first since the last entry into Standby from Off. -/
def latchCause (c : StopCause) (also : List StopCause) (p : Pwr) : Pwr :=
  if p.causeHeld then p else { p with cause := some (firstCause c also), causeHeld := true }

/-- 03 R44, 04 Table 4.1 (cold): every rail switches off and all chip state is lost. Flash, fuses, the cause latch, the
THERMTRIP_N latch and what lies outside the chip (pins, host memory, the record of outputs) stay. -/
def coldState (s : State) : State :=
  { State.reset with
    pwr := { Pwr.init with cause := s.pwr.cause, causeHeld := s.pwr.causeHeld, coldHeld := s.pwr.coldHeld
                           pins := { s.pwr.pins with prochotDrive := false, pwrGood := false, pwrFaultN := false
                                                     ppsOut := false, mgmtAlertN := true } }
    boot := { Boot.init with fuses := s.boot.fuses, flash := s.boot.flash }
    lark := { Lark.init with refPresent := s.lark.refPresent }
    hostMem := s.hostMem, hostDeny := s.hostDeny, lastRead := s.lastRead, out := s.out, free := s.free
    pending := s.pending }

/-- 03 R44: a stop with its cause, and the other causes detected in the same 50 µs period. -/
def stop (c : StopCause) (also : List StopCause) (s : State) : State := coldState (onPwr (latchCause c also) s)

/-- The chip is powered: it is not Off. -/
def powered (s : State) : Bool := s.pwr.st != .off

/-- The Siskin ports that are trained (13 Table 13.7): ACTIVE, Holding or Roost. -/
def trainedPorts (s : State) : List Nat :=
  (List.range 24).filter fun n => (getSkn s n).st = 4 || (getSkn s n).st = 5 || (getSkn s n).st = 6

/-- 13 R265: LINK_DOWN on every trained port. -/
def sendLinkDown (s : State) : State := emitAll ((trainedPorts s).map fun n => .ctl n 1 0) s

/-- A Siskin port whose SerDes is off: its configuration stays, its link is gone. -/
def Skn.dark (v : Skn) : Skn :=
  { Skn.init with en := v.en, roostEn := v.roostEn, demand := v.demand, hold := v.hold, roostK := v.roostK
                  losses := v.losses, quar := v.quar }

/-- Siskin and Ethernet SerDes off (03 Table 3.1). -/
def darkLinks (s : State) : State :=
  onLnt (fun l => { l with ports := l.ports.map fun e => (e.1, { e.2 with st := 0 }) })
    (setSkn (s.skn.foldl (fun t e => tabPut Skn.init t e.1 e.2.dark) []) s)

/-- The SRAM of Wrens and thickets has lost its contents (VSRAM off, 03 Table 3.1). -/
def loseSram (s : State) : State := setMem (s.mem.filter fun c => isHbm c.1) s

/-- 03 R50: event 0x0C0F. -/
def latchEvent (s : State) : State := raisePlain 0x0C0F none 0xFFFF s

/-- 03 R40, R50: what the pads already hold as the chip comes up: a PROCHOT_N that the carrier drives low, a latch that is open. -/
def padsAtPower (s : State) : State :=
  let s := if s.pwr.pins.prochotExt then s else setCeil .car 1 s
  if s.pwr.pins.modLatchN then latchEvent s else s

/-- 03 R39, R38: Standby is entered from Off. -/
def enterStandby (s : State) : State :=
  padsAtPower (onPwr (fun p => setSt .standby { p with causeHeld := false, coldHeld := false
                                                       pins := { p.pins with pwrFaultN := true, thermtripN := true } }) s)

/-- 03 R39: VIN rises through VIN_ON in Off. -/
def execVinOn (s : State) : Res :=
  .next (if s.pwr.st = .off ∧ s.pwr.coldHeld = false then enterStandby s else s)

/-- 03 R59: the strap pads in the order of Table 3.12: STRAP_POS[16:0], PAR, PRIO, BOOT, PCIE. -/
def strapsOf (w : BitVec 23) (fault : Bool) : Straps :=
  { latched := true, fault := fault, pos := w.extractLsb' 0 17, par := w.getLsbD 17, prio := w.getLsbD 18
    boot := w.extractLsb' 19 2, pcie := w.extractLsb' 21 2 }

/-- 03 R59: the ones of STRAP_POS and STRAP_PAR count odd. -/
def strapParityOk (w : BitVec 23) : Bool := ((List.range 18).countP fun i => w.getLsbD i) % 2 == 1

/-- 03 R48, R59, R60: eight samples are latched if they agree; a disagreement, a parity failure or STRAP_PCIE 0b11 is a
strap fault, event 0x0810. On a disagreement the value latched is a free value (log 12). -/
def latchStraps (samples : List (BitVec 23)) (s : State) : State :=
  let w0 := samples.headD 0
  let agree := samples.all (· == w0)
  let w := if agree then w0 else BitVec.ofNat 23 (Config.freeNat s.free)
  let fault := !agree || !strapParityOk w || w.extractLsb' 21 2 == 3
  let s := if agree then s else { s with free := s.free + 1 }
  let s := onBoot (fun b => { b with romReady := true }) (onPwr (fun p => { p with straps := strapsOf w fault }) s)
  if fault then raisePlain 0x0810 none 0xFFFF s else s

/-- 03 R48: in Standby with CAR_MATED_N low for 5 ms, the straps are latched once and the boot ROM may start. -/
def execStrapLatch (samples : List (BitVec 23)) (s : State) : Res :=
  .next (if s.pwr.st = .standby ∧ s.pwr.straps.latched = false ∧ samples.length = 8
         then latchStraps samples (onPins (fun p => { p with carMatedN := false }) s) else s)

/-- 03 R40, Table 3.5: VIN below 38.5 V. -/
def execVinLow (s : State) : Res := .next (if powered s then setCeil .vin 1 s else s)

/-- 03 R40, Table 3.5: VIN above 39.5 V for 1 ms. -/
def execVinLowClear (s : State) : Res := .next (if powered s then setCeil .vin 5 s else s)

/-- 03 R44: VIN_UV. -/
def execVinUv (also : List StopCause) (s : State) : Res := .next (if powered s then stop .undervolt also s else s)

/-- 03 R44: VIN_OV. -/
def execVinOv (also : List StopCause) (s : State) : Res := .next (if powered s then stop .overvolt also s else s)

/-- 03 Table 3.7: the independent comparator at 120 °C. -/
def execThermalAnalogStop (also : List StopCause) (s : State) : Res :=
  .next (if powered s then stop .thermalAnalog also s else s)

/-- 03 R49: a removal in Idle or Run: link-down sets, Ethernet stops, cause REMOVAL; then VIN is awaited. -/
def execRemoval (also : List StopCause) (s : State) : Res :=
  .next (if s.pwr.st = .idle ∨ s.pwr.st = .run then
    onPwr (fun p => { latchCause .removal also p with removing := true, pins := { p.pins with carMatedN := true } })
      (emit .ethStop (sendLinkDown s))
  else s)

/-- 03 R49: CAR_MATED_N returns low after a removal began: a stop all the same. -/
def execMatedReturnStop (s : State) : Res :=
  .next (if s.pwr.removing then stop .removal [] (onPins (fun p => { p with carMatedN := false }) s) else s)

/-- 03 R50: event 0x0C0F once as MOD_LATCH_N goes high. -/
def execModLatchOpen (s : State) : Res :=
  .next (let t := onPins (fun p => { p with modLatchN := true }) s
         if powered s then latchEvent t else t)

/-- 03 R52: COLD_RESET_N low for 10 µs stops the chip with cause COLD_PIN and holds it off. -/
def execColdResetPin (also : List StopCause) (s : State) : Res :=
  .next (let s := onPwr (fun p => { p with coldHeld := true, pins := { p.pins with coldResetN := false } }) s
         if powered s then stop .coldPin also s else s)

/-- 03 R52: COLD_RESET_N returns high: a restart as if VIN had crossed VIN_ON. -/
def execColdResetRelease (s : State) : Res :=
  .next (if s.pwr.coldHeld then enterStandby (onPins (fun p => { p with coldResetN := true }) s) else s)

/-- 03 R40, R53: the carrier drives PROCHOT_N low; while the KL-5 itself drives the pad it does not act on it. -/
def execProchotLow (s : State) : Res :=
  .next (let t := onPins (fun p => { p with prochotExt := false }) s
         if powered s && !s.pwr.pins.prochotDrive then setCeil .car 1 t else t)

/-- 03 R40, R53: the carrier releases PROCHOT_N. -/
def execProchotHigh (s : State) : Res :=
  .next (let t := onPins (fun p => { p with prochotExt := true }) s
         if powered s && !s.pwr.pins.prochotDrive then setCeil .car 5 t else t)

/-- 03 R53: the sample 20 µs after the KL-5 releases PROCHOT_N; a low level is the carrier's. -/
def execProchotReleaseSample (low : Bool) (s : State) : Res :=
  .next (if powered s && s.pwr.phSample then
    setCeil .car (if low then 1 else 5)
      (onPwr (fun p => { p with phSample := false, pins := { p.pins with prochotExt := !low } }) s)
  else s)

/-- A temperature reading is recorded in PWR_TJ (03 R54, Table 3.15). -/
def readTj (tj : Int) (sensor : Nat) (s : State) : State := onPwr (fun p => { p with tj := tj, hotSensor := sensor }) s

/-- 03 R54, Table 3.7: Tj crosses WARN. -/
def execThermalWarn (tj : Int) (sensor : Nat) (s : State) : Res :=
  .next (if powered s then
    let s := readTj tj sensor s
    if (s.pwr.warn : Int) ≤ tj then raisePlain 0x0C0A none 0xFFFF s else s
  else s)

/-- 03 R55: a 2 ms period in which every sample reached THROTTLE. -/
def execThrottlePeriod (tj : Int) (sensor : Nat) (s : State) : Res :=
  .next (if powered s then
    let s := readTj tj sensor s
    if (s.pwr.throttle : Int) ≤ tj then setCeil .therm (lowered .therm s.pwr) s else s
  else s)

/-- 03 R55: 100 ms with every sample at or below THROTTLE − 8 °C. -/
def execThrottleRecovery (tj : Int) (sensor : Nat) (s : State) : Res :=
  .next (if powered s then
    let s := readTj tj sensor s
    if tj ≤ (s.pwr.throttle : Int) - 8 then setCeil .therm (min 5 (s.pwr.ceilTherm + 1)) s else s
  else s)

/-- 02 R21: VCORE has settled at the effective point. -/
def execPointChangeSettled (s : State) : Res :=
  .next (if s.pwr.settling then onPwr (fun p => { p with settling := false, curPt := effPoint p }) s else s)

/-- 03 R56: the power block as the chip enters Tripped. -/
def onTrip (p : Pwr) : Pwr :=
  let q := setSt .tripped (latchCause .thermal [] p)
  { q with target := none, settling := false, warmBusy := false, warmScrubbed := false, warmFromPin := false
           pins := { q.pins with thermtripN := false, pwrFaultN := false } }

/-- 03 R56: a SET_POWER_STATE that waits for its transition as the chip trips cannot be met any more: 0x0409 (log 53). -/
def refusePending (s : State) : State :=
  match s.pwr.req with
  | none => s
  | some q => finish q (Done.fail 0x0409 (devState 1 (pwrState s.pwr))) (onPwr (fun p => { p with req := none }) s)

/-- 03 R56: the trip: only the Standby rails stay, THERMTRIP_N and PWR_FAULT_N go low, cause THERMAL, Tripped; HBM content and
SRAM content are lost and every link is down. A warm reset under way goes no further. -/
def trip (s : State) : State :=
  refusePending (setMem [] (darkLinks (onPwr (fun p => syncProchot (onTrip p)) s)))

/-- 03 R56: Tj reaches CRIT. -/
def execCritTrip (tj : Int) (sensor : Nat) (s : State) : Res :=
  .next (if powered s then
    let s := readTj tj sensor s
    if 110 ≤ tj ∧ s.pwr.st ≠ .tripped then trip s else s
  else s)

/-- 03 Table 3.8: an HBM stack reports its temperature. -/
def execHbmStackLimit (stack : Nat) (temp : Int) (s : State) : Res :=
  .next (if powered s && decide (stack < 6) then
    let was := s.pwr.stackLimit.getLsbD stack
    let bit := BitVec.ofNat 6 (2 ^ stack)
    let upd (on : Bool) (v : BitVec 6) : BitVec 6 := if on then v ||| bit else v &&& ~~~bit
    let s := onPwr (fun p => { p with hbmT := p.hbmT.set stack temp
                                      stackDouble := upd (85 ≤ temp) p.stackDouble
                                      stackLimit := upd (95 ≤ temp) p.stackLimit }) s
    let s := if 95 ≤ temp ∧ was = false then raisePlain 0x0C0A none 0xFFFF s else s
    if 105 ≤ temp ∧ s.pwr.st ≠ .tripped then trip s else s
  else s)

/-- 03 R41, R42: a 1 ms power window ends with its mean input power [0.1 W] and VIN [10 mV]. Energy is metered [0.1 mJ]. -/
def powerWindow (mean vin : Nat) (s : State) : State :=
  let s := onPwr (fun p => { p with pin := mean, vin := vin }) s
  let s := meterAt 0 (fun m => { m with energy := m.energy + mean }) s
  if s.pwr.cap * 10 < mean then
    if s.pwr.ceilPower = 1 then onPwr (fun p => { p with duty := true }) s
    else setCeil .power (lowered .power s.pwr) s
  else if mean < s.pwr.cap * 10 then onPwr (fun p => { p with duty := false }) s
  else s

/-- 03 R41. -/
def execPowerWindow (mean vin : Nat) (s : State) : Res := .next (if powered s then powerWindow mean vin s else s)

/-- 03 R41: 50 ms with every window below 90 % of PWR_CAP. -/
def execPowerCeilingRise (s : State) : Res :=
  .next (if powered s then setCeil .power (min 5 (s.pwr.ceilPower + 1)) s else s)

/-- 03 R39: nothing needs a Wren: no run is Running, Ending or Faulting, and no round that the chip works for is under way. -/
def wrensIdle (s : State) : Bool :=
  s.fab.runs.all (fun r => r.st == 0) && s.rnd.rounds.all (fun r => !(r.worker && r.started && decide (r.phase < 7)))

/-- 03 R39: a run waits Queued with its start conditions met, as far as the state shows: its thickets' Wrens are all free. -/
def runReady (s : State) : Bool :=
  s.fab.runs.any fun r => r.st == 0 && r.thks.all fun t =>
    (List.range 24).all fun j => (getWren s (24 * t + j)).st = 0

/-- 03 R39: the chip gates the Wren islands and returns to Idle by itself. -/
def execRunToIdle (s : State) : Res :=
  .next (if s.pwr.st = .run ∧ wrensIdle s ∧ runReady s = false then
    onPwr (fun p => { setSt .idle p with settling := false }) s else s)

/-- The next state on the way along the chain Standby, Idle, Run (03 R38). -/
def nextLeg (st target : PState) : PState :=
  match st, target with
  | .standby, .idle => .idle
  | .standby, .run => .idle
  | .idle, .run => .run
  | .idle, .standby => .standby
  | .run, .idle => .idle
  | .run, .standby => .idle
  | st, _ => st

/-- A leg of a change of state completes (03 R38, Table 3.3). Idle to Standby darkens the links and loses SRAM; a leg out of
Run waits for the Wrens to drain. -/
def powerLeg (target : PState) (s : State) : State :=
  let nx := nextLeg s.pwr.st target
  if s.pwr.st = .run && nx = .idle && !wrensIdle s then s else
  let s := onPwr (fun p => { setSt nx p with settling := false, curPt := if nx = .run then runPoint p else p.curPt }) s
  let s := if nx = .standby then loseSram (darkLinks s) else s
  if nx = target then
    let by_ := s.pwr.req
    let s := onPwr (fun p => { p with target := none, req := none }) s
    match by_ with
    | some q => finish q (Done.res nx.code 0) s
    | none => s
  else s

/-- 03 R38, Table 3.3: a transition that takes time completes. -/
def execPowerTransitionDone (s : State) : Res :=
  .next (match s.pwr.target with
         | some t => if powered s && s.pwr.st != .tripped then powerLeg t s else s
         | none => s)

/-- 04 R63, Table 4.1 (warm), 19 R369: what a warm reset leaves at once: work, objects, sessions, rounds and roles are gone,
and so are the registers that Table 4.1 does not keep. Memory is scrubbed by the step that ends the scrub. -/
def warmState (s : State) : State :=
  { s with
    pwr := { s.pwr with target := none, req := none, settling := false, ptReq := 3, cap := 1150, warn := 0x5F, throttle := 0x64
                        phOut := false, phSample := s.pwr.phSample || s.pwr.pins.prochotDrive
                        pins := { s.pwr.pins with prochotDrive := false, ppsOut := false } }
    boot := { Boot.init with fuses := s.boot.fuses, flash := s.boot.flash }
    lark := { s.lark with refLost := false, ppsLost := false, offset := 0, stepLo := 0, snapTime := 0, snapSeq := 0
                          beats := [], ptpLost := false, stepWait := none }
    hsc := []
    glb := { s.glb with ccOverrun := 0, dark := false, width := false, foreign := false, range := false, latches := [] }
    host := HostSt.init
    nut := Nut.init
    fab := Fab.init
    lnt := Lnt.init
    skn := [], floodDc := 0x190, floodEnv := 0x0A
    qtd := { Qtd.init with st := (if s.qtd.st = 3 then 3 else 0), dupChip := s.qtd.dupChip }
    rnd := { Rounds.init with next := s.rnd.next }
    wbl := { tables := [], streams := [] }
    units := []
    hbmPc := [] }

/-- 04 R63, Table 4.1: a warm reset begins, and the Wrens are gated at once; one already in progress, or the state Tripped (03 R56), leaves it without effect. -/
def warmReset (fromPin : Bool) (s : State) : State :=
  if s.pwr.st = .off ∨ s.pwr.st = .tripped ∨ s.pwr.warmBusy then s
  else
    let s := warmState (sendLinkDown s)
    let s := if s.pwr.st = .run then onPwr (setSt .idle) s else s
    syncAlert (onPwr (fun p => { p with warmBusy := true, warmScrubbed := false, warmFromPin := fromPin }) s)

/-- 04 R63: PERST_N low for 100 µs. -/
def execWarmResetPin (s : State) : Res :=
  .next (warmReset true (onPins (fun p => { p with perstN := false }) s))

/-- 04 R63: the boot ROM may run again after a warm reset. -/
def warmDone (s : State) : State :=
  onBoot (fun b => { b with romReady := true })
    (onPwr (fun p => { p with warmBusy := false, warmScrubbed := false, warmFromPin := false }) s)

/-- 04 R63: all Wren SRAM, thicket SRAM and HBM are zero, the chip is in Standby, and the boot ROM reruns once PERST_N is high. -/
def execWarmResetScrubDone (s : State) : Res :=
  .next (if s.pwr.warmBusy ∧ s.pwr.warmScrubbed = false then
    let s := setMem [] (onPwr (fun p => { setSt .standby p with warmScrubbed := true }) s)
    if s.pwr.warmFromPin && !s.pwr.pins.perstN then s else warmDone s
  else s)

/-- 04 R63: PERST_N returns high; a scrub that has completed lets the boot ROM rerun. -/
def execPerstNRelease (s : State) : Res :=
  .next (let s := onPins (fun p => { p with perstN := true }) s
         if s.pwr.warmBusy && s.pwr.warmScrubbed then warmDone s else s)

end Sys2Proof.Machine
end

