-- ==== Sys2Proof/Machine/Boot.lean ====
section
/-! DEFINITION. Start-up, boot and identity (04): fuse checks, the anti-rollback record, image checks, measurement, identity keys, the debug pause, the boot sources, and the delivery of device roots and key policy (08 R152, R162). -/

namespace Sys2Proof.Machine

/-! Encodings of what is hashed or signed (log 19 where the spec prints no layout). -/

/-- The readable fuse fields in the order of Table 4.5 (04 R70). -/
def fuseBytes (f : Fuses) : List Byte :=
  natLE 1 f.part.toNat ++ natLE 8 f.thkMap.toNat
    ++ natLE 40 ((List.range 64).foldr (fun t v => tabGet 0 f.spare t % 32 + 32 * v) 0)
    ++ (List.range 256).map (fun i => BitVec.ofNat 8 (tabGet 0 f.hbmRepair i))
    ++ f.rootDigest.flatten ++ natLE 1 f.revoked.toNat ++ natLE 1 f.lifecycle.toNat ++ natLE 128 (2 ^ f.epoch - 1)
    ++ natLE 8 f.serial.toNat

/-- The first 48 bytes of an anti-rollback record copy (04 Table 4.6). -/
def rollBytes (r : RollCopy) : List Byte :=
  natLE 4 0x4B4C5242 ++ natLE 2 1 ++ natLE 2 r.epoch ++ natLE 8 r.seq ++ natLE 4 r.floor ++ natLE 4 r.counter ++ zeros 24

/-- The MAC of an anti-rollback record copy (04 Table 4.6). -/
def rollMac (dus : List Byte) (r : RollCopy) : List Byte :=
  hmac (hkdfExpand (hkdfExtract (ascii "KL5-ROLLBACK-V1") dus) (ascii "record-mac") 48) (rollBytes r)

/-- 04 R77: a copy is valid when its magic and MAC are right and it names the epoch fuse count. -/
def rollValid (dus : List Byte) (epoch : Nat) (r : RollCopy) : Bool :=
  r.magicOk && r.mac == rollMac dus r && r.epoch == epoch

/-- 04 R77: the valid copy with the higher sequence: false names copy 0. -/
def rollPick (b : Boot) (epoch : Nat) : Option Bool :=
  let v0 := rollValid b.fuses.dus epoch b.flash.roll0
  let v1 := rollValid b.fuses.dus epoch b.flash.roll1
  if v0 && v1 then some (decide (b.flash.roll0.seq < b.flash.roll1.seq))
  else if v0 then some false else if v1 then some true else none

/-- A record copy by number. -/
def rollCopy (b : Boot) (i : Bool) : RollCopy := if i then b.flash.roll1 else b.flash.roll0

/-- 04 R75: the lifecycle byte of key derivation. -/
def lcByte (f : Fuses) : Byte := if f.lifecycle.getLsbD 4 then 0x52 else 0

/-- 04 R75: the identity seed. -/
def idSeed (f : Fuses) : List Byte := hkdfExtract (ascii "KL5-IDENTITY-V1") (f.dus ++ [lcByte f])

/-- 04 R75: both identity public keys: ML-DSA-65 then P-384. -/
def identityKeys (f : Fuses) : List Byte :=
  mldsaPk (hkdfExpand (idSeed f) (ascii "mldsa65") 32) ++ p384Pk (hkdfExpand (idSeed f) (ascii "p384") 56)

/-- 04, Model: the device identifier. -/
def deviceIdOf (f : Fuses) : List Byte := (sha384 (identityKeys f)).take 16

/-! Fuse checks (04 R72). -/

/-- The thicket map that a part code requires. -/
def mapOk (f : Fuses) : Bool :=
  (f.part == 1 && f.thkMap == BitVec.allOnes 64) || (f.part == 2 && f.thkMap == BitVec.ofNat 64 (2 ^ 48 - 1))

/-- 04 R72: the fuse bank passes its checks. -/
def fusesOk (f : Fuses) : Bool :=
  f.crcOk && mapOk f && (List.range 64).all fun t => decide (tabGet 0 f.spare t ≤ 24)

/-! Measurement (04 R70, R71). -/

/-- 04 R70, R71: accumulator `n` is extended and the log gains an entry; a full log refuses the extend. -/
def extendAcc (n : Nat) (digest : List Byte) (s : State) : Option State :=
  if 256 ≤ s.boot.measLog.length then none
  else some (onBoot (fun b => { b with
    accs := b.accs.set n (sha384 (b.accs.getD n [] ++ digest))
    measLog := b.measLog ++ [{ acc := n, typ := Config.measType n, time := s.lark.time, digest := digest }] }) s)

/-- An extend that the log has room for; without room nothing changes. -/
def extendOr (n : Nat) (digest : List Byte) (s : State) : State := (extendAcc n digest s).getD s

/-! Image checks (04 Table 4.4, R69). -/

/-- 04 R69: the number of the first check that an image fails, with the CODE it is recorded as, or none when it is accepted. -/
def imageFault (b : Boot) (floor : Nat) (img : List Byte) : Option (Nat × Nat) :=
  let idx := field img 6 2
  let len := field img 0x10 4
  let mldsa := sub img 0x60 1952
  let p384 := sub img 0x800 97
  let rsvd := sub img 0x14 12 ++ sub img 0x861 31 ++ sub img 0x156D 3 ++ sub img 0x15D0 2608
  if field img 0 4 ≠ 0x4B4C4657 ∨ field img 4 2 ≠ 1 then some (1, 0x25)
  else if rsvd.any (· != 0) ∨ bits (field img 0xC 4) 1 31 ≠ 0 then some (2, 0x25)
  else if 3 < idx then some (3, 0x25)
  else if b.fuses.revoked.getLsbD idx then some (3, 0x23)
  else if sha384 (mldsa ++ p384) ≠ b.fuses.rootDigest.getD idx [] then some (4, 0x21)
  else if !(Config.mldsaOk mldsa (sub img 0 0x880) (sub img 0x880 3309))
       || !(Config.p384Ok p384 (sub img 0 0x880) (sub img 0x1570 96)) then some (5, 0x21)
  else if len = 0 ∨ 15720448 < len then some (6, 0x25)
  else if sha384 (sub img 0x2000 len) ≠ sub img 0x20 48 then some (6, 0x26)
  else if field img 8 4 < floor then some (7, 0x22)
  else if bitOf (field img 0xC 4) 0 && !b.debugUnlocked then some (8, 0x27)
  else none

/-- 04 R69: the CODE of the first check that an image fails. -/
def imageCheck (b : Boot) (floor : Nat) (img : List Byte) : Option Nat := (imageFault b floor img).map Prod.snd

/-! Halt, identity, and the end of the boot ROM. -/

/-- 04 R67: the boot halts; event 0x0C12 is raised once and MGMT_ALERT_N held low. -/
def bootHalt (s : State) : State :=
  if s.boot.stage = 4 then s
  else raisePlain 0x0C12 none 0xFFFF (syncAlert (onBoot (fun b => { b with stage := 4 }) s))

/-- The failure code of a boot step. -/
def setCode (code : Nat) (s : State) : State := onBoot (fun b => { b with code := code }) s

/-- 04 R70: the extends of accumulators 0 to 4, in order. -/
def measureBoot (s : State) : State :=
  let img := s.boot.image
  extendOr 4 (sha384 (natLE 4 (strapWord s.pwr.straps) ++ natLE 8 s.boot.fuses.thkMap.toNat))
    (extendOr 3 (sub img 0x20 48)
      (extendOr 2 (sha384 (sub img 0 0x880))
        (extendOr 1 (sha384 (natLE 8 (debugWord s.boot)))
          (extendOr 0 (sha384 (fuseBytes s.boot.fuses))
            (extendOr 0 ((List.range 48).map Config.romDigestByte) s)))))

/-- 04 R75: the alias seed of the closed accumulators. -/
def aliasSeedOf (b : Boot) : List Byte :=
  hkdfExtract (b.accs.take 5).flatten (hkdfExpand (idSeed b.fuses) (ascii "alias") 48)

/-- 04 R75: both alias public keys. -/
def aliasKeys (seed : List Byte) : List Byte :=
  mldsaPk (hkdfExpand seed (ascii "mldsa65") 32) ++ p384Pk (hkdfExpand seed (ascii "p384") 56)

/-- 04 R75: what the alias certificate binds: both alias public keys, accumulators 0 to 4 and the SVN. -/
def aliasBody (b : Boot) (keys : List Byte) : List Byte := keys ++ (b.accs.take 5).flatten ++ natLE 4 b.svn

/-- 04 R75: identity and alias keys, and the alias certificate signed with both identity keys. -/
def deriveIdentity (b : Boot) : Boot :=
  let seed := aliasSeedOf b
  let body := aliasBody b (aliasKeys seed)
  { b with
    idPub := identityKeys b.fuses, deviceId := deviceIdOf b.fuses, aliasSeed := seed, aliasPub := aliasKeys seed
    aliasCert := body ++ mldsaSig (hkdfExpand (idSeed b.fuses) (ascii "mldsa65") 32) body
                      ++ p384Sig (hkdfExpand (idSeed b.fuses) (ascii "p384") 56) body
    accClosed := true, step := 6 }

/-- 08 R152: the device roots st and ms. -/
def deviceRoots (b : Boot) : List Byte × List Byte :=
  let root := hkdfExtract (ascii "KL5-NUTHATCH-V1") (b.fuses.dus ++ [lcByte b.fuses])
  (hkdfExpand root (ascii "stable") 48, hkdfExtract (b.accs.take 5).flatten (hkdfExpand root (ascii "measured") 48))

/-- The bytes that a policy copy's MAC covers (08, Floors and the update authority; log 19). -/
def policyBytes (p : PolicyCopy) : List Byte :=
  p.authority ++ natLE 4 p.counter ++ p.floors.flatMap fun f => f.1 ++ natLE 4 f.2

/-- The MAC of a policy copy. -/
def policyMac (st : List Byte) (p : PolicyCopy) : List Byte := hmac (hkdfExpand st (ascii "policy-mac") 48) (policyBytes p)

/-- 08 R162: a policy copy qualifies when its MAC verifies and its counter is that of the anti-rollback record. -/
def policyOk (st : List Byte) (counter : Nat) (p : PolicyCopy) : Bool := p.mac == policyMac st p && p.counter == counter

/-- 08 R152, R162: Nuthatch receives its roots, and takes the policy copy that qualifies or enters POLICY_LOST. -/
def deliverRoots (s : State) : State :=
  let r := deviceRoots s.boot
  let fl := s.boot.flash
  let pick : Option (Bool × PolicyCopy) :=
    if policyOk r.1 s.boot.updCnt fl.policy0 then some (false, fl.policy0)
    else if policyOk r.1 s.boot.updCnt fl.policy1 then some (true, fl.policy1) else none
  onNut (fun u => { u with
    rootsReady := true, stKey := r.1, msKey := r.2, policyLost := pick.isNone, updCnt := s.boot.updCnt
    authority := (match pick with | some p => p.2.authority | none => [])
    floors := (match pick with | some p => p.2.floors | none => [])
    policySel := (match pick with | some p => p.1 | none => u.policySel) }) s

/-- Step 6 for an accepted image: measurement, keys, device roots; the resident firmware then starts (04 Table 4.2). -/
def acceptImage (src : Nat) (slot : Bool) (img : List Byte) (s : State) : State :=
  let s := onBoot (fun b => { b with image := img, src := BitVec.ofNat 2 src, slot := slot, stage := 1,
                                     step := 5, svn := field img 8 4 }) s
  syncAlert (deliverRoots (onBoot deriveIdentity (measureBoot s)))

/-- A flash slot's image. -/
def slotImage (b : Boot) (slot : Bool) : List Byte := if slot then b.flash.slotB else b.flash.slotA

/-- 04 Table 4.3: the active slot of the valid descriptor copy with the higher sequence. -/
def activeSlot (f : Flash) : Option Bool :=
  if f.desc0.crcOk && f.desc1.crcOk then some (if f.desc0.seq < f.desc1.seq then f.desc1.active else f.desc0.active)
  else if f.desc0.crcOk then some f.desc0.active
  else if f.desc1.crcOk then some f.desc1.active else none

/-- 04 R66: the flash slots are tried, the active one first; true when one was accepted. -/
def tryFlash (s : State) : Bool × State :=
  match activeSlot s.boot.flash with
  | none => (false, onBoot (fun b => { b with code := 0x20, fallback := true }) s)
  | some a =>
    match imageCheck s.boot s.boot.floor (slotImage s.boot a) with
    | none => (true, acceptImage 0 a (slotImage s.boot a) s)
    | some c =>
      let s := onBoot (fun b => { b with code := c, fallback := true }) s
      match imageCheck s.boot s.boot.floor (slotImage s.boot (!a)) with
      | none => (true, acceptImage 0 (!a) (slotImage s.boot (!a)) s)
      | some c' => (false, setCode c' s)

/-- 04 R66: the source that STRAP_BOOT names. -/
def bootSource (s : State) : State :=
  match s.pwr.straps.boot.toNat with
  | 0 => let r := tryFlash s; if r.1 then r.2 else bootHalt r.2
  | 1 => onBoot (fun b => { b with stage := 2 }) s
  | 2 => onBoot (fun b => { b with stage := 3, fabricStart := s.lark.time }) s
  | _ => let r := tryFlash s; if r.1 then r.2 else onBoot (fun b => { b with stage := 2 }) r.2

/-- 04 R77, Edges: the epoch count that both senses agree on, where need be by completing the last blow. -/
def settleEpoch (b : Boot) : Option Boot :=
  if b.fuses.epoch = b.fuses.epochMargin then some b
  else
    let e := max b.fuses.epoch b.fuses.epochMargin
    if (rollPick b e).isSome then some { b with fuses := { b.fuses with epoch := e, epochMargin := e } } else none

/-- Steps 2 and 3, then the firmware source (04 Table 4.2). Lifecycle RMA leaves debug unlocked (R73), its scope a free value. -/
def bootRun (s : State) : State :=
  let s := if s.boot.fuses.lifecycle.getLsbD 4 then
      { onBoot (fun b => { b with debugUnlocked := true, debugScope := BitVec.ofNat 3 (Config.freeNat s.free) }) s with free := s.free + 1 }
    else s
  if !fusesOk s.boot.fuses then bootHalt (setCode 0x10 s)
  else match settleEpoch s.boot with
    | none => bootHalt (setCode 0x10 (onBoot (fun b => { b with step := 2 }) s))
    | some b =>
      let s := onBoot (fun _ => { b with step := 2 }) s
      match rollPick s.boot s.boot.fuses.epoch with
      | none => bootHalt (setCode 0x24 s)
      | some i =>
        let r := rollCopy s.boot i
        bootSource (onBoot (fun b => { b with step := 3, floor := r.floor, updCnt := r.counter, rollSel := i }) s)

/-- The boot ROM may run: powered, straps latched, no warm reset and no debug pause in progress, nothing begun. -/
def romMayRun (s : State) : Bool :=
  powered s && s.boot.romReady && s.boot.stage = 1 && decide (s.boot.step < 5) && !s.pwr.warmBusy && s.boot.hold.isNone

/-- 04 R66, Table 4.2: the boot ROM runs from step 2. Below −20 °C it waits with STEP 1 (20, Edges). -/
def execBootSequence (s : State) : Res :=
  .next (if romMayRun s then
    let s := onBoot (fun b => { b with step := 1 }) s
    if s.pwr.tj < -20 then s else bootRun s
  else s)

/-- The ports of a fabric-manager boot (04 R66): S0 to S2 and S13 to S20. -/
def bootPorts : List Nat := [0, 1, 2, 13, 14, 15, 16, 17, 18, 19, 20]

/-- 04 R66: the boot link ports are darkened again. -/
def darkBootPorts (s : State) : State :=
  bootPorts.foldl (fun s n => if (getSkn s n).bootMode then putSkn n (getSkn s n).dark s else s) s

/-- 02, 06, 14, 18: what the resident firmware sets up at STAGE RUNNING: context 0 (06 R107), the claim nonce (14 R284) and,
after a cold reset, period 1 (18 R350). -/
def firmwareStart (s : State) : State :=
  let nonce := BitVec.ofNat 64 (Config.freeNat s.free)
  let s := { s with free := s.free + 1 }
  let s := onBoot (fun b => { b with stage := 8, step := 7 }) s
  let s := putCtx 0 { Ctx.init with st := 1 } s
  let s := onQtd (fun q => { q with nonce := nonce }) s
  let s := if s.mtr.started then s else
    onMtr (fun m => { m with started := true, cur := Period.init 1 s.lark.time, nextMs := s.lark.time + 1000000 }) s
  syncAlert s

/-- 04 R65: the resident firmware finishes step 7 and sets STAGE to RUNNING. -/
def execFirmwareReady (s : State) : Res :=
  .next (if powered s ∧ s.boot.stage = 1 ∧ s.boot.step = 6 then firmwareStart s else s)

/-- The image in the boot mailbox window (04 Table 4.8). -/
def mailboxImage (b : Boot) : List Byte := (List.range b.mbxLen).map fun i => tabGet 0 b.mbx i

/-- An image offered by the host or a fabric manager: accepted, or refused and the boot halts (04 R66, R67, R69). After
FUSE_FAULT no keys are derived, and after RECORD_LOST only a recovery message helps: no image is then accepted. -/
def offerImage (src : Nat) (img : List Byte) (s : State) : State :=
  if s.boot.code = 0x10 ∨ s.boot.code = 0x24 then s
  else match imageCheck s.boot s.boot.floor img with
    | none => acceptImage src false img s
    | some c => bootHalt (onBoot (fun b => { b with code := c, fallback := true }) s)

/-- 04 R66, R67: GO starts the check of the image in the mailbox. -/
def execBootMbxGo (s : State) : Res :=
  .next (if powered s ∧ (s.boot.stage = 2 ∨ s.boot.stage = 4) ∧ s.boot.hold = none ∧ s.pwr.warmBusy = false
         then offerImage 1 (mailboxImage s.boot) s else s)

/-- 04 R66: a boot request on each boot link port that is up. -/
def execFabricBootRequest (s : State) : Res :=
  .next (if powered s ∧ s.boot.stage = 3 then
    emitAll ((bootPorts.filter fun n => (getSkn s n).bootMode && (getSkn s n).st = 4).map fun n => .bootReq n) s
  else s)

/-- 04 R66: 10 s without an image: the boot ROM gives up and, with no other source, halts. -/
def execFabricBootTimeout (s : State) : Res :=
  .next (if powered s ∧ s.boot.stage = 3 ∧ s.boot.fabricStart + 10000000000 ≤ s.lark.time
         then bootHalt (setCode 0x30 (darkBootPorts s)) else s)

/-- 04 R66: the image from the first running KL-5 that answers. -/
def execFabricBootImage (img : List Byte) (s : State) : Res :=
  .next (if powered s ∧ s.boot.stage = 3 ∧ s.boot.hold = none then offerImage 2 img (darkBootPorts s) else s)

/-- 04 R73: TAP HOLD before step 6 in lifecycle PRODUCTION: a pause of up to 10 s with a 32-byte nonce. -/
def execDebugHold (s : State) : Res :=
  .next (if powered s ∧ s.boot.romReady ∧ s.boot.stage ≠ 8 ∧ s.boot.step < 6 ∧ s.boot.hold = none
            ∧ lifecycleCode s.boot.fuses.lifecycle = 0 then
    let r := drawBytes 32 s
    onBoot (fun b => { b with hold := some { nonce := r.1 }, holdUntil := s.lark.time + 10000000000 }) r.2
  else s)

/-- The bytes of an unlock token that its signatures cover (log 19). -/
def tokenBytes (t : UnlockToken) : List Byte := t.deviceId ++ t.nonce ++ natLE 1 t.scope.toNat

/-- A root key pair that the fuses name and do not revoke, with both signatures over a message (04 R73, Edges). -/
def rootSigned (f : Fuses) (idx : Nat) (mldsaKey p384Key msg mldsaSg p384Sg : List Byte) : Bool :=
  decide (idx < 4) && !f.revoked.getLsbD idx && sha384 (mldsaKey ++ p384Key) == f.rootDigest.getD idx []
    && Config.mldsaOk mldsaKey msg mldsaSg && Config.p384Ok p384Key msg p384Sg

/-- 04 R73: the token that the pause accepts, or not. The pause ends either way: one token is accepted. -/
def execDebugUnlockToken (tok : UnlockToken) (s : State) : Res :=
  .next (match s.boot.hold with
    | none => s
    | some h =>
      let ok := tok.deviceId == deviceIdOf s.boot.fuses && tok.nonce == h.nonce
        && rootSigned s.boot.fuses tok.rootIndex tok.mldsaKey tok.p384Key (tokenBytes tok) tok.mldsaSig tok.p384Sig
      if ok then
        onBoot (fun b => { b with hold := none, debugUnlocked := true, debugScope := tok.scope
                                  tokenPrefix := (sha384 (tokenBytes tok)).take 7 }) s
      else onBoot (fun b => { b with hold := none }) s)

/-- 04 R73: the pause ends after 10 s without a valid token. -/
def execDebugHoldTimeout (s : State) : Res :=
  .next (if s.boot.hold.isSome ∧ s.boot.holdUntil ≤ s.lark.time then onBoot (fun b => { b with hold := none }) s else s)

/-- The bytes of a recovery message that its signatures cover (log 19). -/
def recoveryBytes (m : RecoveryMsg) : List Byte := m.deviceId ++ natLE 2 m.epoch ++ natLE 4 m.floor ++ natLE 4 m.counter

/-- 04 R77, Edges: a recovery message during RECORD_LOST writes both copies at the current epoch; the sequence written is a
free value, equal in both (log 20). The boot ROM then runs again. -/
def execRecoveryMessage (m : RecoveryMsg) (s : State) : Res :=
  .next (if powered s ∧ s.boot.stage = 4 ∧ s.boot.code = 0x24 ∧ m.deviceId = deviceIdOf s.boot.fuses
            ∧ m.epoch = s.boot.fuses.epoch
            ∧ rootSigned s.boot.fuses m.rootIndex m.mldsaKey m.p384Key (recoveryBytes m) m.mldsaSig m.p384Sig then
    let r := drawNat s
    let c : RollCopy := { magicOk := true, epoch := m.epoch, seq := r.1 % 2 ^ 64, floor := m.floor, counter := m.counter, mac := [] }
    let c := { c with mac := rollMac s.boot.fuses.dus c }
    syncAlert (onBoot (fun b => { b with flash := { b.flash with roll0 := c, roll1 := c }, stage := 1, step := 2, code := 0 }) r.2)
  else s)

/-- 04 R78: the anti-rollback advance: the other copy, with the next epoch and sequence, and then the next epoch fuse. -/
def rollAdvance (floor counter : Nat) (s : State) : State :=
  let b := s.boot
  let cur := rollCopy b b.rollSel
  let c : RollCopy := { magicOk := true, epoch := b.fuses.epoch + 1, seq := cur.seq + 1, floor := floor, counter := counter, mac := [] }
  let c := { c with mac := rollMac b.fuses.dus c }
  onBoot (fun b => { b with
    flash := if b.rollSel then { b.flash with roll0 := c } else { b.flash with roll1 := c }
    rollSel := !b.rollSel, floor := floor, updCnt := counter
    fuses := { b.fuses with epoch := b.fuses.epoch + 1, epochMargin := b.fuses.epochMargin + 1 } }) s

/-- 04 R68: firmware written to the slot that is not active, and the inactive descriptor copy written with a higher sequence
naming it. Answers the slot. -/
def writeFirmware (img : List Byte) (s : State) : Bool × State :=
  let slot := !(activeSlot s.boot.flash).getD true
  let fl := s.boot.flash
  let use1 := fl.desc1.crcOk && (!fl.desc0.crcOk || decide (fl.desc0.seq < fl.desc1.seq))
  let d : DescCopy := { crcOk := true, seq := max fl.desc0.seq fl.desc1.seq + 1, active := slot }
  (slot, onBoot (fun b => { b with flash :=
    { b.flash with slotA := if slot then b.flash.slotA else img, slotB := if slot then img else b.flash.slotB
                   desc0 := if use1 then d else b.flash.desc0, desc1 := if use1 then b.flash.desc1 else d } }) s)

/-- 04 R80: every epoch fuse is blown. -/
def epochsGone (s : State) : Bool := 1023 ≤ s.boot.fuses.epoch

end Sys2Proof.Machine
end

