-- ==== Sys2Proof/Machine/Lark.lean ====
section
/-! DEFINITION. The Lark timebase (02 R26 to R36): reference edges, discipline, holdover, steps, snapshots, PPS and beats; and the meters that a reference edge advances (18 R350). -/

namespace Sys2Proof.Machine

/-! Register access conditions (19 R362, R363). -/

/-- 19 R363: registers take writes while the chip is powered and no warm reset is in progress. -/
def regsOpen (s : State) : Bool := powered s && !s.pwr.warmBusy

/-- 19 R362: a write that would place a field outside its range is discarded whole: RANGE is set and event 0x0109 raised with
the register offset. -/
def discardWrite (off : Nat) (s : State) : State := raiseDev 0x0109 off (onGlb (fun g => { g with range := true }) s)

/-! State of Lark. -/

/-- LRK_STATUS.STATE changes; while it is UNSYNC, LARK_PPS_OUT is held low (02 R33). -/
def setLark (st : BitVec 2) (s : State) : State :=
  let s := onLark (fun l => { l with state := st }) s
  if st = 3 then onPins (fun p => { p with ppsOut := false }) s else s

/-- The units of Lark's fraction and correction: 10^-8 ns. -/
def nsUnits : Nat := 100000000

/-- 14 R295: the chip stays UNSYNC: TIME_SYNC found it more than 1 ms ahead, or its step waits for the last beat generator. Until
the offset is applied Lark does not discipline fabric time. -/
def outOfTime (l : Lark) : Bool := l.aheadStuck || l.stepWait.isSome

/-- 02 R29: a measurement sets the remaining correction and the state: SLEWING above 100 ns, else LOCKED. A chip that is out of time
only notes the offset (14 R295). -/
def takeMeasure (off : Int) (s : State) : State :=
  let s := onLark (fun l => { l with offset := off, ptpLost := false }) s
  if outOfTime s.lark then s
  else setLark (if 100 < off.natAbs then 1 else 0) (onLark (fun l => { l with remaining := off * nsUnits }) s)

/-- 02 R29, R30: the number of enabled beat generators. -/
def beatsOn (s : State) : Nat := ((List.range 16).filter fun n => (getBeat s n).en).length

/-- 02 R30: fabric time moves forward, and the remaining correction of a slew in progress is discarded. -/
def stepTime (v : Nat) (s : State) : State := onLark (fun l => { l with time := l.time + v, remaining := 0 }) s

/-- 02 R28, R29: the advance of one reference edge in units of 10^-8 ns: 6.4 ns less or plus what the slew limit corrects. -/
def edgeAdvance (l : Lark) : Int :=
  let lim : Int := 64 * l.slew
  640000000 - (if 0 ≤ l.remaining then min l.remaining lim else max l.remaining (-lim))

/-- 02 R28: fabric time after one reference edge. -/
def larkEdge (l : Lark) : Lark :=
  let t := ((l.frac : Int) + edgeAdvance l).toNat
  { l with time := l.time + t / nsUnits, frac := t % nsUnits, remaining := l.remaining - (640000000 - edgeAdvance l) }

/-! Meters (18 R350, Table 18.4). -/

/-- The Wrens that run a run, or resident-firmware round work, of partition `p`. -/
def busyWrens (s : State) (p : Nat) : Nat :=
  (s.fab.runs.filter fun r => (r.st = 1 || r.st = 2) && (getCtx s r.ctx).part = p).foldl (fun n r => n + 24 * r.thks.length) 0

/-- The HBM bytes that memory objects of partition `p` hold. -/
def hbmHeld (s : State) (p : Nat) : Nat :=
  s.host.objs.foldl (fun n o => match o.2.kind with
    | .mem .hbm _ size _ => if (getCtx s o.2.ctx).part = p then n + size else n
    | _ => n) 0

/-- Occupancy of one edge, in 0.1 ns, for the device and for each partition. -/
def meterEdge (s : State) : State :=
  (List.range s.host.parts).foldl (fun s p =>
    let n := busyWrens s p
    if n = 0 then s else
      meterAt 0 (fun m => { m with wrenNs := m.wrenNs + 64 * n }) (meterAt (p + 1) (fun m => { m with wrenNs := m.wrenNs + 64 * n }) s)) s

/-- The HBM sample of each 1 ms of fabric time [MiB·ms]. -/
def meterMs (s : State) : State :=
  if s.mtr.nextMs ≤ s.lark.time then
    let s := onMtr (fun m => { m with nextMs := m.nextMs + 1000000 }) s
    (List.range s.host.parts).foldl (fun s p =>
      let n := hbmHeld s p / 1048576
      if n = 0 then s else
        meterAt 0 (fun m => { m with hbmMibMs := m.hbmMibMs + n }) (meterAt (p + 1) (fun m => { m with hbmMibMs := m.hbmMibMs + n }) s)) s
  else s

/-- One Lark reference edge: fabric time advances and the meters of the open period count it. -/
def larkTick (s : State) : State :=
  if !powered s then s
  else
    let s := onLark larkEdge s
    if s.mtr.started then meterMs (meterEdge s) else s

/-! Snapshots (02 R27). -/

/-- 02 R27: every counter slot and fabric time are frozen, and LRK_SNAP_SEQ increments. -/
def snapshotNow (s : State) : State :=
  onLark (fun l => { l with snapTime := l.time, snapSeq := l.snapSeq + 1 })
    (setSlots (s.hsc.foldl (fun t e => tabPut Slot.init t e.1 { e.2 with snap := e.2.cnt }) []) s)

/-- 02 R27: the snapshot is taken at the reference edge that follows the request. -/
def takeSnapshot (s : State) : State := snapshotNow (larkTick s)

/-- 02 R26: a slot passes from 0xFFFF_FFFF_FFFF to zero. -/
def execCounterWrap (blk inst slot : Nat) (s : State) : Res :=
  .next (let v := tabGet Slot.init s.hsc (slotKey blk inst slot)
    if powered s ∧ slot < slotCount blk ∧ inst < slotInsts s blk ∧ v.sel ≠ 0 ∧ v.cnt = 2 ^ 48 - 1
    then slotAdd blk inst slot (evUnit blk v.sel - v.part) s else s)

/-- 02 R27: a write of 1 to LRK_SNAP[0]. -/
def execLrkSnap (v : BitVec 32) (s : State) : Res :=
  .next (if regsOpen s && v.getLsbD 0 then takeSnapshot s else s)

/-! Discipline (02 R29). -/

/-- The offset of fabric time from the nearest whole second. -/
def secondOffset (t : Nat) : Int :=
  if t % 1000000000 < 500000000 then (t % 1000000000 : Nat) else (t % 1000000000 : Nat) - 1000000000

/-- 02 R29: a PPS edge under the rack reference. -/
def execPpsMeasurement (s : State) : Res :=
  .next (if powered s ∧ s.lark.src = 0 ∧ s.lark.refPresent then takeMeasure (secondOffset s.lark.time) s else s)

/-- 02 R29: a PTP delay request-response exchange on the port that PTP_PORT names. -/
def execPtpSyncExchange (offset : Int) (s : State) : Res :=
  .next (if powered s ∧ s.lark.src = 1 ∧ (getEth s s.lark.ptpPort.toNat).st = 1 then
    takeMeasure offset (onLark (fun l => { l with holdPort := if l.refPresent then 0x1F else l.holdPort }) s)
  else s)

/-- 02 R29: the remaining correction has fallen to 100 ns or less. -/
def execSlewLocked (s : State) : Res :=
  .next (if powered s ∧ s.lark.state = 1 ∧ s.lark.remaining.natAbs ≤ 100 * nsUnits then setLark 0 s else s)

/-- 02 R29: LRK_CTL selects the source; under free-run the state reads UNSYNC. SRC 0b11 is discarded under R362 (log 21). -/
def setLarkCtl (src port : BitVec 2) (hold : Bool) (s : State) : State :=
  let s := onLark (fun l => { l with src := src, ptpPort := port, holdoverEn := hold }) s
  if src = 2 then setLark 3 (onLark (fun l => { l with remaining := 0 }) s) else s

/-- 02 Table 2.7: a write to LRK_CTL. -/
def execLrkCtlWrite (v : BitVec 32) (s : State) : Res :=
  .next (if !regsOpen s then s
    else if v.extractLsb' 0 2 = 3 then discardWrite 0x11000 s
    else setLarkCtl (v.extractLsb' 0 2) (v.extractLsb' 2 2) (v.getLsbD 4) s)

/-- 02 R30: LRK_STEP; with a beat generator enabled the write is discarded and event 0x0409 raised with their number. -/
def execLrkStep (v : BitVec 64) (s : State) : Res :=
  .next (if !regsOpen s then s
    else if beatsOn s ≠ 0 then raiseDev 0x0409 (beatsOn s) s
    else stepTime v.toNat s)

/-! Holdover (02 R31). -/

/-- 02 R31: the lowest-numbered Siskin port in ACTIVE whose partner reports LOCKED or SLEWING. -/
def holdPortOf (s : State) : Option Nat :=
  (List.range 24).find? fun n => (getSkn s n).st = 4 && ((getSkn s n).peerLark = 0 || (getSkn s n).peerLark = 1)

/-- 02 R31: the source and state without a reference: HOLDOVER on that port, or UNSYNC on the oscillator. A chip that is out of time
stays UNSYNC on either (14 R295). -/
def holdChoice (s : State) : BitVec 2 × BitVec 5 :=
  match if s.lark.holdoverEn then holdPortOf s else none with
  | some n => (if outOfTime s.lark then 3 else 2, BitVec.ofNat 5 n)
  | none => (3, 0x1F)

/-- 02 R31: a source without a step in fabric time, and event 0x0C06 with HOLD_PORT in [4:0] and STATE in [9:8]. -/
def enterHold (s : State) : State :=
  let c := holdChoice s
  raiseDev 0x0C06 (c.2.toNat + c.1.toNat * 256) (setLark c.1 (onLark (fun l => { l with holdPort := c.2 }) s))

/-- 02 R31: no edge of the rack reference for 64 ns. Under free-run the state stays UNSYNC. -/
def execReferenceLoss (s : State) : Res :=
  .next (if powered s ∧ s.lark.refPresent then
    let s := onLark (fun l => { l with refPresent := false, refLost := true }) s
    if s.lark.src = 2 then s else enterHold s
  else s)

/-- 02 R31: while the reference is lost, the source is selected again when a port or a partner's Lark state changes. -/
def execHoldoverReselect (s : State) : Res :=
  .next (if powered s ∧ s.lark.src ≠ 2 ∧ (s.lark.refPresent = false ∨ s.lark.ptpLost)
            ∧ (s.lark.state, s.lark.holdPort) ≠ holdChoice s
         then enterHold s else s)

/-- 02 R31: the reference returns: HOLD_PORT reads 0x1F, no event, and the state waits for the next measurement. -/
def execReferenceReturn (s : State) : Res :=
  .next (if powered s then onLark (fun l => { l with refPresent := true, holdPort := 0x1F }) s
         else onLark (fun l => { l with refPresent := true }) s)

/-- 02 Edges: after 3 missed PTP sync intervals, holdover under R31. -/
def execPtpSyncLoss (s : State) : Res :=
  .next (if powered s ∧ s.lark.src = 1 ∧ s.lark.ptpLost = false then
    enterHold (onLark (fun l => { l with ptpLost := true }) s) else s)

/-! LARK_PPS_OUT (02 R33). -/

/-- 02 R33: LARK_PPS_OUT rises at a whole second of fabric time unless Lark is UNSYNC. The step comes within the 100 ms that
follow the second. -/
def execPpsOutRise (s : State) : Res :=
  .next (if powered s ∧ s.pwr.st ≠ .tripped ∧ s.lark.state ≠ 3 ∧ s.lark.time % 1000000000 < 100000000
         then onPins (fun p => { p with ppsOut := true }) s else s)

/-- 02 R33: it falls after 100 ms of fabric time. -/
def execPpsOutFall (s : State) : Res :=
  .next (if powered s ∧ 100000000 ≤ s.lark.time % 1000000000 then onPins (fun p => { p with ppsOut := false }) s else s)

/-! Beats (02 R34, R35). -/

/-- 02 R34: a generator armed at this fabric time. -/
def armBeat (n k owner : Nat) (s : State) : State :=
  putBeat n { k := k, en := true, owner := owner, cnt := 0, base := s.lark.time } s

/-- 14 R295: a TIME_SYNC step that waits for the last generator is taken when it is disarmed. -/
def stepIfFree (s : State) : State :=
  match s.lark.stepWait with
  | some v => if beatsOn s = 0 then stepTime v (onLark (fun l => { l with stepWait := none }) s) else s
  | none => s

/-- A generator disabled. -/
def disarmBeat (n : Nat) (s : State) : State := stepIfFree (putBeat n { getBeat s n with en := false } s)

/-- 02 R34, R35: a generator fires at a multiple of 2^k that fabric time has passed; missed multiples are counted. -/
def execBeatFire (n : Nat) (s : State) : Res :=
  .next (let b := getBeat s n
    if powered s ∧ n < 16 ∧ b.en ∧ b.base / 2 ^ b.k < s.lark.time / 2 ^ b.k then
      putBeat n { b with cnt := b.cnt + BitVec.ofNat 32 (s.lark.time / 2 ^ b.k - b.base / 2 ^ b.k), base := s.lark.time } s
    else s)

/-- 02 R34, Table 2.9: a write to LRK_BEAT_CFG[n]. A K outside 10 to 30 with EN set is discarded (R362); a change of K, or EN
rising, is a new arming; an unchanged K and EN leaves the generator alone. -/
def writeBeatCfg (n : Nat) (v : BitVec 32) (s : State) : State :=
  let b := getBeat s n
  let k := (v.extractLsb' 0 5).toNat
  let owner := (v.extractLsb' 6 12).toNat
  if v.getLsbD 5 then
    if k < 10 ∨ 30 < k then discardWrite (0x11100 + 8 * n) s
    else if b.en && b.k == k then putBeat n { b with owner := owner } s
    else armBeat n k owner s
  else stepIfFree (putBeat n { b with k := k, en := false, owner := owner } s)

/-- 02 Table 2.9: a write to LRK_BEAT_CFG[n]. -/
def execLrkBeatCfgWrite (n : Nat) (v : BitVec 32) (s : State) : Res :=
  .next (if regsOpen s && decide (n < 16) then writeBeatCfg n v s else s)

end Sys2Proof.Machine
end

