-- ==== Sys2Proof/Machine/Kcp.lean ====
section
/-! DEFINITION. Koloing Command Packets (05): the opcode table, doorbells, fetching and the checks at fetch (R82 to R92, R96, R97; 06 R121, R122; 07 R134, R137), the frame in which every opcode runs (R88 to R94, R100), and the rows that move packets. -/

namespace Sys2Proof.Machine

/-- What 05 Table 5.5 says of an opcode: context 0 only, accepted over MCTP, served in Standby, has results, and the listed
bits of each parameter word. -/
structure OpInfo where
  ctx0 : Bool
  mctp : Bool
  standby : Bool
  results : Bool
  masks : List Nat
  deriving DecidableEq, Repr

/-- One row. -/
def op (ctx0 mctp standby results : Bool) (masks : List Nat) : OpInfo :=
  { ctx0 := ctx0, mctp := mctp, standby := standby, results := results, masks := masks }

/-- A parameter word all of whose bits are listed. -/
abbrev F : Nat := 2 ^ 64 - 1

/-- An object handle: bits [63:52] are Rsvd (06 R106). -/
abbrev H : Nat := 2 ^ 52 - 1

/-- 05 Table 5.5, part 1. -/
def opRows1 : List (Nat × OpInfo) :=
  [(0x0000, op false true true false []),
   (0x0001, op true true true true []),
   (0x0002, op true true true true [0x7]),
   (0x0003, op true true true true [0x7]),
   (0x0004, op true true true false [0x7FF]),
   (0x0005, op true true true false [0x3]),
   (0x0006, op true true true true [0xFFFFFFFF]),
   (0x0007, op true false true true [F, 0xFFFFFFFF]),
   (0x0008, op true false false false [0xF01]),
   (0x0009, op true false false false [0x1]),
   (0x0100, op false false false true [F, 0x10F]),
   (0x0101, op false false false false [0xFFF]),
   (0x0102, op false false false false [0xFFF]),
   (0x0103, op false false false true [0xFFF]),
   (0x0104, op false false false true [0x7FFFFFF, F, F, F]),
   (0x0105, op false false false false [0xFFFF]),
   (0x0106, op false false false true [0xFFFF]),
   (0x0107, op false false false true [H]),
   (0x0108, op false false false false [0xFFFF, 0x1]),
   (0x0200, op false false false true [F, 0x33]),
   (0x0201, op false false false false [H]),
   (0x0202, op false false false false [H, F, F, 0x7])]

/-- 05 Table 5.5, part 2. -/
def opRows2 : List (Nat × OpInfo) :=
  [(0x0203, op false false false false [F, F]),
   (0x0204, op false false false true [H, F, F, 0xFFFFFFFF00000007]),
   (0x0205, op false false false false [0xFFFFFFFF]),
   (0x0206, op false false false true [F, F, F]),
   (0x0207, op false false false false [F, F, F]),
   (0x0300, op false false false true [F, 0xFFFF]),
   (0x0301, op false false false false [0xFF]),
   (0x0302, op false false false true [0x1FF, F, F, F, F, F, F, F, F, F]),
   (0x0303, op false false false true [0xFFFF]),
   (0x0304, op false false false false [0xFF, F, 0xFFFF]),
   (0x0305, op false false false false [0x1FF]),
   (0x0306, op false false true true [F, 0xFFFF]),
   (0x0307, op false false false true [0xFF]),
   (0x0400, op false true true true [F, F, F, F]),
   (0x0401, op false false false true [0xFFF, F, F, F, F]),
   (0x0402, op false true true true [0x1FFFF]),
   (0x0403, op false true true true [0x1]),
   (0x0500, op false false false true [F, F, F]),
   (0x0501, op false false false false [H]),
   (0x0502, op false false false true [H, F]),
   (0x0503, op false false false true [F, F, 0xFFFFFFFF00000001]),
   (0x0504, op false false false false [H])]

/-- 05 Table 5.5, part 3. -/
def opRows3 : List (Nat × OpInfo) :=
  [(0x0505, op false false false true [H]),
   (0x0600, op false false false true [0x1F0F, F, F, F, F]),
   (0x0601, op false false false false [F, 0x1FFFF]),
   (0x0602, op false false false false [F]),
   (0x0603, op false false false false [F]),
   (0x0604, op false false false true [F]),
   (0x0605, op false false false true [F, F]),
   (0x0606, op false false false false [0xFFFFFFFF]),
   (0x0700, op false false false true [0x3, F, F, 0xFFFF, F]),
   (0x0701, op false false false false [0xFFFF]),
   (0x0702, op false false false true [0xFFFFFFFF]),
   (0x0703, op false false false false [0xFFFFFFFF]),
   (0x0704, op false false false true [0x107, F, F, 0xFF]),
   (0x0705, op false false false false [0xFFFFFF, 0xF]),
   (0x0706, op false false false false [0xFFFFFF]),
   (0x0707, op true false false false [0x3, 0x1FF, F, F]),
   (0x0708, op false false false false [0xFFFFFF, F, F, F, F]),
   (0x0800, op true true true true []),
   (0x0801, op true false false true [0x1FFFF, 0x1FFF, 0xF]),
   (0x0802, op true false false false [F]),
   (0x0803, op true false false false [0x11F, 0x1FF]),
   (0x0804, op true true false false [0x1F, 0xFF])]

/-- 05 Table 5.5, part 4. -/
def opRows4 : List (Nat × OpInfo) :=
  [(0x0805, op true false false true []),
   (0x0900, op false false false true [F, F, 0x1]),
   (0x0901, op false false false false [0xFFFF]),
   (0x0902, op false false false true [0xFFFF, F, 0x1FFFFFFFF]),
   (0x0903, op false false false false [0x3F]),
   (0x0904, op false false false true [0x3F, F, 0xFFFF, F]),
   (0x0A00, op false true true true []),
   (0x0A01, op true false true false [0x1F, 0xFFFF]),
   (0x0A02, op false false true true [0x1F]),
   (0x0A03, op false false true false [0xF]),
   (0x0A04, op true true true true [F]),
   (0x0A05, op true true true true [F]),
   (0x0A06, op false true true true [F]),
   (0x0F00, op false true true true [F, 0x1FFF]),
   (0x0F01, op false false false false [0xFFFFFFFFFFFF]),
   (0x0F02, op false true true true []),
   (0x0F03, op true true true true [0xFFFF]),
   (0x0F04, op true true false false [0xFFFF]),
   (0x0F05, op false true true true [])]

/-- The row of an opcode (05 Table 5.5), or none where the table has none. -/
def opInfo (c : Nat) : Option OpInfo := ((opRows1 ++ opRows2 ++ opRows3 ++ opRows4).find? fun r => r.1 == c).map Prod.snd

/-! Functions and who may reach a queue. -/

/-- The function that owns a queue (19, Model). -/
def queueFn (s : State) (q : Nat) : Fn := ctxFn s (getQ s q).ctx

/-- 19 R366: a function may reach a page when it is context 0's or owns what the page belongs to. -/
def mayReach (f owner : Fn) : Bool := f == .pf || f == owner

/-- 19 R366: an access by another function, or to a page with no live owner: no effect, event 0x0208 with the Requester ID. -/
def foreignAccess (f : Fn) (s : State) : State :=
  raiseDev 0x0208 (requesterId f) (onGlb (fun g => { g with foreign := true }) s)

/-- A context is Active (06 Table 6.2). -/
def ctxActive (s : State) (c : Nat) : Bool := (getCtx s c).st == 1

/-- A queue that a doorbell finds: live, and its context is not Resetting or Destroying (06, Contexts). -/
def queueLive (s : State) (q : Nat) : Bool := (getQ s q).st != .absent && ((getQ s q).ctx == 0 || ctxActive s (getQ s q).ctx)

/-- 05 R82: how many slots or entries of a queue have completed, as an index of its ring. -/
def doneIndex (v : Queue) : BitVec 32 :=
  v.fetch - (match v.cur with | some p => BitVec.ofNat 32 p.slots | none => if v.desc.isSome then 1 else 0)

/-- 05 R82: a doorbell at `v` sets the producer index; doorbells still uncovered are kept with their arrival order (R91). -/
def ring (q : Nat) (v : BitVec 32) (s : State) : State :=
  let s := onHost (fun h => { h with dbSerial := h.dbSerial + 1 }) s
  let serial := s.host.dbSerial
  modQ q (fun w => { w with prod := v
                            db := (w.db.filter fun e => !reached (doneIndex w) e.1 && reached v e.1) ++ [(v, serial)] }) s

/-- 05 R82: a write to DNK_KQ_DB. A value more than 2^s slots ahead of the fetch index, or behind it, is ignored with event
0x0107; the same value again has no effect. -/
def execDoorbell (f : Fn) (q : Nat) (v : BitVec 32) (s : State) : Res :=
  .next (if !regsOpen s then s
    else if !queueLive s q || !mayReach f (queueFn s q) then foreignAccess f s
    else
      let w := getQ s q
      if w.typ = 3 || 2 ^ w.s < (v - w.fetch).toNat then raiseDev 0x0107 (v.toNat + q * 2 ^ 32) s
      else if v = w.prod then s
      else ring q v s)

/-- 05 R83: a write to DNK_KQ_CQH releases status records. -/
def execStatusRelease (f : Fn) (q : Nat) (v : BitVec 32) (s : State) : Res :=
  .next (if !regsOpen s then s
    else if !queueLive s q || !mayReach f (queueFn s q) then foreignAccess f s
    else modQ q (fun w => { w with released := v }) s)

/-! Waits (06 R121, R122; 05 R92). -/

/-- The queue that a queue's armed edge targets; a mirror stands for its queue pair's head descriptor (06 R122). -/
def nextEdge (s : State) (q : Nat) : Option Nat :=
  let v := getQ s q
  if v.typ = 3 then (getQp s v.mirror).edge.map Prod.fst else v.edge.map Prod.fst

/-- 06 R122: the walk from a node, with the number of nodes still allowed; `isA` recognises the arming queue. Some status
refuses the wait. -/
def walkWaits (s : State) (isA : Nat → Bool) : Nat → Nat → Option Nat
  | 0, _ => some 0x0601
  | k + 1, node =>
    if isA node then some 0x0406
    else match nextEdge s node with
      | none => none
      | some n => walkWaits s isA k n

/-- 06 R121: what a wait of context `c` on a queue's counter comes to: refused with a status and DETAIL, met (true), or to be
armed (false). -/
def waitCheck (s : State) (c : Nat) (isA : Nat → Bool) (wq : Nat) (wv : BitVec 32) : Except (Nat × Nat) Bool :=
  if (getQ s wq).st = .absent then .error (0x0403, 0)
  else if (getQ s wq).ctx ≠ c then .error (0x0202, 0)
  else
    let d := (wv - counterOf s wq).toNat
    if d = 0 ∨ 2 ^ 31 < d then .ok true
    else if d = 2 ^ 31 then .error (0x0603, wv.toNat)
    else match walkWaits s isA 8 wq with
      | some 0x0406 => .error (0x0406, Config.statusDetail 0x0406)
      | some st => .error (st, 8)
      | none => .ok false

/-! Reading packets. -/

/-- `n` slots of a submission ring from an index; the ring wraps. -/
def ringSlots (s : State) (v : Queue) (n : Nat) : List Byte :=
  (List.range n).flatMap fun i => memRead s.hostMem (v.sq + 64 * ((v.fetch.toNat + i) % 2 ^ v.s)) 64

/-- The slots that a packet takes (05, Model). -/
def packetSlots (plen : Nat) : Nat := ceilDiv (64 + 8 * plen) 64

/-- 05 R96: the 64-bit digest prefix: the header with FLAGS[4] read as 0, then the parameters. -/
def packetDigest (hdr params : List Byte) : List Byte :=
  (sha384 (hdr.set 4 ((hdr.getD 4 0) &&& 0xEF) ++ params)).take 8

/-- The packet that a header and its parameters spell (05 Table 5.1). -/
def parsePacket (hdr params : List Byte) (now : Nat) (fence : List (Nat × BitVec 32)) : Packet :=
  let plen := field hdr 0xC 2 % 512
  { opcode := field hdr 2 2, flags := field hdr 4 2, ctx := field hdr 6 2 % 4096, tag := field hdr 8 4, plen := plen
    waitQ := field hdr 0xE 2, waitV := BitVec.ofNat 32 (field hdr 0x10 4), timeout := field hdr 0x14 4
    rbuf := field hdr 0x18 8, rbufLen := field hdr 0x20 4, params := params, digest := packetDigest hdr params
    at_ := now, slots := packetSlots plen, fence := fence, accepted := false, started := false, kRes := [] }

/-- 05 R91: the queue positions that a FENCE waits for: on every KCP, DMA or launch queue of the context, the doorbells that
arrived before `serial`. -/
def fenceOf (s : State) (c serial skip : Nat) : List (Nat × BitVec 32) :=
  s.host.queues.filterMap fun e =>
    if e.1 = skip || e.2.ctx != c || e.2.typ = 3 || e.2.st = .absent then none
    else ((e.2.db.filter fun d => d.2 < serial && !reached (doneIndex e.2) d.1).getLast?).map fun d => (e.1, d.1)

/-- 05 R91: every entry that the fence waits for has completed. -/
def fenceMet (s : State) (p : Packet) : Bool := p.fence.all fun e => reached (doneIndex (getQ s e.1)) e.2

/-- 05 R86, Table 5.1: the offset of the first Rsvd field of a header that is not zero (log 17). -/
def headerRsvd (hdr : List Byte) : Option Nat :=
  let flags := field hdr 4 2
  if bits flags 5 11 ≠ 0 then some 0x04
  else if bits (field hdr 6 2) 12 4 ≠ 0 then some 0x07
  else if bits (field hdr 0xC 2) 9 7 ≠ 0 then some 0x0D
  else if !bitOf flags 1 && field hdr 0xE 2 != 0 then some 0x0E
  else if !bitOf flags 1 && field hdr 0x10 4 != 0 then some 0x10
  else if (sub hdr 0x24 12).any (· != 0) then some 0x24
  else if !bitOf flags 2 && (sub hdr 0x30 16).any (· != 0) then some 0x30
  else none

/-- 05 R104: over MCTP, CTX, WAIT_QUEUE, WAIT_VALUE, RBUF_ADDR and RBUF_LEN must be zero. -/
def mctpRsvd (hdr : List Byte) : Option Nat :=
  if field hdr 6 2 ≠ 0 then some 0x06
  else if field hdr 0xE 2 ≠ 0 then some 0x0E
  else if field hdr 0x10 4 ≠ 0 then some 0x10
  else if field hdr 0x18 8 ≠ 0 then some 0x18
  else if field hdr 0x20 4 ≠ 0 then some 0x20
  else none

/-! The duplicate window (05 R96, R97) and sealed packets (07 R137). -/

/-- What the duplicate window says of a packet. -/
inductive DupCheck where
  | fresh | conflict
  | cached (e : DupEntry)
  deriving DecidableEq, Repr

/-- 05 R97: the newest window entry with the tag decides. -/
def dupCheck (win : List DupEntry) (p : Packet) : DupCheck :=
  match (win.filter fun e => e.tag == p.tag).getLast? with
  | none => .fresh
  | some e => if bitOf p.flags 4 && e.digest == p.digest then .cached e else .conflict

/-- The outcome of the checks at fetch. -/
inductive Fetched where
  | refuse (status detail : Nat)
  | dup (e : DupEntry)
  | conflict
  | ok (p : Packet) (s : State)

/-- 07 R137: the additional authenticated data of a sealed packet: header bytes 0x00 to 0x2F with FLAGS[4] read as 0. -/
def packetAad (hdr : List Byte) : List Byte := (hdr.set 4 ((hdr.getD 4 0) &&& 0xEF)).take 0x30

/-- 07 R137 step 3: a tag already accepted, or 4,096 or more below the highest accepted one (RFC 1982). A tag at a distance of
exactly 2^31, which RFC 1982 does not order, counts as below (log 51). -/
def tagReplayed (ch : Channel) (tag : Nat) : Bool :=
  match ch.tagHi with
  | none => false
  | some hi =>
    ch.tags.contains tag
      || (!reached (BitVec.ofNat 32 tag) (BitVec.ofNat 32 hi) && decide (4096 ≤ (BitVec.ofNat 32 hi - BitVec.ofNat 32 tag).toNat))

/-- 07 R137 step 4: the tag is recorded; tags that fell out of the window of 4,096 are dropped. -/
def recordTag (tag : Nat) (ch : Channel) : Channel :=
  let hi := match ch.tagHi with
    | none => tag
    | some h => if reached (BitVec.ofNat 32 tag) (BitVec.ofNat 32 h) then tag else h
  { ch with tagHi := some hi, sealedCnt := ch.sealedCnt + 1
            tags := (tag :: ch.tags).filter fun t => decide ((BitVec.ofNat 32 hi - BitVec.ofNat 32 t).toNat < 4096) }

/-- 07 R137, R139: the checks of a sealed packet in Confidential host mode. -/
def openSealed (win : List DupEntry) (hdr : List Byte) (p : Packet) (s : State) : Fetched :=
  let ch := (getCtx s p.ctx).chan
  if ch.st = 1 then .refuse 0x0401 1
  else match (if ch.st = 2 then gcmOpen ch.kCmd (tagNonce 1 p.tag) (packetAad hdr) p.params (sub hdr 0x30 16) else none) with
    | none => .refuse 0x0502 1
    | some text =>
      match dupCheck win p with
      | .cached e => .dup e
      | .conflict => .conflict
      | .fresh =>
        if 2 ^ 31 ≤ ch.sealedCnt then .refuse 0x0401 2
        else if tagReplayed ch p.tag then .refuse 0x0504 3
        else .ok { p with params := text, accepted := true, kRes := ch.kRes } (modCtx p.ctx (fun c => { c with chan := recordTag p.tag c.chan }) s)

/-- 05 R97, 07 R134, R137: sealing and the duplicate window. `ctx` is the context of the queue. -/
def openPacket (win : List DupEntry) (ctx : Nat) (hdr : List Byte) (p : Packet) (s : State) : Fetched :=
  if p.isSealed then
    if !s.host.confidential then .refuse 0x0409 (devState 4 (tenancyWord s.host))
    else openSealed win hdr { p with ctx := ctx } s
  else match dupCheck win p with
    | .cached e => .dup e
    | .conflict => .conflict
    | .fresh => .ok p s

/-- 05 R85, R86, R87, R101, R104: the opcode, length, Rsvd and permission checks of an opened packet, in the order of log 16. -/
def checkPacket (mctp : Bool) (ctx : Nat) (hdr : List Byte) (p : Packet) (s : State) : Option (Nat × Nat) :=
  match (headerRsvd hdr).or (if mctp then mctpRsvd hdr else none) with
  | some off => some (0x0104, off)
  | none =>
    match opInfo p.opcode with
    | none => some (0x0102, 2)
    | some i =>
      if p.opcode ≠ 0x0F05 ∧ p.plen ≠ i.masks.length then some (0x0103, 0x0C)
      else match rsvdParams p.params 0 i.masks with
        | some off => some (0x0104, off)
        | none =>
          if field hdr 6 2 ≠ ctx then some (0x0201, 0)
          else if (i.ctx0 && ctx != 0) || (mctp && !i.mctp) then some (0x0201, 0)
          else if s.host.confidential && ctx != 0 && p.opcode != 0 && (getCtx s ctx).chan.st == 1 then some (0x0401, 1)
          else if s.host.confidential && ctx != 0 && p.opcode != 0 && !p.isSealed then some (0x0205, 0)
          else none

/-- 07 Table 7.10: refusals with 0x0502 and 0x0504 are counted. -/
def countAuth (status : Nat) (s : State) : State :=
  if status = 0x0502 then onHost (fun h => { h with authFail := incSat h.authFail }) s
  else if status = 0x0504 then onHost (fun h => { h with replayCnt := incSat h.replayCnt }) s
  else s

/-! Fetching on a host queue. -/

/-- The chip serves a queue: powered, firmware running, no warm reset, and in Standby and Tripped only the admin queue and the
management pseudo-queue (05 R100). -/
def serves (s : State) (q : QRef) : Bool :=
  regsOpen s && s.boot.stage == 8 && (s.pwr.st == .idle || s.pwr.st == .run || q == .host 0 || q == .mgmt)

/-- A fetched packet becomes the queue's entry. -/
def setCur (q : Nat) (p : Packet) (st : QState) (s : State) : State :=
  modQ q (fun w => { w with cur := some p, st := st }) s

/-- A packet refused at fetch completes with a status and enters the duplicate window. -/
def refuseAt (q : Nat) (p : Packet) (status detail : Nat) (s : State) : State :=
  finish (.host q) (Done.fail status detail) (setCur q p .running (countAuth status s))

/-- 05 R85: the wait of a fetched packet; none that is ahead leaves the queue Running, an armed edge Waiting. -/
def armPacket (q : Nat) (p : Packet) (s : State) : State :=
  if bitOf p.flags 1 then
    match waitCheck s (getQ s q).ctx (· == q) p.waitQ p.waitV with
    | .error e => refuseAt q p e.1 e.2 s
    | .ok true => setCur q p .running s
    | .ok false => modQ q (fun w => { w with edge := some (p.waitQ, p.waitV) }) (setCur q p .waiting s)
  else setCur q p .running s

/-- 05 R97: a cached record returns with DUP set, its sealed result bytes rewritten; the counter advances. -/
def replyDup (q : Nat) (p : Packet) (e : DupEntry) (s : State) : State :=
  let s := if e.sealedOut.isEmpty then s else writeResult { p with ctx := (getQ s q).ctx } e.sealedOut s
  postRec q { e.rec_ with dup := true } (bitOf p.flags 3) s

/-- A packet whose slots the producer index covers is fetched. -/
def takePacket (q : Nat) (hdr : List Byte) (s : State) : State :=
  let v := getQ s q
  let n := packetSlots (field hdr 0xC 2 % 512)
  let params := sub (ringSlots s v n) 64 (8 * (field hdr 0xC 2 % 512))
  let serial := ((v.db.find? fun e => reached e.1 (v.fetch + BitVec.ofNat 32 n)).map Prod.snd).getD (s.host.dbSerial + 1)
  let p := parsePacket hdr params s.lark.time (if bitOf (field hdr 4 2) 0 then fenceOf s v.ctx serial q else [])
  let s := modQ q (fun w => { w with fetch := w.fetch + BitVec.ofNat 32 n
                                     db := w.db.filter fun e => !reached w.fetch e.1 }) s
  match openPacket v.dup v.ctx hdr p s with
  | .refuse st d => refuseAt q p st d s
  | .dup e => replyDup q p e s
  | .conflict => postRec q { tag := p.tag, status := 0x0411, dup := false, sealed := false, phase := false, detail := Config.statusDetail 0x0411, rlen := 0, res0 := 0, res1 := 0 } (bitOf p.flags 3) s
  | .ok p s =>
    match checkPacket false v.ctx hdr p s with
    | some e => refuseAt q p e.1 e.2 s
    | none => armPacket q p s

/-- 05 R85: a packet that the next one cannot be located from: its status, and the queue in Error. The fetch index stays at it
(log 16). -/
def fatalPacket (q : Nat) (hdr : List Byte) (status detail : Nat) (s : State) : State :=
  let p := { parsePacket hdr [] s.lark.time [] with slots := 0 }
  modQ q (fun w => { w with st := .error, errStatus := status })
    (finish (.host q) (Done.fail status detail) (setCur q p .running s))

/-- 05 R82, R83, R85: the next packet of a queue is fetched, if the producer index covers it and the status ring has room. -/
def fetchPacket (q : Nat) (s : State) : State :=
  let v := getQ s q
  let hdr := ringSlots s v 1
  let n := packetSlots (field hdr 0xC 2 % 512)
  let left := (v.prod - v.fetch).toNat
  if left = 0 then s
  else if field hdr 0 2 ≠ 0x4B01 then fatalPacket q hdr 0x0101 0 s
  else if 504 < field hdr 0xC 2 % 512 ∨ 2 ^ v.s < n then fatalPacket q hdr 0x0103 0x0C s
  else if left < n then s
  else takePacket q hdr s

/-- A queue that can take its next entry: Ready, nothing held, room in the status ring, its context alive. -/
def canFetch (s : State) (q typ : Nat) : Bool :=
  let v := getQ s q
  v.typ == typ && v.st == .ready && v.cur.isNone && v.desc.isNone && ringRoom v && serves s (.host q) && ctxActive s v.ctx

/-- 05 R85. -/
def execKcpFetch (q : Nat) (s : State) : Res := .next (if canFetch s q 0 then fetchPacket q s else s)

/-- 05 R104: a packet over MCTP: it becomes the pseudo-queue's entry, or is refused at once. -/
def takeMctp (pkt : List Byte) (s : State) : State :=
  let hdr := sub pkt 0 64
  let plen := field hdr 0xC 2 % 512
  let fence := if bitOf (field hdr 4 2) 0 then fenceOf s 0 (s.host.dbSerial + 1) 0x10000 else []
  let p := parsePacket hdr (sub pkt 64 (8 * plen)) s.lark.time fence
  let hold (p : Packet) (s : State) : State := onHost (fun h => { h with mgmt := some p }) s
  let refuse (st d : Nat) (s : State) : State := finish .mgmt (Done.fail st d) (hold p (countAuth st s))
  if field hdr 0 2 ≠ 0x4B01 then refuse 0x0101 0 s
  else if 504 < plen then refuse 0x0103 0x0C s
  else match openPacket s.host.mgmtDup 0 hdr p s with
    | .refuse st d => refuse st d s
    | .dup e => emit (.mctp (recBytes { e.rec_ with dup := true } ++ e.sealedOut)) s
    | .conflict => emit (.mctp (recBytes { tag := p.tag, status := 0x0411, dup := false, sealed := false, phase := false, detail := Config.statusDetail 0x0411, rlen := 0, res0 := 0, res1 := 0 })) s
    | .ok p s =>
      match checkPacket true 0 hdr p s with
      | some e => refuse e.1 e.2 s
      | none =>
        if bitOf p.flags 1 then
          match waitCheck s 0 (fun _ => false) p.waitQ p.waitV with
          | .error e => refuse e.1 e.2 s
          | .ok _ => hold p s
        else hold p s

/-- 05 R104: a KCP packet over MCTP runs on the management pseudo-queue as context 0, after the one before it. -/
def execMctpKcp (pkt : List Byte) (s : State) : Res :=
  .next (if serves s .mgmt && s.host.mgmt.isNone then takeMctp pkt s else s)

/-! Start. -/

/-- The status and DETAIL with which a queue pair's send descriptor would be refused are those of a queue entry; here only the
edge is removed once the counter has reached the value (06 Table 6.7, R121). -/
def edgeMet (s : State) (e : Option (Nat × BitVec 32)) : Bool :=
  match e with
  | some (q, v) => reached (counterOf s q) v
  | none => false

/-- 06 Table 6.7: the target counter has reached the value: the edge is removed and the entry of a queue starts. -/
def waitMetQueue (q : Nat) (s : State) : State :=
  if (getQ s q).st = .waiting ∧ edgeMet s (getQ s q).edge then modQ q (fun v => { v with st := .running, edge := none }) s else s

/-- The packet that a queue has fetched and not started, if any. -/
def heldPacket (s : State) : QRef → Option Packet
  | .host q => if (getQ s q).typ = 0 then (getQ s q).cur else none
  | .mgmt => s.host.mgmt

/-- 05 R94: TIMEOUT has passed before the command started. -/
def execStartTimeout (q : QRef) (s : State) : Res :=
  .next (match heldPacket s q with
    | some p =>
      if !p.started && p.timeout != 0 && decide (p.at_ + p.timeout * 1000 ≤ s.lark.time) && serves s q then
        finish q (Done.fail 0x0705 (abortDetail s))
          (match q with | .host n => modQ n (fun v => { v with st := .running, edge := none }) s | .mgmt => s)
      else s
    | none => s)

/-! The frame in which an opcode runs. -/

/-- What an opcode's body answers: a completion, a completion after which more follows (a command that ends its own queue or
resets the chip), a completion by a later step, or that it must wait before it starts. -/
inductive Reply where
  | done (d : Done)
  | doneThen (d : Done) (after : State → State)
  | later
  | wait

/-- An opcode's body. -/
abbrev Body := QRef → Packet → State → Reply × State

/-- A refusal: the state stays as it was (05 R89). -/
def refuse (s : State) (status detail : Nat) : Reply × State := (.done (Done.fail status detail), s)

/-- The packet that may start on a queue. -/
def startable (s : State) (q : QRef) : Option Packet :=
  match q with
  | .host n => if (getQ s n).st = .running && (getQ s n).typ = 0 && ctxActive s (getQ s n).ctx then (getQ s n).cur else none
  | .mgmt =>
    match s.host.mgmt with
    | some p => if bitOf p.flags 1 && !reached (counterOf s p.waitQ) p.waitV then none else some p
    | none => none

/-- 05 R88, R114, 07 R138: why `n` bytes of result data cannot be returned. Over MCTP the limit is 4,032 bytes (R104). -/
def bufErr (s : State) (q : QRef) (p : Packet) (n : Nat) : Option Done :=
  let need := if p.isSealed then 48 + n else n
  if q = .mgmt then (if 4032 < n then some (Done.fail 0x0106 n) else none)
  else if p.rbufLen < need then some (Done.fail 0x0106 need)
  else match rangeErr s p.ctx p.rbuf need .write true with
    | some e => some (Done.fail (accStatus .write e).1 (accStatus .write e).2)
    | none => none

/-- A body that returns `n` bytes of data checks its result buffer before it takes any effect (05 R88). -/
def withBuf (n : Nat) (q : QRef) (p : Packet) (s : State) (k : Reply × State) : Reply × State :=
  match bufErr s q p n with
  | some d => (.done d, s)
  | none => k

/-- The command of a queue has begun and completes by a later step. -/
def markStarted (q : QRef) (s : State) : State :=
  match q with
  | .host n => modQ n (fun v => { v with cur := v.cur.map fun p => { p with started := true } }) s
  | .mgmt => onHost (fun h => { h with mgmt := h.mgmt.map fun p => { p with started := true } }) s

/-- The result buffer of a packet cannot take its sealed result: the record is written in the clear. -/
def dropBuf (q : QRef) (s : State) : State :=
  match q with
  | .host n => modQ n (fun v => { v with cur := v.cur.map fun p => { p with rbufLen := 0 } }) s
  | .mgmt => s

/-- Whether a sealed packet's result buffer fails R88 or R114 before the command begins (07 R138). -/
def sealedBufErr (s : State) (q : QRef) (p : Packet) : Option Done :=
  if p.isSealed && (p.rbufLen != 0 || ((opInfo p.opcode).map OpInfo.results).getD false) then bufErr s q p 0 else none

/-- 05 R100: an opcode that Standby and Tripped do not serve. -/
def darkRefusal (s : State) (opcode : Nat) : Bool :=
  (s.pwr.st == .standby || s.pwr.st == .tripped) && !((opInfo opcode).map OpInfo.standby).getD false

/-- 05 Edges, 18 R353: a command to a unit in Quarantine. -/
def onUnit (u : Nat) (body : Body) : Body := fun q p s => if quarantined s u then refuse s 0x0C01 u else body q p s

/-- The command on a queue runs when it is this opcode's turn: it has been fetched, its wait and its fence are met, and the
chip serves the queue (05 R90 to R94). -/
def runCmd (opcode : Nat) (body : Body) (q : QRef) (s : State) : State :=
  match startable s q with
  | none => s
  | some p =>
    if !(p.opcode == opcode && !p.started && serves s q && fenceMet s p) then s
    else if darkRefusal s opcode then finish q (Done.fail 0x0409 (devState 1 (pwrState s.pwr))) s
    else match sealedBufErr s q p with
      | some d => finish q d (dropBuf q s)
      | none =>
        match body q p s with
        | (.done d, s') => finish q d (countAuth d.status s')
        | (.doneThen d after, s') => after (finish q d s')
        | (.later, s') => markStarted q s'
        | (.wait, s') => s'

end Sys2Proof.Machine
end

