-- ==== Sys2Proof/Machine/LongRun.lean ====
section
/-! DEFINITION. Long-run operation (18): the wall offset and billing periods (R349 to R351), meter records (R350), reading the event log (R347), and unit identifiers (Table 18.5). -/

namespace Sys2Proof.Machine

/-! Periods. -/

/-- 18 R351: the open period closes at this fabric time with a wall end; the next one opens on the same edge. -/
def closePeriod (w : Int) (late : Bool) (s : State) : State :=
  onMtr (fun m =>
    let old := { m.cur with closeAt := s.lark.time, wallEnd := w, offset := m.wall, late := late }
    { m with closed := (m.closed ++ [old]).drop (m.closed.length + 1 - 64)
             cur := Period.init (m.cur.num + 1) s.lark.time
             lastEnd := some (match m.lastEnd with | some e => max e w | none => w) }) s

/-- 18 R349: WALL_OFFSET_SET. -/
def wallOffsetSet : Body := fun _ p s =>
  let o := signed 64 (p.w 0)
  let back := s.mtr.wallSet && decide (o < s.mtr.wall)
  let s := onMtr (fun m => { m with
    wall := o, wallSet := true
    cur := if back then { m.cur with discont := min (m.cur.discont + 1) 0xFFFF, discTime := s.lark.time, discBefore := m.wall, discAfter := o }
           else m.cur }) s
  (.done (Done.res (b2n back) 0), if back then raisePlain 0x0413 none 0xFFFF s else s)

/-- 18 R349. -/
def execWallOffsetSet (q : QRef) (s : State) : Res := .next (runCmd 0x0A04 wallOffsetSet q s)

/-- 18 R351: whether a wall time is at or before the wall end of a closed period or of the pending close. -/
def wallClosed (m : Metering) (w : Int) : Bool :=
  (match m.lastEnd with | some e => decide (w ≤ e) | none => false)
    || (match m.pend with | some (_, e) => decide (w ≤ e) | none => false)

/-- 18 R351: PERIOD_CLOSE. -/
def periodClose : Body := fun _ p s =>
  let w : Int := p.w 0
  let f := w - s.mtr.wall
  if !s.mtr.wallSet then refuse s 0x0409 0
  else if wallClosed s.mtr w then refuse s 0x0407 (Config.statusDetail 0x0407)
  else if s.mtr.pend.isSome then refuse s 0x0412 (Config.statusDetail 0x0412)
  else
    let n := s.mtr.cur.num
    if (s.lark.time : Int) < f then (.done (Done.res n 0), onMtr (fun m => { m with pend := some (f.toNat, w) }) s)
    else (.done (Done.res n 0), closePeriod w true (larkTick s))

/-- 18 R351. -/
def execPeriodClose (q : QRef) (s : State) : Res := .next (runCmd 0x0A05 periodClose q s)

/-- 18 R351: a pending close takes effect at the first reference edge at or after its fabric time. -/
def execPeriodCloseTakesEffect (s : State) : Res :=
  .next (match s.mtr.pend with
    | some (f, w) =>
      if powered s && decide (f ≤ s.lark.time) then closePeriod w false (onMtr (fun m => { m with pend := none }) s) else s
    | none => s)

/-! Meter records. -/

/-- 18 Table 18.4: one meter record. `who` is the partition, or 0xFF for the device; `k` its meters in the period. -/
def meterRecord (m : Metering) (p : Period) (isOpen : Bool) (who k : Nat) : List Byte :=
  let v := tabGet Meter.init p.meters k
  natLE 8 p.num ++ natLE 1 (b2n (!isOpen) + b2n (isOpen && m.pend.isSome) * 2 + b2n p.late * 4) ++ natLE 1 who ++ natLE 2 p.discont
    ++ natLE 4 0 ++ natLE 8 p.openAt ++ natLE 8 p.closeAt ++ natLE 8 (wrap 64 p.wallEnd) ++ natLE 8 (wrap 64 p.offset)
    ++ natLE 8 (v.wrenNs / 10) ++ natLE 8 v.hbmMibMs ++ natLE 8 v.lntRx ++ natLE 8 v.lntTx ++ natLE 8 v.pcie
    ++ natLE 8 v.sessions ++ natLE 8 v.rounds ++ natLE 8 v.refreshes ++ natLE 8 v.wblBytes
    ++ natLE 8 (if who = 0xFF then v.energy / 10 else 0)
    ++ natLE 8 p.discTime ++ natLE 8 (wrap 64 p.discBefore) ++ natLE 8 (wrap 64 p.discAfter) ++ natLE 8 0

/-- 18 R350: the records that a context receives. -/
def meterRecords (s : State) (c : Nat) (p : Period) (isOpen : Bool) : List Byte :=
  if c = 0 then
    meterRecord s.mtr p isOpen 0xFF 0 ++ (List.range s.host.parts).flatMap fun i => meterRecord s.mtr p isOpen i (i + 1)
  else meterRecord s.mtr p isOpen (getCtx s c).part ((getCtx s c).part + 1)

/-- 18 R350: METER_READ. -/
def meterRead : Body := fun q p s =>
  let n := p.w 0
  if s.mtr.cur.num < n then refuse s 0x0105 (paramAt 0 0)
  else
    let isOpen := n = 0 ∨ n = s.mtr.cur.num
    match (if isOpen then some s.mtr.cur else s.mtr.closed.find? fun c => c.num == n) with
    | none => refuse s 0x0403 0
    | some per =>
      let bs := meterRecords s p.ctx per (decide isOpen)
      withBuf bs.length q p s (.done { Done.ok with data := bs }, s)

/-- 18 R350. -/
def execMeterRead (q : QRef) (s : State) : Res := .next (runCmd 0x0A06 meterRead q s)

/-! The event log. -/

/-- An entry put after those that are not later. -/
def insertByTime (e : Nat × Event) : List (Nat × Event) → List (Nat × Event)
  | [] => [e]
  | f :: fs => if e.2.time < f.2.time then e :: f :: fs else f :: insertByTime e fs

/-- Entries of all groups in fabric-time order. -/
def mergeByTime (es : List (Nat × Event)) : List (Nat × Event) := es.foldl (fun acc e => insertByTime e acc) []

/-- The groups that a context reads (18 R347). -/
def groupsFor (s : State) (c : Nat) : List Nat :=
  if !s.host.shared then [0] else if c = 0 then List.range (s.host.parts + 1) else [(getCtx s c).part + 1]

/-- 18 R347: the entries that a context may read from a sequence on, in order, each with its group. -/
def readable (s : State) (c from_ : Nat) : List (Nat × Event) :=
  let pick (g : Nat) := ((tabGet EvGroup.init s.evlog g).entries.filter fun e => decide (from_ ≤ e.seq) && (c == 0 || e.ctx == some c)).map fun e => (g, e)
  mergeByTime ((groupsFor s c).flatMap pick)

/-- 18 R347: how many entries at or after a sequence were overwritten before the read. -/
def missed (s : State) (c from_ : Nat) : Nat :=
  (groupsFor s c).foldl (fun n g =>
    let v := tabGet EvGroup.init s.evlog g
    n + (((v.entries.head?).map Event.seq).getD v.next - from_)) 0

/-- What a read does to the watermark and, over MCTP, to the alert (18 R348). -/
def afterRead (q : QRef) (c next : Nat) (got : List (Nat × Event)) (s : State) : State :=
  let s := if c = 0 then onGlb (fun g => { g with evSince := 0 }) s else s
  if q = .mgmt then
    let past (a : Nat × Nat) : Bool :=
      if s.host.shared then got.any fun e => e.1 == a.1 && decide (a.2 ≤ e.2.seq) else decide (a.2 < next)
    syncAlert (onGlb (fun g => { g with alerts := g.alerts.filter fun a => !past a }) s)
  else s

/-- 18 R347: EVENT_LOG_READ. -/
def eventLogRead : Body := fun q p s =>
  let got := (readable s p.ctx (p.w 0)).take (bits (p.w 1) 0 13)
  let next := match got.getLast? with | some e => e.2.seq + 1 | none => p.w 0
  let bs := got.flatMap fun e => eventBytes e.2
  withBuf bs.length q p s
    (.done { Done.res next (missed s p.ctx (p.w 0)) with data := bs }, afterRead q p.ctx next got s)

/-- 18 R347. -/
def execEventLogRead (q : QRef) (s : State) : Res := .next (runCmd 0x0F00 eventLogRead q s)

/-! Tenancy changes (18 Edges). -/

/-- 18 Edges: SET_TENANCY empties the event log into the new groups, sequences at 0 and lost counts kept per group, and closes
the open period with LATE. -/
def tenancyLogs (s : State) : State :=
  let s := setEvlog (s.evlog.foldl (fun t e => tabPut EvGroup.init t e.1 { entries := [], next := 0, lost := e.2.lost }) []) s
  let s := syncAlert (onGlb (fun g => { g with alerts := [] }) s)
  if s.mtr.started then closePeriod (s.lark.time + s.mtr.wall) true s else s

/-! Units (18 Table 18.5). -/

/-- 18 Table 18.5: how many instances each kind has; 0 for a reserved kind. -/
def unitInstances : Nat → Nat
  | 0x01 => 1536 | 0x02 => 64 | 0x03 => 1 | 0x04 => 1536 | 0x05 => 8 | 0x06 => 16 | 0x07 => 1 | 0x08 => 1 | 0x09 => 5
  | 0x0A => 24 | 0x0B => 192 | 0x0C => 1 | 0x0D => 96 | 0x0E => 1536 | 0x0F => 1 | _ => 0

/-- 18 Table 18.5: an identifier that is not reserved. -/
def unitKnown (u : Nat) : Bool := u % 2048 < unitInstances (u / 2048)

/-- The unit is on the part (00 R1: a KL5-B has 48 thickets and 1,152 Wrens). -/
def unitOnPart (s : State) (u : Nat) : Bool :=
  let k := u / 2048
  let i := u % 2048
  if k = 1 || k = 4 || k = 14 then i < wrenCount s else if k = 2 then i < thkCount s else true

/-- A unit enters Quarantine (18 R353): the mark alone; what it does to the unit's work is done by quarantine. -/
def markQuar (u : Nat) (s : State) : State := putUnit u { quar := true, releasing := false, relAt := 0 } s

/-- GLB_QUAR_CNT (18 Table 18.8). -/
def quarCount (s : State) : Nat := s.units.countP fun e => e.2.quar
def relCount (s : State) : Nat := s.units.countP fun e => e.2.releasing

end Sys2Proof.Machine
end

