-- ==== Sys2Proof/Machine/Device.lean ====
section
/-! DEFINITION. Device commands (05 opcodes 0x0000 to 0x0009, 0x0A00 to 0x0A03, 0x0F01, 0x0F02, 0x0F05): information, power, firmware, tenancy, time, beats, counters and echo. -/

namespace Sys2Proof.Machine

/-- 05 Table 5.5: NOP. -/
def nop : Body := fun _ _ s => (.done Done.ok, s)

/-- 05 R102. -/
def execNop (q : QRef) (s : State) : Res := .next (runCmd 0x0000 nop q s)

/-- 05 Table 5.5: GET_INFO. -/
def getInfo : Body := fun _ _ s =>
  (.done (Done.res (s.boot.fuses.part.toNat + chipNo s * 2 ^ 4 + s.boot.svn % 2 ^ 32 * 2 ^ 32) (leNat (s.boot.deviceId.take 8))), s)

/-- 05 Table 5.5. -/
def execGetInfo (q : QRef) (s : State) : Res := .next (runCmd 0x0001 getInfo q s)

/-! Power (03 R38 to R41, R56; 04 R65). -/

/-- A power command already under way completes with the state it has reached; the later one decides (05 Edges). -/
def yieldPower (s : State) : State :=
  match s.pwr.req with
  | some q => finish q (Done.res s.pwr.st.code 0) (onPwr (fun p => { p with req := none, target := none }) s)
  | none => s

/-- 03 R38, R39, R48, R56: SET_POWER_STATE. -/
def setPowerState : Body := fun q p s =>
  let t := bits (p.w 0) 0 3
  if t ≠ 1 ∧ t ≠ 2 then refuse s 0x0105 (paramAt 0 0)
  else if s.pwr.st = .tripped ∨ (t = 2 ∧ s.pwr.st = .standby ∧ (s.pwr.pins.carPwrEn = false ∨ s.pwr.straps.latched = false)) then
    refuse s 0x0409 (devState 1 (pwrState s.pwr))
  else
    let target : PState := if t = 1 then .standby else .idle
    let s := yieldPower s
    if s.pwr.st = target then (.done (Done.res t 0), onPwr (fun p => { p with target := none }) s)
    else (.later, onPwr (fun p => { p with target := some target, req := some q }) s)

/-- 03 R38. -/
def execSetPowerState (q : QRef) (s : State) : Res := .next (runCmd 0x0002 setPowerState q s)

/-- PWR_PT_REQ takes a point (03 R40). -/
def putPoint (v : Nat) (s : State) : State := onPwr (repoint fun p => { p with ptReq := v }) s

/-- 03 R40: SET_POINT. -/
def setPoint : Body := fun _ p s =>
  let v := bits (p.w 0) 0 3
  if v < 1 ∨ 5 < v then refuse s 0x0105 (paramAt 0 0)
  else
    let s := putPoint v s
    (.done (Done.res (effPoint s.pwr + runPoint s.pwr * 8) 0), s)

/-- 03 R40. -/
def execSetPoint (q : QRef) (s : State) : Res := .next (runCmd 0x0003 setPoint q s)

/-- 03 R41: SET_POWER_CAP. -/
def setPowerCap : Body := fun _ p s =>
  let v := bits (p.w 0) 0 11
  if v < 400 ∨ 1150 < v then refuse s 0x0105 (paramAt 0 0)
  else (.done Done.ok, onPwr (fun p => { p with cap := v }) s)

/-- 03 R41. -/
def execSetPowerCap (q : QRef) (s : State) : Res := .next (runCmd 0x0004 setPowerCap q s)

/-- 05 R99, 03 R56: RESET writes its record and then the warm reset begins. -/
def resetChip : Body := fun _ p s =>
  if bits (p.w 0) 0 2 ≠ 0 then refuse s 0x0105 (paramAt 0 0)
  else if s.pwr.st = .tripped then refuse s 0x0409 (devState 1 (pwrState s.pwr))
  else (.doneThen Done.ok (warmReset false), s)

/-- 05 R99. -/
def execReset (q : QRef) (s : State) : Res := .next (runCmd 0x0005 resetChip q s)

/-! Firmware (04 R68, R78 to R80; 05 R105). -/

/-- 04 R80: an advance that finds no epoch fuse left. -/
def epochRefusal (s : State) : Reply × State := (.done (Done.fail 0x0614 1023), raisePlain 0x0614 none 0xFFFF s)

/-- 04 R79: RAISE_SVN_FLOOR. -/
def raiseSvnFloor : Body := fun _ p s =>
  let v := bits (p.w 0) 0 32
  if s.boot.svn < v ∨ v ≤ s.boot.floor then refuse s 0x0105 (paramAt 0 0)
  else if epochsGone s then epochRefusal s
  else
    let s := rollAdvance v s.boot.updCnt s
    (.done (Done.res s.boot.fuses.epoch 0), s)

/-- 04 R79. -/
def execRaiseSvnFloor (q : QRef) (s : State) : Res := .next (runCmd 0x0006 raiseSvnFloor q s)

/-- 04 R68, 05 R105: FW_UPDATE. An image that a check of R69 refuses changes nothing (05 R89; log 26). -/
def fwUpdate : Body := fun _ p s =>
  let len := bits (p.w 1) 0 32
  if s.boot.pldmUpd then refuse s 0x0412 (Config.statusDetail 0x0412)
  else if len < 0x2000 ∨ 15728640 < len then refuse s 0x0103 (paramAt 1 0)
  else match dvaRead s p.ctx (p.w 0) len .read true with
    | .error e => refuse s (accStatus .read e).1 (accStatus .read e).2
    | .ok img =>
      match imageFault s.boot s.boot.floor img with
      | some f => refuse s 0x0501 f.1
      | none =>
        let r := writeFirmware img s
        (.done (Done.res (b2n r.1) 0), r.2)

/-- 04 R68. -/
def execFwUpdate (q : QRef) (s : State) : Res := .next (runCmd 0x0007 fwUpdate q s)

/-! Host mode and tenancy (07 R131, R142, R148; 18 Edges). -/

/-- A context other than 0 exists. -/
def anyTenant (s : State) : Bool := s.host.ctxs.any fun e => e.1 != 0 && e.2.st != 0

/-- 07 R131: the tenancy record of a change, measured into accumulator 6, or the refusal of a full log. -/
def measureTenancy (shared confidential : Bool) (parts : Nat) (s : State) : Option State :=
  extendAcc 6 (sha384 (natLE 1 (b2n shared) ++ natLE 1 parts ++ natLE 1 (b2n confidential) ++ zeros 5)) s

/-- 07 R142: the largest partition count: 8, or 6 on a KL5-B (00 R1). -/
def maxParts (s : State) : Nat := if s.boot.fuses.part = 2 then 6 else 8

/-- 07 R142, R131, R148: SET_TENANCY. -/
def setTenancy : Body := fun _ p s =>
  let shared := bitOf (p.w 0) 0
  let n := if shared then bits (p.w 0) 8 4 else 1
  if anyTenant s ∨ s.host.vfEnable then refuse s 0x0409 (devState 4 (tenancyWord s.host))
  else if shared ∧ (n = 0 ∨ maxParts s < n) then refuse s 0x0105 (paramAt 0 8)
  else match measureTenancy shared s.host.confidential n s with
    | none => refuse s 0x0602 256
    | some s => (.done Done.ok, onHost (fun h => { h with shared := shared, parts := n }) (tenancyLogs s))

/-- 07 R142. -/
def execSetTenancy (q : QRef) (s : State) : Res := .next (runCmd 0x0008 setTenancy q s)

/-- 07 R131: SET_HOST_MODE. -/
def setHostMode : Body := fun _ p s =>
  let conf := bitOf (p.w 0) 0
  if anyTenant s then refuse s 0x0409 (devState 4 (tenancyWord s.host))
  else match measureTenancy s.host.shared conf s.host.parts s with
    | none => refuse s 0x0602 256
    | some s => (.done Done.ok, onHost (fun h => { h with confidential := conf }) s)

/-- 07 R131. -/
def execSetHostMode (q : QRef) (s : State) : Res := .next (runCmd 0x0009 setHostMode q s)

/-! Time and beats (02 R29, R34, R36). -/

/-- 02 R36: TIME_READ. -/
def timeRead : Body := fun _ _ s =>
  (.done (Done.res s.lark.time (s.lark.state.toNat + wrap 32 s.lark.offset * 2 ^ 32)), s)

/-- 02 R36. -/
def execTimeRead (q : QRef) (s : State) : Res := .next (runCmd 0x0A00 timeRead q s)

/-- 02 R29: TIME_CONFIG. -/
def timeConfig : Body := fun _ p s =>
  let src := bits (p.w 0) 0 2
  let slew := bits (p.w 1) 0 16
  if src = 3 then refuse s 0x0105 (paramAt 0 0)
  else if slew < 1 ∨ 500 < slew then refuse s 0x0105 (paramAt 1 0)
  else (.done Done.ok, setLarkCtl (BitVec.ofNat 2 src) (BitVec.ofNat 2 (bits (p.w 0) 2 2)) (bitOf (p.w 0) 4)
                         (onLark (fun l => { l with slew := slew }) s))

/-- 02 R29. -/
def execTimeConfig (q : QRef) (s : State) : Res := .next (runCmd 0x0A01 timeConfig q s)

/-- The beat generators that a context may hold (07 Table 7.4; log 23). -/
def beatsFor (s : State) (c : Nat) : List Nat :=
  if s.host.shared then [2 * (getCtx s c).part, 2 * (getCtx s c).part + 1] else List.range 16

/-- 02 R34: BEAT_ARM takes the lowest free generator. -/
def beatArm : Body := fun _ p s =>
  let k := bits (p.w 0) 0 5
  if k < 10 ∨ 30 < k then refuse s 0x0105 (paramAt 0 0)
  else match (beatsFor s p.ctx).find? fun n => !(getBeat s n).en with
    | none => refuse s 0x0310 (beatsFor s p.ctx).length
    | some n => (.done (Done.res n 0), armBeat n k p.ctx s)

/-- 02 R34. -/
def execBeatArm (q : QRef) (s : State) : Res := .next (runCmd 0x0A02 beatArm q s)

/-- 02 R34: BEAT_DISARM. -/
def beatDisarm : Body := fun _ p s =>
  let n := bits (p.w 0) 0 4
  if !(getBeat s n).en then refuse s 0x0401 0
  else if p.ctx ≠ 0 ∧ (getBeat s n).owner ≠ p.ctx then refuse s 0x0202 0
  else (.done Done.ok, disarmBeat n s)

/-- 02 R34. -/
def execBeatDisarm (q : QRef) (s : State) : Res := .next (runCmd 0x0A03 beatDisarm q s)

/-! Counters (05 R381; 02 R27). -/

/-- 07 R143: the partition that owns an instance of a counter block in Shared tenancy, if one does. -/
def slotOwner (blk inst : Nat) : Option Nat :=
  if blk = 1 || blk = 4 then some (inst / 192) else if blk = 2 then some (inst / 8) else if blk = 6 then some inst else none

/-- BLK_HSC_SEL takes an event for a context (05 R381). -/
def selectSlot (c blk inst slot ev : Nat) (s : State) : State :=
  let k := slotKey blk inst slot
  setSlots (tabPut Slot.init s.hsc k { tabGet Slot.init s.hsc k with sel := ev, by_ := c }) s

/-- 05 R381: COUNTER_SELECT. -/
def counterSelect : Body := fun _ p s =>
  let blk := bits (p.w 0) 0 8
  let slot := bits (p.w 0) 8 8
  let ev := bits (p.w 0) 16 16
  let inst := bits (p.w 0) 32 16
  if slotCount blk = 0 then refuse s 0x0105 (paramAt 0 0)
  else if slotCount blk ≤ slot then refuse s 0x0105 (paramAt 0 8)
  else if ev ≠ 0 ∧ ev ∉ slotEvents blk then refuse s 0x0105 (paramAt 0 16)
  else if slotInsts s blk ≤ inst then refuse s 0x0105 (paramAt 0 32)
  else if s.host.shared ∧ p.ctx ≠ 0 ∧ (slotOwner blk inst).any (· != (getCtx s p.ctx).part) then refuse s 0x0202 0
  else (.done Done.ok, selectSlot p.ctx blk inst slot ev s)

/-- 05 R381. -/
def execCounterSelect (q : QRef) (s : State) : Res := .next (runCmd 0x0F01 counterSelect q s)

/-- 02 R27: SNAPSHOT. -/
def snapshot : Body := fun _ _ s =>
  let s := takeSnapshot s
  (.done (Done.res s.lark.snapSeq.toNat 0), s)

/-- 02 R27. -/
def execSnapshot (q : QRef) (s : State) : Res := .next (runCmd 0x0F02 snapshot q s)

/-- 05 R85: ECHO returns a copy of its parameters. -/
def echo : Body := fun q p s => withBuf p.params.length q p s (.done { Done.ok with data := p.params }, s)

/-- 05 R85. -/
def execEcho (q : QRef) (s : State) : Res := .next (runCmd 0x0F05 echo q s)

end Sys2Proof.Machine
end

