-- ==== Sys2Proof/Machine/Object.lean ====
section
/-! DEFINITION. Host objects (06): handles and scope (R106, R101), where storage lies (19 R356, 06 R112), references and teardown (R127), the thicket binding (09 R182), and the page-table area (06 Table 6.1). -/

namespace Sys2Proof.Machine

/-! Contexts and scope. -/

/-- 05 R101: a context may act on objects of itself and, in Shared tenancy, of its partition; context 0 on any (06 R107). -/
def inScope (s : State) (c owner : Nat) : Bool :=
  c == 0 || c == owner || (s.host.shared && owner != 0 && (getCtx s c).part == (getCtx s owner).part)

/-- 05 R101: whether a context was created by another, directly or through contexts that it created. -/
def createdBy (s : State) (c : Nat) : Nat → Nat → Bool
  | 0, _ => false
  | k + 1, x => x != 0 && (getCtx s x).st != 0 && ((getCtx s x).creator == c || createdBy s c k (getCtx s x).creator)

/-- 05 R101: the contexts that an opcode naming a context may name. -/
def mayName (s : State) (c x : Nat) : Bool := inScope s c x || createdBy s c 4096 x

/-- The first number of 0, 1, 2, … that is not in use. -/
def lowestFree (used : List Nat) : Nat := ((List.range (used.length + 1)).find? fun i => !used.contains i).getD used.length

/-- 06 R123: the number that a new object takes from `n` numbers from `lo`: the lowest one never used, else the one freed longest
ago. -/
def nextNumber (lo n : Nat) (live freed : List Nat) : Option Nat :=
  let mine (l : List Nat) := (l.filter fun x => decide (lo ≤ x) && decide (x < lo + n))
  let c := lowestFree ((mine (live ++ freed)).map (· - lo))
  if c < n then some (lo + c) else (mine freed).head?

/-! Handles (06 R106). -/

/-- The kind code of an object. -/
def ObjKind.code : ObjKind → Nat
  | .mem .. => 1 | .prog _ => 2 | .model _ => 3

/-- A 64-bit object handle. -/
def handleOf (ctx kind idx gen : Nat) : Nat := ctx + kind * 2 ^ 12 + idx * 2 ^ 16 + gen * 2 ^ 36

/-- 06 R106, R127, 05 R101: the live object that a handle names for a new use of context `c`: 0x0403 where it names none or a
Doomed one, 0x0202 outside the scope. -/
def useObj (s : State) (c h kind : Nat) : Except (Nat × Nat) Obj :=
  match getObj? s h with
  | none => .error (0x0403, 0)
  | some o =>
    if o.kind.code ≠ kind then .error (0x0403, 0)
    else if !inScope s c o.ctx then .error (0x0202, 0)
    else if !o.host then .error (0x0403, 0)
    else .ok o

/-- An object changed. -/
def modObj (h : Nat) (f : Obj → Obj) (s : State) : State :=
  onHost (fun v => { v with objs := v.objs.map fun e => if e.1 = h then (e.1, f e.2) else e }) s

/-- 06 Table 6.1: memory objects, programs and models together. -/
def objLimit : Nat := 1048576

/-- 06 R106: a new object at the lowest free index, with the generation after the one last used there. -/
def newObj (c : Nat) (k : ObjKind) (sha : List Byte) (s : State) : Nat × State :=
  let idx := lowestFree (s.host.objs.map fun e => e.2.idx)
  let gen := (tabGet 0 s.host.objGen idx + 1) % 2 ^ 16
  let h := handleOf c k.code idx gen
  let o : Obj := { idx := idx, gen := gen, ctx := c, host := true, refs := 0, sha := sha, kind := k }
  (h, onHost (fun v => { v with objs := tabIns v.objs h o, objGen := tabPut 0 v.objGen idx gen }) s)

/-! Thickets. -/

/-- The thickets of a mask, in increasing order. -/
def maskThks (m : BitVec 64) : List Nat := (List.range 64).filter fun t => m.getLsbD t

/-- The Wrens of a mask in run Wren order (09, Model). -/
def maskWrens (m : BitVec 64) : List Nat := (maskThks m).flatMap fun t => (List.range 24).map fun j => 24 * t + j

/-- 09 R182: an object that keeps a thicket bound. -/
def Obj.onThk (o : Obj) (t : Nat) : Bool :=
  match o.kind with
  | .prog p => p.mask.getLsbD t
  | .model m => m.mask.getLsbD t
  | .mem .. => false

/-- A round that the chip works for and that has not ended holds a thicket (15 R299; 16 Table 16.3). -/
def roundHolds (s : State) (t : Nat) : Bool := s.rnd.rounds.any fun r => r.worker && decide (r.phase < 7) && r.mask.getLsbD t

/-- 09 R182, 15 R299: a thicket that no program, model or round of its context uses any more is unbound. -/
def unbindFree (t : Nat) (s : State) : State :=
  if (getThk s t).bound.isSome && s.host.objs.all (fun e => !e.2.onThk t) && !roundHolds s t then modThk t (fun v => { v with bound := none }) s else s

/-- 09 R182, R176: the thickets of a mask become bound to a context; semaphores of a newly bound one read as zero. -/
def bindThks (c : Nat) (m : BitVec 64) (s : State) : State :=
  (maskThks m).foldl (fun s t =>
    if (getThk s t).bound = some c then s else modThk t (fun v => { v with bound := some c, sems := [] }) s) s

/-! Storage. -/

/-- The device ranges (offset, length) that an object occupies. -/
def objRanges (o : Obj) : List (Nat × Nat) :=
  match o.kind with
  | .mem .host _ _ _ => []
  | .mem _ base size _ => [(base, size)]
  | .prog p => p.static_.map fun e => (e.2, p.staticLen)
  | .model m => m.segs.filterMap fun g => g.spill.map fun b => (b, g.len + 16)

/-- 12 R237: the bytes that the rings of a queue pair take: 64 for each descriptor and 32 for each receive record. -/
def ringBytes (s r : Nat) : Nat := 64 * 2 ^ s + 32 * 2 ^ r

/-- Device ranges in use by objects and by the rings of queue pairs. -/
def usedRanges (s : State) : List (Nat × Nat) :=
  (s.host.objs.flatMap fun e => objRanges e.2) ++ s.lnt.qps.map fun e => (e.2.base, ringBytes e.2.s e.2.r)

/-- Device ranges still being scrubbed (06 R130). -/
def scrubRanges (s : State) : List (Nat × Nat) := s.host.scrubs.map fun r => (r.base, r.len)

/-- Two ranges share a byte. -/
def overlaps (a : Nat × Nat) (b : Nat × Nat) : Bool := a.1 < b.1 + b.2 && b.1 < a.1 + a.2

/-- The lowest aligned place for `n` bytes in [lo, hi) clear of the used ranges. -/
def firstFit (lo hi align n : Nat) (used : List (Nat × Nat)) : Option Nat :=
  let up (a : Nat) := ceilDiv a align * align
  let cands := (up lo :: used.map fun r => up (r.1 + r.2)).filter fun a => lo ≤ a && a + n ≤ hi && used.all fun r => !overlaps (a, n) r
  cands.foldl (fun b a => match b with | none => some a | some x => some (min x a)) none

/-- 19 R356: the HBM that MEM_ALLOC serves a partition from, in bytes left after the carved areas. -/
def hbmWindow (s : State) (p : Nat) : Nat × Nat :=
  if s.host.shared then (0x900000000 * p, 0x900000000 * p + 36208 * 1048576)
  else (0, (if s.lnt.sessHost then 294270 else 294144) * 1048576)

/-- The thicket SRAM of a partition (07 Table 7.4). -/
def thkWindow (s : State) (p : Nat) : Nat × Nat :=
  if s.host.shared then (thkBase (8 * p), thkBase (8 * p + 8)) else (thkBase 0, thkBase (thkCount s))

/-- Where objects of a kind are placed. -/
def kindWindow (s : State) (k : MemKind) (p : Nat) : Nat × Nat :=
  match k with
  | .hbm => hbmWindow s p | .thk => thkWindow s p | .host => (0, s.host.hpoolLen.toNat)

/-- The pool ranges of host-kind objects. -/
def poolRanges (s : State) : List (Nat × Nat) :=
  s.host.objs.filterMap fun e => match e.2.kind with | .mem .host base size _ => some (base, size) | _ => none

/-- 05 Table 5.7: the free amount of a storage in 4 KiB pages, saturating. -/
def freePages (w : Nat × Nat) (used : List (Nat × Nat)) : Nat :=
  let n := (used.filter fun r => overlaps r (w.1, w.2 - w.1)).foldl (fun n r => n + r.2) 0
  min ((w.2 - w.1 - n) / 4096) 0xFFFFFFFF

/-! The page-table area (06 Tables 6.1, 6.3). -/

/-- How many tables of one level, each covering 2^shift bytes, a list of mappings in rising order needs. -/
def tablesAt (shift : Nat) : Option Nat → List Mapping → Nat
  | _, [] => 0
  | last, m :: ms =>
    let a := m.dva / 2 ^ shift
    let b := (m.dva + m.len - 1) / 2 ^ shift
    (b + 1 - a) - (if last = some a then 1 else 0) + tablesAt shift (some b) ms

/-- The 4 KiB tables that a context's mappings need: the root, and levels 3, 2 and 1 as far as the page sizes reach. -/
def ctxTables (c : Ctx) : Nat :=
  1 + tablesAt 39 none c.maps + tablesAt 30 none (c.maps.filter fun m => m.page ≤ 2097152)
    + tablesAt 21 none (c.maps.filter fun m => m.page ≤ 4096)

/-- The tables in use in the page-table area of a partition, or of the device in Sole tenancy. -/
def tablesUsed (s : State) (p : Nat) : Nat :=
  s.host.ctxs.foldl (fun n e => if e.2.st != 0 && (!s.host.shared || e.2.part = p) then n + ctxTables e.2 else n) 0

/-- 06 Table 6.1: 512 MiB of tables. -/
def tableLimit : Nat := 131072

/-- A mapping put in rising order. -/
def insMap (m : Mapping) : List Mapping → List Mapping
  | [] => [m]
  | x :: xs => if m.dva < x.dva then m :: x :: xs else x :: insMap m xs

/-! References and teardown (06 R127). -/

/-- Device references of an object: mappings, open windows, runs, rounds and operations (06 Table 6.9). -/
def deviceRefs (s : State) (h : Nat) : Nat :=
  s.host.ctxs.foldl (fun n e => n + (e.2.maps.filter fun m => m.obj == h).length) 0
    + (s.host.wins.filter fun e => e.2.live && e.2.obj == h).length
    + (match getObj? s h with | some o => o.refs | none => 0)

/-- 16 R329: what a model leaves on its Wrens is scrubbed, and the decryptor keys are cleared. -/
def clearRegions (m : Model) (s : State) : State :=
  (maskWrens m.mask).foldl (fun s w =>
    let v := getWren s w
    setMem (memErase s.mem (wrenBase w + m.wplan) v.region)
      (modWren w (fun v => { v with region := 0, regionSpill := false, keyHeld := false, regionCtx := 0 }) s)) s

/-- An object at zero references is removed and its storage scrubbed; a thicket it kept bound may be freed. -/
def removeObj (h : Nat) (s : State) : State :=
  match getObj? s h with
  | none => s
  | some o =>
    let s := (objRanges o).foldl (fun s r => setMem (memErase s.mem r.1 r.2) s) s
    let s := onHost (fun v => { v with objs := v.objs.filter fun e => e.1 != h }) s
    match o.kind with
    | .mem .. => s
    | .prog p =>
      (maskThks p.mask).foldl (fun s t => unbindFree t (modThk t (fun v => { v with istore := v.istore.filter fun e => e.1 != h }) s)) s
    | .model m => (maskThks m.mask).foldl (fun s t => unbindFree t s) (clearRegions m s)

/-- An object without a host reference is removed once no device reference is left. -/
def reap (h : Nat) (s : State) : State :=
  match getObj? s h with
  | some o => if !o.host && deviceRefs s h = 0 then removeObj h s else s
  | none => s

/-- The host reference is dropped. -/
def dropHost (h : Nat) (s : State) : State := reap h (modObj h (fun o => { o with host := false }) s)

/-- A device reference is taken, and dropped. -/
def takeRef (h : Nat) (s : State) : State := modObj h (fun o => { o with refs := o.refs + 1 }) s
def dropRef (h : Nat) (s : State) : State := reap h (modObj h (fun o => { o with refs := o.refs - 1 }) s)

/-! Windows (06 R125, R126). -/

/-- The live window that a key names. -/
def winOf (s : State) (key : Nat) : Option (Nat × Win) :=
  (s.host.wins.find? fun e => e.1 == bits key 0 20 && e.2.live && e.2.gen == bits key 20 12)

/-- 06 R126: a window is revoked; its object may be removed. -/
def revokeWin (idx : Nat) (s : State) : State :=
  match s.host.wins.find? fun e => e.1 == idx with
  | none => s
  | some e =>
    reap e.2.obj (onHost (fun v => { v with wins := v.wins.map fun x =>
      if x.1 = idx then (x.1, { x.2 with live := false, revokedAt := s.lark.time }) else x }) s)

/-- 06 R127: every window of an object is revoked. -/
def revokeWins (h : Nat) (s : State) : State :=
  ((s.host.wins.filter fun e => e.2.live && e.2.obj == h).map Prod.fst).foldl (fun s i => revokeWin i s) s

/-- 06 R127: every mapping of an object is removed. -/
def dropMaps (h : Nat) (s : State) : State :=
  onHost (fun v => { v with ctxs := v.ctxs.map fun e => (e.1, { e.2 with maps := e.2.maps.filter fun m => m.obj != h }) }) s

end Sys2Proof.Machine
end

