-- ==== Sys2Proof/Machine/Link.lean ====
section
/-! DEFINITION. The fabric below its commands: chip numbers and partners (14 R270 to R273), slices and fences (R293, R294), credits (R276), the next-hop rule and routes (R277 to R280), and packets that leave by a Siskin port as data frames (13 R253 to R255). -/

namespace Sys2Proof.Machine

/-! Chip numbers (14, Model). -/

/-- Rack, board, slot and position of a chip number. -/
def rackOf (c : Nat) : Nat := c / 128 % 1024
def boardOf (c : Nat) : Nat := c / 8 % 16
def slotOf (c : Nat) : Nat := c % 8
def posOf (c : Nat) : Nat := c % 128

/-- A chip from its rack and position. -/
def chipAt (rack pos : Nat) : Nat := rack * 128 + pos

/-- 14 R272: the rack that the inter-rack link of dimension `j` joins rack `r` to. -/
def partnerRack (j r : Nat) : Nat :=
  if j % 2 = 0 then r ^^^ 2 ^ j
  else if j < 9 && bitOf r (j - 1) then r ^^^ 2 ^ j ^^^ 2 ^ (j + 1)
  else r ^^^ 2 ^ j

/-- 14 Table 14.1: the rack at the other end of a chord S21, S22 or S23. -/
def chordRack (k r : Nat) : Nat := r ^^^ (if k = 1 then 0x3FF else if k = 2 then 0x155 else 0x2AA)

/-- The rack at the other end of a link: 0 to 9 inter-rack, 10 to 12 chords. -/
def linkRack (l r : Nat) : Nat := if l < 10 then partnerRack l r else chordRack (l - 9) r

/-- 14 Table 14.1: the chip that a port of chip `c` should lead to; a switch plane leads to a KD-1. -/
def expectedChip (c n : Nat) : Option Nat :=
  if n < 3 then some (c ^^^ 2 ^ n)
  else if n < 13 then some (chipAt (partnerRack (n - 3) (rackOf c)) (posOf c))
  else if n < 21 then none
  else some (chipAt (chordRack (n - 20) (rackOf c)) (posOf c))

/-- 14 R273: a rack within the fabric. -/
def inFabric (s : State) (rack : Nat) : Bool := rack < 2 ^ s.qtd.racks

/-- 13 Table 13.1: the role class of a port: 0 Cube, 1 Inter-rack, 2 Switch, 3 Express. -/
def roleOf (n : Nat) : Nat := if n < 3 then 0 else if n < 13 then 1 else if n < 21 then 2 else 3

/-! Slices and fences (14 R293, R294). -/

/-- 14 R293: the chip number bits that a span frees: slot bits, board bits [3:0], and both rack bits of each pair [8:4]. -/
def spanMask (span : Nat) : Nat :=
  (List.range 5).foldl (fun m k => m + (if bitOf span (4 + k) then 3 * 2 ^ (7 + 2 * k) else 0)) (7 + bits span 0 4 * 8)

/-- 14 R293: (c XOR origin) AND NOT m = 0. -/
def sliceMember (origin span c : Nat) : Bool := (c ^^^ origin) &&& ((2 ^ 17 - 1) ^^^ spanMask span) == 0

/-- The origin and span of a slice that this chip belongs to with a partition. -/
def sliceOf (s : State) (part id : Nat) : Option (Nat × Nat) :=
  let p := tabGet Part.init s.host.part part
  if id ≠ 0 ∧ p.slice = id then some (p.sliceOrigin, p.sliceSpan) else none

/-- 14 R294: whether a chip may carry or receive a packet: class 3 travels in slice 0, which holds every chip. -/
def fenceAdmits (s : State) (p : QtdPkt) (c : Nat) : Bool :=
  p.cls == 3 || match sliceOf s p.part p.slice with
    | some (o, sp) => sliceMember o sp c
    | none => false

/-- The slice and partition that packets of a context carry (14 R293). -/
def ctxSlice (s : State) (c : Nat) : Nat × Nat :=
  let p := (getCtx s c).part
  ((tabGet Part.init s.host.part p).slice, p)

/-- 14 R294: a chip at the other end of a direct link that shares a slice with this one. -/
def sharesSlice (s : State) (c : Nat) : Bool :=
  s.host.part.any fun e => e.2.slice != 0 && sliceMember e.2.sliceOrigin e.2.sliceSpan c

/-! Packets as bytes (14 Table 14.2). -/

/-- The 32 header bytes and the payload. -/
def qtdBytes (p : QtdPkt) : List Byte :=
  natLE 1 p.typ ++ natLE 1 (p.cls + p.vc * 4 + p.hops * 8) ++ natLE 2 p.len ++ natLE 4 p.dest ++ natLE 4 p.src
    ++ natLE 2 (p.slice + p.part * 4096) ++ natLE 2 p.flow ++ natLE 8 p.addr ++ natLE 4 p.corr
    ++ natLE 4 (p.chord + p.order.toNat * 4 + p.via * 128 + p.stage * 16384 + p.pair * 131072 + p.pairHops * 1048576)
    ++ p.payload

/-- The 48 header bytes of a Linnet packet (12 Table 12.1). -/
def lntHeader (p : LntPkt) : List Byte :=
  natLE 1 p.typ ++ natLE 1 p.flags.toNat ++ natLE 2 p.len ++ natLE 4 p.dest ++ natLE 4 p.src ++ natLE 4 p.psn ++ natLE 4 p.apsn
    ++ natLE 4 p.msn ++ natLE 8 p.ts ++ natLE 8 p.offset ++ natLE 4 p.wkey ++ natLE 4 p.imm

/-- The Linnet packet that an engine 4 payload spells, from a source chip. -/
def lntParse (src : Nat) (b : List Byte) : LntPkt :=
  let len := field b 2 2
  { engine := 4, ipOk := true, srcAddr := src, srcPort := 0, dstPort := 0, typ := field b 0 1, flags := BitVec.ofNat 8 (field b 1 1)
    len := len, dest := field b 4 4, src := field b 8 4, psn := field b 12 4, apsn := field b 16 4, msn := field b 20 4
    ts := field b 24 8, offset := field b 32 8, wkey := field b 40 4, imm := field b 44 4, payload := (b.drop 48).take len
    tag := b.drop (48 + len) }

/-- 13 R253: the data frames of a packet: 640 payload bytes each, the last one filled with zeros (log 43). -/
def frameParts (bs : List Byte) : List (List Byte) :=
  (List.range (ceilDiv bs.length 640)).map fun i => sub bs (640 * i) 640

/-! Ports that carry traffic. -/

/-- 13 R257, R258, 14 R271: an ACTIVE port that carries Quintidy traffic. -/
def carries (v : Skn) : Bool := v.st == 4 && !v.bootMode && v.check == 1

/-- A port that may carry a packet later too: one that carries traffic, holds through a loss, or roosts. -/
def usable (v : Skn) : Bool := !v.bootMode && v.check == 1 && (v.st == 4 || v.st == 5 || v.st == 6)

/-- 14 R279: the plane of a switch hop: the lowest trained one at or above h mod 8, wrapping, other than an excluded port. -/
def planeFor (s : State) (p : QtdPkt) (not_ : Nat) : Option Nat :=
  let x := p.src ^^^ p.dest ^^^ p.flow
  let h := (List.range 6).foldl (fun a i => a ^^^ bits x (3 * i) 3) 0
  ((List.range 8).map fun i => 13 + (h + i) % 8).find? fun n => n != not_ && usable (getSkn s n)

/-! The next hop (14 R277). -/

/-- Where a packet goes next: it is here, it leaves by a port on a VC towards a chip, or a switch hop finds no plane. -/
inductive Hop where
  | deliver
  | out (port vc next : Nat) (p : QtdPkt)
  | noPlane

/-- 14 R273: a pair is closed in a span of rack bits where it also spans the next pair, or is pair 4. -/
def pairClosed (s : State) (p : QtdPkt) (k : Nat) : Bool :=
  k == 4 || match (if p.cls = 3 then none else sliceOf s p.part p.slice) with
    | some (_, sp) => bitOf sp (4 + k + 1)
    | none => decide (2 * k + 4 ≤ s.qtd.racks)

/-- 14 R277: whether a hop of pair `k` from rack `r` towards rack `d` takes the higher link. -/
def useHigh (closed : Bool) (order : BitVec 5) (r d k : Nat) : Bool :=
  let delta := bits r (2 * k) 2 ^^^ bits d (2 * k) 2
  if closed then delta == 2 || (delta == 3 && order.getLsbD k) else bitOf delta 1 && !bitOf r (2 * k)

/-- 14 R277, stage 2: the first pair from `k` on whose digits differ; `n` pairs are left. -/
def openPair (r d : Nat) : Nat → Nat → Nat
  | 0, k => k
  | n + 1, k => if bits r (2 * k) 2 = bits d (2 * k) 2 then openPair r d n (k + 1) else k

/-- 14 R277, stages 5 and 6: within the destination's rack. -/
def lastHops (s : State) (c : Nat) (p : QtdPkt) : Hop :=
  if c = p.dest then .deliver
  else if p.stage = 6 ∨ boardOf c = boardOf p.dest then
    match (List.range 3).find? fun k => bitOf (c ^^^ p.dest) k with
    | some k => .out k 0 (c ^^^ 2 ^ k) { p with stage := 6 }
    | none => .noPlane
  else match planeFor s p 24 with
    | some n => .out n 1 p.dest { p with stage := 5 }
    | none => .noPlane

/-- 14 R277, stage 2. -/
def pairHop (s : State) (c : Nat) (p : QtdPkt) : Hop :=
  let r := rackOf c
  let k := openPair r (rackOf p.dest) (5 - p.pair) p.pair
  if 5 ≤ k then lastHops s c { p with stage := 5 }
  else
    let hops := if k = p.pair then p.pairHops else 0
    let j := if useHigh (pairClosed s p k) p.order r (rackOf p.dest) k then 2 * k + 1 else 2 * k
    .out (3 + j) (if hops = 0 then 0 else 1) (chipAt (partnerRack j r) (posOf c)) { p with stage := 2, pair := k, pairHops := hops + 1 }

/-- 14 R277, stage 1. -/
def chordHop (s : State) (c : Nat) (p : QtdPkt) : Hop :=
  let p := { p with stage := 2, pair := 0, pairHops := 0 }
  if p.chord ≠ 0 then .out (20 + p.chord) 0 (chipAt (chordRack p.chord (rackOf c)) (posOf c)) p else pairHop s c p

/-- 14 R277: the next hop of a packet at chip `c`. -/
def nextHop (s : State) (c : Nat) (p : QtdPkt) : Hop :=
  if p.stage = 0 then
    if posOf c = p.via then chordHop s c p
    else match planeFor s p 24 with
      | some n => .out n 0 (chipAt (rackOf c) p.via) p
      | none => .noPlane
  else if p.stage = 1 then chordHop s c p
  else if p.stage = 2 then pairHop s c p
  else lastHops s c p

/-! Route tables (14 R280). -/

/-- One entry of a route table: chord, order and via, and its inter-rack hops. -/
structure Route where
  hops : Nat
  chord : Nat
  via : Nat
  order : BitVec 5
  deriving DecidableEq, Repr

/-- A link of the table in force: one end or the other reported it up. -/
def linkUpAt (s : State) (rack pos l : Nat) : Bool :=
  s.qtd.installed.contains (chipAt rack pos, l) || s.qtd.installed.contains (chipAt (linkRack l rack) pos, l)

/-- 14 R280: a link that a route of a packet may use: both racks in the fabric, up, and both ends admitted by the fence. -/
def linkFit (s : State) (p : QtdPkt) (rack pos l : Nat) : Bool :=
  let t := linkRack l rack
  inFabric s t && linkUpAt s rack pos l && fenceAdmits s p (chipAt rack pos) && fenceAdmits s p (chipAt t pos)

/-- 14 R277, R280: the inter-rack hops from rack `r` by the pair rule, if every link is fit. The first number bounds the hops. -/
def pairPath (s : State) (p : QtdPkt) (order : BitVec 5) (pos : Nat) : Nat → Nat → Nat → Option Nat
  | 0, _, _ => none
  | n + 1, k, r =>
    let k := openPair r (rackOf p.dest) (5 - k) k
    if 5 ≤ k then some 0
    else
      let j := if useHigh (pairClosed s p k) order r (rackOf p.dest) k then 2 * k + 1 else 2 * k
      if linkFit s p r pos j then (pairPath s p order pos n k (partnerRack j r)).map (· + 1) else none

/-- A candidate route, with its inter-rack hops; none where a link is not fit. -/
def routeTry (s : State) (p : QtdPkt) (chord via : Nat) (order : BitVec 5) : Option Route :=
  let c := chipNo s
  let r := rackOf c
  if via ≠ posOf c ∧ (planeFor s p 24 = none ∨ !fenceAdmits s p (chipAt r via)) then none
  else if chord = 0 then (pairPath s p order via 16 0 r).map fun n => { hops := n, chord := 0, via := via, order := order }
  else if linkFit s p r via (9 + chord) then
    (pairPath s p order via 16 0 (chordRack chord r)).map fun n => { hops := n + 1, chord := chord, via := via, order := order }
  else none

/-- Of two routes, the one with fewer inter-rack hops; the first where they are equal. -/
def better (a b : Option Route) : Option Route :=
  match a, b with
  | some x, some y => if y.hops < x.hops then b else a
  | none, _ => b
  | _, none => a

/-- 14 R280: the route of a packet to another rack, with the ties broken by chord, then VIA with the own position first, then
ORDER. -/
def routeFor (s : State) (p : QtdPkt) : Option Route :=
  let vias := posOf (chipNo s) :: (List.range 128).filter (· != posOf (chipNo s))
  [0, 1, 2, 3].foldl (fun a ch => vias.foldl (fun a v => (List.range 32).foldl (fun a o => better a (routeTry s p ch v (BitVec.ofNat 5 o))) a) a) none

/-! Credits and sending (14 R276; 13 R255). -/

/-- 64-byte credits of a packet, of a channel's reserve, and of the shared pool. -/
def creditsOf (p : QtdPkt) : Nat := ceilDiv (32 + p.len) 64
def reserveCredits : Nat := 144
def sharedCredits : Nat := 11136

/-- The channel number of a class and VC. -/
def channelOf (cls vc : Nat) : Nat := 2 * cls + vc

/-- Shared credits in use. -/
def sharedUsed (v : Skn) : Nat := v.credits.foldl (fun n e => n + e.2.2) 0

/-- 14 R276: credits for a whole packet: shared ones only while the channel's reserve is intact, else the reserve. -/
def takeCredits (p : QtdPkt) (v : Skn) : Option (Bool × Skn) :=
  let ch := channelOf p.cls p.vc
  let u := tabGet (0, 0) v.credits ch
  let n := creditsOf p
  if u.1 = 0 ∧ sharedUsed v + n ≤ sharedCredits then some (true, { v with credits := tabPut (0, 0) v.credits ch (0, u.2 + n) })
  else if u.1 + n ≤ reserveCredits then some (false, { v with credits := tabPut (0, 0) v.credits ch (u.1 + n, u.2) })
  else none

/-- 14 R294: a direct link whose ends share no slice has no credits on classes 0 to 2. -/
def linkFenced (s : State) (n : Nat) (p : QtdPkt) : Bool :=
  p.cls != 3 && !(decide (13 ≤ n) && decide (n < 21)) && !sharesSlice s (getSkn s n).peerChip

/-- The first packet of a list that may go, with the others: none goes before an earlier one of its class and VC. -/
def pickFrom (ok : QtdPkt → Bool) : List Nat → List QtdPkt → Option (QtdPkt × List QtdPkt)
  | _, [] => none
  | blocked, p :: ps =>
    if ok p && !blocked.contains (channelOf p.cls p.vc) then some (p, ps)
    else (pickFrom ok (channelOf p.cls p.vc :: blocked) ps).map fun e => (e.1, p :: e.2)

/-- A packet that a port may send now: the window of 1,024 frames and the credits have room for all of it. -/
def maySendOn (s : State) (n : Nat) (p : QtdPkt) : Bool :=
  let v := getSkn s n
  carries v && !linkFenced s n p && decide (v.unacked.length + (frameParts (qtdBytes p)).length ≤ 1024) && (takeCredits p v).isSome

/-- A packet leaves a port as data frames. -/
def sendOn (n : Nat) (p : QtdPkt) (rest : List QtdPkt) (s : State) : State :=
  match takeCredits p (getSkn s n) with
  | none => s
  | some (shared, v) =>
    let parts := frameParts (qtdBytes p)
    let fs := parts.zipIdx.map fun e => ((v.txSeq + e.2) % 4096, e.1)
    let v := { v with queued := rest, txSeq := (v.txSeq + parts.length) % 4096, lastTrafficAt := s.lark.time
                      lastAseqAt := if v.unacked.isEmpty then s.lark.time else v.lastAseqAt
                      unacked := v.unacked ++ fs.map fun f => (f.1, f.2, p) }
    let s := emitAll (.qtd n p.vc p :: fs.map fun f => .frame n f.1 v.rxSeq false f.2) (putSkn n v s)
    if shared then count 0 9 0 0x63 (32 + p.len) s else s

/-- 16 R331: on ports S0 to S2 a waiting PEER packet goes ahead of every other packet, whatever its class. -/
def peersFirst (n : Nat) (ps : List QtdPkt) : List QtdPkt :=
  if n < 3 then ps.filter (fun p => p.typ == 6) ++ ps.filter (fun p => p.typ != 6) else ps

/-- The next waiting packet of a port leaves, if one may. -/
def sendHead (n : Nat) (s : State) : Option State :=
  (pickFrom (maySendOn s n) [] (peersFirst n (getSkn s n).queued)).map fun e => sendOn n e.1 e.2 s

/-- Waiting packets of a port leave, in order, as far as they may; the first number bounds them. -/
def pumpPort (n : Nat) : Nat → State → State
  | 0, s => s
  | k + 1, s => match sendHead n s with | some s' => pumpPort n k s' | none => s

/-- A packet is queued on a port, and leaves if it may. -/
def queueOn (n : Nat) (p : QtdPkt) (s : State) : State :=
  let s := modSkn n (fun v => { v with queued := v.queued ++ [p] }) s
  pumpPort n (getSkn s n).queued.length s

/-! Discarding (14 R282, R294, Table 14.2). -/

/-- The unit identifier of the Quintidy engine (18 Table 18.5). -/
def qtdUnit : Nat := unitId 0x0F 0

/-- 14 Table 14.2: a packet discarded and counted in QTD_DROP. -/
def dropQtd (s : State) : State := onQtd (fun q => { q with drop := incSat q.drop }) s

/-- 14 R294: a packet discarded at a fence. -/
def dropFence (s : State) : State := raisePlain 0x0828 none qtdUnit (onQtd (fun q => { q with fenceDrop := incSat q.fenceDrop }) s)

/-- A packet of this chip's own, with every field that its source leaves to Quintidy zero. -/
def ownPkt (s : State) (typ cls dest : Nat) (payload : List Byte) : QtdPkt :=
  { inPort := 24, rsvd := false, typ := typ, cls := cls, vc := 0, hops := 0, len := payload.length, dest := dest, src := chipNo s
    slice := 0, part := 0, flow := 0, addr := 0, corr := 0, chord := 0, order := 0, via := 0, stage := 0, pair := 0, pairHops := 0
    payload := payload }

/-- The starting ROUTE of a packet at its source (14 R277), or none where R280 marks the destination unreachable. -/
def startRoute (s : State) (p : QtdPkt) : Option QtdPkt :=
  let c := chipNo s
  if rackOf p.dest = rackOf c then
    if boardOf p.dest = boardOf c then some { p with stage := 6 }
    else if planeFor s p 24 = none then none
    else some { p with stage := 5 }
  else (routeFor s p).map fun r => { p with stage := 0, chord := r.chord, order := r.order, via := r.via }

/-- 14 R270: a chip that is present in the fabric. -/
def present (s : State) (c : Nat) : Bool := decide (c < 2 ^ 17) && inFabric s (rackOf c) && !s.qtd.unreachable.contains c

/-- 14 R270, R280, R294: a packet of this chip's own enters the fabric, or fails with 0x0802 at the source fence or 0x0801 where
its destination cannot be reached. -/
def originate (p : QtdPkt) (s : State) : Except Nat State :=
  let p := { p with src := chipNo s, inPort := 24, hops := 0 }
  if !(s.pwr.st == .idle || s.pwr.st == .run) || !present s p.dest || (s.qtd.st = 3 && p.cls != 3) || quarantined s qtdUnit then .error 0x0801
  else if !fenceAdmits s p p.dest then .error 0x0802
  else match startRoute s p with
    | none => .error 0x0801
    | some p =>
      match nextHop s (chipNo s) p with
      | .out n vc nx p =>
        if !usable (getSkn s n) then .error 0x0801
        else if !fenceAdmits s p nx then .ok (dropFence s)
        else .ok (queueOn n { p with vc := vc, hops := 1 } s)
      | _ => .error 0x0801

/-- A packet of this chip's own whose failure nobody waits for. -/
def originateQ (p : QtdPkt) (s : State) : State := match originate p s with | .ok s' => s' | .error _ => s

/-- 12 R227: a Linnet packet of context `c` leaves by an engine: an Ethernet frame, or on engine 4 a Quintidy packet whose class is
response for READ_RESP and the acknowledgements, and request for the rest. -/
def sendLnt (c e dst : Nat) (p : LntPkt) (s : State) : State :=
  if e = 4 then
    let sl := ctxSlice s c
    let cls := if p.typ = 4 ∨ p.typ = 8 ∨ p.typ = 9 ∨ p.typ = 0x0A then 1 else 0
    emit (.lnt e dst p) (originateQ { ownPkt s 1 cls dst (lntHeader p ++ p.payload ++ p.tag) with
      slice := sl.1, part := sl.2, flow := p.dest % 65536 } s)
  else emit (.lnt e dst p) s

/-- 14 R280, R294: why engine 4 cannot send to a chip for a context. -/
def lntRefused (s : State) (c e dst : Nat) : Option Nat :=
  if e ≠ 4 ∨ dst = chipNo s then none
  else
    let sl := ctxSlice s c
    let p := { ownPkt s 1 0 dst [] with slice := sl.1, part := sl.2 }
    if !present s dst then some 0x0801
    else if !fenceAdmits s p dst then some 0x0802
    else if (startRoute s p).isNone then some 0x0801
    else none

end Sys2Proof.Machine
end

