-- ==== Sys2Proof/Machine/Memory.lean ====
section
/-! DEFINITION. Memory objects, mappings and windows (06 R110 to R112, R124 to R127; 12 R245, R246), context queries, and the host pool register. -/

namespace Sys2Proof.Machine

/-! Allocation (06 R124, R110, R112). -/

/-- The page size of MEM_ALLOC w1 [5:4]; 0 for the unlisted code. -/
def pageOf (k : MemKind) (code : Nat) : Nat :=
  if code = 0 then 4096 else if code = 1 then 2097152 else if code = 2 && k == .hbm then 1073741824 else 0

/-- The kind of MEM_ALLOC w1 [1:0]. -/
def memKindOf : Nat → Option MemKind
  | 0 => some .hbm | 1 => some .thk | 2 => some .host | _ => none

/-- A context's mapped ranges. -/
def mapRanges (c : Ctx) : List (Nat × Nat) := c.maps.map fun m => (m.dva, m.len)

/-- 06 R110: the DVA of a new device-kind object: the lowest free place of the upper half (log 27). -/
def upperDva (c : Ctx) (page size : Nat) : Option Nat := firstFit 0x800000000000 0x1000000000000 page size (mapRanges c)

/-- Where a new object lies: its base (an offset, or a place in the host pool) and its DVA; `hard` ignores storage that is
being scrubbed. -/
def placeMem (s : State) (c : Nat) (k : MemKind) (size page : Nat) (hard : Bool) : Option (Nat × Nat) :=
  let w := kindWindow s k (getCtx s c).part
  match k with
  | .host => (firstFit w.1 w.2 page size (poolRanges s ++ mapRanges (getCtx s c))).map fun b => (b, b)
  | _ =>
    match firstFit w.1 w.2 page size (usedRanges s ++ if hard then [] else scrubRanges s), upperDva (getCtx s c) page size with
    | some b, some d => some (b, d)
    | _, _ => none

/-- The storage of a new object reads as zero (06 R124, R127). -/
def zeroStorage (k : MemKind) (base size : Nat) (s : State) : State :=
  match k with
  | .host => setHostMem (memErase s.hostMem (s.host.hpoolBase.toNat + base) size) s
  | _ => setMem (memErase s.mem base size) s

/-- A context gains a mapping. -/
def addMap (c : Nat) (m : Mapping) (s : State) : State := modCtx c (fun v => { v with maps := insMap m v.maps }) s

/-- The object and its mapping are made, unless the page-table area cannot hold the tables. -/
def makeMem (c : Nat) (k : MemKind) (size page : Nat) (at_ : Nat × Nat) (s : State) : Reply × State :=
  let r := newObj c (.mem k at_.1 size page) [] s
  let m : Mapping := { dva := at_.2, len := size, page := page, obj := r.1, off := 0, r := true, w := true, acc := true }
  let t := zeroStorage k at_.1 size (addMap c m r.2)
  let p := (getCtx s c).part
  if tableLimit < tablesUsed t p then refuse s 0x0303 (tableLimit - tablesUsed s p)
  else (.done (Done.res r.1 at_.2), t)

/-- 06 R124: MEM_ALLOC. -/
def memAlloc : Body := fun _ p s =>
  let size := p.w 0
  match memKindOf (bits (p.w 1) 0 2) with
  | none => refuse s 0x0105 (paramAt 1 0)
  | some k =>
    let page := pageOf k (bits (p.w 1) 4 2)
    let w := kindWindow s k (getCtx s p.ctx).part
    if page = 0 then refuse s 0x0105 (paramAt 1 4)
    else if size = 0 ∨ size % page ≠ 0 then refuse s 0x0105 (paramAt 0 0)
    else if k = .host ∧ (getCtx s p.ctx).root ≠ 0 then refuse s 0x0401 (getCtx s p.ctx).st
    else if objLimit ≤ s.host.objs.length then refuse s 0x0303 objLimit
    else match placeMem s p.ctx k size page false with
      | some a => makeMem p.ctx k size page a s
      | none =>
        if k ≠ .host ∧ (placeMem s p.ctx k size page true).isSome then (.wait, s)
        else refuse s 0x0303 (freePages w (if k = .host then poolRanges s else usedRanges s))

/-- 06 R124. -/
def execMemAlloc (q : QRef) (s : State) : Res := .next (runCmd 0x0200 memAlloc q s)

/-! Teardown (06 R127, R117). -/

/-- Memory that a round, a model or a running program has pinned (06 R117). -/
def pinned (o : Obj) : Bool := o.refs != 0

/-- 06 R127: MEM_FREE. -/
def memFree : Body := fun _ p s =>
  match useObj s p.ctx (p.w 0) 1 with
  | .error e => refuse s e.1 e.2
  | .ok o =>
    if pinned o then refuse s 0x0401 (Config.statusDetail 0x0401)
    else (.done Done.ok, dropHost (p.w 0) (revokeWins (p.w 0) (dropMaps (p.w 0) s)))

/-- 06 R127. -/
def execMemFree (q : QRef) (s : State) : Res := .next (runCmd 0x0201 memFree q s)

/-- 06 R127: OBJ_RELEASE drops the host reference and returns the references that remain. -/
def objRelease : Body := fun _ p s =>
  let h := p.w 0
  match useObj s p.ctx h (bits h 12 4) with
  | .error e => refuse s e.1 e.2
  | .ok _ => (.done (Done.res (deviceRefs s h) 0), dropHost h s)

/-- 06 R127. -/
def execObjRelease (q : QRef) (s : State) : Res := .next (runCmd 0x0107 objRelease q s)

/-- 06 R127, 09: PROG_UNLOAD and MODEL_UNLOAD drop the host reference of a program or model. -/
def unloadObj (kind : Nat) : Body := fun _ p s =>
  match useObj s p.ctx (p.w 0) kind with
  | .error e => refuse s e.1 e.2
  | .ok _ => (.done Done.ok, dropHost (p.w 0) s)

/-- 06 R127. -/
def execProgUnload (q : QRef) (s : State) : Res := .next (runCmd 0x0501 (unloadObj 2) q s)

/-- 16 R329. -/
def execModelUnload (q : QRef) (s : State) : Res := .next (runCmd 0x0504 (unloadObj 3) q s)

/-! Mappings (06 R110, R111). -/

/-- Whether a range lies in one half of the address space, the half that an object's kind is mapped in (06 R110). -/
def halfOk (k : MemKind) (dva len : Nat) : Bool :=
  if k = .host then dva + len ≤ 0x800000000000 else 0x800000000000 ≤ dva && dva + len ≤ 0x1000000000000

/-- 06 R110: MEM_MAP. -/
def memMap : Body := fun _ p s =>
  let dva := p.w 1
  let len := p.w 2
  match useObj s p.ctx (p.w 0) 1 with
  | .error e => refuse s e.1 e.2
  | .ok o =>
    match o.kind with
    | .mem k _ size page =>
      if dva % page ≠ 0 then refuse s 0x0105 (paramAt 1 0)
      else if len = 0 ∨ len % page ≠ 0 ∨ size < len then refuse s 0x0105 (paramAt 2 0)
      else if !halfOk k dva len then refuse s 0x0105 (paramAt 1 0)
      else if (mapRanges (getCtx s o.ctx)).any (overlaps (dva, len)) then refuse s 0x0401 (Config.statusDetail 0x0401)
      else
        let m : Mapping := { dva := dva, len := len, page := page, obj := p.w 0, off := 0
                             r := bitOf (p.w 3) 0, w := bitOf (p.w 3) 1, acc := bitOf (p.w 3) 2 }
        let t := addMap o.ctx m s
        let part := (getCtx s o.ctx).part
        if tableLimit < tablesUsed t part then refuse s 0x0303 (tableLimit - tablesUsed s part) else (.done Done.ok, t)
    | _ => refuse s 0x0403 0

/-- 06 R110. -/
def execMemMap (q : QRef) (s : State) : Res := .next (runCmd 0x0202 memMap q s)

/-- The pieces of a mapping outside [a, b). -/
def cutMap (a b : Nat) (m : Mapping) : List Mapping :=
  let fin := m.dva + m.len
  let lo := if m.dva < a then [{ m with len := min a fin - m.dva }] else []
  let hi := if b < fin then [{ m with dva := max b m.dva, len := fin - max b m.dva, off := m.off + (max b m.dva - m.dva) }] else []
  if overlaps (m.dva, m.len) (a, b - a) then lo ++ hi else [m]

/-- 06 R111: an end of the range inside a mapping lies on a boundary of its page size. -/
def cutOk (a : Nat) (m : Mapping) : Bool := a ≤ m.dva || m.dva + m.len ≤ a || (a - m.dva) % m.page = 0

/-- 06 R111: MEM_UNMAP. In the lower half of a host-managed context it writes no entry. -/
def memUnmap : Body := fun _ p s =>
  let a := p.w 0
  let b := p.w 0 + p.w 1
  let c := getCtx s p.ctx
  let hit := c.maps.filter fun m => overlaps (m.dva, m.len) (a, p.w 1)
  if a % 4096 ≠ 0 then refuse s 0x0105 (paramAt 0 0)
  else if p.w 1 % 4096 ≠ 0 then refuse s 0x0105 (paramAt 1 0)
  else if hit.any fun m => !cutOk a m || !cutOk b m then refuse s 0x0105 (paramAt 0 0)
  else if hit.any fun m => ((getObj? s m.obj).map pinned).getD false then refuse s 0x0401 (Config.statusDetail 0x0401)
  else
    let s := modCtx p.ctx (fun v => { v with maps := v.maps.flatMap (cutMap a b) }) s
    (.done Done.ok, hit.foldl (fun s m => reap m.obj s) s)

/-- 06 R111. -/
def execMemUnmap (q : QRef) (s : State) : Res := .next (runCmd 0x0203 memUnmap q s)

/-! Windows (06 R125, R126; 12 R245, R246). -/

/-- 12 R245: the peer sets that WIN_OPEN admits. -/
def peersOk (v : Nat) : Bool :=
  v == 0 || (bits v 28 4 == 1 && bits v 24 4 == 0) || (bits v 28 4 == 2 && bits v 5 23 == 0)

/-- What a window may cover: the bytes of a memory object, or the roosts of a program's thickets (12 R246). -/
def windowSpan (o : Obj) : Nat :=
  match o.kind with
  | .mem _ _ size _ => size
  | .prog p => 24 * (maskThks p.mask).length * 2 ^ 19
  | .model _ => 0

/-- 06 R126: the lowest index that no window has used, or whose last window was revoked at least 1 s ago. -/
def freeWin (s : State) : Option Nat :=
  let busy := (s.host.wins.filter fun e => e.2.live || s.lark.time < e.2.revokedAt + 1000000000).map Prod.fst
  let i := lowestFree busy
  if i < 1048576 then some i else none

/-- A window at an index, with the next generation. -/
def putWin (i : Nat) (w : Win) (s : State) : State :=
  onHost (fun v => { v with wins := tabIns (tabDel v.wins i) i w }) s

/-- 06 R125: WIN_OPEN. -/
def winOpen : Body := fun _ p s =>
  let h := p.w 0
  let rights := bits (p.w 3) 0 3
  match useObj s p.ctx h (if bits h 12 4 = 2 then 2 else 1) with
  | .error e => refuse s e.1 e.2
  | .ok o =>
    if p.w 2 = 0 ∨ windowSpan o < p.w 1 + p.w 2 then refuse s 0x0105 (paramAt (if p.w 2 = 0 then 2 else 1) 0)
    else if bits h 12 4 = 2 ∧ rights ≠ 4 then refuse s 0x0105 (paramAt 3 0)
    else if !peersOk (bits (p.w 3) 32 32) then refuse s 0x0105 (paramAt 3 32)
    else match freeWin s with
      | none => refuse s 0x0303 1048576
      | some i =>
        let gen := ((s.host.wins.find? fun e => e.1 == i).map fun e => (e.2.gen + 1) % 4096).getD 0
        (.done (Done.res (i + gen * 2 ^ 20) 0),
         putWin i { gen := gen, live := true, obj := h, off := p.w 1, len := p.w 2, r := bitOf rights 0, w := bitOf rights 1
                    acc := bitOf rights 2, peers := bits (p.w 3) 32 32, ctx := o.ctx, revokedAt := 0 } s)

/-- 06 R125. -/
def execWinOpen (q : QRef) (s : State) : Res := .next (runCmd 0x0204 winOpen q s)

/-- 06 R126: WIN_REVOKE. -/
def winRevoke : Body := fun _ p s =>
  match winOf s (bits (p.w 0) 0 32) with
  | none => refuse s 0x0403 0
  | some e => if !inScope s p.ctx e.2.ctx then refuse s 0x0202 0 else (.done Done.ok, revokeWin e.1 s)

/-- 06 R126. -/
def execWinRevoke (q : QRef) (s : State) : Res := .next (runCmd 0x0205 winRevoke q s)

/-! Queries and the pool. -/

/-- 05 Table 5.5, R101: CTX_QUERY. An Absent context answers state 0. -/
def ctxQuery : Body := fun _ p s =>
  let c := bits (p.w 0) 0 12
  if (getCtx s c).st ≠ 0 ∧ !mayName s p.ctx c then refuse s 0x0202 0
  else (.done (Done.res (getCtx s c).st (getCtx s c).lastFault), s)

/-- 05 R101. -/
def execCtxQuery (q : QRef) (s : State) : Res := .next (runCmd 0x0103 ctxQuery q s)

/-- 06 R112: the host invalidates cached translations of a bus range. -/
def execAtsInvalidation (addr len : Nat) (s : State) : Res :=
  .next (onHost (fun h => { h with ats := h.ats.filter fun r => !overlaps r (addr, len) }) s)

/-- Dunnock notes the translations of a bus range that it has obtained (06 R112). -/
def noteAts (a n : Nat) (s : State) : State :=
  let r := (a / 4096 * 4096, ceilDiv (a + n) 4096 * 4096 - a / 4096 * 4096)
  if n = 0 || s.host.ats.contains r then s else onHost (fun h => { h with ats := h.ats ++ [r] }) s

/-- 06 Table 6.11, Edges: DNK_HPOOL_LEN, a multiple of 2 MiB up to 2^40; ignored with event 0x0411 while host-kind objects
exist. -/
def execDnkHpoolLenWrite (v : BitVec 64) (s : State) : Res :=
  .next (if !regsOpen s then s
    else if !(poolRanges s).isEmpty then raisePlain 0x0411 none 0xFFFF s
    else if 2 ^ 40 < (v &&& ~~~(0x1FFFFF#64)).toNat then discardWrite 0x30048 s
    else onHost (fun h => { h with hpoolLen := v &&& ~~~(0x1FFFFF#64) }) s)

end Sys2Proof.Machine
end

