-- ==== Sys2Proof/Machine/Float.lean ====
section
/-! DEFINITION. The numbers that Starling adds (10 R193, R194, R202): binary floating formats decoded to exact values, rounding to nearest with ties to even, IEEE 754 sums and products, and the encodings of Table 10.5. -/

namespace Sys2Proof.Machine

/-- A number: NaN, an infinity, or an exact value in units of 2^−298 (10 R193). `neg` is the sign of a zero. -/
inductive Fl where
  | nan
  | inf (neg : Bool)
  | fin (v : Int) (neg : Bool)
  deriving DecidableEq, Repr

/-- One, in units of 2^−298. -/
abbrev flOne : Nat := 2 ^ 298

/-- An exact value; zero is +0. -/
def Fl.of (v : Int) : Fl := .fin v false

/-- The sign of a number. -/
def Fl.isNeg : Fl → Bool
  | .nan => false
  | .inf n => n
  | .fin v n => if v = 0 then n else decide (v < 0)

/-- Sign flipped. -/
def Fl.negate : Fl → Fl
  | .nan => .nan
  | .inf n => .inf !n
  | .fin v n => .fin (-v) (if v = 0 then !n else false)

/-- The quotient a / 2^k rounded to nearest, ties to even. -/
def rneShift (a k : Nat) : Nat :=
  let q := a / 2 ^ k
  let r := 2 * (a % 2 ^ k)
  if 2 ^ k < r then q + 1 else if r = 2 ^ k then q + q % 2 else q

/-- An integer divided by 2^k and rounded to nearest, ties to even. -/
def rneInt (v : Int) (k : Nat) : Int := if v < 0 then -(rneShift v.natAbs k : Nat) else (rneShift v.natAbs k : Nat)

/-- A binary format: precision, the exponent of its least quantum in units of 2^−298, and the exponent code of its infinity
(as magnitude code). -/
structure FFmt where
  p : Nat
  q : Nat
  inf : Nat

/-- binary32, BF16 and FP8 E5M2; FP8 E4M3 has no infinity, and 0x7F is its NaN. -/
def fmtF32 : FFmt := { p := 24, q := 149, inf := 0x7F800000 }
def fmtBf16 : FFmt := { p := 8, q := 165, inf := 0x7F80 }
def fmtE5m2 : FFmt := { p := 3, q := 282, inf := 0x7C }
def fmtE4m3 : FFmt := { p := 4, q := 289, inf := 0x7F }

/-- The exponent of the quantum that a magnitude rounds to. -/
def FFmt.quantum (f : FFmt) (a : Nat) : Nat := max f.q (Nat.log2 a + 1 - f.p)

/-- The magnitude code of a magnitude after rounding; codes from `inf` on overflow. -/
def FFmt.code (f : FFmt) (a : Nat) : Nat :=
  let q := f.quantum a
  (q - f.q) * 2 ^ (f.p - 1) + rneShift a q

/-- The magnitude of a finite magnitude code. -/
def FFmt.mag (f : FFmt) (c : Nat) : Nat :=
  let e := c / 2 ^ (f.p - 1)
  let m := c % 2 ^ (f.p - 1)
  if e = 0 then m * 2 ^ f.q else (2 ^ (f.p - 1) + m) * 2 ^ (f.q + e - 1)

/-- A signed magnitude; a zero keeps its sign. -/
def flMag (neg : Bool) (a : Nat) : Fl := .fin (if neg then -(a : Int) else a) (neg && a == 0)

/-- The value of a code of a format with infinities. -/
def FFmt.decode (f : FFmt) (width c : Nat) : Fl :=
  let neg := bitOf c (width - 1)
  let m := c % 2 ^ (width - 1)
  if m < f.inf then flMag neg (f.mag m) else if m = f.inf then .inf neg else .nan

/-- The value of a binary32. -/
def decF32 (c : Nat) : Fl := fmtF32.decode 32 c

/-- The value of an FP8 E4M3. -/
def decE4m3 (c : Nat) : Fl := if c % 128 = 0x7F then .nan else flMag (bitOf c 7) (fmtE4m3.mag (c % 128))

/-- 09 Table 9.3: the value of an input element of format INFMT. -/
def decInput (infmt c : Nat) : Fl :=
  if infmt = 0 then fmtBf16.decode 16 c
  else if infmt = 1 then decE4m3 c
  else if infmt = 2 then fmtE5m2.decode 8 c
  else Fl.of (signed 8 c * flOne)

/-- A number rounded once to binary32; overflow gives an infinity (10 R202). -/
def rndF32 : Fl → Fl
  | .nan => .nan
  | .inf n => .inf n
  | .fin v n =>
    let c := fmtF32.code v.natAbs
    if fmtF32.inf ≤ c then .inf (decide (v < 0)) else flMag (if v = 0 then n else decide (v < 0)) (fmtF32.mag c)

/-- The sign bit of a code. -/
def signCode (width : Nat) (neg : Bool) (c : Nat) : Nat := b2n neg * 2 ^ (width - 1) + c

/-- 10 R202: the binary32 of a number; every NaN is 0x7FC0_0000. -/
def encF32 : Fl → Nat
  | .nan => 0x7FC00000
  | .inf n => signCode 32 n fmtF32.inf
  | .fin v n => signCode 32 (if v = 0 then n else decide (v < 0)) (min fmtF32.inf (fmtF32.code v.natAbs))

/-- A code of a narrower format whose greatest magnitude code is `top`. -/
def encSmall (f : FFmt) (width top nanCode : Nat) : Fl → Nat
  | .nan => nanCode
  | .inf n => signCode width n top
  | .fin v n => signCode width (if v = 0 then n else decide (v < 0)) (min top (f.code v.natAbs))

/-- 10 Table 10.5: the INT8 of a number, rounded and saturated. -/
def encInt8 : Fl → Nat
  | .nan => 0
  | .inf n => if n then 0x80 else 0x7F
  | .fin v _ => wrap 8 (max (-128) (min 127 (rneInt v 298)))

/-- 10 Table 10.5: bytes of one element in OUTFMT 1 to 5. -/
def encOut (outfmt : Nat) (x : Fl) : List Byte :=
  if outfmt = 1 then natLE 4 (encF32 x)
  else if outfmt = 2 then natLE 2 (encSmall fmtBf16 16 fmtBf16.inf 0x7FC0 x)
  else if outfmt = 3 then natLE 1 (encSmall fmtE4m3 8 0x7E 0x7F x)
  else if outfmt = 4 then natLE 1 (encSmall fmtE5m2 8 fmtE5m2.inf 0x7E x)
  else natLE 1 (encInt8 x)

/-- The exact sum of two numbers under IEEE 754 rules for special values and the sign of zero. -/
def flAdd : Fl → Fl → Fl
  | .nan, _ => .nan
  | _, .nan => .nan
  | .inf a, .inf b => if a = b then .inf a else .nan
  | .inf a, _ => .inf a
  | _, .inf b => .inf b
  | .fin a n, .fin b m => .fin (a + b) (a + b == 0 && a == 0 && n && m)

/-- The exact product of two numbers whose product is a multiple of 2^−298. -/
def flMul (x y : Fl) : Fl :=
  match x, y with
  | .nan, _ => .nan
  | _, .nan => .nan
  | .inf a, .inf b => .inf (a != b)
  | .inf a, .fin v n => if v = 0 then .nan else .inf (a != Fl.isNeg (.fin v n))
  | .fin v n, .inf b => if v = 0 then .nan else .inf (b != Fl.isNeg (.fin v n))
  | .fin a n, .fin b m => .fin (a * b / flOne) (a * b == 0 && (Fl.isNeg (.fin a n) != Fl.isNeg (.fin b m)))

/-- One binary32 addition, and subtraction. -/
def fadd (x y : Fl) : Fl := rndF32 (flAdd x y)
def fsub (x y : Fl) : Fl := fadd x y.negate

/-- A finite number. -/
def Fl.isFin : Fl → Bool
  | .fin _ _ => true
  | _ => false

/-- two_sum of 10 R200: the rounded sum and its rounding error (log 28). -/
def twoSum (a b : Fl) : Fl × Fl :=
  let s := fadd a b
  let bb := fsub s a
  (s, fadd (fsub a (fsub s bb)) (fsub b bb))

/-- fast_two_sum of 10 R200 (log 28). -/
def fastTwoSum (a b : Fl) : Fl × Fl :=
  let s := fadd a b
  (s, fsub b (fsub s a))

/-- 10 R200: an F32C value and a binary32 term. -/
def ffTerm (x : Fl × Fl) (t : Fl) : Fl × Fl :=
  let r := twoSum x.1 t
  if !(r.1.isFin && x.1.isFin && x.2.isFin && t.isFin) then (fadd x.1 t, Fl.of 0)
  else fastTwoSum r.1 (fadd x.2 r.2)

/-- 10 R200: a node over two F32C values. -/
def ffPair (x y : Fl × Fl) : Fl × Fl :=
  let r := twoSum x.1 y.1
  if !(r.1.isFin && x.1.isFin && x.2.isFin && y.1.isFin && y.2.isFin) then (fadd x.1 y.1, Fl.of 0)
  else fastTwoSum r.1 (fadd r.2 (fadd x.2 y.2))

/-- Order by exact value, NaN below −Inf, +0 equal to −0 (10 R209): whether the first is below the second. -/
def flLt : Fl → Fl → Bool
  | _, .nan => false
  | .nan, _ => true
  | .inf true, .inf true => false
  | .inf true, _ => true
  | _, .inf true => false
  | .inf false, _ => false
  | _, .inf false => true
  | .fin a _, .fin b _ => a < b

end Sys2Proof.Machine
end

