-- ==== Sys2Proof/Machine/Accum.lean ====
section
/-! DEFINITION. Roost tiles (09 R168, R169; 10 R192 to R208, R212): element layouts, terms, tile status words, sequential adds, tree blocks and accumulation groups. -/

namespace Sys2Proof.Machine

/-! Formats. -/

/-- 09 Table 9.2: a format by its code. -/
def fmtOf : Nat → Option AccFmt
  | 0 => some .f32 | 1 => some .f32c | 2 => some .x704 | 3 => some .z64 | 4 => some .p255 | 5 => some .i64s | _ => none

/-- 09 Table 9.2: the code of a format. -/
def fmtCode : AccFmt → Nat
  | .f32 => 0 | .f32c => 1 | .x704 => 2 | .z64 => 3 | .p255 => 4 | .i64s => 5

/-- 09 Table 9.2: bytes of one element, and granules of one tile. -/
def elemBytes : AccFmt → Nat
  | .f32 => 4 | .f32c => 8 | .x704 => 88 | .z64 => 8 | .p255 => 32 | .i64s => 8

/-- Granules of one tile. -/
def granules (f : AccFmt) : Nat := elemBytes f / 4

/-- Bytes of one tile. -/
def tileBytes (f : AccFmt) : Nat := 64 * elemBytes f

/-- p = 2^255 − 19 (10 Table 10.1). -/
def primeP : Nat := 2 ^ 255 - 19

/-- Formats in which the order of adds matters (10 R200). -/
def ordered (f : AccFmt) : Bool := f == .f32 || f == .f32c

/-- One element of a tile. -/
inductive Elem where
  | fl (x : Fl)
  | pair (s e : Fl)
  | wide (v : Int) (terms flags : Nat)
  | word (v : Nat)
  | fixed (q : Int)
  deriving DecidableEq, Repr

/-- 10 Table 10.1: an element from its little-endian number. -/
def decElem (f : AccFmt) (n : Nat) : Elem :=
  match f with
  | .f32 => .fl (decF32 n)
  | .f32c => .pair (decF32 (n % 2 ^ 32)) (decF32 (n / 2 ^ 32))
  | .x704 => .wide (signed 632 n) (bits n 632 64) (bits n 696 8)
  | .z64 => .word n
  | .p255 => .word n
  | .i64s => .fixed (signed 64 n)

/-- 10 Table 10.1: the number of an element. -/
def encElem : Elem → Nat
  | .fl x => encF32 x
  | .pair s e => encF32 s + encF32 e * 2 ^ 32
  | .wide v t fl => wrap 632 v + t * 2 ^ 632 + fl * 2 ^ 696
  | .word v => v
  | .fixed q => wrap 64 q

/-- The 64 elements of a raw row. -/
def decRow (f : AccFmt) (bs : List Byte) : List Elem :=
  (List.range 64).map fun i => decElem f (field bs (elemBytes f * i) (elemBytes f))

/-- The raw bytes of a row. -/
def encRow (f : AccFmt) (es : List Elem) : List Byte := es.flatMap fun e => natLE (elemBytes f) (encElem e)

/-- 10 R196: the identity of a format. -/
def identElem : AccFmt → Elem
  | .f32 => .fl (.fin 0 true)
  | .f32c => .pair (.fin 0 true) (Fl.of 0)
  | .x704 => .wide 0 0 0
  | .z64 => .word 0
  | .p255 => .word 0
  | .i64s => .fixed 0

/-! Adds of one element. -/

/-- 10 R193: both infinities make NAN. -/
def wideFlags (a b : Nat) : Nat :=
  let f := a ||| b
  if f % 4 = 3 then f ||| 4 else f

/-- 10 R203: the flags that a term sets. -/
def flFlags : Fl → Nat
  | .nan => 4
  | .inf neg => if neg then 2 else 1
  | .fin _ _ => 0

/-- The exact value of a finite number. -/
def Fl.exact : Fl → Int
  | .fin v _ => v
  | _ => 0

/-- 10 R194, R200, R203, R204: a term is added to an element; `k` is what X704 adds to TERMS. I64S adds go through addFixed. -/
def addTerm (k : Nat) (e : Elem) (t : Elem) (isP : Bool) : Elem :=
  match e, t with
  | .fl a, .fl x => .fl (fadd a (rndF32 x))
  | .pair a b, .fl x =>
    let r := ffTerm (a, b) (rndF32 x)
    .pair r.1 r.2
  | .wide v n fl, .fl x => .wide (v + x.exact) (n + k) (wideFlags fl (flFlags x))
  | .word a, .word b => .word (if isP then (a + b) % primeP else (a + b) % 2 ^ 64)
  | e, _ => e

/-- 10 R212, R200: two elements of one format combined, the first operand first. -/
def addElem (isP : Bool) (a b : Elem) : Elem :=
  match a, b with
  | .fl x, .fl y => .fl (fadd x y)
  | .pair x ex, .pair y ey =>
    let r := ffPair (x, ex) (y, ey)
    .pair r.1 r.2
  | .wide v n fl, .wide u m gl => .wide (v + u) (n + m) (wideFlags fl gl)
  | .word x, .word y => .word (if isP then (x + y) % primeP else (x + y) % 2 ^ 64)
  | a, _ => a

/-- 10 R203: TERMS of some element would exceed 2^64 − 1. -/
def overLimit (es : List Elem) : Bool :=
  es.any fun e => match e with | .wide _ n _ => decide (2 ^ 64 ≤ n) | _ => false

/-- An element is NaN. -/
def Elem.isNan : Elem → Bool
  | .fl x => x == .nan
  | .pair s _ => s == .nan
  | .wide _ _ flags => bitOf flags 2
  | _ => false

/-! I64S (10 R205). -/

/-- What an I64S add brings at scale σ: a term, or a row of another scale. None for Inf or NaN. -/
def fixedTerm (sigma : Nat) : Elem → Option Int
  | .fl (.fin v _) => some (rneInt (v * (2 ^ sigma : Nat)) 298)
  | _ => none

/-- 10 R205: the range of I64S. -/
def inI64 (v : Int) : Bool := decide (-(2 ^ 63 : Nat) ≤ v) && decide (v < (2 ^ 63 : Nat))

/-- 10 R205: the add, with rescales; `term` gives the row to add at a scale. Some quotients, scale, retries and the number of
rescales; none when the tile becomes EXHAUSTED. -/
def addFixed (term : Nat → Option (List Int)) : Nat → List Int → Nat → Nat → Nat → Option (List Int × Nat × Nat × Nat)
  | 0, _, _, _, _ => none
  | fuel + 1, qs, sigma, retries, n =>
    match term sigma with
    | none => none
    | some ts =>
      let sum := List.zipWith (· + ·) qs ts
      if sum.all inI64 then some (sum, sigma, retries, n)
      else if 8 ≤ retries ∨ sigma = 0 then none
      else addFixed term fuel (qs.map fun q => rneInt q 1) (sigma - 1) (retries + 1) (n + 1)

/-- All the terms of a row at a scale, or none. -/
def fixedRow (row : List Elem) (sigma : Nat) : Option (List Int) := row.mapM (fixedTerm sigma)

/-! Tiles. -/

/-- A tile's place: the Wren, its roost size S, the context it works for, and whether the add comes through ingress. -/
structure Roost where
  w : Nat
  size : Nat
  ctx : Nat
  ingress : Bool

/-- 09 R168: S of a ROOST code. -/
def roostSize (code : Nat) : Nat := 131072 * (code + 1)

/-- 09 R169: the offset of tile `t`. -/
def Roost.at_ (r : Roost) (t : Nat) : Nat := wrenBase r.w + (1048576 - r.size) + 256 * t

/-- 09 R169: an access to `n` tiles of a format from `t` is in range. -/
def Roost.fits (r : Roost) (f : AccFmt) (t n : Nat) : Bool := n == 0 || t + granules f * n ≤ r.size / 256

/-- A tile's elements. -/
def getTile (r : Roost) (f : AccFmt) (t : Nat) (s : State) : List Elem := decRow f (memRead s.mem (r.at_ t) (tileBytes f))

/-- A tile's elements written. -/
def putTile (r : Roost) (f : AccFmt) (t : Nat) (es : List Elem) (s : State) : State :=
  setMem (memWrite s.mem (r.at_ t) (encRow f es)) s

/-- 10 R195: a tile's status word. TSWs are numbered by their granule from the top of local SRAM, so that a larger ROOST code
extends them downward. -/
def tswKey (r : Roost) (t : Nat) : Nat := (1048576 - r.size) / 256 + t

/-- A tile's status word. -/
def getTsw (r : Roost) (t : Nat) (s : State) : Tsw := tabGet Tsw.init (getWren s r.w).tsw (tswKey r t)

/-- A tile's status word written. -/
def putTsw (r : Roost) (t : Nat) (v : Tsw) (s : State) : State :=
  modWren r.w (fun x => { x with tsw := tabPut Tsw.init x.tsw (tswKey r t) v }) s

/-- The counter event of a row add (10 Table 10.8). -/
def rowEvent : AccFmt → Nat
  | .f32 => 0x21 | .f32c => 0x21 | .x704 => 0x22 | .z64 => 0x24 | .p255 => 0x25 | .i64s => 0x26

/-- A counter event of a Wren's Starling, or of ingress. -/
def countStl (r : Roost) (code n : Nat) (s : State) : State :=
  if r.ingress then count r.ctx 3 0 code n s else count r.ctx 4 r.w code n s

/-- 10 R195, R207: the status word once a term has entered. `o` is the operand's status word in COMBINE (R212). -/
def tswEnter (f : AccFmt) (o : Option Tsw) (v : Tsw) : Tsw :=
  let n := v.terms + (match o with | some x => x.terms | none => 1)
  let n := min n 0xFFFFFFFF
  { v with empty := (match o with | some x => v.empty && x.empty | none => false)
           exhausted := v.exhausted || (match o with | some x => x.exhausted | none => false)
           termLimit := v.termLimit || (match o with | some x => x.termLimit | none => false)
           boundLost := v.boundLost || (match o with | some x => x.boundLost | none => false) || (f == .f32c && decide (2 ^ 26 < n))
           fmt := fmtCode f, terms := n }

/-- 10 R208: of the three states of a tile, those that it did not have before. -/
def Tsw.since (v old : Tsw) : Tsw :=
  { v with exhausted := v.exhausted && !old.exhausted, termLimit := v.termLimit && !old.termLimit
           boundLost := v.boundLost && !old.boundLost }

/-- 10 R208: the sticky bits of STL_WSTAT follow the states just set and a result. -/
def stick (r : Roost) (v : Tsw) (es : List Elem) (s : State) : State :=
  modWren r.w (fun x => { x with sExh := x.sExh || v.exhausted, sTl := x.sTl || v.termLimit, sBl := x.sBl || v.boundLost
                                 sNan := x.sNan || es.any Elem.isNan }) s

/-- A tile's new elements and status word, with what they set in STL_WSTAT. -/
def storeTile (r : Roost) (f : AccFmt) (t : Nat) (es : List Elem) (v : Tsw) (s : State) : State :=
  stick r (v.since (getTsw r t s)) es (putTsw r t v (putTile r f t es s))

/-- 10 R203: the tile is left as it is and marked TERM_LIMIT. -/
def markLimit (r : Roost) (t : Nat) (s : State) : State :=
  let v := { getTsw r t s with termLimit := true }
  raisePlain 0x0607 (some r.ctx) (unitId 1 r.w) (stick r v [] (putTsw r t v s))

/-- 10 R205: the tile is left as it is and marked EXHAUSTED. -/
def markExhausted (r : Roost) (t : Nat) (s : State) : State :=
  let v := { getTsw r t s with exhausted := true }
  raisePlain 0x0606 (some r.ctx) (unitId 1 r.w) (stick r v [] (putTsw r t v s))

/-- An I64S add into a tile (10 R205): `pre` is the tile at the start, after any alignment. -/
def addFixedTile (r : Roost) (t : Nat) (term : Nat → Option (List Int)) (pre : List Int) (sigma : Nat) (o : Option Tsw) (s : State) : State :=
  let v := getTsw r t s
  if v.exhausted then s
  else match addFixed term 9 pre sigma v.retries 0 with
    | none => markExhausted r t s
    | some (qs, sg, rt, n) =>
      let s := if n = 0 then s else countStl r 0x27 n s
      storeTile r .i64s t (qs.map Elem.fixed) (tswEnter .i64s o { v with scale := sg, retries := rt }) s

/-- The quotients of I64S elements. -/
def fixedOf (es : List Elem) : List Int := es.map fun e => match e with | .fixed q => q | _ => 0

/-- 10 R200, R203 to R205: a term row is added into a tile in sequence. -/
def addRow (r : Roost) (f : AccFmt) (k t : Nat) (row : List Elem) (s : State) : State :=
  let v := getTsw r t s
  let old := getTile r f t s
  let s := countStl r (rowEvent f) 1 s
  if f = .i64s then addFixedTile r t (fixedRow row) (fixedOf old) v.scale none s
  else
    let new := List.zipWith (fun e x => addTerm k e x (f == .p255)) old row
    if overLimit new then markLimit r t s else storeTile r f t new (tswEnter f none v) s

/-- 10 R212: a raw partial row with its status word is combined into a tile; `swap` makes it the first operand. -/
def combineRow (r : Roost) (f : AccFmt) (t : Nat) (swap : Bool) (row : List Elem) (o : Tsw) (s : State) : State :=
  let v := getTsw r t s
  let old := getTile r f t s
  let s := countStl r (rowEvent f) 1 s
  if f = .i64s then
    let sg := min v.scale o.scale
    let pre := (fixedOf old).map fun q => rneInt q (v.scale - sg)
    addFixedTile r t (fun x => some ((fixedOf row).map fun q => rneInt q (o.scale - x))) pre sg (some o) s
  else
    let new := List.zipWith (fun a b => if swap then addElem (f == .p255) b a else addElem (f == .p255) a b) old row
    if overLimit new then markLimit r t s else storeTile r f t new (tswEnter f (some o) v) s

/-- 10 R196: a tile set to identity; an open group's number is noted. -/
def setIdentity (r : Roost) (f : AccFmt) (sigma : Nat) (grp : Option Nat) (t : Nat) (s : State) : State :=
  putTsw r t { Tsw.init with opn := grp.isSome, group := grp.getD 0, fmt := fmtCode f, scale := if f = .i64s then sigma else 0 }
    (putTile r f t (List.replicate 64 (identElem f)) s)

/-! Groups (10 R199 to R201). -/

/-- A group of a Wren. -/
def getGroup (s : State) (w g : Nat) : Group := tabGet Group.init (getWren s w).groups g

/-- The tiles of a group's range. -/
def Group.tiles (g : Group) : List Nat := (List.range g.n).map fun i => g.tile + i * granules g.fmt

/-- The tiles that an instruction touches. -/
def tilesFrom (f : AccFmt) (t n : Nat) : List Nat := (List.range n).map fun i => t + i * granules f

/-- 10 R201: the staging rows that a group of `n` tiles holds. -/
def stagingRows (f : AccFmt) (order n : Nat) : Nat :=
  if ordered f && order != 0 then n * (order + 1) * (if f = .f32c then 2 else 1) else 0

/-- The staging rows in use on a Wren. -/
def stagingUsed (v : Wren) : Nat := v.groups.foldl (fun n e => if e.2.opn then n + stagingRows e.2.fmt e.2.order e.2.n else n) 0

/-- 10 R200: the adds of one tree block: 4, 8 or 16. -/
def treeSize (order : Nat) : Nat := 2 ^ (order + 1)

/-- One level of a balanced tree over leaves; a node with one child passes it. -/
def treeLevel (isP : Bool) : List (List Elem) → List (List Elem)
  | a :: b :: t => List.zipWith (addElem isP) a b :: treeLevel isP t
  | l => l

/-- 10 R200: the sum of a block. -/
def treeSum : Nat → List (List Elem) → List Elem
  | _, [] => []
  | _, [a] => a
  | 0, a :: _ => a
  | fuel + 1, l => treeSum fuel (treeLevel false l)

/-- 10 R199, R200: the pending block of a tile is summed and added into it. -/
def flushTile (r : Roost) (f : AccFmt) (t : Nat) (s : State) : State :=
  let rows := tabGet [] (getWren s r.w).pend (tswKey r t)
  if rows.isEmpty then s
  else
    let block := treeSum 5 (rows.map (decRow f))
    let new := List.zipWith (addElem false) (getTile r f t s) block
    countStl r 0x28 1 (stick r Tsw.init new (putTile r f t new
      (modWren r.w (fun x => { x with pend := tabDel x.pend (tswKey r t) }) s)))

/-- A leaf of a block: a term of binary32 in the group's format. -/
def leafOf (f : AccFmt) (row : List Elem) : List Elem :=
  row.map fun e => match e with
    | .fl x => if f = .f32c then .pair (rndF32 x) (Fl.of 0) else .fl (rndF32 x)
    | e => e

/-- 10 R200: a leaf enters a tile's block, which is flushed once full. -/
def pushLeaf (r : Roost) (f : AccFmt) (order t : Nat) (row : List Elem) (o : Option Tsw) (s : State) : State :=
  let rows := tabGet [] (getWren s r.w).pend (tswKey r t) ++ [encRow f (leafOf f row)]
  let s := countStl r (rowEvent f) 1 s
  let old := getTsw r t s
  let v := tswEnter f o old
  let s := putTsw r t v s
  let s := stick r (v.since old) [] (modWren r.w (fun x => { x with pend := tabPut [] x.pend (tswKey r t) rows }) s)
  if rows.length = treeSize order then flushTile r f t s else s

/-- 10 R199: a group closes; its tiles read closed. -/
def closeGroup (r : Roost) (g : Nat) (s : State) : State :=
  let v := getGroup s r.w g
  let s := v.tiles.foldl (fun s t =>
    putTsw r t { getTsw r t s with opn := false, group := 0 }
      (modWren r.w (fun x => { x with pend := tabDel x.pend (tswKey r t) }) s)) s
  modWren r.w (fun x => { x with groups := tabDel x.groups g }) s

/-- 10 R199, LAST: pending blocks are flushed and the group closes. -/
def flushGroup (r : Roost) (g : Nat) (s : State) : State :=
  let v := getGroup s r.w g
  if v.opn then closeGroup r g (v.tiles.foldl (fun s t => flushTile r v.fmt t s) s) else s

/-- 10 R199: every open group of a Wren closes, flushed at END and unflushed on a fault. -/
def closeGroups (r : Roost) (flush : Bool) (s : State) : State :=
  (List.range 8).foldl (fun s g => if flush then flushGroup r g s else if (getGroup s r.w g).opn then closeGroup r g s else s) s

/-- A group opens over tiles. -/
def openGroup (r : Roost) (g : Nat) (f : AccFmt) (order t n : Nat) (s : State) : State :=
  let v : Group := { opn := true, fmt := f, order := if ordered f then order else 0, tile := t, n := n }
  modWren r.w (fun x => { x with groups := tabPut Group.init x.groups g v }) s

/-- 10 R199: whether adds of an instruction to tiles are allowed: an open group's format, order and range, or a closed group and
ORDER 0. -/
def groupOk (s : State) (w g : Nat) (f : AccFmt) (order t n : Nat) : Bool :=
  let v := getGroup s w g
  !(f == .i64s && order != 0)
    && (if v.opn then v.fmt == f && (!ordered f || v.order == order) && (tilesFrom f t n).all v.tiles.contains
        else !ordered f || order == 0)

/-- 10 R199: whether tiles touch a tile of an open group's range. -/
def inOpenRange (s : State) (w : Nat) (f : AccFmt) (t n : Nat) : Bool :=
  (getWren s w).groups.any fun e => e.2.opn && n != 0 && overlaps (t, granules f * n) (e.2.tile, granules e.2.fmt * e.2.n)

/-- An add into tile `t` under the order of group `g` if it is open, else in sequence. -/
def addUnder (r : Roost) (g : Nat) (f : AccFmt) (k t : Nat) (row : List Elem) (s : State) : State :=
  let v := getGroup s r.w g
  if v.opn && ordered f && v.order != 0 then pushLeaf r f v.order t row none s else addRow r f k t row s

/-- 10 R197: the exact value that an element represents. -/
def elemValue (sigma : Nat) : Elem → Fl
  | .fl x => x
  | .pair s e => flAdd s e
  | .wide v _ fl => if bitOf fl 2 then .nan else if bitOf fl 0 then .inf false else if bitOf fl 1 then .inf true else Fl.of v
  | .word v => Fl.of v
  | .fixed q => Fl.of (q * (2 ^ (298 - sigma) : Nat))

end Sys2Proof.Machine
end

