-- ==== Sys2Proof/Machine/Dma.lean ====
section
/-! DEFINITION. Descriptor queues and Dunnock's DMA engine (06 R115, R118, R119, Table 6.6; 07 R140, R141): fetching and waiting of descriptors, copies, fills and markers, and the KCP forms MEM_COPY and MEM_FILL. -/

namespace Sys2Proof.Machine

/-! Descriptors. -/

/-- OP of a descriptor (06 Table 6.6, 09 Table 9.12). -/
def descOp (b : List Byte) : Nat := field b 0 2

/-- Rsvd fields of both kinds of descriptor: flags outside `flags`, and the wait fields while WAIT is clear. -/
def descRsvd (b : List Byte) (flags : Nat) : Option Nat :=
  if field b 2 2 &&& (0xFFFF - flags) ≠ 0 then some 2
  else if !bitOf (field b 2 2) 1 && field b 4 2 != 0 then some 4
  else if field b 6 2 ≠ 0 then some 6
  else if !bitOf (field b 2 2) 1 && field b 0x0C 4 != 0 then some 0x0C
  else if (sub b 0x30 16).any (· != 0) then some 0x30
  else none

/-- 06 R119: why a DMA descriptor is malformed: a status of the 0x01xx family and its DETAIL. -/
def dmaMalformed (b : List Byte) : Option (Nat × Nat) :=
  if descOp b < 1 ∨ 3 < descOp b then some (0x0102, 0)
  else match descRsvd b 0xA with
    | some off => some (0x0104, off)
    | none => if 2 ^ 40 < field b 0x20 8 then some (0x0105, 0x20) else none

/-- The wait of a held descriptor (06 R121): an armed edge, a refusal, or a start. -/
def armDesc (q : Nat) (b : List Byte) (s : State) : State :=
  if bitOf (field b 2 2) 1 then
    match waitCheck s (getQ s q).ctx (· == q) (field b 4 2) (BitVec.ofNat 32 (field b 0x0C 4)) with
    | .error e => finishDesc q e.1 e.2 0 0 s
    | .ok true => s
    | .ok false => modQ q (fun v => { v with st := .waiting, edge := some (field b 4 2, BitVec.ofNat 32 (field b 0x0C 4)) }) s
  else s

/-- The next descriptor of a queue is fetched, if it is malformed or of one of the operations `ops`. -/
def fetchDesc (typ : Nat) (malformed : List Byte → Option (Nat × Nat)) (ops : Nat → Bool) (q : Nat) (s : State) : State :=
  let v := getQ s q
  if !canFetch s q typ || v.prod == v.fetch then s
  else
    let b := ringSlots s v 1
    let hold := modQ q (fun w => { w with desc := some b, st := .running, fetch := w.fetch + 1
                                          db := w.db.filter fun e => !reached w.fetch e.1 }) s
    match malformed b with
    | some e => finishDesc q e.1 e.2 0 0 hold
    | none => if ops (descOp b) then armDesc q b hold else s

/-- The descriptor that a queue holds and that may run now. -/
def runnable (s : State) (q typ : Nat) : Option (List Byte) :=
  let v := getQ s q
  if v.typ = typ ∧ v.st = .running ∧ v.fault = none ∧ serves s (.host q) ∧ ctxActive s v.ctx then v.desc else none

/-- 06 R115: a queue stalls at a descriptor. -/
def stallQueue (q : Nat) (acc : Acc) (dva : Nat) (s : State) : State :=
  raiseEv 0x0210 (some (getQ s q).ctx) 0xFFFF (q * 2 ^ 48 + dva)
    (modQ q (fun v => { v with fault := some { cause := 1, access := acc.code, dva := dva } }) s)

/-- 06 R113, R114: a descriptor's access fails: NOT_PRESENT stalls the queue, every other cause completes the descriptor. -/
def descFault (q : Nat) (acc : Acc) (e : AccErr) (s : State) : State :=
  match e with
  | .cause 1 dva => stallQueue q acc dva s
  | e => finishDesc q (accStatus acc e).1 (accStatus acc e).2 0 0 s

/-! Transfers. -/

/-- What a transfer comes to: done, with RES0; refused; or an access that fails. -/
inductive Moved where
  | ok (res0 : Nat) (s : State)
  | fail (status detail : Nat)
  | err (acc : Acc) (e : AccErr)

/-- 06 R119: byte `a mod 8` of a 64-bit pattern. -/
def patByte (pat a : Nat) : Byte := BitVec.ofNat 8 (pat / 2 ^ (8 * (a % 8)))

/-- The bytes that a fill writes at `dst`. -/
def patBytes (pat dst len : Nat) : List Byte := (List.range len).map fun i => patByte pat (dst + i)

/-- 07 R140: a context whose transfers with a host side carry sealed extents. -/
def sealsHost (s : State) (c : Nat) : Bool := s.host.confidential && c != 0

/-- 18 Table 18.4: Dunnock payload bytes across PCI Express. -/
def payload (s : State) (c a n : Nat) : State := if lowerHalf a then meter c (fun m => { m with pcie := m.pcie + n }) s else s

/-- 07 R140: the additional authenticated data of an extent. -/
def extentAad (c q len dva seq : Nat) : List Byte := natLE 2 c ++ natLE 2 q ++ natLE 8 len ++ natLE 8 dva ++ natLE 8 seq

/-- 07 R140: the nonce of an extent. -/
def extentNonce (dir seq : Nat) : List Byte := natLE 1 dir ++ zeros 3 ++ natLE 8 seq

/-- 07 R141: a sequence already accepted, or 4,096 or more below the highest. -/
def extentReplayed (ch : Channel) (seq : Nat) : Bool :=
  match ch.extHi with
  | none => false
  | some hi => ch.exts.contains seq || decide (seq + 4096 ≤ hi)

/-- An inbound sequence is recorded. -/
def recordExtent (seq : Nat) (ch : Channel) : Channel :=
  let hi := match ch.extHi with | none => seq | some h => max h seq
  { ch with extHi := some hi, exts := (seq :: ch.exts).filter fun x => decide (hi < x + 4096) }

/-- 07 R141: an inbound extent is read whole, checked, and only then written. -/
def inbound (c q src dst len : Nat) (s : State) : Moved :=
  let ch := (getCtx s c).chan
  match dvaRead s c src (len + 32) .read true with
  | .error e => .err .read e
  | .ok bs =>
    let seq := field bs len 8
    if seq = 0 ∨ field bs (len + 8) 8 ≠ 0 then .fail 0x0105 (Config.statusDetail 0x0105)
    else match gcmOpen ch.kDin (extentNonce 3 seq) (extentAad c q len dst seq) (bs.take len) (sub bs (len + 16) 16) with
      | none => .fail 0x0502 2
      | some text =>
        if extentReplayed ch seq then .fail 0x0504 3
        else match dvaWrite s c dst text .write false with
          | .error e => .err .write e
          | .ok s => .ok 0 (payload (modCtx c (fun v => { v with chan := recordExtent seq v.chan }) s) c src (len + 32))

/-- 07 R141: an outbound extent of bytes of the device side. -/
def outbound (c q dst dva : Nat) (text : List Byte) (s : State) : Moved :=
  let ch := (getCtx s c).chan
  let seq := ch.extOut + 1
  let ct := gcmCrypt ch.kDout (extentNonce 4 seq) text
  let tag := gcmTag ch.kDout (extentNonce 4 seq) (extentAad c q text.length dva seq) ct
  match dvaWrite s c dst (ct ++ natLE 8 seq ++ zeros 8 ++ tag) .write true with
  | .error e => .err .write e
  | .ok s =>
    .ok seq (payload (modCtx c (fun v => { v with chan := { v.chan with extOut := seq } }) s) c dst (text.length + 32))

/-- 06 R119: whether a copy's source and destination overlap. -/
def copyOverlaps (src dst len : Nat) : Bool := overlaps (src, len) (dst, len)

/-- 06 R119, 07 R140: a copy of context `c` on queue `q`; `off` is where its destination field stands. -/
def copyBytes (c q src dst len offSrc offLen : Nat) (s : State) : Moved :=
  if len = 0 then .ok 0 s
  else if copyOverlaps src dst len then .fail 0x0105 offSrc
  else if sealsHost s c && lowerHalf src && lowerHalf dst then .fail 0x0205 0
  else if sealsHost s c && (lowerHalf src || lowerHalf dst) && decide (4194304 < len) then .fail 0x0105 offLen
  else if sealsHost s c && lowerHalf src then inbound c q src dst len s
  else match dvaRead s c src len .read false with
    | .error e => .err .read e
    | .ok bs =>
      if sealsHost s c && lowerHalf dst then outbound c q dst src bs s
      else match dvaWrite s c dst bs .write false with
        | .error e => .err .write e
        | .ok s => .ok len (payload (payload s c src len) c dst len)

/-- 06 R119, 07 R140, R141: a fill; with a host destination in Confidential host mode it is an outbound extent. -/
def fillBytes (c q dst len pat offLen : Nat) (s : State) : Moved :=
  let bs := patBytes pat dst len
  if len = 0 then .ok 0 s
  else if sealsHost s c && lowerHalf dst then
    if 4194304 < len then .fail 0x0105 offLen else outbound c q dst dst bs s
  else match dvaWrite s c dst bs .write false with
    | .error e => .err .write e
    | .ok s => .ok 0 (payload s c dst len)

/-- A descriptor's transfer. -/
def descTransfer (q : Nat) (b : List Byte) (s : State) : Moved :=
  let c := (getQ s q).ctx
  if descOp b = 1 then copyBytes c q (field b 0x10 8) (field b 0x18 8) (field b 0x20 8) 0x10 0x20 s
  else if descOp b = 2 then fillBytes c q (field b 0x18 8) (field b 0x20 8) (field b 0x28 8) 0x20 s
  else .ok 0 s

/-- RES0 of a descriptor: the sequence of an outbound extent (07 R141), else 0. -/
def extentRes (s : State) (q : Nat) (b : List Byte) (n : Nat) : Nat :=
  if sealsHost s (getQ s q).ctx && lowerHalf (field b 0x18 8) && descOp b != 3 then n else 0

/-- A held DMA descriptor runs. -/
def runDma (q : Nat) (b : List Byte) (s : State) : State :=
  if quarantined s (unitId 8 0) then finishDesc q 0x0C01 (unitId 8 0) 0 0 s else
  match descTransfer q b s with
  | .ok n t => finishDesc q 0 0 (extentRes s q b n) 0 t
  | .fail st d => finishDesc q st d 0 0 (countAuth st s)
  | .err acc e => descFault q acc e s

/-- One step of a DMA queue for an operation: the descriptor is fetched if none is held, and runs once it may (06 R119). -/
def dmaStep (op : Nat) (q : Nat) (s : State) : State :=
  let s := fetchDesc 1 dmaMalformed (· == op) q s
  match runnable s q 1 with
  | some b => if descOp b = op then runDma q b s else s
  | none => s

/-- 06 R119. -/
def execDmaCopy (q : Nat) (s : State) : Res := .next (dmaStep 1 q s)

/-- 06 R119. -/
def execDmaFill (q : Nat) (s : State) : Res := .next (dmaStep 2 q s)

/-- 06 R119. -/
def execDmaMarker (q : Nat) (s : State) : Res := .next (dmaStep 3 q s)

/-- The queue number that an extent of a KCP command carries; context 0's transfers carry none. -/
def queueNo : QRef → Nat
  | .host n => n
  | .mgmt => 0

/-- What a transfer comes to as a command. -/
def movedReply (m : Moved) (res : Nat → Nat) (s : State) : Reply × State :=
  match m with
  | .ok n t => (.done (Done.res (res n) 0), t)
  | .fail st d => refuse s st d
  | .err acc e => refuse s (accStatus acc e).1 (accStatus acc e).2

/-- 06 R119: MEM_COPY. RES0 is the byte count, or the sequence of an outbound extent. -/
def memCopy : Body := fun q p s => movedReply (copyBytes p.ctx (queueNo q) (p.w 0) (p.w 1) (p.w 2) (paramAt 0 0) (paramAt 2 0) s)
  (fun n => if sealsHost s p.ctx && lowerHalf (p.w 0) then p.w 2 else n) s

/-- 06 R119. -/
def execMemCopy (q : QRef) (s : State) : Res := .next (runCmd 0x0206 (onUnit (unitId 8 0) memCopy) q s)

/-- 06 R119: MEM_FILL. -/
def memFill : Body := fun q p s => movedReply (fillBytes p.ctx (queueNo q) (p.w 0) (p.w 1) (p.w 2) (paramAt 1 0) s) id s

/-- 06 R119. -/
def execMemFill (q : QRef) (s : State) : Res := .next (runCmd 0x0207 (onUnit (unitId 8 0) memFill) q s)

end Sys2Proof.Machine
end

