-- ==== Sys2Proof/Machine/Run.lean ====
section
/-! DEFINITION. Runs (09 R174 to R190): instruction words, scalar registers, how a Wren retires, blocks, faults and ends, and how a run ends. -/

namespace Sys2Proof.Machine

/-! Runs and programs. -/

/-- The program behind a handle. -/
def progOf (s : State) (h : Nat) : Option Prog :=
  match getObj? s h with
  | some o => (match o.kind with | .prog p => some p | _ => none)
  | none => none

/-- A run by its number. -/
def getRun? (s : State) (id : Nat) : Option Run := s.fab.runs.find? fun r => r.id == id

/-- A run changed. -/
def modRun (id : Nat) (f : Run → Run) (s : State) : State :=
  onFab (fun v => { v with runs := v.runs.map fun r => if r.id = id then f r else r }) s

/-- The Wrens of a run in run Wren order. -/
def Run.wrens (r : Run) : List Nat := r.thks.flatMap fun t => (List.range 24).map fun j => 24 * t + j

/-- The run Wren index of a Wren (09, Model). -/
def Run.widx (r : Run) (w : Nat) : Nat := 24 * (r.thks.idxOf (w / 24)) + w % 24

/-- The run that a Wren runs. -/
def runOf (s : State) (w : Nat) : Option Run :=
  match (getWren s w).run with
  | some id => getRun? s id
  | none => none

/-- What a Wren's step works with: the Wren, its run, and its program. -/
structure Site where
  w : Nat
  run : Run
  prog : Prog
  insn : Nat
  deriving DecidableEq, Repr

/-- The roost of a site's Wren. -/
def Site.roost (x : Site) : Roost := { w := x.w, size := roostSize x.prog.roost, ctx := x.run.ctx, ingress := false }

/-! Instruction words (09 Tables 9.5 to 9.7). -/

/-- CLASS and OP of a word. -/
def insClass (i : Nat) : Nat := bits i 0 4
def insOp (i : Nat) : Nat := bits i 4 8

/-- The instruction that a Wren stands at, with its site: the Wren is Running and the chip is in Run. -/
def siteOf (s : State) (w : Nat) : Option Site :=
  let v := getWren s w
  match runOf s w with
  | none => none
  | some r =>
    match progOf s r.prog with
    | none => none
    | some p =>
      match p.code[v.ix]? with
      | none => none
      | some i =>
        if v.st = 1 ∧ r.st = 1 ∧ !v.ended ∧ s.pwr.st = .run then some { w := w, run := r, prog := p, insn := i.toNat } else none

/-- 09 R174: a scalar register; SR[0] reads as zero. -/
def getSr (s : State) (w n : Nat) : Nat := if n = 0 then 0 else (tabGet 0 (getWren s w).sr n).toNat

/-- 09 R174: a scalar register written; writes to SR[0] are discarded. -/
def setSr (w n v : Nat) (s : State) : State :=
  if n = 0 then s else modWren w (fun x => { x with sr := tabPut 0 x.sr n (BitVec.ofNat 64 v) }) s

/-- The register that a 5-bit field of the instruction names, read. -/
def Site.sr (x : Site) (s : State) (lo : Nat) : Nat := getSr s x.w (bits x.insn lo 5)

/-! Retiring, and LOOP. -/

/-- The index that follows instruction `ix`, with the loops still open (09 Table 9.6). -/
def nextIx (ix : Nat) : List LoopLvl → Nat × List LoopLvl
  | [] => (ix + 1, [])
  | l :: ls =>
    if l.last = ix then
      if 1 < l.left then (l.first, { l with left := l.left - 1 } :: ls) else nextIx ix ls
    else (ix + 1, l :: ls)

/-- A Wren moves past instruction `ix`. -/
def advance (w ix : Nat) (s : State) : State :=
  modWren w (fun v =>
    let r := nextIx ix v.loops
    { v with ix := r.1, loops := r.2, block := 0, blockedAt := none }) s

/-- 09 Table 9.16: an instruction retires; the run is not stalled (R189). -/
def retired (x : Site) (s : State) : State :=
  let s := modRun x.run.id (fun r => { r with retired := r.retired + 1, stalled := false }) s
  count x.run.ctx 2 (x.w / 24) 0x01 1 (count x.run.ctx 1 x.w 0x01 1 s)

/-- The Wren retires the instruction it stands at. -/
def retire (x : Site) (s : State) : State := retired x (advance x.w (getWren s x.w).ix s)

/-- 09 Table 9.14: the Wren blocks with a code; entry into a blocked state is counted. -/
def blockOn (x : Site) (code : Nat) (s : State) : State :=
  if (getWren s x.w).block = code then s
  else
    let s := modWren x.w (fun v => { v with block := code, blockedAt := some s.lark.time }) s
    count x.run.ctx 2 (x.w / 24) 0x06 1 (count x.run.ctx 1 x.w 0x06 1 s)

/-! The end of a run. -/

/-- 09 R187, R168: the working area and roost of a Wren read as zero, and its tile status words as EMPTY (10 R195). -/
def scrubWren (p : Prog) (w : Nat) (s : State) : State :=
  let m := memErase s.mem (wrenBase w) p.wsize
  let m := memErase m (wrenBase w + (1048576 - roostSize p.roost)) (roostSize p.roost)
  modWren w (fun v => { v with tsw := [], pend := [], groups := [] }) (setMem m s)

/-- A Wren is Free again; one in Quarantine stays so. -/
def freeWren (w : Nat) (s : State) : State :=
  let q := quarantined s (unitId 1 w)
  modWren w (fun v => { v with st := if q then 4 else 0, run := none, block := 0, blockedAt := none, ended := false, async := []
                               loops := [], pushed := [] }) s

/-- The instances of an engine that a run holds are released (09 R179). -/
def releaseInst (id : Nat) (v : Inst) : Inst := if v.holder = some id && !v.fw then { v with holder := none, busy := false, count := 0 } else v

/-- 09 R179: every reservation of a run is released. -/
def releaseAll (id : Nat) (s : State) : State :=
  onFab (fun f => { f with chf := f.chf.foldl (fun t e => tabPut Inst.init t e.1 (releaseInst id e.2)) []
                           gcr := f.gcr.foldl (fun t e => tabPut Inst.init t e.1 (releaseInst id e.2)) [] }) s

/-- The entry that launched a run completes with a status. -/
def completeRun (r : Run) (status detail res0 res1 : Nat) (s : State) : State :=
  match r.src with
  | .launch q => finishDesc q status detail res0 res1 s
  | .prog q => finish q { Done.fail status detail with res0 := res0, res1 := res1 } s

/-- The objects that an asynchronous operation pins (06 R117): the keys of a Goldcrest descriptor. -/
def asyncRefs : AsyncOp → List Nat
  | .gate _ op _ _ _ inB _ _ key => if op = 0x20 then [key, inB] else if op = 0x10 ∨ op = 0x11 then [] else [key]
  | _ => []

/-- A run leaves its Wrens: reservations released, a SECRET run scrubbed, Wrens freed, references dropped. -/
def dropRun (r : Run) (s : State) : State :=
  let p := progOf s r.prog
  let refs := r.prog :: r.pins ++ r.wrens.flatMap fun w => (getWren s w).async.flatMap asyncRefs
  let s := releaseAll r.id s
  let s := r.wrens.foldl (fun s w =>
    let s := match p with | some p => if p.secret && r.st != 0 then scrubWren p w s else s | none => s
    if r.st = 0 then s else freeWren w s) s
  let s := onFab (fun f => { f with runs := f.runs.filter fun x => x.id != r.id }) s
  if r.st = 0 then s else refs.foldl (fun s h => dropRef h s) s

/-- 09 R187: every Wren has executed END. -/
def endRunAll (r : Run) (s : State) : State :=
  let w0 := r.wrens.headD 0
  completeRun r 0 0 (getWren s w0).exitWord.toNat 0 (dropRun r s)

/-- 10 R199: the groups of a Wren close. -/
def closeWren (p : Prog) (c w : Nat) (flush : Bool) (s : State) : State :=
  closeGroups { w := w, size := roostSize p.roost, ctx := c, ingress := false } flush s

/-- A run stops without completing: groups close without flush (10 R199), and it leaves its Wrens. -/
def stopRun (r : Run) (s : State) : State :=
  let s := match progOf s r.prog with
    | some p => if r.st = 0 then s else r.wrens.foldl (fun s w => closeWren p r.ctx w false s) s
    | none => s
  dropRun r s

/-- The DETAIL of a run fault (05 Table 5.7), where the fault names none. -/
def faultDetail (s : State) (status : Nat) : Nat := if status / 256 = 7 then abortDetail s else Config.statusDetail status

/-- 09 R188: a run faults at instruction `ix` of a Wren. WRN_FAULT and the status record's RES1 record where. -/
def faultRun (r : Run) (w ix status detail : Nat) (addr : Option Nat) (s : State) : State :=
  let s := modWren w (fun v => { v with faultStatus := status, faultIx := ix, faultAddr := addr.getD v.faultAddr }) s
  completeRun r status detail 0 (r.widx w + ix * 2 ^ 16) (stopRun r s)

/-- A run is aborted (09 Table 9.13, Edges). -/
def abortRun (status : Nat) (s : State) (r : Run) : State := completeRun r status (abortDetail s) 0 0 (stopRun r s)

/-! Barriers (09 R177). -/

/-- The barrier that a blocked Wren has reached. -/
def atBar (s : State) (w : Nat) : Option Nat :=
  if (getWren s w).block = 2 then (siteOf s w).map fun x => bits x.insn 30 6 else none

/-- 09 R177: the Wrens of a run pass barrier `b` once every one that has not ended has reached it. -/
def releaseBar (r : Run) (b : Nat) (s : State) : State :=
  let live := r.wrens.filter fun w => !(getWren s w).ended
  if live.all fun w => atBar s w == some b then
    live.foldl (fun s w => match siteOf s w with | some x => retire x s | none => s) s
  else s

/-- Every barrier of a run that is now complete. -/
def releaseBars (r : Run) (s : State) : State := (List.range 64).foldl (fun s b =>
  if r.wrens.any fun w => !(getWren s w).ended && atBar s w == some b then releaseBar r b s else s) s

/-! The frame of an instruction. -/

/-- What an instruction comes to. -/
inductive WOut where
  | retire (s : State)
  | jump (ix : Nat) (s : State)
  | block (code : Nat) (s : State)
  | fault (status detail : Nat) (addr : Option Nat)
  | hold (s : State)

/-- A fault whose DETAIL the spec leaves open. -/
def WOut.breach (s : State) (status : Nat) : WOut := .fault status (faultDetail s status) none

/-- A dynamic range breach (09 R188). -/
def rangeBreach (s : State) : WOut := WOut.breach s 0x0105

/-- The local ranges (offset, length) that an asynchronous operation reads and writes. -/
def asyncReads : AsyncOp → List (Nat × Nat)
  | .move m _ src len => if m = 0 ∨ m = 2 ∨ m = 4 then [(src, len)] else []
  | .fill .. => []
  | .peer _ _ src len _ _ _ => [(src, len)]
  | .chaf _ d => [(d, 64)]
  | .gate .. => []

/-- The local ranges that an asynchronous operation writes. -/
def asyncWrites : AsyncOp → List (Nat × Nat)
  | .move m dst _ len => if m = 0 ∨ m = 1 ∨ m = 3 then [(dst, len)] else []
  | .fill side dst len _ => if side = 0 then [(dst, len)] else []
  | _ => []

/-- 09 R175: an instruction with these local reads and writes waits for an unfinished asynchronous operation. -/
def interlocked (v : Wren) (reads writes : List (Nat × Nat)) : Bool :=
  v.async.any fun a =>
    (asyncWrites a).any (fun x => (reads ++ writes).any (overlaps x)) || (asyncReads a).any (fun x => writes.any (overlaps x))

/-- The local range of `n` tiles of a roost. -/
def tilesRange (r : Roost) (f : AccFmt) (t n : Nat) : Nat × Nat := (1048576 - r.size + 256 * t, 256 * granules f * n)

/-- The outcome of an instruction takes effect. -/
def settle (x : Site) (s : State) (o : WOut) : State :=
  match o with
  | .retire t => retire x t
  | .jump ix t => retired x (modWren x.w (fun v => { v with ix := ix, block := 0, blockedAt := none }) t)
  | .block code t => blockOn x code t
  | .fault st d a => faultRun x.run x.w (getWren s x.w).ix st d a s
  | .hold t => t

/-- 09 Table 9.5: PRED is set and SR[PREG] is zero. -/
def skipped (x : Site) (s : State) : Bool := bitOf x.insn 12 && x.sr s 13 == 0

/-- The instruction that a Wren stands at runs, if it is of this class and operation. -/
def runInsn (cls op : Nat) (body : Site → State → WOut) (w : Nat) (s : State) : State :=
  match siteOf s w with
  | none => s
  | some x =>
    if insClass x.insn ≠ cls ∨ insOp x.insn ≠ op then s
    else if skipped x s then retire x s
    else settle x s (body x s)

/-- A local range lies in the working area (09 R168). -/
def inWork (p : Prog) (off len : Nat) : Bool := len == 0 || off + len ≤ p.wsize

/-- Local bytes of a Wren, and their writing. -/
def readLocal (s : State) (w off len : Nat) : List Byte := memRead s.mem (wrenBase w + off) len
def writeLocal (w off : Nat) (bs : List Byte) (s : State) : State := setMem (memWrite s.mem (wrenBase w + off) bs) s

/-- 128-byte lines read and written in local SRAM (09 Table 9.16). -/
def countLines (x : Site) (rd wr : Nat) (s : State) : State :=
  count x.run.ctx 1 x.w 0x04 (ceilDiv wr 128) (count x.run.ctx 1 x.w 0x03 (ceilDiv rd 128) s)

end Sys2Proof.Machine
end

