-- ==== Sys2Proof/Machine/Program.lean ====
section
/-! DEFINITION. Programs and launches (09 R167, R181 to R191): the load checks of Table 9.10, launch descriptors, the start of a run, and the stall watchdog. -/

namespace Sys2Proof.Machine

/-! Checks of one instruction (09 Tables 9.5 to 9.7, 10 Table 10.4, 11 Table 11.2). -/

/-- The OP values of a class that name instructions. -/
def opsOf : Nat → List Nat
  | 0 => [0, 1, 2, 3]
  | 1 => [1, 2, 3, 4, 5, 6, 7, 8, 9, 0xA, 0xB, 0xC, 0xD, 0xE]
  | 2 => [1, 2, 3]
  | 3 => [1, 2, 3]
  | 4 => [1, 2, 3, 4, 5, 6, 7, 8]
  | 5 => [1, 2, 3, 4, 5, 6, 7, 8, 9, 0xA, 0xB, 0xC, 0xD]
  | 6 => [1, 2, 3, 4, 5, 6, 7, 8, 9]
  | 7 => [1, 2]
  | _ => []

/-- The highest bit that a class lists (09 Table 9.7); each class lists every bit from 20 up to it. -/
def topBit : Nat → Nat
  | 0 => 38 | 1 => 99 | 2 => 46 | 3 => 61 | 4 => 84 | 5 => 50 | 6 => 51 | 7 => 37 | _ => 0

/-- Rsvd bits of a word are zero. -/
def insRsvdOk (i : Nat) : Bool := bits i 18 2 == 0 && bits i (topBit (insClass i) + 1) (127 - topBit (insClass i)) == 0

/-- 10 Table 10.4: the EPI bits that an operation lists. -/
def epiOk (op epi : Nat) : Bool :=
  if op = 1 then bitOf epi 3 == false
  else if op = 3 then bits epi 1 2 == 0
  else if op = 8 then bitOf epi 1 == false && bitOf epi 3 == false
  else epi == 0

/-- 09 R172, 10 Table 10.2: an accumulator format accepts an INFMT. -/
def mmaPair (f : AccFmt) (infmt : Nat) : Bool :=
  match f with
  | .f32 => true | .f32c => true | .x704 => true
  | .z64 => infmt == 3 | .i64s => infmt == 3 | .p255 => false

/-- The formats with an order and a value (10 R209, Table 10.5). -/
def valued (f : AccFmt) : Bool := match f with | .z64 => false | .p255 => false | _ => true

/-- 09 Table 9.10: what the load checks of a Systolic instruction. -/
def systolicOk (S i : Nat) : Bool :=
  if insOp i ≠ 3 then true
  else match fmtOf (bits i 49 4) with
    | none => false
    | some f => mmaPair f (bits i 55 2) && (bitOf i 43 || bits i 31 12 + granules f * (bits i 25 6 + 1) ≤ S / 256)

/-- 09 Table 9.10: what the load checks of a Starling instruction: format, EPI, OUTFMT, pairings that the instruction fixes, and a
static tile index. -/
def starlingOk (S i : Nat) : Bool :=
  match fmtOf (bits i 55 4) with
  | none => false
  | some f =>
    epiOk (insOp i) (bits i 72 4)
      && !(insOp i == 1 && bitOf (bits i 72 4) 1 && !valued f)
      && !(insOp i == 3 && (5 < bits i 76 4 || (bits i 76 4 != 0 && !valued f)))
      && (bitOf i 37 || bits i 43 12 == 0 || bits i 25 12 + granules f * bits i 43 12 ≤ S / 256)

/-- 09 R184, 10 R206, 11 R216: what SECRET allows of an instruction. The result register of an event wait is no source that R184
names. -/
def secretOk (secret : Bool) (i : Nat) : Bool :=
  if secret then
    !(insClass i == 6 && (insOp i == 4 || insOp i == 5 || insOp i == 6) && bits i 47 5 != 0)
      && !(insClass i == 3 && insOp i == 3 && bits i 49 4 == 5) && !(insClass i == 4 && bits i 55 4 == 5)
  else !(insClass i == 5 && (insOp i == 9 || insOp i == 0xD))

/-- 09 Table 9.10: a defined CLASS and OP, Rsvd bits zero, fields in range. -/
def insOk (i : Nat) : Bool :=
  (opsOf (insClass i)).contains (insOp i) && insRsvdOk i && !(insClass i == 2 && insOp i == 1 && bits i 35 4 == 7)
    && !(insClass i == 2 && insOp i == 1 && 7 < bits i 35 4)

/-- LOOP instructions of a code: index and END_IX. -/
def loopsOf (code : List Nat) : List (Nat × Nat) :=
  (code.zipIdx).filterMap fun e => if insClass e.1 = 0 ∧ insOp e.1 = 3 then some (e.2, bits e.1 25 14) else none

/-- The loops whose body holds an instruction, and the innermost of them. -/
def loopsAt (ls : List (Nat × Nat)) (k : Nat) : List (Nat × Nat) := ls.filter fun l => l.1 < k && k ≤ l.2
def innermost (ls : List (Nat × Nat)) (k : Nat) : Option Nat := ((loopsAt ls k).getLast?).map Prod.fst

/-- 09 Table 9.10: BR targets and LOOP nesting at instruction `k`. -/
def flowOk (n : Nat) (ls : List (Nat × Nat)) (k i : Nat) : Bool :=
  (loopsAt ls k).length ≤ 4
    && !(insClass i == 0 && insOp i == 2 && !(bits i 20 14 < n && innermost ls (bits i 20 14) == innermost ls k))
    && !(insClass i == 0 && insOp i == 3 && !(k < bits i 25 14 && bits i 25 14 < n && (loopsAt ls k).all fun l => bits i 25 14 ≤ l.2))

/-- The first instruction that a check refuses. -/
def firstBad (code : List Nat) (ok : Nat → Nat → Bool) : Option Nat := ((code.zipIdx).find? fun e => !ok e.2 e.1).map Prod.snd

/-- 09 Table 9.10: the instruction checks in order. -/
def codeFault (code : List Nat) (S : Nat) (secret : Bool) : Option Nat :=
  let ls := loopsOf code
  ((firstBad code fun _ i => insOk i).or (firstBad code fun k i => flowOk code.length ls k i)).or
    ((firstBad code fun _ i => (insClass i != 3 || systolicOk S i) && (insClass i != 4 || starlingOk S i)).or
      (firstBad code fun _ i => secretOk secret i))

/-! PROG_LOAD (09 R181 to R184). -/

/-- 09 Table 9.9: the header check, with the byte offset of the first field that fails it. -/
def jkpFault (h : List Byte) : Option (Nat × Nat) :=
  let st := field h 0x10 4
  if field h 0 4 ≠ 0x4B4C4A50 then some (0x0105, 0)
  else if field h 4 2 ≠ 1 then some (0x0105, 4)
  else if bits (field h 6 2) 4 12 ≠ 0 then some (0x0104, 6)
  else if field h 8 4 = 0 ∨ 16384 < field h 8 4 then some (0x0105, 8)
  else if field h 0x0C 4 % 4096 ≠ 0 then some (0x0105, 0x0C)
  else if st % 4096 ≠ 0 ∨ 16777216 < st then some (0x0105, 0x10)
  else if st < field h 0x14 4 then some (0x0105, 0x14)
  else if field h 0x18 1 = 0 ∨ 64 < field h 0x18 1 then some (0x0105, 0x18)
  else if field h 0x19 1 < field h 0x18 1 then some (0x0105, 0x19)
  else if bits (field h 0x1A 2) 4 12 ≠ 0 then some (0x0104, 0x1A)
  else if (sub h 0x1C 36).any (· != 0) then some (0x0104, 0x1C)
  else none

/-- The thickets that a partition owns (07 Table 7.4). -/
def partThks (s : State) (p t : Nat) : Bool := t < thkCount s && (!s.host.shared || t / 8 == p)

/-- The first thicket of a mask that fails a test. -/
def badThk (m : BitVec 64) (ok : Nat → Bool) : Option Nat := (maskThks m).find? fun t => !ok t

/-- 09 R182: the context that a thicket is bound to, if it is another one. -/
def boundElse (s : State) (c t : Nat) : Option Nat :=
  match (getThk s t).bound with | some x => if x = c then none else some x | none => none

/-- Instructions in use in a thicket's instruction store. -/
def storeUsed (s : State) (t : Nat) : Nat := (getThk s t).istore.foldl (fun n e => n + e.2) 0

/-- 09 R170: the thicket SRAM window of thicket `t`, and where `n` bytes fit in it. -/
def thkPlace (s : State) (t n : Nat) : Option Nat :=
  firstFit (thkBase t) (thkBase (t + 1)) 4096 n (usedRanges s ++ scrubRanges s)

/-- The free bytes of a thicket's SRAM. -/
def thkFree (s : State) (t : Nat) : Nat :=
  16777216 - ((usedRanges s).filter fun r => overlaps r (thkBase t, 16777216)).foldl (fun n r => n + r.2) 0

/-- The loaded models of a context. -/
def modelsOf (s : State) (c : Nat) : List Model :=
  s.host.objs.filterMap fun e => match e.2.kind with | .model m => if e.2.ctx = c then some m else none | _ => none

/-- 09 R183, 16 R325: bytes by which a program is over the budget of a Wren that holds a region of a model. -/
def overBudget (s : State) (c : Nat) (p : Prog) (w : Nat) : Nat :=
  let S := roostSize p.roost
  ((modelsOf s c).filter fun m => m.mask.getLsbD (w / 24)).foldl (fun n m =>
    max n (max (p.wsize - m.wplan) (m.wplan + (getWren s w).region + S - 1048576)))
      (p.wsize + S + (getWren s w).region - 1048576)

/-- The largest excess over the Wrens of a mask. -/
def worstOver (s : State) (c : Nat) (p : Prog) : Nat := (maskWrens p.mask).foldl (fun n w => max n (overBudget s c p w)) 0

/-- The program that an image spells, without its allocation. -/
def progFrom (img : List Byte) (mask : BitVec 64) : Prog :=
  let n := field img 8 4
  { mask := mask, secret := bitOf (field img 6 2) 0, board := bitOf (field img 6 2) 1, roost := bits (field img 6 2) 2 2
    wsize := field img 0x0C 4, staticLen := field img 0x10 4, static_ := [], minT := field img 0x18 1, maxT := field img 0x19 1
    engines := field img 0x1A 2, code := (List.range n).map fun k => BitVec.ofNat 128 (field img (0x40 + 16 * k) 16) }

/-- 09 Table 9.10: the checks after the length, on the whole image. -/
def progFault (s : State) (c : Nat) (p : Prog) : Option (Nat × Nat) :=
  let k := (maskThks p.mask).length
  match badThk p.mask (partThks s (getCtx s c).part) with
  | some t => some (0x0105, t)
  | none =>
    if k = 0 then some (0x0105, 0)
    else match badThk p.mask fun t => (boundElse s c t).isNone with
      | some t => some (0x0401, (boundElse s c t).getD 0)
      | none =>
        if k < p.minT ∨ p.maxT < k then some (0x0105, k)
        else match codeFault (p.code.map BitVec.toNat) (roostSize p.roost) p.secret with
          | some i => some (0x0105, i)
          | none =>
            match badThk p.mask fun t => storeUsed s t + p.code.length ≤ 16384 with
            | some t => some (0x0303, 16384 - storeUsed s t)
            | none =>
              match badThk p.mask fun t => p.staticLen = 0 || (thkPlace s t p.staticLen).isSome with
              | some t => some (0x0303, thkFree s t)
              | none =>
                if worstOver s c p ≠ 0 then some (0x0608, worstOver s c p)
                else if objLimit ≤ s.host.objs.length then some (0x0303, objLimit)
                else none

/-- The program is placed: its code in each instruction store, its thicket image in each static allocation. -/
def placeProg (c : Nat) (p : Prog) (img thk : List Byte) (s : State) : Nat × State :=
  let st := if p.staticLen = 0 then [] else (maskThks p.mask).filterMap fun t => (thkPlace s t p.staticLen).map fun b => (t, b)
  let s := bindThks c p.mask s
  let r := newObj c (.prog { p with static_ := st }) (sha384 img) s
  let s := st.foldl (fun s e => setMem (memWrite (memErase s.mem e.2 p.staticLen) e.2 thk) s) r.2
  (r.1, (maskThks p.mask).foldl (fun s t => modThk t (fun v => { v with istore := v.istore ++ [(r.1, p.code.length)] }) s) s)

/-- 09 R181: PROG_LOAD. -/
def progLoad : Body := fun _ p s =>
  match dvaRead s p.ctx (p.w 0) 64 .fetch false with
  | .error e => refuse s (accStatus .fetch e).1 (accStatus .fetch e).2
  | .ok h =>
    match jkpFault h with
    | some e => refuse s e.1 e.2
    | none =>
      let need := 0x40 + 16 * field h 8 4 + field h 0x14 4
      if p.w 1 ≠ need then refuse s 0x0103 need
      else match dvaRead s p.ctx (p.w 0) need .fetch false with
        | .error e => refuse s (accStatus .fetch e).1 (accStatus .fetch e).2
        | .ok img =>
          let g := progFrom img (BitVec.ofNat 64 (p.w 2))
          match progFault s p.ctx g with
          | some e => refuse s e.1 e.2
          | none =>
            let r := placeProg p.ctx g img (img.drop (0x40 + 16 * field h 8 4)) s
            (.done (Done.res r.1 0), r.2)

/-- 09 R181. -/
def execProgLoad (q : QRef) (s : State) : Res := .next (runCmd 0x0500 progLoad q s)

/-! Launches (09 R185, R186). -/

/-- A launch before it is queued: program, argument block, thickets (0 for the whole mask) and board run. -/
structure Launch where
  prog : Nat
  arg : Nat
  argLen : Nat
  thks : BitVec 64
  board : Bool
  boardId : Nat

/-! Requests on a board (01 R16; 16 Model). -/

/-- A thicket with a unit in Quarantine: its own, a Wren's, a Thrush's or a weight decryptor's. -/
def thkQuar (s : State) (t : Nat) : Bool :=
  quarantined s (unitId 2 t) || (List.range 24).any fun j =>
    quarantined s (unitId 1 (24 * t + j)) || quarantined s (unitId 4 (24 * t + j)) || quarantined s (unitId 0x0E (24 * t + j))

/-- 01 R16: a chip of this board is in the Quarantine of 14 R286, or cannot be reached over the board cube: a port S0 to S2 carries
nothing, the Quintidy engine is in Quarantine, or the rack manager has marked a chip unreachable (log 52). -/
def boardCut (s : State) : Bool :=
  s.qtd.st == 3 || quarantined s qtdUnit || (List.range 3).any (fun n => !usable (getSkn s n))
    || (List.range 8).any fun i => !present s (chipNo s / 8 * 8 + i)

/-- The board model of a context that a board run on some thickets serves (16, Serving run). -/
def servedBy (s : State) (c : Nat) (thks : List Nat) : Option Model := (modelsOf s c).find? fun m => m.board && thks.any m.mask.getLsbD

/-- 16: a serving run: a board run on thickets that hold a board model of its context. -/
def serving (s : State) (r : Run) : Bool := r.board && (servedBy s r.ctx r.thks).isSome

/-- 01 R16: requests of a context on some thickets cannot be served: the board is cut, or a thicket of the model has a unit in
Quarantine. -/
def boardDown (s : State) (c : Nat) (thks : List Nat) (board : Bool) : Bool :=
  board && match servedBy s c thks with
    | some m => boardCut s || (maskThks m.mask).any (thkQuar s)
    | none => false

/-- 01 R16: every request in flight on a board that is down completes with 0x0703: its serving runs end. -/
def endServing (s : State) : State :=
  (s.fab.runs.filter fun r => boardDown s r.ctx r.thks r.board).foldl (abortRun 0x0703) s

/-- Why a launch is refused at once: a dead or foreign program, a thicket outside its mask, a count outside its limits, a board
flag that the program does not share, or a new request on a board that is down (01 R16). -/
def launchFault (s : State) (c : Nat) (l : Launch) : Option (Nat × Nat) :=
  match useObj s c l.prog 2 with
  | .error e => some e
  | .ok o =>
    match o.kind with
    | .prog p =>
      let set := if l.thks = 0 then p.mask else l.thks
      if o.ctx ≠ c then some (0x0202, 0)
      else if set &&& ~~~p.mask ≠ 0 then some (0x0105, 0x28)
      else if (maskThks set).length < p.minT ∨ p.maxT < (maskThks set).length then some (0x0105, 0x28)
      else if l.board ≠ p.board then some (0x0105, 0x02)
      else if boardDown s c (maskThks set) l.board then some (0x0703, abortDetail s)
      else none
    | _ => some (0x0403, 0)

/-- A run is queued (09 Table 9.13); it becomes ready after every run queued before it. -/
def queueRun (c : Nat) (l : Launch) (src : RunSrc) (tag : Nat) (irq : Bool) (s : State) : State :=
  let mask := ((progOf s l.prog).map Prog.mask).getD 0
  let r : Run := { id := s.fab.nextRun, st := 0, ctx := c, prog := l.prog, thks := maskThks (if l.thks = 0 then mask else l.thks)
                   argAddr := l.arg, argLen := l.argLen, args := [], pins := [], board := l.board, boardId := l.boardId, src := src
                   tag := tag, irq := irq, order := s.fab.nextRun, retired := 0, stalled := false }
  onFab (fun f => { f with runs := f.runs ++ [r], nextRun := f.nextRun + 1 }) s

/-- The launch that a descriptor spells (09 Table 9.12). -/
def launchOf (b : List Byte) : Launch :=
  { prog := field b 0x10 8, arg := field b 0x18 8, argLen := field b 0x20 4, thks := BitVec.ofNat 64 (field b 0x28 8)
    board := bitOf (field b 2 2) 4, boardId := field b 0x24 4 }

/-- Why a launch descriptor is malformed (06 R119, 09 Table 9.12). -/
def launchMalformed (b : List Byte) : Option (Nat × Nat) :=
  if descOp b ≠ 1 ∧ descOp b ≠ 3 then some (0x0102, 0)
  else match descRsvd b 0x1A with
    | some off => some (0x0104, off)
    | none =>
      if descOp b = 3 then none
      else if 4096 < field b 0x20 4 ∨ field b 0x20 4 % 8 ≠ 0 then some (0x0105, 0x20)
      else if !bitOf (field b 2 2) 4 && field b 0x24 4 != 0 then some (0x0105, 0x24)
      else none

/-- A queue that has no run of its own. -/
def noRun (s : State) (q : Nat) : Bool := s.fab.runs.all fun r => match r.src with | .launch x => x != q | .prog _ => true

/-- 09 R185: a launch descriptor is fetched and, once its wait is met, its run is queued. -/
def launchStep (q : Nat) (s : State) : State :=
  let s := fetchDesc 2 launchMalformed (· == 1) q s
  match runnable s q 2 with
  | some b =>
    if descOp b = 1 && noRun s q then
      match launchFault s (getQ s q).ctx (launchOf b) with
      | some e => finishDesc q e.1 e.2 0 0 s
      | none => queueRun (getQ s q).ctx (launchOf b) (.launch q) (field b 8 4) (bitOf (field b 2 2) 3) s
    else s
  | none => s

/-- 09 R185. -/
def execLaunch (q : Nat) (s : State) : Res := .next (launchStep q s)

/-- 09 R185, Table 9.12: a marker completes without a run. -/
def execLaunchMarker (q : Nat) (s : State) : Res :=
  .next (let s := fetchDesc 2 launchMalformed (· == 3) q s
         match runnable s q 2 with
         | some b => if descOp b = 3 then finishDesc q 0 0 0 0 s else s
         | none => s)

/-- 09 R185: PROG_RUN is a launch whose fields come from its parameters. It gives no argument length: address 0 stands for no
argument block, any other for 4,096 bytes (log 29). -/
def progRun : Body := fun q p s =>
  let l : Launch := { prog := p.w 0, arg := p.w 1, argLen := if p.w 1 = 0 then 0 else 4096, thks := 0, board := false, boardId := 0 }
  match launchFault s p.ctx l with
  | some e => refuse s e.1 (if e.1 = 0x0105 then paramAt 0 0 else e.2)
  | none => (.later, queueRun p.ctx l (.prog q) p.tag (bitOf p.flags 3) s)

/-- 09 R185. -/
def execProgRun (q : QRef) (s : State) : Res := .next (runCmd 0x0502 progRun q s)

/-! The start of a run. -/

/-- 09 R185, R191: a thicket on which a run may start: its Wrens are free, and nothing of it is in Quarantine. -/
def thkFreeNow (s : State) (t : Nat) : Bool :=
  !quarantined s (unitId 2 t) && (List.range 24).all fun j => (getWren s (24 * t + j)).st == 0 && !quarantined s (unitId 1 (24 * t + j)) && !quarantined s (unitId 4 (24 * t + j))

/-- 09 R185: no run that became ready earlier waits for a thicket of this one. -/
def firstInLine (s : State) (r : Run) : Bool :=
  s.fab.runs.all fun x => !(x.st == 0 && decide (x.order < r.order) && x.thks.any r.thks.contains)

/-- 09 R185: the conditions for a queued run to start. -/
def mayStart (s : State) (r : Run) : Bool :=
  r.st == 0 && (s.pwr.st == .idle || s.pwr.st == .run) && r.thks.all (thkFreeNow s) && firstInLine s r && ctxActive s r.ctx
    && (match r.src with
        | .launch q => (getQ s q).fault.isNone
        | .prog _ => true)

/-- 09 R186: the handles that an argument block pins, or the status that refuses it. -/
def pinsOf (s : State) (c : Nat) (args : List Byte) : Except (Nat × Nat) (List Nat) :=
  let p := field args 0 2
  if 64 < p then .error (0x0105, Config.statusDetail 0x0105)
  else
    let hs := (List.range p).map fun i => word args (i + 1)
    match hs.findSome? fun h => match useObj s c h 1 with | .error e => some e | .ok _ => none with
    | some e => .error e
    | none => .ok hs

/-- 09 R174: a Wren at the start of a run. -/
def startWren (r : Run) (slot w : Nat) (s : State) : State :=
  let s := modWren w (fun v => { v with st := 1, run := some r.id, block := 0, blockedAt := none, ix := 0, loops := [], sr := []
                                        async := [], pushed := [], ended := false, exitWord := 0 }) s
  setSr w 4 slot (setSr w 3 (w % 24) (setSr w 2 (r.thks.idxOf (w / 24)) (setSr w 1 (r.widx w) s)))

/-- The chip slot on the board (09 R174). -/
def boardSlot (s : State) : Nat := chipNo s % 8

/-- A run starts with its argument block copied. -/
def startWith (r : Run) (args : List Byte) (pins : List Nat) (s : State) : State :=
  let r' := { r with st := 1, args := args, pins := pins, order := s.fab.nextRun }
  let s := onFab (fun f => { f with nextRun := f.nextRun + 1 }) (modRun r.id (fun _ => r') s)
  let s := (r.prog :: pins).foldl (fun s h => takeRef h s) s
  let s := r.wrens.foldl (fun s w => startWren r' (boardSlot s) w s) s
  r.thks.foldl (fun s t => count r.ctx 2 t 0x08 1 s) s

/-- A queued run that cannot start completes its entry and is gone. -/
def refuseRun (r : Run) (status detail : Nat) (s : State) : State :=
  completeRun r status detail 0 0 (onFab (fun f => { f with runs := f.runs.filter fun x => x.id != r.id }) s)

/-- 09 R185, R186: a run that may start copies its arguments and starts; a NOT_PRESENT page stalls its launch queue (06 R114). -/
def startRun (r : Run) (s : State) : State :=
  match useObj s r.ctx r.prog 2 with
  | .error e => refuseRun r e.1 e.2 s
  | .ok _ =>
    match dvaRead s r.ctx r.argAddr r.argLen .read false with
    | .error (.cause 1 a) =>
      (match r.src with
       | .launch q => stallQueue q .read a s
       | .prog _ => refuseRun r 0x0204 1 s)
    | .error e => refuseRun r (accStatus .read e).1 (accStatus .read e).2 s
    | .ok args =>
      match pinsOf s r.ctx args with
      | .error e => refuseRun r e.1 e.2 s
      | .ok pins => startWith r args pins s

/-- 09 R185; 03 R39: in Idle the chip first goes to Run. -/
def execRunStart (id : Nat) (s : State) : Res :=
  .next (match getRun? s id with
    | some r =>
      if !mayStart s r then s
      else if s.pwr.st = .run then startRun r s
      else if s.pwr.target = none then onPwr (fun p => { p with target := some .run }) s
      else s
    | none => s)

/-! The stall watchdog (09 R189, R190). -/

/-- 09 R189: a Wren blocked in SEMWAIT, BAR or RSV for 10 ms. -/
def longBlocked (s : State) (w : Nat) : Bool :=
  let v := getWren s w
  (v.block == 1 || v.block == 2 || v.block == 3)
    && (match v.blockedAt with | some t => decide (t + 10000000 ≤ s.lark.time) | none => false)

/-- 09 R189. -/
def execRunStalled (id : Nat) (s : State) : Res :=
  .next (match getRun? s id with
    | some r =>
      if r.st = 1 ∧ (r.wrens.filter fun w => !(getWren s w).ended).all (longBlocked s) then modRun id (fun r => { r with stalled := true }) s
      else s
    | none => s)

/-- The instance that a Wren blocked in RSV awaits: its kind and number. -/
def awaits (s : State) (w : Nat) : Option (Nat × Nat) :=
  if (getWren s w).block = 3 then (siteOf s w).map fun x => (bits x.insn 30 6, x.sr s 20) else none

/-- The run that holds an instance. -/
def holderOf (s : State) (e : Nat × Nat) : Option Nat :=
  (tabGet Inst.init (if e.1 = 0 then s.fab.chf else s.fab.gcr) e.2).holder

/-- 09 R190: the runs that one run of a set brings into it. -/
def stallNext (s : State) (r : Run) : List Nat :=
  (r.wrens.filterMap fun w => (awaits s w).bind (holderOf s))
    ++ (if r.wrens.any fun w => (getWren s w).block = 1 then (s.fab.runs.filter fun x => x.st == 1 && x.ctx == r.ctx).map Run.id else [])

/-- 09 R190: the set grows until it stops; the number bounds the growth. -/
def stallSet (s : State) : Nat → List Nat → List Nat
  | 0, set => set
  | k + 1, set =>
    let more := ((s.fab.runs.filter fun r => set.contains r.id).flatMap (stallNext s)).filter fun x => !set.contains x
    if more.isEmpty then set else stallSet s k (set ++ more.eraseDups)

/-- 09 R190: whether a run is younger than another: its context was created later or, within one context, it started later. -/
def younger (s : State) (a b : Run) : Bool :=
  let ca := (getCtx s a.ctx).order
  let cb := (getCtx s b.ctx).order
  decide (cb < ca) || (ca == cb && decide (b.order < a.order))

/-- The youngest of some runs. -/
def youngest (s : State) : List Run → Option Run
  | [] => none
  | r :: rs => match youngest s rs with | none => some r | some x => some (if younger s r x then r else x)

/-- 09 R190: the run to fault for a stalled run, if every run of its set is stalled. -/
def stallVictim (s : State) (r : Run) : Option Run :=
  let set := stallSet s (s.fab.runs.length + 1) [r.id]
  let rs := s.fab.runs.filter fun x => set.contains x.id
  if rs.all Run.stalled then youngest s rs else none

/-- A stalled run is faulted at its lowest blocked Wren, and event 0x0708 raised (09 R190). -/
def faultStalled (s : State) (r : Run) : State :=
  let w := ((r.wrens.find? fun w => !(getWren s w).ended)).getD (r.wrens.headD 0)
  raisePlain 0x0708 (some r.ctx) 0xFFFF (faultRun r w (getWren s w).ix 0x0708 (abortDetail s) none s)

/-- 09 R190: the examination at a whole multiple of 1,000,000 ns. -/
def execStallExamination (s : State) : Res :=
  .next (if powered s ∧ s.lark.time % 1000000 < 7 then
    (((s.fab.runs.filter Run.stalled).filterMap (stallVictim s)).eraseDups).foldl faultStalled s
  else s)

end Sys2Proof.Machine
end

