-- ==== Sys2Proof/Machine/Key.lean ====
section
/-! DEFINITION. The Nuthatch key store (08): slots and roots (R153, R154), the check at each use (R155), blobs (R156, R157), derivation (R158), staged replacement (R159 to R161), floors and the update authority (R162 to R165), and the opening of a channel (07 R135, R136). -/

namespace Sys2Proof.Machine

/-! Slots. -/

/-- 08 R153, 07 Table 7.4: the slots of a partition. -/
def partSlots (s : State) (p : Nat) : List Nat := if s.host.shared then (List.range 32).map (32 * p + ·) else List.range 256

/-- The root slots of a partition: Stable, then Measured. -/
def rootSlots (s : State) (p : Nat) : Nat × Nat := if s.host.shared then (32 * p, 32 * p + 1) else (0, 1)

/-- A slot that is a root slot of its partition. -/
def isRootSlot (s : State) (n : Nat) : Bool := if s.host.shared then n % 32 < 2 else n < 2

/-- 08 R154: the attributes of a root: SECRET, derive, unwrap and wrap. -/
def rootAttr (measured : Bool) : BitVec 64 := BitVec.ofNat 64 (2 * 2 ^ 20 + 2 ^ 10 + 2 ^ 12 + 2 ^ 13 + b2n measured * 2 ^ 17)

/-- 08 R154: a root of an owner from a device key. -/
def rootKey (dk owner : List Byte) (measured : Bool) : Key :=
  let m := hkdfExpand (hkdfExtract (ascii "KL5-ROOT-V1") dk) owner 32
  { attr := rootAttr measured, id := hkdfExpand m (ascii "key-id") 16, version := 0, material := m }

/-- 08 R154: both root slots of a partition are filled, for its bound owner or 48 zero bytes. -/
def fillRoots (p : Nat) (s : State) : State :=
  let owner := ((getPart s p).owner).getD (zeros 48)
  let r := rootSlots s p
  let v (k : Key) : KSlot := { KSlot.init with st := 1, root := true, key := k }
  putSlotK r.2 (v (rootKey s.nut.msKey owner true)) (putSlotK r.1 (v (rootKey s.nut.stKey owner false)) s)

/-- 08 R154: both root slots of a partition are emptied. -/
def dropRoots (p : Nat) (s : State) : State :=
  putSlotK (rootSlots s p).2 KSlot.init (putSlotK (rootSlots s p).1 KSlot.init s)

/-- A KEY_COMMIT that waits on a slot completes: with 0x0403 where the slot is emptied under it (05 R93). -/
def releaseCommit (by_ : Option QRef) (d : Done) (s : State) : State :=
  match by_ with
  | some q => finish q d s
  | none => s

/-- 08 R153: the slots of a context are emptied. -/
def dropCtxKeys (c : Nat) (s : State) : State :=
  let mine := s.nut.slots.filter fun e => !e.2.root && e.2.ctx == c && e.2.st != 0
  mine.foldl (fun s e => releaseCommit e.2.by_ (Done.fail 0x0403 0) (putSlotK e.1 KSlot.init s)) s

/-- The slot that a command of context `c` names: 0x0202 outside the scope of R101, 0x0401 for an empty root slot (R154). -/
def nameSlot (s : State) (c n : Nat) : Except (Nat × Nat) KSlot :=
  let v := getSlotK s n
  if c ≠ 0 ∧ n ∉ partSlots s (getCtx s c).part then .error (0x0202, 0)
  else if isRootSlot s n then (if v.st = 0 then .error (0x0401, 0) else .ok v)
  else if v.st ≠ 0 ∧ !inScope s c v.ctx then .error (0x0202, 0)
  else .ok v

/-- 08 R155: the check that Nuthatch makes at each use: engine bit and usage bit, ALG, and the key identifier that the user
bound to, if it bound to one. -/
def keyUse (v : KSlot) (id : Option (List Byte)) (need : BitVec 64) (algs : List Nat) : Except (Nat × Nat) Key :=
  let alg := bits v.key.attr.toNat 20 4
  if v.st = 0 ∨ id.any (· != v.key.id) then .error (0x0403, v.st)
  else if v.key.attr &&& need ≠ need then .error (0x0203, (need &&& ~~~v.key.attr).toNat)
  else if alg ∉ algs then .error (0x0203, alg * 2 ^ 20)
  else .ok v.key

/-- 08 R153: the lowest Empty slot of a context's partition; root slots are never taken. -/
def freeSlot (s : State) (c : Nat) : Option Nat :=
  (partSlots s (getCtx s c).part).find? fun n => (getSlotK s n).st == 0 && !isRootSlot s n

/-- A key enters a slot. -/
def takeSlot (n c : Nat) (k : Key) (s : State) : State := putSlotK n { KSlot.init with st := 1, ctx := c, key := k } s

/-- 08 Table 8.1: the listed bits of an attribute bitmap. -/
def attrMask : Nat := 0xF33F3F

/-- 08 Table 8.2: the material length of an algorithm; 0 for an unlisted code. -/
def algLen : Nat → Nat
  | 1 => 32 | 2 => 32 | 3 => 32 | 4 => 48 | 5 => 64 | 6 => 96 | 7 => 32 | _ => 0

/-- 08, Terms: the floor of a key identifier. -/
def floorOf (u : Nut) (id : List Byte) : Nat := ((u.floors.find? fun f => f.1 == id).map Prod.snd).getD 0

/-- 08 R162: what POLICY_LOST refuses. -/
def policyRefusal (s : State) : Reply × State := refuse s 0x0409 (devState 5 (nutStatus s.nut))

/-! Blobs (08 Tables 8.3, 8.4). -/

/-- The wrapping key of a kind 0x01 blob. -/
def wrapKey (wrapper : List Byte) : List Byte := hkdfExpand wrapper (ascii "blob-wrap") 32

/-- 08 Table 8.4, check 4: the key that opens a blob, and whether the result inherits MEASURED. -/
def blobKey (s : State) (c : Nat) (b : List Byte) : Except (Nat × Nat) (List Byte × Bool) :=
  let kind := field b 6 1
  if kind = 1 then
    match s.nut.slots.find? fun e => e.2.st != 0 && e.2.key.id == sub b 0x20 16 && e.2.key.attr.getLsbD 12
        && (if e.2.root then (partSlots s (getCtx s c).part).contains e.1 else e.2.ctx == c) with
    | none => .error (0x0203, 4)
    | some e => .ok (wrapKey e.2.key.material, e.2.key.attr.getLsbD 17)
  else if kind = 2 then
    if (getCtx s c).chan.st = 2 then .ok ((getCtx s c).chan.kImp, false) else .error (0x0401, 4)
  else if s.host.confidential then .error (0x0201, 4) else .ok ([], false)

/-- 08 Table 8.4, check 2. -/
def blobForm (b : List Byte) (n : Nat) : Option (Nat × Nat) :=
  let kind := field b 6 1
  let attr := field b 8 8
  if field b 0 4 ≠ 0x4B4C4B42 ∨ field b 4 2 ≠ 1 ∨ kind < 1 ∨ 3 < kind ∨ algLen (bits attr 20 4) ≠ n ∨ n = 0 then some (0x0105, 2)
  else if field b 7 1 ≠ 0 ∨ (sub b 0x44 60).any (· != 0) ∨ attr &&& (2 ^ 64 - 1 - attrMask) ≠ 0
       ∨ (kind ≠ 1 ∧ (sub b 0x20 16).any (· != 0)) ∨ (kind = 3 ∧ (sub b (0x80 + n) 16).any (· != 0)) then some (0x0104, 2)
  else if bitOf attr 17 then some (0x0105, 3)
  else none

/-- 08 R156, Table 8.4: checks 1 to 6 of a blob, in order; the key it carries. -/
def openBlob (s : State) (c len : Nat) (b : List Byte) : Except (Nat × Nat) Key :=
  let n := field b 0x34 4
  if len ≠ 0x80 + n + 16 then .error (0x0103, 1)
  else match blobForm b n with
    | some e => .error e
    | none =>
      match blobKey s c b with
      | .error e => .error e
      | .ok (k, meas) =>
        let ct := sub b 0x80 n
        let key (m : List Byte) : Key :=
          { attr := BitVec.ofNat 64 (field b 8 8 + b2n meas * 2 ^ 17), id := sub b 0x10 16, version := field b 0x30 4, material := m }
        match (if field b 6 1 = 3 then some ct else gcmOpen k (sub b 0x38 12) (sub b 0 0x80) ct (sub b (0x80 + n) 16)) with
        | none => .error (0x0502, 5)
        | some m => if field b 0x30 4 < floorOf s.nut (sub b 0x10 16) then .error (0x0504, 6) else .ok (key m)

/-- A context already holds a live key of this identifier. -/
def holdsKey (s : State) (c : Nat) (id : List Byte) : Bool :=
  s.nut.slots.any fun e => e.2.st != 0 && !e.2.root && e.2.ctx == c && e.2.key.id == id

/-! Channels (07 R135, R136). -/

/-- A fresh pair of X25519 and ML-KEM-768 keys. -/
def freshPair (ch : Channel) (s : State) : Channel × State :=
  let x := drawBytes 32 s
  let d := drawBytes 64 x.2
  ({ ch with xPriv := x.1, xPub := x25519Pub x.1, dk := d.1, ek := mlkemEk d.1 }, d.2)

/-- 07 R136: the channel secret `ch` of a channel-open message. -/
def channelSecret (s : State) (c gen : Nat) (m : List Byte) : List Byte :=
  let ch := (getCtx s c).chan
  hkdfExtract (ascii "KL5-CHANNEL-V1" ++ s.boot.deviceId ++ natLE 2 c ++ natLE 8 gen)
    (mlkemDecaps ch.dk (sub m 0x60 1088) ++ x25519 ch.xPriv (sub m 0x40 32))

/-- 07 R135: the checks of a channel-open message, in order. -/
def channelFault (s : State) (m : List Byte) : Option (Nat × Nat) :=
  let c := field m 6 2 % 4096
  let ch := channelSecret s c (field m 8 8) m
  if !s.host.confidential then some (0x0409, devState 4 (tenancyWord s.host))
  else if !ctxActive s c || c == 0 then some (0x0403, 0)
  else if field m 8 8 ≠ (getCtx s c).chan.gen + 1 then some (0x0504, 3)
  else if hmac (hkdfExpand ch (ascii "confirm") 48) (sub m 0 0x4A0) ≠ sub m 0x4A0 48 then some (0x0502, 4)
  else if (getPart s (getCtx s c).part).owner.any (· != sub m 0x10 48) then some (0x0202, 0)
  else none

/-- 07 R135, R136, R146: a channel opens. -/
def openChannel (m : List Byte) (s : State) : State :=
  let c := field m 6 2 % 4096
  let k := channelSecret s c (field m 8 8) m
  let key (l : String) := hkdfExpand k (ascii l) 32
  let ch : Channel := { (getCtx s c).chan with
    st := 2, gen := field m 8 8, kCmd := key "kcp-in", kRes := key "kcp-out", kDin := key "dma-in", kDout := key "dma-out"
    kImp := key "key-import", tagHi := none, tags := [], extHi := none, exts := [], extOut := 0, sealedCnt := 0
    lastOpen := sha384 m }
  let r := freshPair ch s
  let s := modCtx c (fun v => { v with chan := r.1 }) r.2
  let p := (getCtx s c).part
  if (getPart s p).owner.isSome then s else fillRoots p (putPart p { getPart s p with owner := some (sub m 0x10 48) } s)

/-- 07 R135: KEY_LOAD of a channel-open message. -/
def channelOpen (c len : Nat) (m : List Byte) (s : State) : Reply × State :=
  if len ≠ 1232 then refuse s 0x0103 (paramAt 1 0)
  else if field m 4 2 ≠ 1 then refuse s 0x0105 (paramAt 0 0)
  else if field m 6 2 / 4096 ≠ 0 then refuse s 0x0104 (paramAt 0 0)
  else if c ≠ 0 ∧ c ≠ field m 6 2 % 4096 then refuse s 0x0202 0
  else match channelFault s m with
    | some e => refuse s e.1 e.2
    | none => (.done (Done.res 0xFF 0), openChannel m s)

/-! Loading and staging. -/

/-- The blob that a command names is read. -/
def withBlob (c a len : Nat) (s : State) (k : List Byte → Reply × State) : Reply × State :=
  match dvaRead s c a len .read false with
  | .error e => refuse s (accStatus .read e).1 (accStatus .read e).2
  | .ok b => k b

/-- 08 R156: KEY_LOAD. -/
def keyLoad : Body := fun _ p s =>
  let len := bits (p.w 1) 0 16
  withBlob p.ctx (p.w 0) len s fun b =>
    if 4 ≤ len ∧ field b 0 4 = 0x4B4C434F then channelOpen p.ctx len b s
    else if s.nut.policyLost then policyRefusal s
    else match openBlob s p.ctx len b with
      | .error e => refuse s e.1 e.2
      | .ok k =>
        if holdsKey s p.ctx k.id then refuse s 0x0401 7
        else match freeSlot s p.ctx with
          | none => refuse s 0x0304 (partSlots s (getCtx s p.ctx).part).length
          | some n => (.done (Done.res n 0), takeSlot n p.ctx k s)

/-- 08 R156. -/
def execKeyLoad (q : QRef) (s : State) : Res := .next (runCmd 0x0300 (onUnit (unitId 7 0) keyLoad) q s)

/-- 08 R159: KEY_STAGE. -/
def keyStage : Body := fun _ p s =>
  let n := bits (p.w 0) 0 8
  let len := bits (p.w 2) 0 16
  match nameSlot s p.ctx n with
  | .error e => refuse s e.1 e.2
  | .ok v =>
    if v.root then refuse s 0x0201 0
    else if v.st ≠ 1 then refuse s 0x0401 v.st
    else if s.nut.policyLost then policyRefusal s
    else withBlob p.ctx (p.w 1) len s fun b =>
      match openBlob s p.ctx len b with
      | .error e => refuse s e.1 e.2
      | .ok k =>
        if k.id ≠ v.key.id ∨ k.attr ≠ v.key.attr then refuse s 0x0203 (k.attr ^^^ v.key.attr).toNat
        else if k.version ≤ v.key.version then refuse s 0x0504 6
        else (.done Done.ok, putSlotK n { v with st := 2, staged := some k } s)

/-- 08 R159. -/
def execKeyStage (q : QRef) (s : State) : Res := .next (runCmd 0x0304 (onUnit (unitId 7 0) keyStage) q s)

/-! Commit and evict. -/

/-- 08 R160: a slot switches to its staged key; the old key stays with the operations that hold it. -/
def switchKey (n : Nat) (by_ : Option QRef) (s : State) : State :=
  let v := getSlotK s n
  match v.staged with
  | some k => putSlotK n { v with st := 3, key := k, staged := none, old := some v.key, by_ := by_ } s
  | none => s

/-- 08 R161: a slot is emptied. -/
def evictSlot (n : Nat) (s : State) : State := putSlotK n { KSlot.init with evicted := true } s

/-- 08 R160: KEY_COMMIT switches to the staged key, and completes once the old one is released, or abandons the staged key. -/
def keyCommit : Body := fun q p s =>
  let n := bits (p.w 0) 0 8
  match nameSlot s p.ctx n with
  | .error e => refuse s e.1 e.2
  | .ok v =>
    if v.st = 0 ∧ v.evicted then refuse s 0x0403 0
    else if v.st ≠ 2 then refuse s 0x0401 v.st
    else if bitOf (p.w 0) 8 then (.done Done.ok, putSlotK n { v with st := 1, staged := none } s)
    else (.later, switchKey n (some q) s)

/-- 08 R160. -/
def execKeyCommit (q : QRef) (s : State) : Res := .next (runCmd 0x0305 (onUnit (unitId 7 0) keyCommit) q s)

/-- 08 R160, Table 8.5: the last engine releases the old key: it is scrubbed, the slot is Live, and KEY_COMMIT completes. -/
def execKeyOldReleased (n : Nat) (s : State) : Res :=
  .next (let v := getSlotK s n
    if v.st = 3 then releaseCommit v.by_ Done.ok (putSlotK n { v with st := 1, old := none, by_ := none } s) else s)

/-- 08 R161: KEY_EVICT. On a slot that a commit is switching it runs after the commit (R93). -/
def keyEvict : Body := fun _ p s =>
  let n := bits (p.w 0) 0 8
  match nameSlot s p.ctx n with
  | .error e => refuse s e.1 e.2
  | .ok v =>
    if v.root then refuse s 0x0201 0
    else if v.st = 0 then refuse s 0x0403 0
    else if v.st = 3 then (.wait, s)
    else (.done Done.ok, evictSlot n s)

/-- 08 R161. -/
def execKeyEvict (q : QRef) (s : State) : Res := .next (runCmd 0x0301 (onUnit (unitId 7 0) keyEvict) q s)

/-- 08 R155, Table 8.5: KEY_QUERY. -/
def keyQuery : Body := fun _ p s =>
  match nameSlot s p.ctx (bits (p.w 0) 0 8) with
  | .error e => refuse s e.1 e.2
  | .ok v => (.done (Done.res v.key.attr.toNat v.st), s)

/-- 08 R155. -/
def execKeyQuery (q : QRef) (s : State) : Res := .next (runCmd 0x0307 (onUnit (unitId 7 0) keyQuery) q s)

/-! Derivation and wrapping. -/

/-- 08 R158: the attribute bits that a derivation misses. -/
def deriveMissing (parent attr : Nat) : Nat :=
  let need := 2 ^ 10 + (attr &&& (0x3F + 0x3B00)) + (if bitOf attr 16 then 2 ^ 16 else 0)
  (need &&& (2 ^ 64 - 1 - parent)) + (if bits attr 20 4 = 1 ∨ bits attr 20 4 = 2 then 0 else bits attr 20 4 * 2 ^ 20)

/-- 08 R158: the child key of a parent. -/
def deriveKey (ms : List Byte) (parent : Key) (measured : Bool) (attr label : List Byte) : Key :=
  let prk := hkdfExtract (if measured then ms else ascii "KL5-STABLE-V1") parent.material
  let a := BitVec.ofNat 64 (leNat attr) &&& ~~~BitVec.ofNat 64 (2 ^ 17)
  { attr := if measured || parent.attr.getLsbD 17 then a ||| BitVec.ofNat 64 (2 ^ 17) else a
    id := hkdfExpand prk (ascii "KL5-KEYID-V1" ++ attr ++ label) 16, version := 0
    material := hkdfExpand prk (ascii "KL5-DERIVE-V1" ++ attr ++ label) 32 }

/-- 08 R158: KEY_DERIVE. -/
def keyDerive : Body := fun _ p s =>
  match nameSlot s p.ctx (bits (p.w 0) 0 8) with
  | .error e => refuse s e.1 e.2
  | .ok v =>
    match rsvdWord 1 attrMask (p.w 1) with
    | some off => refuse s 0x0104 off
    | none =>
      if v.st = 0 then refuse s 0x0403 0
      else if deriveMissing v.key.attr.toNat (p.w 1) ≠ 0 then refuse s 0x0203 (deriveMissing v.key.attr.toNat (p.w 1))
      else match freeSlot s p.ctx with
        | none => refuse s 0x0304 (partSlots s (getCtx s p.ctx).part).length
        | some n =>
          (.done (Done.res n 0),
           takeSlot n p.ctx (deriveKey s.nut.msKey v.key (bitOf (p.w 0) 8) (sub p.params 8 8) (sub p.params 16 64)) s)

/-- 08 R158. -/
def execKeyDerive (q : QRef) (s : State) : Res := .next (runCmd 0x0302 (onUnit (unitId 7 0) keyDerive) q s)

/-- 08 Table 8.3, R157: the kind 0x01 blob of a key under a wrapper. -/
def wrapBlob (k w : Key) (nonce : List Byte) : List Byte :=
  let hdr := natLE 4 0x4B4C4B42 ++ natLE 2 1 ++ natLE 1 1 ++ natLE 1 0 ++ natLE 8 k.attr.toNat ++ k.id ++ w.id ++ natLE 4 k.version
    ++ natLE 4 k.material.length ++ nonce ++ zeros 60
  let ct := gcmCrypt (wrapKey w.material) nonce k.material
  hdr ++ ct ++ gcmTag (wrapKey w.material) nonce hdr ct

/-- 08 R157: KEY_WRAP. -/
def keyWrap : Body := fun q p s =>
  match nameSlot s p.ctx (bits (p.w 0) 0 8), nameSlot s p.ctx (bits (p.w 0) 8 8) with
  | .error e, _ => refuse s e.1 e.2
  | _, .error e => refuse s e.1 e.2
  | .ok v, .ok w =>
    if v.root then refuse s 0x0201 0
    else if v.st = 0 ∨ w.st = 0 then refuse s 0x0403 0
    else if !w.key.attr.getLsbD 13 then refuse s 0x0203 (2 ^ 13)
    else if !v.key.attr.getLsbD 16 then refuse s 0x0203 (2 ^ 16)
    else withBuf (0x90 + v.key.material.length) q p s
      (let n := drawBytes 12 s
       (.done { Done.ok with data := wrapBlob v.key w.key n.1 }, n.2))

/-- 08 R157. -/
def execKeyWrap (q : QRef) (s : State) : Res := .next (runCmd 0x0303 (onUnit (unitId 7 0) keyWrap) q s)

/-! The update message (08 R163 to R165). -/

/-- FIPS 204: the message that ML-DSA signs in pure mode with a context string. -/
def ctxMsg (label : String) (m : List Byte) : List Byte := natLE 1 0 ++ natLE 1 label.length ++ ascii label ++ m

/-- 08 Table 8.6: the floor entries of an update message applied in order. -/
def applyFloors (m : List Byte) : Nat → List (List Byte × Nat) → List (List Byte × Nat)
  | 0, t => t
  | n + 1, t =>
    let t := applyFloors m n t
    let e := sub m (0x860 + 24 * n) 24
    let rest := t.filter fun f => f.1 != sub e 0 16
    if field e 20 1 = 1 then rest ++ [(sub e 0 16, field e 16 4)] else rest

/-- 08 R163, step 1. -/
def updateForm (len : Nat) (m : List Byte) : Option (Nat × Nat) :=
  let n := field m 6 2
  let rsvd := sub m 0x851 15 ++ sub m (0x860 + 24 * n + 3309) 3 ++ (List.range n).flatMap fun i => sub m (0x860 + 24 * i + 21) 3
  if len ≠ 0x860 + 24 * n + 3408 then some (0x0103, paramAt 1 0)
  else if field m 0 4 ≠ 0x4B4C4B55 ∨ field m 4 2 ≠ 1 then some (0x0105, paramAt 0 0)
  else if bits (field m 0x1C 4) 1 31 ≠ 0 ∨ rsvd.any (· != 0) then some (0x0104, paramAt 0 0)
  else if n = 0 ∨ 64 < n ∨ (List.range n).any (fun i => let o := field m (0x860 + 24 * i + 20) 1; o != 1 && o != 2) then
    some (0x0105, paramAt 0 0)
  else none

/-- The floor table that an update message leaves. -/
def newFloors (u : Nut) (m : List Byte) : List (List Byte × Nat) :=
  applyFloors m (field m 6 2) (if bitOf (field m 0x1C 4) 0 then [] else u.floors)

/-- 08 R163 steps 2 to 6, R165: the first failure of an update message. -/
def updateFault (s : State) (m : List Byte) : Option (Nat × Nat) :=
  let l := 0x860 + 24 * field m 6 2
  let signer := sha384 (sub m 0x50 1952 ++ sub m 0x7F0 97)
  if sub m 8 16 ≠ s.boot.deviceId then some (0x0503, 2)
  else if (if s.nut.authority.isEmpty then field m 0x18 4 ≠ 1 ∨ sub m 0x20 48 ≠ signer else signer ≠ s.nut.authority) then some (0x0501, 3)
  else if !(Config.mldsaOk (sub m 0x50 1952) (ctxMsg "KL5-UPDATE" (sub m 0 l)) (sub m l 3309))
       || !(Config.p384Ok (sub m 0x7F0 97) (sub m 0 l) (sub m (l + 3312) 96)) then some (0x0501, 4)
  else if field m 0x18 4 ≤ s.nut.updCnt then some (0x0504, 5)
  else if 1024 < (newFloors s.nut m).length then some (0x0303, 1024)
  else none

/-- 08 R164 step 1: the policy copy not in use is written. -/
def writePolicy (m : List Byte) (s : State) : State :=
  let auth := if (sub m 0x20 48).all (· == 0) then s.nut.authority else sub m 0x20 48
  let c : PolicyCopy := { authority := auth, counter := field m 0x18 4, floors := newFloors s.nut m, mac := [] }
  let c := { c with mac := policyMac s.nut.stKey c }
  let sel := !s.nut.policySel
  let s := onBoot (fun b => { b with flash := if sel then { b.flash with policy1 := c } else { b.flash with policy0 := c } }) s
  onNut (fun u => { u with policySel := sel, policyLost := false, authority := c.authority, floors := c.floors, updCnt := c.counter }) s

/-- 08 R164 step 4: a slot below its floor is evicted, or switches to a staged key that meets it. -/
def enforceFloor (s : State) (n : Nat) : State :=
  let v := getSlotK s n
  let f := floorOf s.nut v.key.id
  if v.st = 0 ∨ v.root ∨ f ≤ v.key.version then s
  else if v.staged.any fun k => decide (f ≤ k.version) then switchKey n none s
  else releaseCommit v.by_ (Done.fail 0x0403 0) (evictSlot n s)

/-- 08 R164: an accepted update message takes effect. -/
def acceptUpdate (m : List Byte) (s : State) : State :=
  let s := rollAdvance s.boot.floor (field m 0x18 4) (writePolicy m s)
  let s := extendOr 7 (sha384 (sub m 0 (0x860 + 24 * field m 6 2))) s
  (s.nut.slots.map Prod.fst).foldl enforceFloor s

/-- 08 R163, R165: KEY_UPDATE. -/
def keyUpdate : Body := fun _ p s =>
  let len := bits (p.w 1) 0 16
  if s.nut.authority.isEmpty ∧ p.ctx ≠ 0 then refuse s 0x0201 0
  else withBlob p.ctx (p.w 0) len s fun m =>
    match updateForm len m with
    | some e => refuse s e.1 e.2
    | none =>
      if s.nut.policyLost ∧ !bitOf (field m 0x1C 4) 0 then policyRefusal s
      else match updateFault s m with
        | some e => refuse s e.1 e.2
        | none =>
          if epochsGone s then epochRefusal s
          else if 256 ≤ s.boot.measLog.length then refuse s 0x0602 256
          else
            let s := acceptUpdate m s
            (.done (Done.res s.nut.updCnt s.boot.fuses.epoch), s)

/-- 08 R163. -/
def execKeyUpdate (q : QRef) (s : State) : Res := .next (runCmd 0x0306 (onUnit (unitId 7 0) keyUpdate) q s)

end Sys2Proof.Machine
end

