-- ==== Sys2Proof/Machine/Thrush.lean ====
section
/-! DEFINITION. Thrush (11 R214 to R219): parameter sets, word operations, transforms, MODSW, EXTRACT, SAMPLE, collective key switching and partial decryption. -/

namespace Sys2Proof.Machine

/-! Parameter sets (11 R214, Table 11.1). -/

/-- A parameter set: degree, ciphertext limbs, special limbs. -/
structure ThrSet where
  n : Nat
  l : Nat
  k : Nat

/-- 11 Table 11.1; none for a reserved code. -/
def thrSet : Nat → Option ThrSet
  | 0 => some { n := 4096, l := 2, k := 0 }
  | 1 => some { n := 8192, l := 3, k := 1 }
  | 2 => some { n := 16384, l := 6, k := 2 }
  | 3 => some { n := 32768, l := 12, k := 4 }
  | _ => none

/-- 11 R214: the primes q ≡ 1 (mod 2^17) below 2^54, in descending order. -/
def primes54 : List Nat :=
  [18014398506729473, 18014398505943041, 18014398496243713, 18014398495457281, 18014398492704769, 18014398492311553,
   18014398491918337, 18014398487068673]

/-- 11 R214: the primes q ≡ 1 (mod 2^17) below 2^55, in descending order. -/
def primes55 : List Nat :=
  [36028797014376449, 36028797013327873, 36028797010444289, 36028797005856769, 36028797001138177, 36028796997599233,
   36028796996681729, 36028796992749569, 36028796991700993, 36028796990390273, 36028796987637761, 36028796986851329,
   36028796984098817, 36028796982263809, 36028796982132737, 36028796980953089]

/-- 11 Table 11.9: THR_PRIME[p][l]; 0 beyond L + K. -/
def thrPrime (p l : Nat) : Nat :=
  match thrSet p with
  | some t => if l < t.l + t.k then (if p = 3 then primes55 else primes54).getD l 0 else 0
  | none => 0

/-- 11 Table 11.1: the bytes of a key-switching key. -/
def kswKeyBytes (t : ThrSet) : Nat := 3 * 2 * t.n * (t.l + t.k) * 8

/-! Fields and operands (09 Table 9.7; 11 R215). -/

/-- A Thrush instruction: offsets, the register named by B, parameter set and length. -/
structure ThrIns where
  a : Nat
  b : Nat
  d : Nat
  p : Nat
  t : ThrSet
  len : Nat

/-- The words of one limb. -/
def ThrIns.lw (i : ThrIns) : Nat := i.t.n / 256

/-- 11 R215: the limb of element `e` of an operand, and its prime. -/
def ThrIns.limb (i : ThrIns) (e : Nat) : Nat := e / i.t.n % (i.t.l + i.t.k)
def ThrIns.q (i : ThrIns) (e : Nat) : Nat := thrPrime i.p (i.limb e)

/-- The range of `n` words at an offset. -/
def wordRange (off n : Nat) : Nat × Nat := (off, 2048 * n)

/-- 11 R216: an operand is aligned and inside the working area. -/
def opOk (x : Site) (off n : Nat) : Bool := off % 2048 == 0 && inWork x.prog off (2048 * n)

/-- 11 R216: operands overlap only when they are identical. -/
def opsApart (r1 r2 : Nat × Nat) : Bool := r1 == r2 || !overlaps r1 r2

/-- The 64-bit elements of `n` words. -/
def readElems (s : State) (x : Site) (off n : Nat) : List Nat := (List.range (256 * n)).map fun i => leNat (memRead s.mem (wrenBase x.w + off + 8 * i) 8)

/-- Elements written at an offset. -/
def writeElems (x : Site) (off : Nat) (vs : List Nat) (s : State) : State := writeLocal x.w off (vs.flatMap (natLE 8)) s

/-- A Thrush instruction with its fields: a reserved PSET is a dynamic range breach (11 R216). -/
def thrIns (body : Site → ThrIns → State → WOut) (x : Site) (s : State) : WOut :=
  let p := bits x.insn 35 4
  match thrSet p with
  | none => rangeBreach s
  | some t => body x { a := x.sr s 20, b := x.sr s 25, d := x.sr s 30, p := p, t := t, len := bits x.insn 39 12 } s

/-- A Thrush instruction runs once no asynchronous operation stands in its way (09 R175); its lines are counted. -/
def thrRun (x : Site) (reads writes : List (Nat × Nat)) (s : State) (k : State → WOut) : WOut :=
  if interlocked (getWren s x.w) reads writes then .block 7 s
  else k (countLines x (reads.foldl (fun n r => n + r.2) 0) (writes.foldl (fun n r => n + r.2) 0) s)

/-- 11 Table 11.10: word operations, transforms and PDEC limbs. -/
def countWords (x : Site) (n : Nat) (s : State) : State := count x.run.ctx 5 0 0x31 n s
def countLimbs (x : Site) (n : Nat) (s : State) : State := count x.run.ctx 5 0 0x32 n s

/-! Word operations (11 Table 11.2). -/

/-- An elementwise operation: `f q a b d` gives the result modulo q of elements of A, B and D. -/
def thrWords (useB useD : Bool) (f : Nat → Nat → Nat → Nat → Nat) (x : Site) (i : ThrIns) (s : State) : WOut :=
  let ra := wordRange i.a i.len
  let rb := wordRange i.b i.len
  let rd := wordRange i.d i.len
  if !opOk x i.a i.len || !opOk x i.d i.len || (useB && !opOk x i.b i.len) || !opsApart ra rd
      || (useB && (!opsApart ra rb || !opsApart rb rd)) then rangeBreach s
  else thrRun x (ra :: (if useB then [rb] else []) ++ if useD then [rd] else []) [rd] s fun s =>
    let as_ := readElems s x i.a i.len
    let bs := if useB then readElems s x i.b i.len else as_
    let ds := if useD then readElems s x i.d i.len else as_
    let out := ((as_.zip (bs.zip ds)).zipIdx).map fun e => f (i.q e.2) e.1.1 e.1.2.1 e.1.2.2
    .retire (countWords x i.len (writeElems x i.d out s))

/-- 11 Table 11.2: the effects. Inputs at or above q are reduced first (R215). -/
def modAdd (q a b _ : Nat) : Nat := (a + b) % q
def modSub (q a b _ : Nat) : Nat := (a % q + (q - b % q)) % q
def modMul (q a b _ : Nat) : Nat := a % q * (b % q) % q
def modMac (q a b d : Nat) : Nat := (d % q + a % q * (b % q)) % q
def modScale (k q a _ _ : Nat) : Nat := a % q * (k % q) % q

/-- 11 R215. -/
def execMadd (w : Nat) (s : State) : Res := .next (runInsn 5 0x1 (thrIns (thrWords true false modAdd)) w s)
/-- 11 R215. -/
def execMsub (w : Nat) (s : State) : Res := .next (runInsn 5 0x2 (thrIns (thrWords true false modSub)) w s)
/-- 11 R215. -/
def execMmul (w : Nat) (s : State) : Res := .next (runInsn 5 0x3 (thrIns (thrWords true false modMul)) w s)
/-- 11 R215. -/
def execMmac (w : Nat) (s : State) : Res := .next (runInsn 5 0x4 (thrIns (thrWords true true modMac)) w s)

/-- 11 Table 11.2: MSCAL. -/
def insMscal (x : Site) (i : ThrIns) (s : State) : WOut := thrWords false false (modScale i.b) x i s

/-- 11 R215. -/
def execMscal (w : Nat) (s : State) : Res := .next (runInsn 5 0x5 (thrIns insMscal) w s)

/-- 11, Terms: Δ = ⌊Q / t⌋. -/
def thrDelta (p : Nat) (t : ThrSet) (lt : Nat) : Nat := ((List.range t.l).map (thrPrime p)).foldl (· * ·) 1 / 2 ^ lt

/-- 11 Table 11.2: D + (Δ mod q)(A mod t), with A reduced modulo q first (R215, log 36). -/
def modLift (delta lt q a _ d : Nat) : Nat := (d % q + delta % q * (a % q % 2 ^ lt)) % q

/-- 11 Table 11.2: PLIFT. -/
def insPlift (x : Site) (i : ThrIns) (s : State) : WOut :=
  let lt := i.b % 64
  if lt ≠ 32 ∧ lt ≠ 48 then rangeBreach s
  else thrWords false true (modLift (thrDelta i.p i.t lt) lt) x i s

/-- 11 R216. -/
def execPlift (w : Nat) (s : State) : Res := .next (runInsn 5 0x8 (thrIns insPlift) w s)

/-- 11 Table 11.2: SAMPLE: the values of the Thrush DRBG are free. -/
def insSample (x : Site) (i : ThrIns) (s : State) : WOut :=
  let k := i.b % 64
  if 48 < k || !opOk x i.d i.len then rangeBreach s
  else thrRun x [] [wordRange i.d i.len] s fun s =>
    let r := drawBytes (2048 * i.len) s
    .retire (countWords x i.len (writeElems x i.d ((List.range (256 * i.len)).map fun e => field r.1 (8 * e) 8 % 2 ^ k) r.2))

/-- 11 R216. -/
def execSample (w : Nat) (s : State) : Res := .next (runInsn 5 0x9 (thrIns insSample) w s)

/-! Transforms (11 R215, Table 11.2; the root of unity is a free value, log 36). -/

/-- `n` low bits of a number in reversed order. -/
def bitRev : Nat → Nat → Nat
  | 0, _ => 0
  | n + 1, v => v % 2 * 2 ^ n + bitRev n (v / 2)

/-- A power modulo q by repeated squaring; the first number bounds the exponent's bits. -/
def powMod (q : Nat) : Nat → Nat → Nat → Nat
  | 0, _, _ => 1 % q
  | f + 1, b, e => (if e % 2 = 1 then b else 1) * powMod q f (b * b % q) (e / 2) % q

/-- log2 N of a set. -/
def logN (t : ThrSet) : Nat := Nat.log2 t.n

/-- 11 R215: the forward negacyclic transform of one limb; result `j`, in bit-reversed order. -/
def nttAt (t : ThrSet) (q psi : Nat) (cs : List Nat) (j : Nat) : Nat :=
  cs.zipIdx.foldl (fun acc e => (acc + e.1 % q * powMod q 64 psi (e.2 * (2 * bitRev (logN t) j + 1) % (2 * t.n))) % q) 0

/-- 11 Table 11.2: the inverse transform of one limb, with the factor 1 / N; coefficient `i`. -/
def inttAt (t : ThrSet) (q psi : Nat) (vs : List Nat) (i : Nat) : Nat :=
  let sum := vs.zipIdx.foldl (fun acc e =>
    (acc + e.1 % q * powMod q 64 psi ((2 * t.n - i * (2 * bitRev (logN t) e.2 + 1) % (2 * t.n)) % (2 * t.n))) % q) 0
  sum * (q - (q - 1) / t.n) % q

/-- A transform of every limb of an operand. -/
def thrTransform (inv : Bool) (x : Site) (i : ThrIns) (s : State) : WOut :=
  if i.len % i.lw ≠ 0 || !opOk x i.a i.len || !opOk x i.d i.len || !opsApart (wordRange i.a i.len) (wordRange i.d i.len) then rangeBreach s
  else thrRun x [wordRange i.a i.len] [wordRange i.d i.len] s fun s =>
    let as_ := readElems s x i.a i.len
    let out := (List.range (i.len / i.lw)).flatMap fun l =>
      let cs := (as_.drop (l * i.t.n)).take i.t.n
      let q := i.q (l * i.t.n)
      let psi := Config.thrRoot i.p (i.limb (l * i.t.n))
      (List.range i.t.n).map fun j => if inv then inttAt i.t q psi cs j else nttAt i.t q psi cs j
    .retire (countLimbs x (i.len / i.lw) (writeElems x i.d out s))

/-- 11 R216. -/
def execNtt (w : Nat) (s : State) : Res := .next (runInsn 5 0x6 (thrIns (thrTransform false)) w s)

/-- 11 R216. -/
def execIntt (w : Nat) (s : State) : Res := .next (runInsn 5 0x7 (thrIns (thrTransform true)) w s)

/-! MODSW and EXTRACT. -/

/-- The number below the product of the first `m` primes with these residues. -/
def crt (p m : Nat) (rs : List Nat) : Nat :=
  let qs := (List.range m).map (thrPrime p)
  let big := qs.foldl (· * ·) 1
  (qs.zip rs).foldl (fun acc e => (acc + e.2 % e.1 * (big / e.1 * powMod e.1 64 (big / e.1 % e.1) (e.1 - 2))) % big) 0

/-- 11 Table 11.2: a coefficient after its top limbs are dropped with rounding (log 36). -/
def dropLimbs (p m d : Nat) (rs : List Nat) : List Nat :=
  let top := ((List.range d).map fun j => thrPrime p (m - d + j)).foldl (· * ·) 1
  (List.range (m - d)).map fun l => (2 * crt p m rs + top) / (2 * top) % thrPrime p l

/-- 11 Table 11.2: MODSW. A has LEN words: one polynomial of at most L + K limbs, or several of L + K limbs (log 36). -/
def insModsw (x : Site) (i : ThrIns) (s : State) : WOut :=
  let full := i.t.l + i.t.k
  let m := if i.len ≤ full * i.lw then i.len / i.lw else full
  let d := i.b % 32
  let polys := if m = 0 then 0 else i.len / (m * i.lw)
  let outLen := polys * (m - d) * i.lw
  if i.len = 0 ∧ i.a % 2048 = 0 ∧ i.d % 2048 = 0 then .retire s
  else if i.len % i.lw ≠ 0 || m = 0 || i.len % (m * i.lw) ≠ 0 || decide (m ≤ d) || !opOk x i.a i.len || !opOk x i.d outLen
      || !opsApart (wordRange i.a i.len) (wordRange i.d outLen) then rangeBreach s
  else thrRun x [wordRange i.a i.len] [wordRange i.d outLen] s fun s =>
    let as_ := readElems s x i.a i.len
    let out := (List.range polys).flatMap fun k =>
      let cols := (List.range i.t.n).map fun c => dropLimbs i.p m d ((List.range m).map fun l => as_.getD ((k * m + l) * i.t.n + c) 0)
      (List.range (m - d)).flatMap fun l => cols.map fun r => r.getD l 0
    .retire (countWords x i.len (writeElems x i.d out s))

/-- 11 R216. -/
def execModsw (w : Nat) (s : State) : Res := .next (runInsn 5 0xA (thrIns insModsw) w s)

/-- 11 Table 11.2: the LWE record of coefficient `k` of a one-limb ciphertext: N words that multiply the secret's coefficients, then
the constant (log 36). -/
def lweOf (n q : Nat) (c0 c1 : List Nat) (k : Nat) : List Nat :=
  ((List.range n).map fun j => if j ≤ k then c1.getD (k - j) 0 % q else (q - c1.getD (n + k - j) 0 % q) % q) ++ [c0.getD k 0 % q]

/-- 11 Table 11.2: EXTRACT. -/
def insExtract (x : Site) (i : ThrIns) (s : State) : WOut :=
  let first := i.b % 65536
  let cnt := i.b / 65536 % 65536
  let outB := cnt * (i.t.n + 1) * 8
  let q := thrPrime i.p 0
  if cnt = 0 || (i.len != 0 && i.len != 2 * i.lw) || i.t.n < first + cnt || !opOk x i.a i.len || i.d % 2048 != 0
      || !inWork x.prog i.d outB || overlaps (wordRange i.a i.len) (i.d, outB) then rangeBreach s
  else if i.len = 0 then .retire s
  else thrRun x [wordRange i.a i.len] [(i.d, outB)] s fun s =>
    let as_ := readElems s x i.a i.len
    .retire (countWords x i.len (writeElems x i.d ((List.range cnt).flatMap fun k =>
      lweOf i.t.n q (as_.take i.t.n) (as_.drop i.t.n) (first + k)) s))

/-- 11 R216. -/
def execExtract (w : Nat) (s : State) : Res := .next (runInsn 5 0xC (thrIns insExtract) w s)

/-! Key switching (11 R217, R218). -/

/-- The key object of a KSW: an HBM memory object of the context of the key's size; else the status of the fault. -/
def kswKey (s : State) (x : Site) (i : ThrIns) : Except (Nat × Nat) Nat :=
  match getObj? s i.b with
  | some o =>
    (match o.kind with
     | .mem .hbm base size _ =>
       if o.ctx ≠ x.run.ctx ∨ !o.host then .error (0x0403, Config.statusDetail 0x0403)
       else if size ≠ kswKeyBytes i.t then .error (0x0105, Config.statusDetail 0x0105)
       else match (pageStarts base size).find? fun a => quarantined s (unitId 0x0D (pcOf s a)) with
         | some a => .error (0x0C03, unitId 0x0D (pcOf s a))
         | none => .ok base
     | _ => .error (0x0403, Config.statusDetail 0x0403))
  | none => .error (0x0403, Config.statusDetail 0x0403)

/-- A Wren that waits in KSW: its site and fields. -/
def atKsw (s : State) (w : Nat) : Option (Site × ThrIns) :=
  if (getWren s w).block ≠ 7 then none else
  match siteOf s w with
  | some x =>
    if insClass x.insn = 5 ∧ insOp x.insn = 0xB ∧ !skipped x s then
      let p := bits x.insn 35 4
      let len := bits x.insn 39 12
      match thrSet p with
      | some t =>
        let i : ThrIns := { a := x.sr s 20, b := x.sr s 25, d := x.sr s 30, p := p, t := t, len := len }
        if interlocked (getWren s w) [wordRange i.a (len * t.l * i.lw)] [wordRange i.d (2 * len * t.l * i.lw)] then none
        else some (x, i)
      | none => none
    else none
  | none => none

/-- What the Wrens of a pass must agree on. -/
def ThrIns.pass (i : ThrIns) : Nat × Nat × Nat := (i.b, i.p, i.len)

/-- 11 R217: the output of rank `j` of `n` for one ciphertext of a batch: each word of its range in each limb and polynomial. -/
def kswRank (x : Site) (i : ThrIns) (key : List Byte) (j n : Nat) (s : State) : State :=
  let lo := j * i.lw / n
  let hi := (j + 1) * i.lw / n
  (List.range i.len).foldl (fun s b =>
    let c1 := readLocal s x.w (i.a + 2048 * (b * i.t.l * i.lw)) (2048 * i.t.l * i.lw)
    (List.range 2).foldl (fun s poly => (List.range i.t.l).foldl (fun s l =>
      let at_ := i.d + 2048 * (((2 * b + poly) * i.t.l + l) * i.lw + lo)
      writeElems x at_ ((List.range (256 * (hi - lo))).map fun e =>
        Config.kswResidue i.p key c1 poly l (256 * lo + e) % thrPrime i.p l) s) s) s) s

/-- 11 R217: the pass of a thicket starts once every Wren of the run in it that has not ended has issued KSW alike. -/
def releaseKsw (r : Run) (t : Nat) (s : State) : State :=
  let live := r.wrens.filter fun w => w / 24 == t && !(getWren s w).ended
  let at_ := live.filterMap (atKsw s)
  match at_ with
  | [] => s
  | (x0, i0) :: _ =>
    if at_.length < live.length || at_.any (fun e => e.2.pass != i0.pass) then s
    else match kswKey s x0 i0 with
      | .error e => faultRun r x0.w (getWren s x0.w).ix e.1 e.2 none s
      | .ok base =>
        let key := memRead s.mem base (kswKeyBytes i0.t)
        let s := at_.zipIdx.foldl (fun s e => kswRank e.1.1 e.1.2 key e.2 at_.length s) s
        let s := modThk t (fun v => { v with passes := v.passes + 1 }) s
        let s := count r.ctx 5 0 0x34 (kswKeyBytes i0.t) (count r.ctx 5 0 0x33 1 s)
        at_.foldl (fun s e => retire e.1 s) s

/-- Every pass of a run that can now start. -/
def releaseKsws (r : Run) (s : State) : State := r.thks.foldl (fun s t => releaseKsw r t s) s

/-- 11 R217: KSW. A mismatch with a Wren that waits faults the run. -/
def insKsw (x : Site) (i : ThrIns) (s : State) : WOut :=
  let ra := wordRange i.a (i.len * i.t.l * i.lw)
  let rd := wordRange i.d (2 * i.len * i.t.l * i.lw)
  if i.p = 0 || 64 < i.len || i.a % 2048 != 0 || i.d % 2048 != 0 || !inWork x.prog ra.1 ra.2 || !inWork x.prog rd.1 rd.2
      || overlaps ra rd then rangeBreach s
  else if i.len = 0 then .retire s
  else match kswKey s x i with
    | .error e => .fault e.1 e.2 none
    | .ok _ =>
      let others := (x.run.wrens.filter fun w => w / 24 == x.w / 24 && w != x.w && !(getWren s w).ended).filterMap (atKsw s)
      if others.any fun e => e.2.pass != i.pass then rangeBreach s
      else .hold (releaseKsw x.run (x.w / 24) (blockOn x 7 s))

/-- 11 R217. -/
def execKsw (w : Nat) (s : State) : Res := .next (runInsn 5 0xB (thrIns insKsw) w s)

/-! Partial decryption (11 R219). -/

/-- 11 R219: coefficient `i` of a key share, before its reduction: keystream words 2i and 2i + 1 under the slot's seed. -/
def shareCoeff (seed : List Byte) (i : Nat) : Nat := leNat (ctrBytes seed 0 (16 * i) 16)

/-- The coefficient `k` of the negacyclic product of two polynomials of degree below n modulo q. -/
def negaMul (n q : Nat) (a b : List Nat) (k : Nat) : Nat :=
  (List.range n).foldl (fun acc j =>
    let t := a.getD j 0 % q * (b.getD (if j ≤ k then k - j else n + k - j) 0 % q) % q
    (if j ≤ k then acc + t else acc + (q - t)) % q) 0

/-- 11 R219: c0 + c1 · s + e of one limb. -/
def pdecLimb (n q : Nat) (c0 c1 : List Nat) (seed : List Byte) (es : List Int) : List Nat :=
  let sh := (List.range n).map fun i => shareCoeff seed i % q
  (List.range n).map fun k => ((((c0.getD k 0 % q + negaMul n q c1 sh k : Nat) : Int) + es.getD k 0) % (q : Int)).toNat

/-- 11 R219: PDEC. The smudging noise is a free value of the Thrush DRBG; a σ_s outside 20 to 60 is a range breach (log 36). A
round-bound slot is refused (15 R311). -/
def insPdec (x : Site) (i : ThrIns) (s : State) : WOut :=
  let sig := i.b / 256 % 256
  let r1 := wordRange i.a i.len
  let r0 := wordRange (i.a + 2048 * i.len) i.len
  let rd := wordRange i.d i.len
  if i.len % i.lw ≠ 0 || !opOk x i.a (2 * i.len) || !opOk x i.d i.len || !opsApart r1 rd || !opsApart r0 rd || sig < 20 || 60 < sig then
    rangeBreach s
  else match nameSlot s x.run.ctx (i.b % 256) with
    | .error e => .fault e.1 e.2 none
    | .ok v =>
      match (if v.bound then .error (0x0203, Config.statusDetail 0x0203) else keyUse v none 0x208 [7]) with
      | .error e => .fault e.1 e.2 none
      | .ok key => thrRun x [r1, r0] [rd] s fun s =>
        let c1 := readElems s x i.a i.len
        let c0 := readElems s x (i.a + 2048 * i.len) i.len
        let r := drawBytes (8 * i.t.n) s
        let es := (List.range i.t.n).map fun k => ((field r.1 (8 * k) 8 % 2 ^ (sig + 1) : Nat) : Int) - (2 ^ sig : Nat)
        let out := (List.range (i.len / i.lw)).flatMap fun l =>
          pdecLimb i.t.n (i.q (l * i.t.n)) ((c0.drop (l * i.t.n)).take i.t.n) ((c1.drop (l * i.t.n)).take i.t.n) key.material es
        .retire (count x.run.ctx 5 0 0x35 (i.len / i.lw) (writeElems x i.d out r.2))

/-- 11 R219. -/
def execPdec (w : Nat) (s : State) : Res := .next (runInsn 5 0xD (thrIns insPdec) w s)

end Sys2Proof.Machine
end

