-- ==== Sys2Proof/Machine/WrenCore.lean ====
section
/-! DEFINITION. Wren control, scalar and synchronisation instructions (09 R174 to R179, Tables 9.5 to 9.7). -/

namespace Sys2Proof.Machine

/-! Control. -/

/-- 09 Table 9.6: NOP. -/
def insNop (_ : Site) (s : State) : WOut := .retire s

/-- 09 Table 9.6. -/
def execWrenNop (w : Nat) (s : State) : Res := .next (runInsn 0 0 insNop w s)

/-- 09 R187, R177, 10 R199: a Wren ends: its groups close as by LAST, and it counts as arrived at every barrier. The last one ends
the run. It waits for its own asynchronous instructions (log 30). -/
def wrenEnd (x : Site) (s : State) : State :=
  let exit_ := BitVec.ofNat 64 (x.sr s 20)
  let s := retired x (closeWren x.prog x.run.ctx x.w true s)
  let s := modWren x.w (fun v => { v with ended := true, exitWord := exit_, st := 2, block := 0, blockedAt := none }) s
  let r := (getRun? s x.run.id).getD x.run
  if r.wrens.all fun w => (getWren s w).ended then endRunAll r s else releaseKsws r (releaseBars r s)

/-- 09 Table 9.6: END. -/
def insEnd (x : Site) (s : State) : WOut := if (getWren s x.w).async.isEmpty then .hold (wrenEnd x s) else .block 7 s

/-- 09 R187. -/
def execEndRun (w : Nat) (s : State) : Res := .next (runInsn 0 1 insEnd w s)

/-- 09 Table 9.6: BR. -/
def insBr (x : Site) (s : State) : WOut := .jump (bits x.insn 20 14) s

/-- 09 Table 9.6. -/
def execBr (w : Nat) (s : State) : Res := .next (runInsn 0 2 insBr w s)

/-- 09 Table 9.6, Edges: LOOP runs its body SR[CNT] times; with 0 the body is skipped. -/
def insLoop (x : Site) (s : State) : WOut :=
  let n := x.sr s 20
  let last := bits x.insn 25 14
  let ix := (getWren s x.w).ix
  if n = 0 then .hold (retired x (advance x.w last s))
  else .jump (ix + 1) (modWren x.w (fun v => { v with loops := { first := ix + 1, last := last, left := n } :: v.loops }) s)

/-- 09 Table 9.6. -/
def execLoop (w : Nat) (s : State) : Res := .next (runInsn 0 3 insLoop w s)

/-! Scalar (09 Tables 9.6, 9.7). -/

/-- SB, or IMM64 where IMM is set. -/
def scalarB (x : Site) (s : State) : Nat := if bitOf x.insn 35 then bits x.insn 36 64 else x.sr s 30

/-- DST := f SA B. -/
def insScalar (f : Nat → Nat → Nat) (x : Site) (s : State) : WOut :=
  .retire (setSr x.w (bits x.insn 20 5) (f (x.sr s 25) (scalarB x s)) s)

/-- 64-bit sum, difference and logic. -/
def aluAdd (a b : Nat) : Nat := a + b
def aluSub (a b : Nat) : Nat := a + (2 ^ 64 - b % 2 ^ 64)
def aluAnd (a b : Nat) : Nat := a &&& b
def aluOr (a b : Nat) : Nat := a ||| b
def aluXor (a b : Nat) : Nat := a ^^^ b
def aluMul (a b : Nat) : Nat := a * b

/-- Compares give 1 or 0 (09 Table 9.6). -/
def aluEq (a b : Nat) : Nat := b2n (a == b)
def aluLtu (a b : Nat) : Nat := b2n (decide (a < b))
def aluLts (a b : Nat) : Nat := b2n (decide (signed 64 a < signed 64 b))

/-- MOV gives its B operand (log 31). -/
def aluMov (_ b : Nat) : Nat := b

/-- A shift by 64 or more gives a free value: the manual states no result (log 31). -/
def insShift (f : Nat → Nat → Nat) (x : Site) (s : State) : WOut :=
  let b := scalarB x s
  if b < 64 then .retire (setSr x.w (bits x.insn 20 5) (f (x.sr s 25) b) s)
  else
    let r := drawNat s
    .retire (setSr x.w (bits x.insn 20 5) (r.1 % 2 ^ 64) r.2)

/-- 09 Table 9.6. -/
def execAdd (w : Nat) (s : State) : Res := .next (runInsn 1 0x1 (insScalar aluAdd) w s)
/-- 09 Table 9.6. -/
def execSub (w : Nat) (s : State) : Res := .next (runInsn 1 0x2 (insScalar aluSub) w s)
/-- 09 Table 9.6. -/
def execAnd (w : Nat) (s : State) : Res := .next (runInsn 1 0x3 (insScalar aluAnd) w s)
/-- 09 Table 9.6. -/
def execOr (w : Nat) (s : State) : Res := .next (runInsn 1 0x4 (insScalar aluOr) w s)
/-- 09 Table 9.6. -/
def execXor (w : Nat) (s : State) : Res := .next (runInsn 1 0x5 (insScalar aluXor) w s)
/-- 09 Table 9.6. -/
def execShl (w : Nat) (s : State) : Res := .next (runInsn 1 0x6 (insShift fun a b => a * 2 ^ b) w s)
/-- 09 Table 9.6. -/
def execShr (w : Nat) (s : State) : Res := .next (runInsn 1 0x7 (insShift fun a b => a / 2 ^ b) w s)
/-- 09 Table 9.6. -/
def execMul (w : Nat) (s : State) : Res := .next (runInsn 1 0x8 (insScalar aluMul) w s)
/-- 09 Table 9.6. -/
def execCmpeq (w : Nat) (s : State) : Res := .next (runInsn 1 0x9 (insScalar aluEq) w s)
/-- 09 Table 9.6. -/
def execCmpltu (w : Nat) (s : State) : Res := .next (runInsn 1 0xA (insScalar aluLtu) w s)
/-- 09 Table 9.6. -/
def execCmplts (w : Nat) (s : State) : Res := .next (runInsn 1 0xB (insScalar aluLts) w s)
/-- 09 Table 9.6. -/
def execMov (w : Nat) (s : State) : Res := .next (runInsn 1 0xC (insScalar aluMov) w s)

/-- 09 R186: argument word SA + IMM, or zero beyond ARGLEN / 8 words. -/
def insRdarg (x : Site) (s : State) : WOut :=
  let i := (x.sr s 25 + scalarB x s) % 2 ^ 64
  let v := if i < x.run.argLen / 8 then word x.run.args i else 0
  .retire (setSr x.w (bits x.insn 20 5) v s)

/-- 09 R186. -/
def execRdarg (w : Nat) (s : State) : Res := .next (runInsn 1 0xD insRdarg w s)

/-- 09 Table 9.6: RDTIME gives fabric time. -/
def insRdtime (x : Site) (s : State) : WOut := .retire (setSr x.w (bits x.insn 20 5) s.lark.time s)

/-- 09 Table 9.6. -/
def execRdtime (w : Nat) (s : State) : Res := .next (runInsn 1 0xE insRdtime w s)

/-! Synchronisation. -/

/-- 09 R176: the semaphore that THK and IDX name, or none outside the run's thicket set. -/
def semOf (x : Site) : Option (Nat × Nat) :=
  (x.run.thks[bits x.insn 36 6]?).map fun t => (t, bits x.insn 30 6)

/-- 09 R176: SEMWAIT. -/
def insSemwait (x : Site) (s : State) : WOut :=
  match semOf x with
  | none => .breach s 0x0202
  | some (t, i) =>
    let v := tabGet 0 (getThk s t).sems i
    if x.sr s 20 ≤ v then .retire (modThk t (fun k => { k with sems := tabPut 0 k.sems i (v - x.sr s 20) }) s)
    else .block 1 s

/-- 09 R176. -/
def execSemwait (w : Nat) (s : State) : Res := .next (runInsn 6 1 insSemwait w s)

/-- 09 R176: a semaphore after a signal, saturating at 0xFFFF_FFFF. -/
def semAdd (t i n : Nat) (s : State) : State :=
  let v := tabGet 0 (getThk s t).sems i + n
  modThk t (fun k => { k with sems := tabPut 0 k.sems i (min v 0xFFFFFFFF), semSat := k.semSat || decide (0xFFFFFFFF < v) }) s

/-- 09 R175, R176: SEMSIG, after a FENCE. -/
def insSemsig (x : Site) (s : State) : WOut :=
  match semOf x with
  | none => .breach s 0x0202
  | some (t, i) => if (getWren s x.w).async.isEmpty then .retire (semAdd t i (x.sr s 20) s) else .block 7 s

/-- 09 R176. -/
def execSemsig (w : Nat) (s : State) : Res := .next (runInsn 6 2 insSemsig w s)

/-- 09 R175, R177: BAR, after a FENCE. -/
def insBar (x : Site) (s : State) : WOut :=
  if (getWren s x.w).async.isEmpty then .hold (releaseBar x.run (bits x.insn 30 6) (blockOn x 2 s)) else .block 7 s

/-- 09 R177. -/
def execBar (w : Nat) (s : State) : Res := .next (runInsn 6 3 insBar w s)

/-- 09 R178: an event wait ends with a result in SR[DST]. -/
def waitEnd (x : Site) (v : Nat) (s : State) : State := setSr x.w (bits x.insn 47 5) v s

/-- 09 R178: CWAIT on the launch queue that started the run, for a value ahead of its counter. -/
def ownLaunch (x : Site) (q : Nat) : Bool := match x.run.src with | .launch n => n == q | .prog _ => false

/-- 09 R178: CWAIT, under R121. A queue that is no queue of the run's context is no queue that it can await. -/
def insCwait (x : Site) (s : State) : WOut :=
  let q := x.sr s 20 % 65536
  let v := BitVec.ofNat 32 (x.sr s 25)
  let d := (v - counterOf s q).toNat
  if (getQ s q).st = .absent then .breach s 0x0403
  else if (getQ s q).ctx ≠ x.run.ctx then .breach s 0x0202
  else if d = 0 ∨ 2 ^ 31 < d then .retire (waitEnd x 0 s)
  else if d = 2 ^ 31 then .fault 0x0603 v.toNat none
  else if ownLaunch x q then .breach s 0x0406
  else .block 4 s

/-- 09 R178. -/
def execCwait (w : Nat) (s : State) : Res := .next (runInsn 6 4 insCwait w s)

/-- 09 R178: BWAIT on a generator of the run's context: released by the first firing after it blocked. -/
def insBwait (x : Site) (s : State) : WOut :=
  let n := bits x.insn 30 6
  let b := getBeat s n
  if 16 ≤ n ∨ b.en = false ∨ b.owner ≠ x.run.ctx then .breach s 0x0202
  else if (getWren s x.w).block = 5 ∧ (getWren s x.w).blockedAt.any (fun t => t / 2 ^ b.k < b.base / 2 ^ b.k) then
    .retire (waitEnd x 0 s)
  else .block 5 s

/-- 09 R178. -/
def execBwait (w : Nat) (s : State) : Res := .next (runInsn 6 5 insBwait w s)

/-- 09 R178: ARRWAIT. -/
def insArrwait (x : Site) (s : State) : WOut :=
  let i := bits x.insn 30 6
  let v := tabGet 0 (getWren s x.w).arr i
  if 16 ≤ i then rangeBreach s
  else if x.sr s 20 ≤ v then .retire (waitEnd x 0 (modWren x.w (fun k => { k with arr := tabPut 0 k.arr i (v - x.sr s 20) }) s))
  else .block 6 s

/-- 09 R178. -/
def execArrwait (w : Nat) (s : State) : Res := .next (runInsn 6 6 insArrwait w s)

/-- 09 R178: an event wait's limit passes: SR[DST] is 1. -/
def limitPassed (x : Site) (s : State) : Bool :=
  let v := getWren s x.w
  let lim := x.sr s 42
  (v.block == 4 || v.block == 5 || v.block == 6) && lim != 0
    && v.blockedAt.any fun t => decide (t + 1000 * lim ≤ s.lark.time)

/-- 09 R178. -/
def execEventWaitTimeout (w : Nat) (s : State) : Res :=
  .next (match siteOf s w with
    | some x => if insClass x.insn = 6 ∧ limitPassed x s then retire x (waitEnd x 1 s) else s
    | none => s)

/-- 09 R179: the instances of a reservation kind that a partition may hold (07 Table 7.4): 16 Chaffinch, 8 Goldcrest. -/
def instOwned (s : State) (c kind i : Nat) : Bool :=
  let p := (getCtx s c).part
  if kind = 0 then i < 16 && (!s.host.shared || i / 2 == p) else i < 8 && (!s.host.shared || i == p)

/-- An instance of a kind, and its update. -/
def getInst (s : State) (kind i : Nat) : Inst := tabGet Inst.init (if kind = 0 then s.fab.chf else s.fab.gcr) i
def putInst (kind i : Nat) (v : Inst) (s : State) : State :=
  onFab (fun f => if kind = 0 then { f with chf := tabPut Inst.init f.chf i v } else { f with gcr := tabPut Inst.init f.gcr i v }) s

/-- The unit identifier of an instance (18 Table 18.5). -/
def instUnit (kind i : Nat) : Nat := if kind = 0 then unitId 6 i else unitId 5 i

/-- 09 R179: RSV. -/
def insRsv (x : Site) (s : State) : WOut :=
  let kind := bits x.insn 30 6
  let i := x.sr s 20
  let v := getInst s kind i
  if 1 < kind then rangeBreach s
  else if !instOwned s x.run.ctx kind i then .breach s 0x0202
  else if v.holder = some x.run.id ∧ !v.fw then .retire s
  else if v.holder = none ∧ !v.fw ∧ !quarantined s (instUnit kind i) then
    .retire (putInst kind i { v with holder := some x.run.id } s)
  else .block 3 s

/-- 09 R179. -/
def execRsv (w : Nat) (s : State) : Res := .next (runInsn 6 7 insRsv w s)

/-- 09 R179: RLS releases what the run holds; of anything else it releases nothing. -/
def insRls (x : Site) (s : State) : WOut :=
  let kind := bits x.insn 30 6
  let i := x.sr s 20
  let v := getInst s kind i
  if 1 < kind then rangeBreach s
  else .retire (if v.holder = some x.run.id then putInst kind i (releaseInst x.run.id v) s else s)

/-- 09 R179. -/
def execRls (w : Nat) (s : State) : Res := .next (runInsn 6 8 insRls w s)

/-- 09 R175: FENCE. -/
def insFence (x : Site) (s : State) : WOut := if (getWren s x.w).async.isEmpty then .retire s else .block 7 s

/-- 09 R175. -/
def execFence (w : Nat) (s : State) : Res := .next (runInsn 6 9 insFence w s)

end Sys2Proof.Machine
end

