-- ==== Sys2Proof/Machine/WrenMove.lean ====
section
/-! DEFINITION. Wren moves (09 R170, R171, R175, R180; 06 R119): MOVE, FILL and PEER, their asynchronous completion, and arrival counters. -/

namespace Sys2Proof.Machine

/-! Thicket addresses (09 R170). -/

/-- Whether an offset of this chip lies in the program's static allocation on a thicket, or in a thicket-kind object of the
context. -/
def thkOwned (s : State) (x : Site) (t off : Nat) : Bool :=
  (x.prog.static_.any fun e => e.1 == t && e.2 ≤ off && off < e.2 + x.prog.staticLen)
    || s.host.objs.any fun e => e.2.ctx == x.run.ctx && (match e.2.kind with
        | .mem .thk base size _ => base ≤ off && off < base + size
        | _ => false)

/-- The offset that a thicket address and a length name, or none where the access is not valid. -/
def thkRange (s : State) (x : Site) (a len : Nat) : Option Nat :=
  match x.run.thks[bits a 24 6]? with
  | none => none
  | some t =>
    let off := a % 2 ^ 24
    if 2 ^ 30 ≤ a ∨ 2 ^ 24 < off + len then none
    else if (pageStarts (thkBase t + off) len).all (thkOwned s x t) then some (thkBase t + off) else none

/-! Sides of a transfer. -/

/-- Where a side of a move lies: 0 local, 1 thicket, 2 DVA. -/
def srcSide (mode : Nat) : Nat := if mode = 0 ∨ mode = 2 ∨ mode = 4 then 0 else if mode = 1 ∨ mode = 6 then 1 else 2
def dstSide (mode : Nat) : Nat := if mode = 0 ∨ mode = 1 ∨ mode = 3 then 0 else if mode = 2 ∨ mode = 5 then 1 else 2

/-- Why an access of a side fails: status, DETAIL and address. -/
def sideFault (s : State) (x : Site) (side a len : Nat) (acc : Acc) : Option (Nat × Nat × Option Nat) :=
  if len = 0 then none
  else if side = 0 then (if inWork x.prog a len then none else some (0x0105, faultDetail s 0x0105, none))
  else if side = 1 then (if (thkRange s x a len).isSome then none else some (0x0204, acc.rights, none))
  else match rangeErr s x.run.ctx a len acc false with
    | none => none
    | some (.cause n d) => some ((accStatus acc (.cause n d)).1, (accStatus acc (.cause n d)).2, some d)
    | some e => some ((accStatus acc e).1, (accStatus acc e).2, some a)

/-- The bytes of a side. -/
def readSide (s : State) (x : Site) (side a len : Nat) : List Byte :=
  if side = 0 then readLocal s x.w a len
  else if side = 1 then memRead s.mem ((thkRange s x a len).getD 0) len
  else (List.range len).map fun i => dvaGet s x.run.ctx (a + i) .read false

/-- Bytes written to a side. -/
def writeSide (x : Site) (side a : Nat) (bs : List Byte) (s : State) : State :=
  if bs.isEmpty then s
  else if side = 0 then writeLocal x.w a bs s
  else if side = 1 then setMem (memWrite s.mem ((thkRange s x a bs.length).getD 0) bs) s
  else dvaStore x.run.ctx .write false a bs s

/-- 09 Table 9.7: LEN is a multiple of 64, up to 16 MiB. -/
def lenOk (n : Nat) : Bool := n % 64 == 0 && n ≤ 16777216

/-- An asynchronous operation is issued. -/
def issue (x : Site) (a : AsyncOp) (s : State) : State := modWren x.w (fun v => { v with async := v.async ++ [a] }) s

/-- An asynchronous operation is issued once no earlier one stands in its way (09 R175). -/
def issueAsync (x : Site) (a : AsyncOp) (s : State) : WOut :=
  if interlocked (getWren s x.w) (asyncReads a) (asyncWrites a) then .block 7 s else .retire (issue x a s)

/-! MOVE and FILL. -/

/-- 09 R171: MOVE. -/
def insMove (x : Site) (s : State) : WOut :=
  let mode := bits x.insn 35 4
  let dst := x.sr s 20
  let src := x.sr s 25
  let len := x.sr s 30
  if !lenOk len then rangeBreach s
  else match (sideFault s x (srcSide mode) src len .read).or (sideFault s x (dstSide mode) dst len .write) with
    | some e => .fault e.1 e.2.1 e.2.2
    | none => if len = 0 then .retire s else issueAsync x (.move mode dst src len) s

/-- 09 R171. -/
def execMove (w : Nat) (s : State) : Res := .next (runInsn 2 1 insMove w s)

/-- 09 Table 9.6, 06 R119: FILL writes the pattern in SR[SA] to the destination side of MODE (log 31). -/
def insFill (x : Site) (s : State) : WOut :=
  let side := dstSide (bits x.insn 35 4)
  let dst := x.sr s 20
  let len := x.sr s 30
  if !lenOk len then rangeBreach s
  else match sideFault s x side dst len .write with
    | some e => .fault e.1 e.2.1 e.2.2
    | none => if len = 0 then .retire s else issueAsync x (.fill side dst len (BitVec.ofNat 64 (x.sr s 25))) s

/-- 06 R119. -/
def execFill (w : Nat) (s : State) : Res := .next (runInsn 2 3 insFill w s)

/-! PEER (09 R180). -/

/-- The chip on a board slot of this board. -/
def slotChip (s : State) (slot : Nat) : Nat := chipNo s / 8 * 8 + slot

/-- 09 R180: PEER. A serving run on a board that is down ends with 0x0703 (01 R16, 14 R281). -/
def insPeer (x : Site) (s : State) : WOut :=
  let dst := x.sr s 20
  let src := x.sr s 25
  let len := x.sr s 30
  if !lenOk len then rangeBreach s
  else if !(inWork x.prog src len && inWork x.prog dst len) then rangeBreach s
  else if boardDown s x.run.ctx x.run.thks x.run.board then .fault 0x0703 (abortDetail s) none
  else issueAsync x (.peer (bits x.insn 39 3) dst src len (bits x.insn 42 4) (bitOf x.insn 46) s.lark.time) s

/-- 09 R180. -/
def execPeer (w : Nat) (s : State) : Res := .next (runInsn 2 2 insPeer w s)

/-- The payload bytes of one PEER packet (14 Table 14.2). -/
def peerChunk : Nat := 8192

/-- The header that the model puts before the data of a PEER packet (log 32): board run identifier, run Wren index, arrival counter,
flags ([0] NOTIFY, [1] last packet), and zeros. -/
def peerHead (board widx arr : Nat) (notify last : Bool) : List Byte :=
  natLE 4 board ++ natLE 2 widx ++ natLE 1 arr ++ natLE 1 (b2n notify + b2n last * 2) ++ zeros 8

/-- 09 R180, 14 R281: the packets of a PEER, in order. -/
def peerPackets (s : State) (x : Site) (slot dst arr : Nat) (notify : Bool) (bs : List Byte) : List QtdPkt :=
  let n := max 1 (ceilDiv bs.length peerChunk)
  let sl := ctxSlice s x.run.ctx
  (List.range n).map fun i =>
    let data := (bs.drop (peerChunk * i)).take peerChunk
    { inPort := 24, rsvd := false, typ := 6, cls := 0, vc := 0, hops := 0, len := 16 + data.length, dest := slotChip s slot
      src := chipNo s, slice := sl.1, part := sl.2, flow := x.w
      addr := 2 ^ 63 + slotChip s slot * 2 ^ 46 + wrenBase (x.run.widx x.w) + dst + peerChunk * i
      corr := 0, chord := 0, order := 0, via := 0, stage := 6, pair := 0, pairHops := 0
      payload := peerHead x.run.boardId (x.run.widx x.w) arr notify (i + 1 == n) ++ data }

/-- 09 R180, 14 R281: the packets of a PEER enter the board cube, all or none. -/
def sendPeer : List QtdPkt → State → Except Nat State
  | [], s => .ok s
  | p :: ps, s => match originate p s with
    | .ok s => sendPeer ps s
    | .error e => .error e

/-- A run receives: the Wren with a run Wren index in the active run with a board run identifier. -/
def partnerWren (s : State) (board widx : Nat) : Option (Run × Nat) :=
  match s.fab.runs.find? fun r => r.board && r.st == 1 && r.boardId == board with
  | some r => (r.wrens[widx]?).map fun w => (r, w)
  | none => none

/-- 09 R180: bytes are placed in a partner's working area; a packet with the last bytes of a PEER with NOTIFY is noted for its
arrival counter. -/
def placePeer (board widx off arr : Nat) (notify last : Bool) (bs : List Byte) (s : State) : State :=
  match partnerWren s board widx with
  | none => s
  | some (r, w) =>
    if !(((progOf s r.prog).map fun p => inWork p off bs.length).getD false) then s
    else
      let s := writeLocal w off bs s
      if notify && last then modWren w (fun v => { v with pushed := v.pushed ++ [(arr, 1)] }) s else s

/-! Completion. -/

/-- What becomes of a completing operation. -/
inductive AsyncDone where
  | ok (s : State)
  | fault (status detail : Nat) (addr : Option Nat)
  | wait

/-- 09 Table 9.16: bytes moved to or from a DVA. -/
def countDva (x : Site) (n : Nat) (s : State) : State :=
  count x.run.ctx 2 (x.w / 24) 0x05 n (count x.run.ctx 1 x.w 0x05 n s)

/-- A MOVE completes: it copies. -/
def doMove (x : Site) (mode dst src len : Nat) (s : State) : State :=
  let s := writeSide x (dstSide mode) dst (readSide s x (srcSide mode) src len) s
  let s := countLines x (if srcSide mode = 0 then len else 0) (if dstSide mode = 0 then len else 0) s
  if srcSide mode = 2 ∨ dstSide mode = 2 then countDva x len s else s

/-- A FILL completes. -/
def doFill (x : Site) (side dst len : Nat) (pat : BitVec 64) (s : State) : State :=
  countLines x 0 (if side = 0 then len else 0) (writeSide x side dst (patBytes pat.toNat dst len) s)

/-- A PEER completes at its sender: to its own slot it is placed at once, elsewhere its packets enter the fabric. -/
def doPeer (x : Site) (slot dst src len arr : Nat) (notify : Bool) (s : State) : AsyncDone :=
  if !x.run.board then .wait
  else
    let bs := readLocal s x.w src len
    let s' := count x.run.ctx 2 (x.w / 24) 0x07 len (count x.run.ctx 1 x.w 0x07 len s)
    if slot = chipNo s % 8 then .ok (placePeer x.run.boardId (x.run.widx x.w) dst arr notify true bs s')
    else match sendPeer (peerPackets s x slot dst arr notify bs) s' with
      | .ok s' => .ok s'
      | .error 0x0802 => .fault 0x0802 (Config.statusDetail 0x0802) none
      | .error _ => if boardDown s x.run.ctx x.run.thks x.run.board then .fault 0x0703 (abortDetail s) none else .wait

/-- 09 R180: all bytes of a PEER are placed: the arrival counter increments. `tag` is the counter. -/
def execPeerPlaced (w tag : Nat) (s : State) : Res :=
  .next (if (getWren s w).pushed.any fun e => e.1 == tag then
    modWren w (fun v => { v with pushed := v.pushed.eraseP (fun e => e.1 == tag)
                                 arr := tabPut 0 v.arr tag ((tabGet 0 v.arr tag + 1) % 2 ^ 32) }) s
  else s)

/-- The site of a Wren with asynchronous work: its run is Running, even where the Wren itself is blocked. -/
def asyncSite (s : State) (w : Nat) : Option Site :=
  match runOf s w with
  | none => none
  | some r => (progOf s r.prog).map fun p => { w := w, run := r, prog := p, insn := 0 }

/-- 09 R180: a PEER that has found no partner for 100 µs faults the run with 0x0801. -/
def execPeerTimeout (w : Nat) (s : State) : Res :=
  .next (match asyncSite s w with
    | some x =>
      (match (getWren s w).async.find? fun a => match a with
          | .peer _ _ _ _ _ _ since => decide (since + 100000 ≤ s.lark.time)
          | _ => false with
       | some (.peer slot ..) => faultRun x.run w (getWren s w).ix 0x0801 (slotChip s slot) none s
       | _ => s)
    | none => s)

end Sys2Proof.Machine
end

