-- ==== Sys2Proof/Machine/Systolic.lean ====
section
/-! DEFINITION. The systolic array (09 R172, R173; 16 R328): WLD, WSWAP and MMA. -/

namespace Sys2Proof.Machine

/-- Bytes of a weight tile, of an activation row, and K per array pass (09 Table 9.3). -/
def weightBytes (infmt : Nat) : Nat := if infmt = 0 then 8192 else 16384
def actBytes (infmt : Nat) : Nat := if infmt = 0 then 128 else 256
def passK (infmt : Nat) : Nat := if infmt = 0 then 64 else 256

/-! WLD. -/

/-- The model of the run's context whose region lies on a Wren. -/
def modelOn (s : State) (x : Site) : Option Model := (modelsOf s x.run.ctx).find? fun m => m.mask.getLsbD (x.w / 24)

/-- The index of a Wren within a mask (16 Table 16.2). -/
def maskIndex (m : BitVec 64) (w : Nat) : Nat := 24 * (maskThks m).idxOf (w / 24) + w % 24

/-- The spilled segment whose range holds a local range of a Wren (16 R328). -/
def spilledAt (m : Model) (w off len : Nat) : Option Seg :=
  m.segs.find? fun g => g.spill.isSome && g.wren == maskIndex m.mask w && m.wplan + g.off ≤ off && off + len ≤ m.wplan + g.off + g.len

/-- The nonce of a segment (16 R327). -/
def segNonce (m : Model) (g : Seg) : List Byte := m.nonce.take 8 ++ natLE 4 g.idx

/-- A weight tile fills the shadow (09 R173). -/
def fillShadow (x : Site) (infmt : Nat) (bs : List Byte) (s : State) : State :=
  modWren x.w (fun v => { v with shadow := some { infmt := infmt, bytes := bs } }) s

/-- 16 R328: the tile's bytes of a spilled segment's ciphertext, and whether the tag checks when this is the last tile. -/
def spilledTile (s : State) (m : Model) (g : Seg) (at_ off len : Nat) : List Byte × Bool :=
  let ct := memRead s.mem at_ g.len
  let n := segNonce m g
  let text := xorBytes ((ct.drop off).take len) (ctrBytes m.key (beNat n * 2 ^ 32 + 2) off len)
  (text, off + len < g.len || gcmTag m.key n g.entry ct == memRead s.mem (at_ + g.len) 16)

/-- Where a spilled tile is decrypted to: the spill window ends the model region. -/
def windowAt (s : State) (m : Model) (w off : Nat) : Nat :=
  m.wplan + ((getWren s w).region - m.window) + (if 16384 < m.window then off / 16384 * 16384 % m.window else 0)

/-- 16 R328: WLD from a spilled segment. -/
def loadSpilled (x : Site) (m : Model) (g : Seg) (infmt src : Nat) (s : State) : WOut :=
  let off := src - (m.wplan + g.off)
  let len := weightBytes infmt
  let at_ := g.spill.getD 0
  if quarantined s (unitId 0x0D (pcOf s (at_ + off))) then .fault 0x0C03 (unitId 0x0D (pcOf s (at_ + off))) none
  else
    let r := spilledTile s m g at_ off len
    if !r.2 then .fault 0x0502 2 none
    else
      let s := writeLocal x.w (windowAt s m x.w off) r.1 s
      let s := modWren x.w (fun v => { v with spillCnt := v.spillCnt + 1 }) s
      let s := count x.run.ctx 1 x.w 0x13 1 (count x.run.ctx 1 x.w 0x12 len s)
      .retire (fillShadow x infmt r.1 s)

/-- A local range lies in the model region of a Wren. -/
def inRegion (s : State) (m : Model) (w off len : Nat) : Bool :=
  m.wplan ≤ off && off + len ≤ m.wplan + (getWren s w).region

/-- 09 R173: WLD. -/
def insWld (x : Site) (s : State) : WOut :=
  let infmt := bits x.insn 55 2
  let src := x.sr s 20
  let len := weightBytes infmt
  if inWork x.prog src len then
    if interlocked (getWren s x.w) [(src, len)] [] then .block 7 s
    else .retire (countLines x len 0 (fillShadow x infmt (readLocal s x.w src len) s))
  else match modelOn s x with
    | none => rangeBreach s
    | some m =>
      match spilledAt m x.w src len with
      | some g => loadSpilled x m g infmt src s
      | none =>
        if inRegion s m x.w src len then .retire (countLines x len 0 (fillShadow x infmt (readLocal s x.w src len) s))
        else rangeBreach s

/-- 09 R173. -/
def execWld (w : Nat) (s : State) : Res := .next (runInsn 3 1 insWld w s)

/-- 09 R173: WSWAP exchanges the active and the shadow tile. -/
def insWswap (x : Site) (s : State) : WOut :=
  .retire (modWren x.w (fun v => { v with active := v.shadow, shadow := v.active }) s)

/-- 09 R173. -/
def execWswap (w : Nat) (s : State) : Res := .next (runInsn 3 2 insWswap w s)

/-! MMA. -/

/-- Weight B[κ][n] of a tile: cell (k, n) holds one BF16 or four consecutive K values (09, Systolic dataflow; log 33). -/
def weightAt (t : WTile) (k n : Nat) : Fl :=
  if t.infmt = 0 then decInput 0 (field t.bytes (2 * (64 * k + n)) 2)
  else decInput t.infmt (field t.bytes (4 * (64 * (k / 4) + n) + k % 4) 1)

/-- Activation A[m][κ] of a row. -/
def actAt (infmt : Nat) (row : List Byte) (k : Nat) : Fl :=
  if infmt = 0 then decInput 0 (field row (2 * k) 2) else decInput infmt (field row k 1)

/-- 09 R172: the exact sum of the products of column `n`; an exact zero is +0. -/
def columnSum (t : WTile) (row : List Byte) (n : Nat) : Fl :=
  let v := (List.range (passK t.infmt)).foldl (fun acc k => flAdd acc (flMul (actAt t.infmt row k) (weightAt t k n))) (Fl.of 0)
  match v with | .fin a _ => Fl.of a | v => v

/-- 10 Table 10.2: a column sum as a term of a format. -/
def sumTerm (f : AccFmt) (v : Fl) : Elem := if f = .z64 then .word (wrap 64 (v.exact / (flOne : Nat))) else .fl v

/-- The term row that row `m` of an MMA brings. -/
def mmaRow (f : AccFmt) (t : WTile) (row : List Byte) : List Elem := (List.range 64).map fun n => sumTerm f (columnSum t row n)

/-- The active tile; a Wren that has loaded none has one of free bytes in the instruction's format (log 33). -/
def activeTile (x : Site) (infmt : Nat) (s : State) : WTile × State :=
  match (getWren s x.w).active with
  | some t => (t, s)
  | none =>
    let r := drawBytes (weightBytes infmt) s
    ({ infmt := infmt, bytes := r.1 }, r.2)

/-- 09 R172, 10 R199: MMA's adds, with FIRST and LAST. -/
def mmaAdds (x : Site) (f : AccFmt) (t : WTile) (a tile m grp order : Nat) (first last : Bool) (s : State) : State :=
  let r := x.roost
  let s := if first then
      (tilesFrom f tile m).foldl (fun s k => setIdentity r f 0 (some grp) k s) (openGroup r grp f order tile m s)
    else s
  let rb := actBytes t.infmt
  let s := (List.range m).foldl (fun s i =>
    addUnder r grp f (passK t.infmt) (tile + i * granules f) (mmaRow f t (readLocal s x.w (a + i * rb) rb)) s) s
  let s := count x.run.ctx 2 (x.w / 24) 0x02 m (count x.run.ctx 1 x.w 0x02 m (countLines x (m * rb) 0 s))
  if last then flushGroup r grp s else s

/-- 10 R199, R201: whether a group may open over tiles. -/
def mayOpen (s : State) (w grp : Nat) (f : AccFmt) (order n : Nat) : Bool :=
  !(getGroup s w grp).opn && !(f == .i64s && order != 0) && stagingUsed (getWren s w) + stagingRows f order n ≤ 256

/-- 09 R172: MMA. -/
def insMma (x : Site) (s : State) : WOut :=
  let i := x.insn
  let infmt := bits i 55 2
  let m := bits i 25 6 + 1
  let a := x.sr s 20
  let tile := if bitOf i 43 then x.sr s 44 else bits i 31 12
  let grp := bits i 57 3
  let order := bits i 53 2
  match fmtOf (bits i 49 4) with
  | none => rangeBreach s
  | some f =>
    let t := activeTile x infmt s
    if !mmaPair f infmt || t.1.infmt != infmt || !x.roost.fits f tile m || !inWork x.prog a (m * actBytes infmt)
        || (f == .i64s && x.prog.secret)
        || !(if bitOf i 60 then mayOpen s x.w grp f order m else groupOk s x.w grp f order tile m) then rangeBreach s
    else if interlocked (getWren s x.w) [(a, m * actBytes infmt)] [tilesRange x.roost f tile m] then .block 7 s
    else .retire (mmaAdds x f t.1 a tile m grp order (bitOf i 60) (bitOf i 61) t.2)

/-- 09 R172. -/
def execMma (w : Nat) (s : State) : Res := .next (runInsn 3 3 insMma w s)

end Sys2Proof.Machine
end

