-- ==== Sys2Proof/Machine/Starling.lean ====
section
/-! DEFINITION. Starling instructions (10 R194 to R213): VADD, PRELOAD, TREAD, TWRITE, TOPK, MAXI, MINI, COMBINE, and rows that arrive through ingress. -/

namespace Sys2Proof.Machine

/-- The fields of a Starling instruction (09 Table 9.7). -/
structure StlIns where
  loc : Nat
  tile : Nat
  n : Nat
  f : AccFmt
  order : Nat
  grp : Nat
  k1 : Nat
  epi : Nat
  outfmt : Nat
  sigma : Nat
  deriving DecidableEq, Repr

/-- The fields, with registers read; none for a reserved format. -/
def stlFields (x : Site) (s : State) : Option StlIns :=
  let i := x.insn
  (fmtOf (bits i 55 4)).map fun f =>
    { loc := x.sr s 20, tile := if bitOf i 37 then x.sr s 38 else bits i 25 12, n := bits i 43 12, f := f, order := bits i 59 2
      grp := bits i 61 3, k1 := bits i 64 8, epi := bits i 72 4, outfmt := bits i 76 4, sigma := x.sr s 80 % 64 }

/-- A Starling instruction with its fields: reserved formats, tiles out of range and a forced I64S are dynamic range breaches
(09 R188, 10 R206). -/
def stlIns (body : Site → StlIns → State → WOut) (x : Site) (s : State) : WOut :=
  match stlFields x s with
  | none => rangeBreach s
  | some a => if !x.roost.fits a.f a.tile a.n || (a.f == .i64s && x.prog.secret) then rangeBreach s else body x a s

/-- The tiles of an instruction, with their row numbers. -/
def StlIns.tiles (a : StlIns) : List (Nat × Nat) := (List.range a.n).map fun i => (i, a.tile + i * granules a.f)

/-- The local range of an instruction's tiles. -/
def StlIns.range (a : StlIns) (x : Site) : Nat × Nat := tilesRange x.roost a.f a.tile a.n

/-! Source rows (10 Table 10.2). -/

/-- Bytes of one source element and of one source row. -/
def srcBytes (f : AccFmt) : Nat := match f with | .z64 => 8 | .p255 => 32 | _ => 4
def srcRowBytes (f : AccFmt) : Nat := 64 * srcBytes f

/-- One source element. -/
def srcElem (f : AccFmt) (n : Nat) : Elem :=
  match f with | .z64 => .word n | .p255 => .word (n % primeP) | _ => .fl (decF32 n)

/-- A source row. -/
def srcRow (f : AccFmt) (bs : List Byte) : List Elem := (List.range 64).map fun i => srcElem f (field bs (srcBytes f * i) (srcBytes f))

/-- 10 Table 10.4: NEG. -/
def negElem (isP : Bool) : Elem → Elem
  | .fl x => .fl x.negate
  | .word v => .word (if isP then (primeP - v % primeP) % primeP else (2 ^ 64 - v) % 2 ^ 64)
  | e => e

/-- 10 Table 10.2: the exact product of two source elements. -/
def mulElem : Elem → Elem → Elem
  | .fl x, .fl y => .fl (flMul x y)
  | e, _ => e

/-- The term row `i` of a VADD. -/
def vaddRow (x : Site) (a : StlIns) (s : State) (i : Nat) : List Elem :=
  let rb := srcRowBytes a.f
  let one := srcRow a.f (readLocal s x.w (a.loc + i * rb) rb)
  let row := if bitOf a.epi 1 then List.zipWith mulElem one (srcRow a.f (readLocal s x.w (a.loc + (a.n + i) * rb) rb)) else one
  if bitOf a.epi 0 then row.map (negElem (a.f == .p255)) else row

/-- 10 R194, Table 10.4: VADD. -/
def vadd (x : Site) (a : StlIns) (s : State) : WOut :=
  let len := a.n * srcRowBytes a.f * (if bitOf a.epi 1 then 2 else 1)
  if (bitOf a.epi 1 && !valued a.f) || !groupOk s x.w a.grp a.f a.order a.tile a.n || !inWork x.prog a.loc len then rangeBreach s
  else if interlocked (getWren s x.w) [(a.loc, len)] [a.range x] then .block 7 s
  else
    let s := a.tiles.foldl (fun s t => addUnder x.roost a.grp a.f 1 t.2 (vaddRow x a s t.1) s) (countLines x len 0 s)
    .retire (if bitOf a.epi 2 then flushGroup x.roost a.grp s else s)

/-- 10 R194. -/
def execVadd (w : Nat) (s : State) : Res := .next (runInsn 4 1 (stlIns vadd) w s)

/-- 10 R199, R196: PRELOAD opens a group over its tiles and sets each to its source row as one term. COUNT 0 opens no group. -/
def preload (x : Site) (a : StlIns) (s : State) : WOut :=
  let rb := srcRowBytes a.f
  if !mayOpen s x.w a.grp a.f a.order a.n || (a.f == .i64s && decide (62 < a.sigma)) || !inWork x.prog a.loc (a.n * rb) then rangeBreach s
  else if a.n = 0 then .retire s
  else if interlocked (getWren s x.w) [(a.loc, a.n * rb)] [a.range x] then .block 7 s
  else
    let s := openGroup x.roost a.grp a.f a.order a.tile a.n (countLines x (a.n * rb) 0 s)
    .retire (a.tiles.foldl (fun s t =>
      addRow x.roost a.f 1 t.2 (srcRow a.f (readLocal s x.w (a.loc + t.1 * rb) rb)) (setIdentity x.roost a.f a.sigma (some a.grp) t.2 s)) s)

/-- 10 R199. -/
def execPreload (w : Nat) (s : State) : Res := .next (runInsn 4 2 (stlIns preload) w s)

/-! TREAD and TWRITE. -/

/-- 10 R197: RELU. -/
def relu (v : Fl) : Fl := if v = .nan then v else if v.isNeg then Fl.of 0 else v

/-- 10 R197: an exact zero reads as +0. -/
def plusZero : Fl → Fl
  | .fin v n => if v = 0 then Fl.of 0 else .fin v n
  | v => v

/-- Bytes of one tile in OUTFMT (10 Table 10.5). -/
def outBytes (f : AccFmt) (o : Nat) : Nat := if o = 0 then tileBytes f else if o = 1 then 256 else if o = 2 then 128 else 64

/-- 10 R197: one tile read in OUTFMT. -/
def readTile (x : Site) (a : StlIns) (s : State) (t : Nat) : List Byte :=
  if a.outfmt = 0 then memRead s.mem (x.roost.at_ t) (tileBytes a.f)
  else (getTile x.roost a.f t s).flatMap fun e =>
    let v := elemValue (getTsw x.roost t s).scale e
    encOut a.outfmt (plusZero (if bitOf a.epi 0 then relu v else v))

/-- 10 R197: TREAD. With STATUS, the status words of the tiles follow the rows. -/
def tread (x : Site) (a : StlIns) (s : State) : WOut :=
  let len := a.n * (outBytes a.f a.outfmt + (if bitOf a.epi 3 then 8 else 0))
  if 5 < a.outfmt || (a.outfmt != 0 && !valued a.f) || inOpenRange s x.w a.f a.tile a.n || !inWork x.prog a.loc len then rangeBreach s
  else if interlocked (getWren s x.w) [a.range x] [(a.loc, len)] then .block 7 s
  else
    let rows := a.tiles.flatMap fun t => readTile x a s t.2
    let st := if bitOf a.epi 3 then a.tiles.flatMap fun t => natLE 8 (tswWord (getTsw x.roost t.2 s)) else []
    .retire (countLines x 0 len (writeLocal x.w a.loc (rows ++ st) s))

/-- 10 R197. -/
def execTread (w : Nat) (s : State) : Res := .next (runInsn 4 3 (stlIns tread) w s)

/-- 10 R198: an element that TWRITE refuses: X704 Rsvd flags, or a P255 word not below p. -/
def badRaw (f : AccFmt) : Elem → Bool
  | .wide _ _ fl => decide (8 ≤ fl)
  | .word v => f == .p255 && decide (primeP ≤ v)
  | _ => false

/-- 10 R198: TWRITE. -/
def twrite (x : Site) (a : StlIns) (s : State) : WOut :=
  let rb := tileBytes a.f
  let row (i : Nat) := readLocal s x.w (a.loc + i * rb) rb
  if inOpenRange s x.w a.f a.tile a.n || !inWork x.prog a.loc (a.n * rb) || (a.f == .i64s && decide (62 < a.sigma))
      || a.tiles.any (fun t => (decRow a.f (row t.1)).any (badRaw a.f)) then rangeBreach s
  else if interlocked (getWren s x.w) [(a.loc, a.n * rb)] [a.range x] then .block 7 s
  else .retire (a.tiles.foldl (fun s t =>
    let v := getTsw x.roost t.2 s
    putTsw x.roost t.2 { v with empty := false, exhausted := false, termLimit := false, boundLost := false, retries := 0, terms := 0
                                fmt := fmtCode a.f, scale := if a.f = .i64s then a.sigma else v.scale }
      (setMem (memWrite s.mem (x.roost.at_ t.2) (row t.1)) s)) (countLines x (a.n * rb) 0 s))

/-- 10 R198. -/
def execTwrite (w : Nat) (s : State) : Res := .next (runInsn 4 4 (stlIns twrite) w s)

/-! TOPK, MAXI and MINI (10 R209, R210). -/

/-- The values of the vector that COUNT tiles form; an EMPTY tile compares as its identity. -/
def vector (x : Site) (a : StlIns) (s : State) : List Fl :=
  a.tiles.flatMap fun t =>
    let v := getTsw x.roost t.2 s
    if v.empty then List.replicate 64 (Fl.of 0) else (getTile x.roost a.f t.2 s).map (elemValue v.scale)

/-- A position put among those of larger or equal values. -/
def rankIn (e : Nat × Fl) : List (Nat × Fl) → List (Nat × Fl)
  | [] => [e]
  | f :: fs => if flLt f.2 e.2 then e :: f :: fs else f :: rankIn e fs

/-- 10 R209: positions, largest value first; between equal values the lower position first. -/
def ranked (vs : List Fl) : List Nat :=
  ((vs.zipIdx.map fun e => (e.2, e.1)).foldl (fun acc e => rankIn e acc) []).map Prod.fst

/-- 10 R209: TOPK. -/
def topk (x : Site) (a : StlIns) (s : State) : WOut :=
  let k := a.k1 + 1
  if !valued a.f || inOpenRange s x.w a.f a.tile a.n || !inWork x.prog a.loc (4 * k) then rangeBreach s
  else if interlocked (getWren s x.w) [a.range x] [(a.loc, 4 * k)] then .block 7 s
  else
    let ps := (ranked (vector x a s) ++ List.replicate k 0xFFFFFFFF).take k
    .retire (countLines x 0 (4 * k) (writeLocal x.w a.loc (ps.flatMap fun p => natLE 4 p) s))

/-- 10 R209. -/
def execTopk (w : Nat) (s : State) : Res := .next (runInsn 4 5 (stlIns topk) w s)

/-- 10 R210: the winner, with NaN losing to every number and ties to the lower position. -/
def winner (least : Bool) : List (Nat × Fl) → Option (Nat × Fl)
  | [] => none
  | e :: es =>
    match winner least es with
    | none => some e
    | some b =>
      if b.2 = .nan then some e
      else if e.2 = .nan then some b
      else if (if least then flLt b.2 e.2 else flLt e.2 b.2) then some b else some e

/-- 10 R210: MAXI and MINI. With COUNT 0 there is no element, and what is written is a free value (log 31). -/
def extreme (least : Bool) (x : Site) (a : StlIns) (s : State) : WOut :=
  let b := elemBytes a.f
  if !valued a.f || inOpenRange s x.w a.f a.tile a.n || !inWork x.prog a.loc (4 + b) then rangeBreach s
  else if interlocked (getWren s x.w) [a.range x] [(a.loc, 4 + b)] then .block 7 s
  else match winner least ((vector x a s).zipIdx.map fun e => (e.2, e.1)) with
    | some e =>
      let raw := memRead s.mem (x.roost.at_ (a.tile + e.1 / 64 * granules a.f) + e.1 % 64 * b) b
      .retire (writeLocal x.w a.loc (natLE 4 e.1 ++ raw) s)
    | none =>
      let r := drawBytes (4 + b) s
      .retire (writeLocal x.w a.loc r.1 r.2)

/-- 10 R210. -/
def execMaxi (w : Nat) (s : State) : Res := .next (runInsn 4 6 (stlIns (extreme false)) w s)

/-- 10 R210. -/
def execMini (w : Nat) (s : State) : Res := .next (runInsn 4 7 (stlIns (extreme true)) w s)

/-! COMBINE (10 R212). -/

/-- The status word that 8 bytes spell (10 Table 10.3). -/
def tswOf (n : Nat) : Tsw :=
  { empty := bitOf n 0, opn := bitOf n 1, group := bits n 2 3, exhausted := bitOf n 5, termLimit := bitOf n 6, boundLost := bitOf n 7
    scale := bits n 8 6, retries := bits n 14 4, fmt := bits n 18 3, terms := bits n 32 32 }

/-- 10 R212: COMBINE reads COUNT raw rows followed by their status words, as TREAD with STATUS writes them (log 34). -/
def combine (x : Site) (a : StlIns) (s : State) : WOut :=
  let rb := tileBytes a.f
  let len := a.n * (rb + 8)
  let tsw (i : Nat) := tswOf (leNat (readLocal s x.w (a.loc + a.n * rb + 8 * i) 8))
  if !groupOk s x.w a.grp a.f a.order a.tile a.n || !inWork x.prog a.loc len
      || (a.f == .i64s && a.tiles.any fun t => decide (62 < (tsw t.1).scale)) then rangeBreach s
  else if interlocked (getWren s x.w) [(a.loc, len)] [a.range x] then .block 7 s
  else
    let g := getGroup s x.w a.grp
    let s := a.tiles.foldl (fun s t =>
      let row := decRow a.f (readLocal s x.w (a.loc + t.1 * rb) rb)
      if g.opn && ordered a.f && g.order != 0 then pushLeaf x.roost a.f g.order t.2 row (some (tsw t.1)) s
      else combineRow x.roost a.f t.2 (bitOf a.epi 0) row (tsw t.1) s) (countLines x len 0 s)
    .retire (if bitOf a.epi 2 then flushGroup x.roost a.grp s else s)

/-- 10 R212. -/
def execCombine (w : Nat) (s : State) : Res := .next (runInsn 4 8 (stlIns combine) w s)

/-! Ingress (10 R213). -/

/-- 10 R213: the formats that ingress and accumulate-write add in. -/
def ingressFmt (f : AccFmt) : Bool := match f with | .x704 => true | .z64 => true | .p255 => true | _ => false

/-- The element that a raw ingress element brings; a P255 word is reduced (10 R194). -/
def ingressElem (f : AccFmt) (e : Elem) : Elem := match e with | .word v => .word (if f = .p255 then v % primeP else v) | e => e

/-- A raw row is added into a tile in sequence, atomic per tile (10 R213): an X704 row combines its value, terms and flags. -/
def ingressAdd (r : Roost) (f : AccFmt) (t : Nat) (raw : List Byte) (s : State) : State :=
  let row := (decRow f raw).map (ingressElem f)
  let v := getTsw r t s
  let new := List.zipWith (addElem (f == .p255)) (getTile r f t s) row
  let s := countStl r (rowEvent f) 1 s
  if overLimit new then markLimit r t s else storeTile r f t new (tswEnter f none v) s

/-- 10 R213: why an ingress add is refused: 0x0105 for another format or a tile out of range, 0x0401 for a tile in an open group. -/
def ingressFault (s : State) (r : Roost) (f : AccFmt) (t len : Nat) : Option Nat :=
  if !ingressFmt f || !r.fits f t 1 || len != tileBytes f then some 0x0105
  else if inOpenRange s r.w f t 1 then some 0x0401
  else none

/-- The roost of a Wren outside a run: that of its last program's code, as the thicket's largest loaded roost (log 35). -/
def wrenRoost (s : State) (w : Nat) : Nat :=
  match runOf s w with
  | some r => ((progOf s r.prog).map fun p => roostSize p.roost).getD (roostSize 0)
  | none =>
    s.host.objs.foldl (fun n e => match e.2.kind with
      | .prog p => if p.mask.getLsbD (w / 24) then max n (roostSize p.roost) else n
      | _ => n) (roostSize 0)

/-- The context that a Wren's tiles belong to: the one its thicket is bound to. -/
def wrenCtx (s : State) (w : Nat) : Nat := ((getThk s (w / 24)).bound).getD 0

/-- 10 R213: a row that reaches Starling ingress for a tile of a Wren. -/
def execIngressRowAdd (w tile : Nat) (fmt : AccFmt) (row : List Byte) (s : State) : Res :=
  .next (let r : Roost := { w := w, size := wrenRoost s w, ctx := wrenCtx s w, ingress := true }
    if !powered s || wrenCount s ≤ w || quarantined s (unitId 3 0) then s
    else match ingressFault s r fmt tile row.length with
      | some _ => countStl r 0x29 1 s
      | none => ingressAdd r fmt tile row s)

end Sys2Proof.Machine
end

