-- ==== Sys2Proof/Machine/Warbler.lean ====
section
/-! DEFINITION. Warbler (17): tables and their checks (R334, R337), normalization (R335, R336), streams (R338), submissions (R339), the mask (R340) and MASK (R342). -/

namespace Sys2Proof.Machine

/-! Code points. -/

/-- A Unicode scalar value. -/
def scalarOk (c : Nat) : Bool := c ≤ 0x10FFFF && !(0xD800 ≤ c && c ≤ 0xDFFF)

/-- A continuation byte in a range. -/
def contIn (lo hi : Nat) (b : Nat) : Bool := lo ≤ b && b ≤ hi

/-- The range that the second byte after lead `a` may take, and the length of the sequence (Unicode, well-formed UTF-8); length 0 for
a byte that leads nothing. -/
def leadOf (a : Nat) : Nat × Nat × Nat :=
  if a < 0x80 then (1, 0, 0)
  else if 0xC2 ≤ a ∧ a ≤ 0xDF then (2, 0x80, 0xBF)
  else if a = 0xE0 then (3, 0xA0, 0xBF)
  else if a = 0xED then (3, 0x80, 0x9F)
  else if 0xE1 ≤ a ∧ a ≤ 0xEF then (3, 0x80, 0xBF)
  else if a = 0xF0 then (4, 0x90, 0xBF)
  else if a = 0xF4 then (4, 0x80, 0x8F)
  else if 0xF1 ≤ a ∧ a ≤ 0xF3 then (4, 0x80, 0xBF)
  else (0, 0, 0)

/-- How many bytes of a sequence of `len` bytes are well formed from its start. -/
def goodPrefix (len lo hi : Nat) (bs : List Nat) : Nat :=
  if len ≤ 1 then 1
  else if !contIn lo hi (bs.getD 1 0x100) then 1
  else if len = 2 then 2
  else if !contIn 0x80 0xBF (bs.getD 2 0x100) then 2
  else if len = 3 then 3
  else if contIn 0x80 0xBF (bs.getD 3 0x100) then 4 else 3

/-- The code point of a well-formed sequence. -/
def joinUtf8 (bs : List Nat) : Nat :=
  let lead := match bs.length with | 1 => bs.getD 0 0 | 2 => bs.getD 0 0 % 32 | 3 => bs.getD 0 0 % 16 | _ => bs.getD 0 0 % 8
  (bs.drop 1).foldl (fun v b => v * 64 + b % 64) lead

/-- 17 R335 step 1: UTF-8 decoded; each maximal subpart of an ill-formed sequence becomes U+FFFD, and the second part tells whether
one did. The number bounds the steps. -/
def decodeUtf8 : Nat → List Nat → List Nat × Bool
  | 0, _ => ([], false)
  | _ + 1, [] => ([], false)
  | f + 1, b :: bs =>
    let l := leadOf b
    let g := goodPrefix l.1 l.2.1 l.2.2 (b :: bs)
    let ok := l.1 ≠ 0 ∧ g = l.1
    let r := decodeUtf8 f ((b :: bs).drop g)
    (if ok then joinUtf8 ((b :: bs).take g) :: r.1 else 0xFFFD :: r.1, !decide ok || r.2)

/-- UTF-8 of a code point. -/
def encodeUtf8 (c : Nat) : List Byte :=
  let bs : List Nat :=
    if c < 0x80 then [c]
    else if c < 0x800 then [0xC0 + c / 64, 0x80 + c % 64]
    else if c < 0x10000 then [0xE0 + c / 4096, 0x80 + c / 64 % 64, 0x80 + c % 64]
    else [0xF0 + c / 262144, 0x80 + c / 4096 % 64, 0x80 + c / 64 % 64, 0x80 + c % 64]
  bs.map fun n => BitVec.ofNat 8 n

/-! Normalization tables (17 Tables 17.2, 17.3). -/

/-- Kind, flags and parameter of a table, and offset and length of its sections. -/
def nKind (b : List Byte) : Nat := field b 6 1
def nFlag (b : List Byte) (i : Nat) : Bool := bitOf (field b 7 1) i
def nParam (b : List Byte) : Nat := field b 0x0C 4
def nSec (b : List Byte) (i : Nat) : Nat × Nat := (field b (0x10 + 8 * i) 4, field b (0x14 + 8 * i) 4)

/-- The block index of a code point in a section 1. -/
def blockOf (b : List Byte) (c : Nat) : Nat := field b ((nSec b 0).1 + 2 * (c / 256)) 2

/-- The offset of the MAP entry of a code point, and of entry `i`. -/
def mapAt (b : List Byte) (c : Nat) : Nat := (nSec b 1).1 + 4096 * blockOf b c + 16 * (c % 256)

/-- The combining class of a code point in a COMPOSE table: section 1 holds block indexes and then blocks of 256 bytes (log 38). -/
def composeClass (b : List Byte) (c : Nat) : Nat := field b ((nSec b 0).1 + 8704 + 256 * blockOf b c + c % 256) 1

/-- A refusal of a table: 0x0104 or 0x0105 with the byte offset. -/
abbrev TableErr := Option (Nat × Nat)

/-- The first of several checks that fails. -/
def firstErr (es : List TableErr) : TableErr := es.findSome? id

/-- One check: a status and an offset where the condition does not hold. -/
def need (ok : Bool) (st off : Nat) : TableErr := if ok then none else some (st, off)

/-- A section lies in the table and has the length that its kind and parameter give it. -/
def secCheck (b : List Byte) (len i want : Nat) : TableErr :=
  let r := nSec b i
  need (r.2 == want && (r.2 == 0 || (64 ≤ r.1 && r.1 + r.2 ≤ len))) 0x0105 (0x10 + 8 * i)

/-- The block indexes of section 1 name blocks that exist. -/
def blockCheck (b : List Byte) (blocks : Nat) : TableErr :=
  ((List.range 4352).find? fun i => decide (blocks ≤ field b ((nSec b 0).1 + 2 * i) 2)).map fun i => (0x0105, (nSec b 0).1 + 2 * i)

/-- The four code points at an offset of a MAP entry. -/
def mapCps (b : List Byte) (at_ : Nat) : List Nat := (List.range 4).map fun k => field b (at_ + 4 + 3 * k) 3

/-- One MAP entry. -/
def mapEntryCheck (b : List Byte) (at_ : Nat) : TableErr :=
  let f := field b (at_ + 1) 1
  firstErr [need (f / 16 == 0 && field b (at_ + 2) 2 == 0) 0x0104 (at_ + 1), need (decide (f % 8 ≤ 4)) 0x0105 (at_ + 1),
            need (!(bitOf f 3 && f % 8 != 0)) 0x0105 (at_ + 1), need ((mapCps b at_).all scalarOk) 0x0105 (at_ + 4)]

/-- A MAP table. -/
def mapCheck (b : List Byte) (len : Nat) : TableErr :=
  firstErr [need (nParam b % 256 == 0) 0x0105 0x0C, secCheck b len 0 8704, secCheck b len 1 (16 * nParam b),
            blockCheck b (nParam b / 256),
            (List.range (nParam b)).findSome? fun i => mapEntryCheck b ((nSec b 1).1 + 16 * i)]

/-- Pair `i` of a COMPOSE table. -/
def pairOf (b : List Byte) (i : Nat) : Nat × Nat × Nat :=
  let at_ := (nSec b 1).1 + 12 * i
  (field b at_ 3, field b (at_ + 3) 3, field b (at_ + 6) 3)

/-- One pair, and its order after the one before it. -/
def pairCheck (b : List Byte) (i : Nat) : TableErr :=
  let at_ := (nSec b 1).1 + 12 * i
  let p := pairOf b i
  let o := pairOf b (i - 1)
  firstErr [need (field b (at_ + 9) 3 == 0) 0x0104 (at_ + 9), need (scalarOk p.1 && scalarOk p.2.1 && scalarOk p.2.2) 0x0105 at_,
            need (i == 0 || o.1 < p.1 || (o.1 == p.1 && o.2.1 < p.2.1)) 0x0105 at_]

/-- A COMPOSE table. -/
def composeCheck (b : List Byte) (len : Nat) : TableErr :=
  let blocks := ((nSec b 0).2 - 8704) / 256
  firstErr [secCheck b len 0 (8704 + 256 * blocks), secCheck b len 1 (12 * nParam b), blockCheck b blocks,
            (List.range (nParam b)).findSome? (pairCheck b)]

/-- Range `i` of a FOLD table. -/
def foldRange (b : List Byte) (i : Nat) : Nat × Nat := (field b ((nSec b 0).1 + 8 * i) 3, field b ((nSec b 0).1 + 8 * i + 3) 3)

/-- One range, and its order after the one before it. -/
def rangeCheck (b : List Byte) (i : Nat) : TableErr :=
  let at_ := (nSec b 0).1 + 8 * i
  let r := foldRange b i
  firstErr [need (field b (at_ + 6) 2 == 0) 0x0104 (at_ + 6), need (scalarOk r.1 && scalarOk r.2 && decide (r.1 ≤ r.2)) 0x0105 at_,
            need (i == 0 || decide ((foldRange b (i - 1)).2 < r.1)) 0x0105 at_]

/-- A FOLD table. -/
def foldCheck (b : List Byte) (len : Nat) : TableErr :=
  let n := (nSec b 0).2 / 8
  firstErr [need (scalarOk (nParam b)) 0x0105 0x0C, secCheck b len 0 (8 * n), secCheck b len 1 0, (List.range n).findSome? (rangeCheck b)]

/-- 17 Tables 17.2, 17.3: the check of a normalization table of `len` bytes. -/
def normCheck (b : List Byte) (len : Nat) : TableErr :=
  let k := nKind b
  let fl := field b 7 1
  let rest := if k = 1 then fl % 256 / 2 * 2 else if k = 3 then fl - fl / 2 % 2 * 2 else fl
  firstErr [need (field b 0 4 == 0x4B4C4E54) 0x0104 0, need (field b 4 2 == 1) 0x0104 4, need (rest == 0) 0x0104 7,
            need (field b 0x0B 1 == 0) 0x0104 0x0B, need ((sub b 0x20 32).all (· == 0)) 0x0104 0x20,
            need (1 ≤ k && k ≤ 3) 0x0105 6,
            if k = 1 then mapCheck b len else if k = 2 then composeCheck b len else foldCheck b len]

/-! Normalizing (17 Table 17.3). -/

/-- MAP of one code point, with the combining class of each result. -/
def mapOne (b : List Byte) (c : Nat) : List Nat :=
  let f := field b (mapAt b c + 1) 1
  if bitOf f 3 then [c] else (mapCps b (mapAt b c)).take (f % 8)

/-- A mark put in canonical order into a reversed list of code points with classes. -/
def orderIn (e : Nat × Nat) : List (Nat × Nat) → List (Nat × Nat)
  | [] => [e]
  | x :: xs => if e.2 ≠ 0 ∧ e.2 < x.2 then x :: orderIn e xs else e :: x :: xs

/-- Canonical ordering by combining class. -/
def reorder (cls : Nat → Nat) (cs : List Nat) : List Nat :=
  ((cs.foldl (fun acc c => orderIn (c, cls c) acc) []).map Prod.fst).reverse

/-- MAP. -/
def doMap (b : List Byte) (cs : List Nat) : List Nat :=
  let out := cs.flatMap (mapOne b)
  if nFlag b 0 then reorder (fun c => field b (mapAt b c) 1) out else out

/-- What composition has so far: finished code points, the last starter, and what follows it. -/
structure Comp where
  done : List Nat
  starter : Option Nat
  tail : List Nat

/-- The composite of a listed pair. -/
def pairFor (b : List Byte) (st mark : Nat) : Option Nat :=
  ((List.range (nParam b)).find? fun i => (pairOf b i).1 == st && (pairOf b i).2.1 == mark).map fun i => (pairOf b i).2.2

/-- One code point of canonical composition (UAX #15). -/
def compStep (b : List Byte) (v : Comp) (c : Nat) : Comp :=
  let cc := composeClass b c
  let free := v.tail.all fun t => decide (composeClass b t < cc)
  match v.starter with
  | none => if cc = 0 then { v with starter := some c } else { v with done := v.done ++ [c] }
  | some st =>
    match (if free then pairFor b st c else none) with
    | some x => { v with starter := some x }
    | none =>
      if cc = 0 then { done := v.done ++ st :: v.tail, starter := some c, tail := [] }
      else { v with tail := v.tail ++ [c] }

/-- COMPOSE. -/
def doCompose (b : List Byte) (cs : List Nat) : List Nat :=
  let v := cs.foldl (compStep b) { done := [], starter := none, tail := [] }
  v.done ++ (match v.starter with | some c => [c] | none => []) ++ v.tail

/-- A code point of a FOLD set. -/
def inFold (b : List Byte) (c : Nat) : Bool :=
  (List.range ((nSec b 0).2 / 8)).any fun i => decide ((foldRange b i).1 ≤ c ∧ c ≤ (foldRange b i).2)

/-- Each maximal run of the set becomes the replacement; `prev` says that a run is open. -/
def foldRuns (set : Nat → Bool) (rep : Nat) : Bool → List Nat → List Nat
  | _, [] => []
  | prev, c :: cs => if set c then (if prev then foldRuns set rep true cs else rep :: foldRuns set rep true cs) else c :: foldRuns set rep false cs

/-- FOLD; with TRIM, runs at the start and the end go first. -/
def doFold (b : List Byte) (cs : List Nat) : List Nat :=
  let t := if nFlag b 1 then ((cs.dropWhile (inFold b)).reverse.dropWhile (inFold b)).reverse else cs
  foldRuns (inFold b) (nParam b) false t

/-- One table of a chain. -/
def applyTable (b : List Byte) (cs : List Nat) : List Nat :=
  if nKind b = 1 then doMap b cs else if nKind b = 2 then doCompose b cs else doFold b cs

/-- 17 R336: the longest run of whole sequences within a limit. -/
def fitUtf8 (left : Nat) : List Nat → List Nat
  | [] => []
  | c :: cs => if (encodeUtf8 c).length ≤ left then c :: fitUtf8 (left - (encodeUtf8 c).length) cs else []

/-! Grammars (17 Tables 17.4 to 17.6). -/

/-- Header fields of a grammar. -/
def gStates (b : List Byte) : Nat := field b 6 2
def gRows (b : List Byte) : Nat := field b 8 2
def gStart (b : List Byte) : Nat := field b 0x0A 2
def gOff (b : List Byte) : Nat := field b 0x0C 4

/-- The entry of state `q`. -/
def gEntry (b : List Byte) (q : Nat) : Nat := gOff b + 16 * q
def gRow (b : List Byte) (q : Nat) : Nat := field b (gEntry b q) 2
def dPop (b : List Byte) (q : Nat) : Nat := field b (gEntry b q + 2) 2
def dAcc (b : List Byte) (q : Nat) : Nat := field b (gEntry b q + 4) 2
def gAccept (b : List Byte) (q : Nat) : Bool := bitOf (field b (gEntry b q + 8) 1) 0

/-- The transition word of state `q` for a byte. -/
def gWord (b : List Byte) (q byte : Nat) : Nat := field b (gOff b + 16 * gStates b + 1024 * gRow b q + 4 * byte) 4

/-- KIND, first state and return state of a transition word. -/
def wKind (w : Nat) : Nat := bits w 0 2
def wNext (w : Nat) : Nat := bits w 2 14
def wRet (w : Nat) : Nat := bits w 16 14

/-- Rsvd and zero fields of a transition word. -/
def wordRsvd (w : Nat) : Bool := bits w 30 2 != 0 || (wKind w != 2 && wRet w != 0) || (wKind w == 3 && wNext w != 0)

/-- The states that a transition word names exist. -/
def wordRange? (n w : Nat) : Bool :=
  (wKind w != 1 && wKind w != 2 || decide (wNext w < n)) && (wKind w != 2 || decide (wRet w < n))

/-- One check over every state: the number of the first state that fails it. -/
def stateCheck (b : List Byte) (st : Nat) (ok : Nat → Bool) : TableErr :=
  ((List.range (gStates b)).find? fun q => !ok q).map fun q => (st, q)

/-- Every word of a row. -/
def rowAll (b : List Byte) (f : Nat → Bool) (q : Nat) : Bool := (List.range 256).all fun i => f (gWord b q i)

/-- 17 Table 17.6: the close byte for d_pop. -/
def popClose (b : List Byte) (q : Nat) : Bool :=
  let w := gWord b q (field b (gEntry b q + 6) 1)
  dPop b q == 0xFFFF || (wKind w == 3 && dPop b q == 1) || (wKind w == 1 && dPop b (wNext w) + 1 == dPop b q)

/-- 17 Table 17.6: the close byte for d_acc. -/
def accClose (b : List Byte) (q : Nat) : Bool :=
  let w := gWord b q (field b (gEntry b q + 7) 1)
  dAcc b q == 0 || dAcc b q == 0xFFFF || (wKind w == 1 && dAcc b (wNext w) + 1 == dAcc b q)

/-- 17 R337, Table 17.6: the checks of a grammar of `len` bytes, in order. A wrong magic or format is refused as in a normalization
table (log 38). -/
def gramCheck (b : List Byte) (len : Nat) : TableErr :=
  let n := gStates b
  let hdr := decide (1 ≤ n ∧ n ≤ 16384 ∧ 1 ≤ gRows b ∧ gRows b ≤ 4032 ∧ gStart b < n ∧ 64 ≤ gOff b)
    && len == gOff b + 16 * n + 1024 * gRows b
  firstErr [need (field b 0 4 == 0x4B4C4A47 && field b 4 2 == 1) 0x0104 0, need hdr 0x0105 0,
            need ((sub b 0x10 48).all (· == 0)) 0x0104 0,
            stateCheck b 0x0104 fun q => bits (field b (gEntry b q + 8) 1) 1 7 == 0 && (sub b (gEntry b q + 9) 7).all (· == 0),
            stateCheck b 0x0105 fun q => decide (gRow b q < gRows b),
            stateCheck b 0x0104 (rowAll b fun w => !wordRsvd w),
            stateCheck b 0x0105 (rowAll b (wordRange? n)),
            stateCheck b 0x0105 fun q => (dAcc b q == 0) == gAccept b q,
            stateCheck b 0x0105 (popClose b), stateCheck b 0x0105 (accClose b),
            need (decide (dAcc b (gStart b) < 0xFFFF)) 0x0105 (gStart b)]

/-! Table memory (17 R334, Table 17.1). -/

/-- A table by index. -/
def getTbl (s : State) (i : Nat) : WTable := tabGet WTable.init s.wbl.tables i
def putTbl (i : Nat) (v : WTable) (s : State) : State := onWbl (fun w => { w with tables := tabPut WTable.init w.tables i v }) s

/-- The tables that share a limit with those of context `c`. -/
def tblPeers (s : State) (c : Nat) : List (Nat × WTable) :=
  s.wbl.tables.filter fun e => e.2.live && (!s.host.shared || (getCtx s e.2.ctx).part == (getCtx s c).part)

/-- Free table memory, and whether an index is left. -/
def tblFree (s : State) (c : Nat) : Nat :=
  (if s.host.shared then 4194304 else 33554432) - (tblPeers s c).foldl (fun n e => n + e.2.bytes.length) 0
def tblRoom (s : State) (c : Nat) : Bool := (tblPeers s c).length < (if s.host.shared then 16 else 128)

/-- A handle of a table. -/
def tblHandle (i gen : Nat) : Nat := i + gen * 256

/-- The live table that a handle names. -/
def tblOf (s : State) (h : Nat) : Option (Nat × WTable) :=
  let i := h % 128
  let v := getTbl s i
  if v.live && tblHandle i v.gen == h then some (i, v) else none

/-- A stream uses a table. -/
def tblUsed (s : State) (i : Nat) : Bool := s.wbl.streams.any fun e => e.2.st != 0 && (e.2.gram == i || e.2.chain.contains i)

/-- A table without a host reference that no stream uses leaves table memory (06 R127). -/
def reapTbl (i : Nat) (s : State) : State :=
  let v := getTbl s i
  if v.live && !v.host && !tblUsed s i then putTbl i { WTable.init with gen := (v.gen + 1) % 128 } s else s

/-- Why a table is refused. -/
def tableErr (norm : Bool) (b : List Byte) (len : Nat) : TableErr := if norm then normCheck b len else gramCheck b len

/-- A table enters table memory. -/
def storeTbl (c : Nat) (norm : Bool) (b : List Byte) (s : State) : Reply × State :=
  let i := lowestFree ((s.wbl.tables.filter fun e => e.2.live).map Prod.fst)
  let gen := (getTbl s i).gen
  if !tblRoom s c || decide (tblFree s c < b.length) then refuse s 0x0303 (tblFree s c)
  else (.done (Done.res (tblHandle i gen) 0), putTbl i { gen := gen, ctx := c, live := true, host := true, norm := norm, bytes := b } s)

/-- 17 R334: WBL_TABLE_LOAD. -/
def wblTableLoad : Body := fun _ p s =>
  let len := p.w 1
  let norm := bitOf (p.w 2) 0
  if !norm && decide (4194304 < len) then refuse s 0x0105 0
  else if 33554432 < len then refuse s 0x0303 (tblFree s p.ctx)
  else match dvaRead s p.ctx (p.w 0) len .read false with
    | .error e => refuse s (accStatus .read e).1 (accStatus .read e).2
    | .ok b =>
      match tableErr norm b len with
      | some e => refuse s e.1 e.2
      | none => storeTbl p.ctx norm b s

/-- 17 R334. -/
def execWblTableLoad (q : QRef) (s : State) : Res := .next (runCmd 0x0900 (onUnit (unitId 0x0C 0) wblTableLoad) q s)

/-- 17 R334: WBL_TABLE_UNLOAD. -/
def wblTableUnload : Body := fun _ p s =>
  match tblOf s (bits (p.w 0) 0 16) with
  | none => refuse s 0x0403 0
  | some (i, v) =>
    if !inScope s p.ctx v.ctx then refuse s 0x0202 0
    else if !v.host then refuse s 0x0403 0
    else (.done Done.ok, reapTbl i (putTbl i { v with host := false } s))

/-- 17 R334. -/
def execWblTableUnload (q : QRef) (s : State) : Res := .next (runCmd 0x0901 (onUnit (unitId 0x0C 0) wblTableUnload) q s)

/-! The mask (17 R340). -/

/-- Sums saturate at 0xFFFF. -/
def sat16 (n : Nat) : Nat := min n 0xFFFF

/-- The bytes of a stream's grammar. -/
def gramOf (s : State) (v : Stream) : List Byte := (getTbl s v.gram).bytes

/-- The tail cost of the top frame. -/
def topCost (v : Stream) : Nat := match v.frames with | f :: _ => f.tail | [] => 0

/-- need(q, k, t). -/
def needAt (b : List Byte) (q k t : Nat) : Nat := if k = 0 then dAcc b q else sat16 (dPop b q + t)

/-- The tail cost that a PUSH stores. -/
def pushCost (b : List Byte) (v : Stream) (w : Nat) : Nat :=
  if v.frames.isEmpty then dAcc b (wRet w) else sat16 (topCost v + dPop b (wRet w))

/-- The need after a byte; 0xFFFF where the grammar does not allow it. -/
def needAfter (b : List Byte) (v : Stream) (byte : Nat) : Nat :=
  let w := gWord b v.q byte
  let k := v.frames.length
  if wKind w = 1 then needAt b (wNext w) k (topCost v)
  else if wKind w = 2 then (if k = 256 then 0xFFFF else sat16 (dPop b (wNext w) + pushCost b v w))
  else if wKind w = 3 then (if k = 0 then 0xFFFF else topCost v)
  else 0xFFFF

/-- 17 R340: the mask of a stream for an outcome: a byte, 256 for END, 257 for PAD. -/
def maskBit (b : List Byte) (v : Stream) (o : Nat) : Bool :=
  if v.st = 2 then o == 257
  else if o = 256 then v.frames.isEmpty && gAccept b v.q
  else if o = 257 then false
  else needAfter b v o + 1 ≤ v.lout - v.e

/-- The stack and state after an accepted byte. -/
def afterByte (b : List Byte) (v : Stream) (byte : Nat) : Stream :=
  let w := gWord b v.q byte
  let v := { v with e := v.e + 1 }
  if wKind w = 2 then { v with q := wNext w, frames := { ret := wRet w, tail := pushCost b v w } :: v.frames }
  else if wKind w = 3 then
    (match v.frames with
     | f :: fs => { v with q := f.ret, frames := fs }
     | [] => v)
  else { v with q := wNext w }

/-- 17 R340: the start configuration. -/
def restart (b : List Byte) (v : Stream) : Stream := { v with st := 1, q := gStart b, frames := [], e := 0 }

/-- 17 Table 17.10: a mask is computed; whether the budget removed a byte that the grammar allows. -/
def countMask (c : Nat) (b : List Byte) (v : Stream) (s : State) : State :=
  let cut := (List.range 256).any fun o => needAfter b v o != 0xFFFF && !maskBit b v o
  count c 10 0 0x83 (b2n cut) (count c 10 0 0x82 1 s)

/-! Streams (17 R338). -/

/-- The stream numbers of a context's partition. -/
def streamsFor (s : State) (c : Nat) : List Nat :=
  if s.host.shared then (List.range 8).map (8 * (getCtx s c).part + ·) else List.range 64

/-- The normalization chain of four 16-bit fields, or none where one names no normalization table of the context. -/
def chainOf (s : State) (c w : Nat) : Nat → Option (List Nat)
  | 0 => some []
  | n + 1 =>
    match chainOf s c w n with
    | none => none
    | some l =>
      let h := bits w (16 * n) 16
      if h = 0xFFFF then some l
      else match tblOf s h with
        | some (i, v) => if v.norm && v.host && v.ctx == c then some (l ++ [i]) else none
        | none => none

/-- 17 R338: WBL_STREAM_OPEN. -/
def wblStreamOpen : Body := fun _ p s =>
  let lin := bits (p.w 2) 0 16
  let lout := bits (p.w 2) 16 16
  match (streamsFor s p.ctx).find? fun i => (getStream s i).st == 0 with
  | none => refuse s 0x0306 (streamsFor s p.ctx).length
  | some i =>
    match tblOf s (bits (p.w 0) 0 16), chainOf s p.ctx (p.w 1) 4 with
    | some (g, t), some chain =>
      if t.norm || !t.host || t.ctx != p.ctx then refuse s 0x0403 0
      else if lin = 0 then refuse s 0x0105 (paramAt 2 0)
      else if lout = 0 ∨ lout < dAcc t.bytes (gStart t.bytes) then refuse s 0x0105 (paramAt 2 16)
      else
        let v : Stream := { st := 1, secret := bitOf (p.w 2) 32, ctx := p.ctx, gram := g, chain := chain, lin := lin, lout := lout
                            q := 0, frames := [], e := 0 }
        let v := restart t.bytes v
        (.done (Done.res i 0), countMask p.ctx t.bytes v (putStream i v s))
    | _, _ => refuse s 0x0403 0

/-- 17 R338. -/
def execWblStreamOpen (q : QRef) (s : State) : Res := .next (runCmd 0x0902 (onUnit (unitId 0x0C 0) wblStreamOpen) q s)

/-- 17 Table 17.7: a stream becomes Free; its tables may go. -/
def closeStream (i : Nat) (s : State) : State :=
  let v := getStream s i
  (v.gram :: v.chain).foldl (fun s t => reapTbl t s) (putStream i Stream.init s)

/-- The stream that a command of context `c` names. -/
def nameStream (s : State) (c i : Nat) : Except (Nat × Nat) Stream :=
  let v := getStream s i
  if v.st = 0 then .error (0x0403, 0) else if !inScope s c v.ctx then .error (0x0202, 0) else .ok v

/-- 17 R338: WBL_STREAM_CLOSE. -/
def wblStreamClose : Body := fun _ p s =>
  match nameStream s p.ctx (bits (p.w 0) 0 6) with
  | .error e => refuse s e.1 e.2
  | .ok _ => (.done Done.ok, closeStream (bits (p.w 0) 0 6) s)

/-- 17 R338. -/
def execWblStreamClose (q : QRef) (s : State) : Res := .next (runCmd 0x0903 (onUnit (unitId 0x0C 0) wblStreamClose) q s)

/-- 17 R335, R336: what a text becomes: the code points kept, and the REPLACED and TRUNCATED marks. -/
def normalizeText (s : State) (v : Stream) (bs : List Byte) : List Nat × Bool × Bool :=
  let d := decodeUtf8 (bs.length + 1) (bs.map BitVec.toNat)
  let cs := v.chain.foldl (fun cs i => applyTable (getTbl s i).bytes cs) d.1
  let kept := fitUtf8 v.lin cs
  (kept, d.2, kept.length < cs.length)

/-- 17 R335: WBL_NORMALIZE. -/
def wblNormalize : Body := fun _ p s =>
  let len := bits (p.w 2) 0 16
  match nameStream s p.ctx (bits (p.w 0) 0 6) with
  | .error e => refuse s e.1 e.2
  | .ok v =>
    if len = 0 then (.done (Done.res 0 0), s)
    else match dvaRead s p.ctx (p.w 1) len .read false with
      | .error e => refuse s (accStatus .read e).1 (accStatus .read e).2
      | .ok bs =>
        let r := normalizeText s v bs
        let out := r.1.flatMap encodeUtf8
        match dvaWrite s p.ctx (p.w 3) out .write false with
        | .error e => refuse s (accStatus .write e).1 (accStatus .write e).2
        | .ok s =>
          (.done (Done.res out.length (b2n r.2.2 + b2n r.2.1 * 2)),
           count p.ctx 10 0 0x85 (b2n r.2.2) (count p.ctx 10 0 0x84 r.1.length s))

/-- 17 R335. -/
def execWblNormalize (q : QRef) (s : State) : Res := .next (runCmd 0x0904 (onUnit (unitId 0x0C 0) wblNormalize) q s)

/-! Submissions (17 R339) and MASK (R342). -/

/-- A submission to a stream of the run's context: its new state, or the status of the fault. The submission is decided as it is
issued (log 38). -/
def submit (s : State) (c i o : Nat) : Except (Nat × Nat) Stream :=
  let v := getStream s i
  let b := gramOf s v
  if quarantined s (unitId 0x0C 0) then .error (0x0C01, unitId 0x0C 0)
  else if v.st = 0 ∨ v.ctx ≠ c then .error (0x0403, Config.statusDetail 0x0403)
  else if 0x102 < o then .error (0x0105, Config.statusDetail 0x0105)
  else if o = 0x102 then .ok (restart b v)
  else if !maskBit b v o then .error (0x0105, Config.statusDetail 0x0105)
  else if o = 0x100 then .ok { v with st := 2 }
  else if o = 0x101 then .ok v
  else .ok (afterByte b v o)

/-- What an accepted submission counts. -/
def countSubmit (c o : Nat) (v : Stream) (s : State) : State :=
  let b := gramOf s v
  if o < 0x100 then countMask c b v (count c 10 0 0x81 1 (meter c (fun m => { m with wblBytes := m.wblBytes + 1 }) s))
  else if o = 0x102 then countMask c b v s else s

/-- The value and the stream of an ENG of kind 2. -/
def submitVal (x : Site) (s : State) : Nat := x.sr s 25 % 1024
def submitStream (x : Site) : Nat := bits x.insn 32 6

/-- 17 R339: ENG of kind 2. -/
def insSubmit (x : Site) (s : State) : WOut :=
  match submit s x.run.ctx (submitStream x) (submitVal x s) with
  | .error e => .fault e.1 e.2 none
  | .ok v => .retire (countSubmit x.run.ctx (submitVal x s) v (putStream (submitStream x) v s))

/-- KIND of an ENG instruction. -/
def engKind (x : Site) : Nat := bits x.insn 30 2

/-- An ENG of kind 2 whose value the row covers; another one is not this row's. -/
def submitRow (ok : Nat → Bool) (x : Site) (s : State) : WOut :=
  if engKind x = 2 ∧ ok (submitVal x s) then insSubmit x s else .hold s

/-- 17 R339. -/
def execWblByte (w : Nat) (s : State) : Res := .next (runInsn 7 1 (submitRow (fun v => v < 0x100)) w s)
/-- 17 R339. -/
def execWblEnd (w : Nat) (s : State) : Res := .next (runInsn 7 1 (submitRow (fun v => v == 0x100)) w s)
/-- 17 R339. -/
def execWblPad (w : Nat) (s : State) : Res := .next (runInsn 7 1 (submitRow (fun v => v == 0x101)) w s)
/-- 17 R339. -/
def execWblRestart (w : Nat) (s : State) : Res := .next (runInsn 7 1 (submitRow (fun v => v == 0x102)) w s)

/-- 17 R342: the logits with every masked-out entry −Inf. -/
def maskLogits (b : List Byte) (v : Stream) (logits : List Byte) : List Byte :=
  (List.range 258).flatMap fun o => if maskBit b v o then sub logits (4 * o) 4 else natLE 4 0xFF800000

/-- 17 R342: MASK; 18 R353: a Warbler in Quarantine admits no work. -/
def insMask (x : Site) (s : State) : WOut :=
  let at_ := x.sr s 20
  let v := getStream s (submitStream x)
  if quarantined s (unitId 0x0C 0) then .fault 0x0C01 (unitId 0x0C 0) none
  else if at_ % 64 ≠ 0 || !inWork x.prog at_ 1032 then rangeBreach s
  else if v.st = 0 ∨ v.ctx ≠ x.run.ctx then .breach s 0x0403
  else if interlocked (getWren s x.w) [(at_, 1032)] [(at_, 1032)] then .block 7 s
  else .retire (countLines x 1032 1032 (writeLocal x.w at_ (maskLogits (gramOf s v) v (readLocal s x.w at_ 1032)) s))

/-- 17 R342. -/
def execMask (w : Nat) (s : State) : Res := .next (runInsn 7 2 insMask w s)

/-- 06 R128, 17 Edges: the streams of a context are closed, and its tables dropped. -/
def dropCtxWbl (c : Nat) (s : State) : State :=
  let s := ((s.wbl.streams.filter fun e => e.2.st != 0 && e.2.ctx == c).map Prod.fst).foldl (fun s i => closeStream i s) s
  ((s.wbl.tables.filter fun e => e.2.live && e.2.ctx == c).map Prod.fst).foldl (fun s i =>
    reapTbl i (putTbl i { getTbl s i with host := false } s)) s

end Sys2Proof.Machine
end

