-- ==== Sys2Proof/Machine/Engine.lean ====
section
/-! DEFINITION. Engine submissions (09 R175, R179; 11 R220 to R222): ENG to Chaffinch, the Goldcrest gates, and the completion of a Wren's asynchronous operations. -/

namespace Sys2Proof.Machine

/-- The instance that an ENG of kind 0 or 1 names: SR[SA]. -/
def engInst (x : Site) (s : State) : Nat := x.sr s 25

/-- 09 R179: the run does not hold the instance, or it is in Quarantine. -/
def instErr (x : Site) (kind : Nat) (s : State) : Option (Nat × Nat) :=
  let i := engInst x s
  if 16 ≤ i ∨ (getInst s kind i).holder ≠ some x.run.id ∨ (getInst s kind i).fw then some (0x0401, Config.statusDetail 0x0401)
  else if quarantined s (instUnit kind i) then some (0x0C01, instUnit kind i)
  else none

/-- 09 R179, log 37: ENG of kind 0 submits the 64 bytes at SR[DESC]. -/
def insChaf (x : Site) (s : State) : WOut :=
  match instErr x 0 s with
  | some e => .fault e.1 e.2 none
  | none =>
    let i := engInst x s
    if !inWork x.prog (x.sr s 20) 64 then rangeBreach s
    else issueAsync x (.chaf i (x.sr s 20)) (putInst 0 i { getInst s 0 i with busy := true } s)

/-! Goldcrest descriptors (11 Tables 11.5, 11.6). -/

/-- A Goldcrest descriptor. -/
structure Gate where
  op : Nat
  w : Nat
  count : Nat
  inA : Nat
  inB : Nat
  inC : Nat
  out : Nat
  key : Nat

/-- The descriptor that 64 bytes spell. -/
def gateOfBytes (b : List Byte) : Gate :=
  { op := field b 0 2, w := field b 2 2, count := field b 4 2, inA := field b 8 8, inB := field b 0x10 8, inC := field b 0x18 8
    out := field b 0x20 8, key := field b 0x28 8 }

/-- Refreshes of one gate, and key passes of a descriptor. -/
def gateRefreshes (g : Gate) : Nat := if g.op ≤ 8 then 1 else if g.op = 9 then 2 else if g.op = 0x20 then 2 * g.w - 1 else 0

/-- 11 Table 11.6: a known operation. -/
def gateKnown (op : Nat) : Bool := (1 ≤ op && op ≤ 9) || op == 0x10 || op == 0x11 || op == 0x20

/-- 11 R221: a descriptor's form. -/
def gateForm (b : List Byte) : Bool :=
  let g := gateOfBytes b
  gateKnown g.op && field b 6 2 == 0 && (sub b 0x30 16).all (· == 0) && g.count ≤ 256
    && (if g.op = 0x20 then 1 ≤ g.w && g.w ≤ 15 else g.w == 0) && (g.op == 9 || g.inC == 0)

/-- 11 R220: the size of the refresh key, and of a ring-to-bit key of degree N. -/
def refreshKeyBytes : Nat := 53497856
def ringKeyBytes (n : Nat) : Nat := n * 5 * 769 * 4

/-- A key object of the run's context, with its size; else the status of the fault. -/
def gateKey (s : State) (c h : Nat) : Except Nat (Nat × Nat) :=
  match getObj? s h with
  | some o =>
    (match o.kind with
     | .mem k base size _ => if o.ctx = c ∧ o.host ∧ k ≠ .host then .ok (base, size) else .error 0x0403
     | _ => .error 0x0403)
  | none => .error 0x0403

/-- 11 R222: the source degree of a ring-to-bit key. -/
def ringDegree (size : Nat) : Option Nat := [4096, 8192, 16384, 32768].find? fun n => ringKeyBytes n == size

/-- 11 R221: the status that a descriptor's keys bring. -/
def gateKeyErr (s : State) (c : Nat) (g : Gate) : Option Nat :=
  if gateRefreshes g = 0 then none
  else match gateKey s c g.key with
    | .error e => some e
    | .ok k =>
      if k.2 ≠ refreshKeyBytes then some 0x0105
      else if g.op = 0x20 then
        (match gateKey s c g.inB with
         | .error e => some e
         | .ok r => if (ringDegree r.2).isNone then some 0x0105 else none)
      else none

/-- Bytes of one input record: a bit record, or the record that EXTRACT writes. -/
def gateInBytes (s : State) (c : Nat) (g : Gate) : Nat :=
  if g.op = 0x20 then
    (match gateKey s c g.inB with | .ok r => ((ringDegree r.2).getD 0 + 1) * 8 | .error _ => 0)
  else 3080

/-- The bytes that a descriptor writes. -/
def gateOutBytes (g : Gate) : Nat := g.count * 3080 * (if g.op = 0x20 then g.w else 1)

/-- The DVA ranges that a descriptor reads and writes. -/
def gateRanges (s : State) (c : Nat) (g : Gate) : List (Nat × Nat × Acc) :=
  [(g.inA, g.count * gateInBytes s c g, Acc.read)]
    ++ (if g.op ≤ 9 then [(g.inB, g.count * 3080, Acc.read)] else [])
    ++ (if g.op = 9 then [(g.inC, g.count * 3080, Acc.read)] else []) ++ [(g.out, gateOutBytes g, Acc.write)]

/-- 11 R221: why a descriptor faults the run: status, DETAIL and address. -/
def gateErr (s : State) (c : Nat) (g : Gate) : Option (Nat × Nat × Option Nat) :=
  match gateKeyErr s c g with
  | some e => some (e, Config.statusDetail e, none)
  | none =>
    (gateRanges s c g).findSome? fun r =>
      match rangeErr s c r.1 r.2.1 r.2.2 false with
      | none => none
      | some (.cause n d) => some ((accStatus r.2.2 (.cause n d)).1, (accStatus r.2.2 (.cause n d)).2, some d)
      | some e => some ((accStatus r.2.2 e).1, (accStatus r.2.2 e).2, some r.1)

/-- ENG of kind 1: the descriptor's fault, or the descriptor. -/
def gateSite (x : Site) (s : State) : Except (Nat × Nat × Option Nat) Gate :=
  match instErr x 1 s with
  | some e => .error (e.1, e.2, none)
  | none =>
    let at_ := x.sr s 20
    let b := readLocal s x.w at_ 64
    if !inWork x.prog at_ 64 || !gateForm b then .error (0x0105, faultDetail s 0x0105, none)
    else match gateErr s x.run.ctx (gateOfBytes b) with
      | some e => .error e
      | none => .ok (gateOfBytes b)

/-- A well-formed descriptor is submitted; its keys are pinned (06 R117). -/
def issueGate (x : Site) (g : Gate) (s : State) : WOut :=
  let i := engInst x s
  let a : AsyncOp := .gate i g.op g.count g.w g.inA g.inB g.inC g.out g.key
  if interlocked (getWren s x.w) [(x.sr s 20, 64)] [] then .block 7 s
  else
    let s := putInst 1 i { getInst s 1 i with busy := true, count := g.count } s
    .retire (issue x a ((asyncRefs a).foldl (fun s h => takeRef h s) s))

/-- ENG of kind 1 with a descriptor of one operation: submitted, or the run faults; another instruction is not this row's. -/
def gateRow (op : Nat) (x : Site) (s : State) : WOut :=
  if engKind x ≠ 1 then .hold s
  else match gateSite x s with
    | .ok g => if g.op = op then issueGate x g s else .hold s
    | .error e => if field (readLocal s x.w (x.sr s 20) 2) 0 2 = op then .fault e.1 e.2.1 e.2.2 else .hold s

/-- 11 R221. -/
def execGateAnd (w : Nat) (s : State) : Res := .next (runInsn 7 1 (gateRow 0x01) w s)
/-- 11 R221. -/
def execGateOr (w : Nat) (s : State) : Res := .next (runInsn 7 1 (gateRow 0x02) w s)
/-- 11 R221. -/
def execGateNand (w : Nat) (s : State) : Res := .next (runInsn 7 1 (gateRow 0x03) w s)
/-- 11 R221. -/
def execGateNor (w : Nat) (s : State) : Res := .next (runInsn 7 1 (gateRow 0x04) w s)
/-- 11 R221. -/
def execGateXor (w : Nat) (s : State) : Res := .next (runInsn 7 1 (gateRow 0x05) w s)
/-- 11 R221. -/
def execGateXnor (w : Nat) (s : State) : Res := .next (runInsn 7 1 (gateRow 0x06) w s)
/-- 11 R221. -/
def execAndny (w : Nat) (s : State) : Res := .next (runInsn 7 1 (gateRow 0x07) w s)
/-- 11 R221. -/
def execOrny (w : Nat) (s : State) : Res := .next (runInsn 7 1 (gateRow 0x08) w s)
/-- 11 R221. -/
def execGateMux (w : Nat) (s : State) : Res := .next (runInsn 7 1 (gateRow 0x09) w s)
/-- 11 R221. -/
def execGateNot (w : Nat) (s : State) : Res := .next (runInsn 7 1 (gateRow 0x10) w s)
/-- 11 R221. -/
def execGateCopy (w : Nat) (s : State) : Res := .next (runInsn 7 1 (gateRow 0x11) w s)
/-- 11 R222. -/
def execSwitchBits (w : Nat) (s : State) : Res := .next (runInsn 7 1 (gateRow 0x20) w s)

/-- 09 R179, 11 R221, 17 R339: ENG: a Chaffinch descriptor is submitted; a kind 1 descriptor that Goldcrest refuses, a kind 2 value
that is no outcome, and the unlisted kind 3 fault the run. -/
def insEng (x : Site) (s : State) : WOut :=
  if engKind x = 0 then insChaf x s
  else if engKind x = 1 then
    (match gateSite x s with | .ok _ => .hold s | .error e => .fault e.1 e.2.1 e.2.2)
  else if engKind x = 2 then (if 0x102 < submitVal x s then insSubmit x s else .hold s)
  else rangeBreach s

/-- 09 R179. -/
def execEng (w : Nat) (s : State) : Res := .next (runInsn 7 1 insEng w s)

/-! Gates (11 R220). -/

/-- The 769 words of a bit record. -/
def bitWords (b : List Byte) : List Nat := (List.range 769).map fun i => field b (4 * i) 4

/-- A bit record of words. -/
def bitRecord (ws : List Nat) : List Byte := ws.flatMap (natLE 4) ++ zeros 4

/-- 11 R220: the linear NOT: 1 is carried as 2^30. -/
def notWords (ws : List Nat) : List Nat :=
  ws.zipIdx.map fun e => if e.2 = 768 then (2 ^ 30 + 2 ^ 32 - e.1) % 2 ^ 32 else (2 ^ 32 - e.1) % 2 ^ 32

/-- The output records of gate `j`. A refreshed bit is a free value of the key and the inputs (log 37). -/
def gateOut (s : State) (c : Nat) (g : Gate) (j : Nat) : List Byte :=
  let rec_ (a len : Nat) := (List.range len).map fun i => dvaGet s c (a + len * j + i) .read false
  let keyB (h : Nat) := match gateKey s c h with | .ok k => memRead s.mem k.1 k.2 | .error _ => []
  if g.op = 0x10 then bitRecord (notWords (bitWords (rec_ g.inA 3080)))
  else if g.op = 0x11 then bitRecord (bitWords (rec_ g.inA 3080))
  else if g.op = 0x20 then
    (List.range g.w).flatMap fun b => bitRecord ((List.range 769).map fun i =>
      Config.switchWord (keyB g.key) (keyB g.inB) g.w (rec_ g.inA (gateInBytes s c g)) b i % 2 ^ 32)
  else
    let ins := natLE 2 g.op ++ rec_ g.inA 3080 ++ rec_ g.inB 3080 ++ (if g.op = 9 then rec_ g.inC 3080 else [])
    bitRecord ((List.range 769).map fun i => Config.refreshWord (keyB g.key) ins i % 2 ^ 32)

/-- 11 Table 11.10: what a descriptor counts; COUNT 0 counts no refresh and no pass. -/
def countGate (x : Site) (inst : Nat) (g : Gate) (s : State) : State :=
  let c := x.run.ctx
  let r := gateRefreshes g
  if r = 0 then count c 6 inst 0x42 g.count s
  else
    let s := count c 6 inst 0x43 (b2n (decide (g.count < 115))) s
    if g.count = 0 then s
    else
      let s := meter c (fun m => { m with refreshes := m.refreshes + r * g.count }) (count c 6 inst 0x41 (r * g.count) s)
      count c 6 inst 0x34 (r * refreshKeyBytes) (count c 6 inst 0x33 r s)

/-- A descriptor completes: outputs are written once every gate is done (11 R221). -/
def doGate (x : Site) (inst : Nat) (g : Gate) (s : State) : AsyncDone :=
  match gateErr s x.run.ctx g with
  | some e => .fault e.1 e.2.1 e.2.2
  | none =>
    let bs := (List.range g.count).flatMap (gateOut s x.run.ctx g)
    .ok (countGate x inst g (dvaStore x.run.ctx .write false g.out bs s))

/-! Completion (09 R175). -/

/-- The instance that an operation occupies: kind and number. -/
def asyncInst : AsyncOp → Option (Nat × Nat)
  | .chaf i _ => some (0, i)
  | .gate i .. => some (1, i)
  | _ => none

/-- What an asynchronous operation does when it completes. -/
def completeAsync (x : Site) (s : State) : AsyncOp → AsyncDone
  | .move mode dst src len =>
    match (sideFault s x (srcSide mode) src len .read).or (sideFault s x (dstSide mode) dst len .write) with
    | some e => .fault e.1 e.2.1 e.2.2
    | none => .ok (doMove x mode dst src len s)
  | .fill side dst len pat =>
    match sideFault s x side dst len .write with
    | some e => .fault e.1 e.2.1 e.2.2
    | none => .ok (doFill x side dst len pat s)
  | .peer slot dst src len arr notify _ => doPeer x slot dst src len arr notify s
  | .chaf _ _ => .ok s
  | .gate i op count width inA inB inC out key =>
    doGate x i { op := op, w := width, count := count, inA := inA, inB := inB, inC := inC, out := out, key := key } s

/-- An operation leaves its Wren: its keys are released, and an instance that no other operation occupies is idle. -/
def retireAsync (w i : Nat) (a : AsyncOp) (s : State) : State :=
  let s := modWren w (fun v => { v with async := v.async.eraseIdx i }) s
  let s := (asyncRefs a).foldl (fun s h => dropRef h s) s
  match asyncInst a with
  | some (k, n) =>
    if s.fab.wrens.any fun e => e.2.async.any fun b => asyncInst b == some (k, n) then s
    else putInst k n { getInst s k n with busy := false, count := 0 } s
  | none => s

/-- 09 R175: the asynchronous operation `i` of a Wren completes. -/
def execWrenAsyncComplete (w i : Nat) (s : State) : Res :=
  .next (match asyncSite s w, (getWren s w).async[i]? with
    | some x, some a =>
      if x.run.st ≠ 1 ∨ s.pwr.st ≠ .run then s
      else match completeAsync x s a with
        | .ok t => retireAsync w i a t
        | .fault st d at_ => faultRun x.run w (getWren s w).ix st d at_ s
        | .wait => s
    | _, _ => s)

end Sys2Proof.Machine
end

