-- ==== Sys2Proof/Machine/Model.lean ====
section
/-! DEFINITION. Model residency (16): the package and plan checks of MODEL_LOAD (08 R166; R323, R324), Strict and Spill placement (R325, R326), decryption (R327), and MODEL_QUERY. -/

namespace Sys2Proof.Machine

/-! The package (08 Table 8.7, 16 Tables 16.1, 16.2). -/

/-- A weight package: its header, its device count, and its body. -/
structure Package where
  raw : List Byte
  m : Nat
  body : List Byte

/-- The package that bytes spell. -/
def packageOf (b : List Byte) : Package :=
  { raw := b, m := field b 6 2, body := sub b (0x90 + 16 * field b 6 2) (field b 0x18 8) }

/-- Body fields of the plan. -/
def Package.slots (g : Package) : Nat := field g.body 6 1
def Package.layers (g : Package) : Nat := field g.body 8 2
def Package.nseg (g : Package) : Nat := field g.body 0x0C 4
def Package.mask (g : Package) : BitVec 64 := BitVec.ofNat 64 (field g.body 0x10 8)
def Package.reserve (g : Package) : Nat := field g.body 0x18 4
def Package.wplan (g : Package) : Nat := field g.body 0x1C 4
def Package.window (g : Package) : Nat := field g.body 0x20 4

/-- Entry `i` of the segment table, and its fields. -/
def Package.entry (g : Package) (i : Nat) : List Byte := sub g.body (0x40 + 32 * i) 32

/-- One segment as a chip takes it. -/
structure SegPlan where
  idx : Nat
  wren : Nat
  off : Nat
  len : Nat
  at_ : Nat
  spillable : Bool
  entry : List Byte

/-- Segment `i`. -/
def Package.seg (g : Package) (i : Nat) : SegPlan :=
  let e := g.entry i
  { idx := i, wren := field e 4 2, off := field e 8 4, len := field e 0x0C 4, at_ := field e 0x10 8, spillable := bitOf (field e 3 1) 0, entry := e }

/-- 16 R323: the segments that a chip takes, in table order. -/
def Package.taken (g : Package) (chip : Nat) : List SegPlan :=
  ((List.range g.nseg).map g.seg).filter fun v => g.slots == 1 || field v.entry 2 1 == chip % 8

/-! Checks. -/

/-- 08 R166: the package header. -/
def packageHead (g : Package) : Option (Nat × Nat) :=
  if field g.raw 0 4 ≠ 0x4B4C5750 ∨ field g.raw 4 2 ≠ 1 then some (0x0105, paramAt 0 0)
  else if field g.raw 0x5C 4 ≠ 0 then some (0x0104, paramAt 0 0)
  else if g.m = 0 ∨ 1024 < g.m then some (0x0105, paramAt 0 0)
  else none

/-- 08 R166: the slot whose set key a package names, with WEIGHT and UNWRAP. -/
def setKeySlot (s : State) (c : Nat) (id : List Byte) : Option KSlot :=
  (s.nut.slots.find? fun e => e.2.st != 0 && !e.2.root && e.2.ctx == c && e.2.key.id == id && e.2.key.attr &&& 0x1010 == 0x1010).map Prod.snd

/-- 08 R166: the weight key of a package, or the status of the failed check. -/
def weightKey (s : State) (c : Nat) (g : Package) : Except (Nat × Nat) (List Byte) :=
  let devs := sub g.raw 0x90 (16 * g.m)
  match setKeySlot s c (sub g.raw 8 16) with
  | none => .error (0x0203, 0x1010)
  | some v =>
    if !((List.range g.m).any fun i => sub devs (16 * i) 16 == s.boot.deviceId) then .error (0x0503, 2)
    else match gcmOpen v.key.material (sub g.raw 0x50 12) (sub g.raw 0 0x60 ++ devs) (sub g.raw 0x60 32) (sub g.raw 0x80 16) with
      | none => .error (0x0502, 3)
      | some k => .ok k

/-- 16 Table 16.1: the plan's own fields, with the body offset of the first that fails. -/
def planFields (g : Package) : Option (Nat × Nat) :=
  let b := g.body
  if field b 0 4 ≠ 0x4B4C4D50 then some (0x0105, 0)
  else if field b 4 2 ≠ 1 then some (0x0105, 4)
  else if g.slots ≠ 1 ∧ g.slots ≠ 8 then some (0x0105, 6)
  else if field b 7 1 ≠ 0 then some (0x0104, 7)
  else if g.layers = 0 ∨ 256 < g.layers then some (0x0105, 8)
  else if field b 0x0A 2 ≠ 0 then some (0x0104, 0x0A)
  else if g.nseg = 0 ∨ 1048576 < g.nseg ∨ b.length < 0x40 + 32 * g.nseg then some (0x0105, 0x0C)
  else if g.reserve % 4096 ≠ 0 then some (0x0105, 0x18)
  else if g.wplan % 4096 ≠ 0 ∨ g.reserve < g.wplan then some (0x0105, 0x1C)
  else if g.window % 16384 ≠ 0 ∨ 65536 < g.window then some (0x0105, 0x20)
  else if (sub b 0x24 28).any (· != 0) then some (0x0104, 0x24)
  else none

/-- 16 Table 16.2: one segment's fields. -/
def segFields (g : Package) (i : Nat) : Option (Nat × Nat) :=
  let e := g.entry i
  let v := g.seg i
  let o := 0x40 + 32 * i
  if g.layers ≤ field e 0 2 then some (0x0105, o)
  else if 7 < field e 2 1 ∨ (g.slots = 1 ∧ field e 2 1 ≠ 0) then some (0x0105, o + 2)
  else if bits (field e 3 1) 1 7 ≠ 0 then some (0x0104, o + 3)
  else if 24 * (maskThks g.mask).length ≤ v.wren then some (0x0105, o + 4)
  else if field e 6 2 ≠ 0 then some (0x0104, o + 6)
  else if v.off % 256 ≠ 0 then some (0x0105, o + 8)
  else if v.len = 0 ∨ v.len % 256 ≠ 0 then some (0x0105, o + 0x0C)
  else if v.at_ < 0x40 + 32 * g.nseg ∨ g.body.length < v.at_ + v.len + 16 then some (0x0105, o + 0x10)
  else if field e 0x18 8 ≠ 0 then some (0x0104, o + 0x18)
  else none

/-- 16 R323: every layer has a segment in every slot; a missing one is reported after the last segment. -/
def layersOk (g : Package) : Bool :=
  (List.range g.slots).all fun sl => (List.range g.layers).all fun l =>
    (List.range g.nseg).any fun i => field (g.entry i) 0 2 == l && field (g.entry i) 2 1 == sl

/-- 16 R323: the first taken segment that overlaps an earlier one on its Wren. -/
def overlapSeg : List SegPlan → Option Nat
  | [] => none
  | v :: vs =>
    ((vs.find? fun u => u.wren == v.wren && overlaps (u.off, u.len) (v.off, v.len)).map SegPlan.idx).or (overlapSeg vs)

/-! Placement (16 R325, R326). -/

/-- Where the region of a Wren would end with some resident segments. -/
def regionEnd (vs : List SegPlan) (w : Nat) : Nat := (vs.filter fun v => v.wren == w).foldl (fun n v => max n (v.off + v.len)) 0

/-- 16 R325: bytes by which a Wren is over its budget, with a region of a size: the reservation, and the context's programs. -/
def regionOver (s : State) (c : Nat) (g : Package) (w region : Nat) : Nat :=
  s.host.objs.foldl (fun n e => match e.2.kind with
    | .prog p => if e.2.ctx = c ∧ p.mask.getLsbD (w / 24) then
        max n (max (p.wsize - g.wplan) (g.wplan + region + roostSize p.roost - 1048576)) else n
    | _ => n) (g.reserve + region - 1048576)

/-- The Wren of a run Wren index of a mask. -/
def maskWren (m : BitVec 64) (i : Nat) : Nat := 24 * (maskThks m).getD (i / 24) 0 + i % 24

/-- 16 R326: which segments stay resident, in table order, under Spill. -/
def placeSpill (s : State) (c : Nat) (g : Package) (vs : List SegPlan) : List SegPlan × List SegPlan :=
  vs.foldl (fun a v =>
    let res := a.1 ++ [v]
    if regionOver s c g (maskWren g.mask v.wren) (regionEnd res v.wren + g.window) = 0 then (res, a.2) else (a.1, a.2 ++ [v])) ([], [])

/-- Bytes of spilled ciphertext, tags included. -/
def spilledBytes (vs : List SegPlan) : Nat := vs.foldl (fun n v => n + v.len + 16) 0

/-- 16 R325, R326: resident and spilled segments, or the refusal. -/
def placePlan (s : State) (c : Nat) (g : Package) (spill : Bool) (budget : Nat) (vs : List SegPlan) :
    Except (Nat × Nat) (List SegPlan × List SegPlan) :=
  if spill then
    let r := placeSpill s c g vs
    let excess := (r.2.filter fun v => !v.spillable).foldl (fun n v =>
      max n (regionOver s c g (maskWren g.mask v.wren) (regionEnd (r.1 ++ [v]) v.wren + g.window))) 0
    if excess ≠ 0 then .error (0x0608, excess)
    else if r.2 ≠ [] ∧ g.window = 0 then .error (0x0105, 0x20)
    else if budget < spilledBytes r.2 then .error (0x0608, spilledBytes r.2 - budget)
    else .ok r
  else
    let excess := (List.range (24 * (maskThks g.mask).length)).foldl (fun n i =>
      max n (regionOver s c g (maskWren g.mask i) (regionEnd vs i))) 0
    if excess ≠ 0 then .error (0x0608, excess) else .ok (vs, [])

/-- 16 Table 16.3: the plan checks in order. -/
def planFault (s : State) (c len : Nat) (g : Package) : Option (Nat × Nat) :=
  let want := 0x90 + 16 * g.m + field g.raw 0x18 8
  if len ≠ want ∨ field g.raw 0x18 8 = 0 then some (0x0103, want)
  else match planFields g with
    | some e => some e
    | none =>
      match (List.range g.nseg).findSome? (segFields g) with
      | some e => some e
      | none =>
        if !layersOk g then some (0x0105, g.nseg)
        else match overlapSeg (g.taken (chipNo s)) with
          | some i => some (0x0105, i)
          | none =>
            match badThk g.mask (partThks s (getCtx s c).part) with
            | some t => some (0x0105, t)
            | none =>
              match badThk g.mask fun t => (boundElse s c t).isNone && !roundHolds s t with
              | some t => some (0x0401, t)
              | none =>
                match (maskWrens g.mask).find? fun w => s.host.objs.any fun e => match e.2.kind with
                    | .model m => m.mask.getLsbD (w / 24)
                    | _ => false with
                | some w => some (0x0401, maskIndex g.mask w)
                | none => none

/-! Loading (16 R327). -/

/-- The nonce of segment `i` of a package. -/
def packNonce (g : Package) (i : Nat) : List Byte := (sub g.raw 0x50 8) ++ natLE 4 i

/-- The plaintext of a segment, if its tag verifies. -/
def openSeg (g : Package) (k : List Byte) (v : SegPlan) : Option (List Byte) :=
  gcmOpen k (packNonce g v.idx) v.entry (sub g.body v.at_ v.len) (sub g.body (v.at_ + v.len) 16)

/-- HBM ranges for spilled segments, one after another. -/
def spillPlaces (s : State) (p : Nat) : List SegPlan → List (Nat × Nat) → Option (List Nat)
  | [], _ => some []
  | v :: vs, used =>
    match firstFit (hbmWindow s p).1 (hbmWindow s p).2 4096 (v.len + 16) used with
    | none => none
    | some b => (spillPlaces s p vs ((b, v.len + 16) :: used)).map (b :: ·)

/-- The segments of a model as it holds them. -/
def heldSegs (res sp : List SegPlan) (places : List Nat) : List Seg :=
  let mk (v : SegPlan) (b : Option Nat) : Seg := { idx := v.idx, wren := v.wren, off := v.off, len := v.len, spill := b, entry := v.entry }
  res.map (fun v => mk v none) ++ (sp.zip places).map fun e => mk e.1 (some e.2)

/-- A resident segment's plaintext, and a spilled one's ciphertext and tag, are written. -/
def writeSegs (g : Package) (k : List Byte) (res sp : List SegPlan) (places : List Nat) (s : State) : State :=
  let s := res.foldl (fun s v => writeLocal (maskWren g.mask v.wren) (g.wplan + v.off) ((openSeg g k v).getD []) s) s
  (sp.zip places).foldl (fun s e => setMem (memWrite s.mem e.2 (sub g.body e.1.at_ (e.1.len + 16))) s) s

/-- 16 R325, R326: the region of a Wren: its resident segments and then, under Spill, the window. -/
def regionOf (g : Package) (spill : Bool) (res sp : List SegPlan) (i : Nat) : Nat :=
  regionEnd res i + (if spill && (res ++ sp).any (fun v => v.wren == i) then g.window else 0)

/-- The Wrens of the mask hold the weight key and their regions (16 R327, Table 16.7). -/
def setRegions (c : Nat) (g : Package) (spill : Bool) (res sp : List SegPlan) (s : State) : State :=
  (List.range (24 * (maskThks g.mask).length)).foldl (fun s i =>
    modWren (maskWren g.mask i) (fun v => { v with region := regionOf g spill res sp i, regionSpill := spill, keyHeld := true, regionCtx := c }) s) s

/-- A plan that passed its checks is loaded. -/
def loadPlan (c : Nat) (g : Package) (k : List Byte) (spill : Bool) (res sp : List SegPlan) (s : State) : Reply × State :=
  if sha384 g.body ≠ sub g.raw 0x20 48 ∨ (res ++ sp).any (fun v => (openSeg g k v).isNone) then refuse s 0x0502 4
  else match spillPlaces s (getCtx s c).part sp (usedRanges s ++ scrubRanges s) with
    | none => refuse s 0x0303 (freePages (hbmWindow s (getCtx s c).part) (usedRanges s))
    | some places =>
      let m : Model := { mask := g.mask, board := g.slots == 8, spillMode := spill, reserve := g.reserve, wplan := g.wplan, window := g.window
                         segs := heldSegs res sp places, key := k, nonce := sub g.raw 0x50 12, spilled := spilledBytes sp }
      let r := newObj c (.model m) (sha384 g.raw) (bindThks c g.mask s)
      let s := setRegions c g spill res sp (writeSegs g k res sp places r.2)
      let s := (res.map SegPlan.wren).eraseDups.foldl (fun s w =>
        count c 1 (maskWren g.mask w) 0x12 ((res.filter fun v => v.wren == w).foldl (fun n v => n + v.len) 0) s) s
      let size := (List.range (24 * (maskThks g.mask).length)).foldl (fun n i => n + regionOf g spill res sp i) 0
      (.done (Done.res r.1 size), s)

/-- A weight decryptor of the mask in Quarantine. -/
def quarDecryptor (s : State) (m : BitVec 64) : Option Nat := (maskWrens m).find? fun w => quarantined s (unitId 0x0E w)

/-- 16 R324: MODEL_LOAD of a package that was read. -/
def loadPackage (p : Packet) (b : List Byte) (s : State) : Reply × State :=
  let g := packageOf b
  let budget := bits (p.w 2) 32 32 * 1048576
  let spill := bitOf (p.w 2) 0 && budget != 0
  match packageHead g with
  | some e => refuse s e.1 e.2
  | none =>
    match weightKey s p.ctx g with
    | .error e => refuse s e.1 e.2
    | .ok k =>
      match planFault s p.ctx (p.w 1) g with
      | some e => refuse s e.1 e.2
      | none =>
        match placePlan s p.ctx g spill budget (g.taken (chipNo s)) with
        | .error e => refuse s e.1 e.2
        | .ok r =>
          match quarDecryptor s g.mask with
          | some w => refuse s 0x0C01 (unitId 0x0E w)
          | none => if objLimit ≤ s.host.objs.length then refuse s 0x0303 objLimit else loadPlan p.ctx g k spill r.1 r.2 s

/-- 16 R324, 08 R162, R166: MODEL_LOAD. In Idle the chip first moves to Run (05 R100). -/
def modelLoad : Body := fun _ p s =>
  if s.nut.policyLost then policyRefusal s
  else if s.pwr.st ≠ .run then
    (.wait, if s.pwr.target = none then onPwr (fun v => { v with target := some .run }) s else s)
  else match dvaRead s p.ctx (p.w 0) (p.w 1) .fetch false with
    | .error e => refuse s (accStatus .fetch e).1 (accStatus .fetch e).2
    | .ok b => loadPackage p b s

/-- 16 R324. -/
def execModelLoad (q : QRef) (s : State) : Res := .next (runCmd 0x0503 modelLoad q s)

/-- 16 R326: MODEL_QUERY. -/
def modelQuery : Body := fun _ p s =>
  match useObj s p.ctx (p.w 0) 3 with
  | .error e => refuse s e.1 e.2
  | .ok o =>
    match o.kind with
    | .model m => (.done (Done.res (b2n m.spillMode) m.spilled), s)
    | _ => refuse s 0x0403 0

/-- 16 R326. -/
def execModelQuery (q : QRef) (s : State) : Res := .next (runCmd 0x0505 modelQuery q s)

end Sys2Proof.Machine
end

