-- ==== Sys2Proof/Machine/Session.lean ====
section
/-! DEFINITION. Linnet ports and contributor sessions (12 R225 to R236, R252): framing, packet protection, receive windows, listeners, the handshake, session data and its delivery, the hot cache and the miss buffer. -/

namespace Sys2Proof.Machine

/-! Packets (12 Table 12.1, R228). -/

/-- 12 R228: the nonce of a direction and a 64-bit count. -/
def lntNonce (dir n : Nat) : List Byte := natLE 1 dir ++ zeros 3 ++ natLE 8 n

/-- 12 R228: the additional authenticated data of a data packet. -/
def dataAad (p : LntPkt) : List Byte := lntHeader { p with ts := 0, apsn := 0, flags := 0 }

/-- 12 R228: a data packet protected under a key, a direction and its extended PSN. -/
def sealData (key : List Byte) (dir ext : Nat) (p : LntPkt) : LntPkt :=
  let ct := gcmCrypt key (lntNonce dir ext) p.payload
  { p with payload := ct, tag := gcmTag key (lntNonce dir ext) (dataAad p) ct }

/-- 12 R228: the plaintext of a data packet, or none where its tag fails. -/
def openData (key : List Byte) (dir ext : Nat) (p : LntPkt) : Option (List Byte) :=
  gcmOpen key (lntNonce dir ext) (dataAad p) p.payload p.tag

/-- 12 R228: the tag of a control packet: over the whole header, with an empty plaintext. -/
def ctlTag (key : List Byte) (dir seq : Nat) (p : LntPkt) : List Byte := gcmTag key (lntNonce dir seq) (lntHeader p) []

/-- 12 R228: the control sequence under which a control packet verifies, among the 1,024 from the next expected one (log 40). -/
def ctlSeq (key : List Byte) (dir lo : Nat) (p : LntPkt) : Option Nat :=
  ((List.range 1024).find? fun i => ctlTag key dir (lo + i) p == p.tag).map (lo + ·)

/-- A packet of an engine with a type and a destination, every other field zero but TS. -/
def mkPkt (s : State) (e typ dest : Nat) : LntPkt :=
  { engine := e, ipOk := true, srcAddr := if e = 4 then chipNo s else (getEth s e).addr.toNat, srcPort := 0, dstPort := 0, typ := typ
    flags := 0, len := 0, dest := dest, src := 0, psn := 0, apsn := 0, msn := 0, ts := s.lark.time, offset := 0, wkey := 0, imm := 0
    payload := [], tag := [] }

/-- 12 R229: how a 32-bit PSN stands to the next expected extended PSN. -/
inductive PsnCheck where
  | ok (ext : Nat) | beyond | already
  deriving DecidableEq, Repr

/-- 12 R229: d := (p − x) mod 2^32. -/
def psnDist (x p : Nat) : Nat := (p + 2 ^ 32 - x % 2 ^ 32) % 2 ^ 32

/-- 12 R229: the outcome of a PSN. -/
def psnCheck (x p : Nat) : PsnCheck :=
  let d := psnDist x p
  if d < 1024 then .ok (x + d) else if d < 2 ^ 31 then .beyond else .already

/-- 12 R229: the extended PSN that a 32-bit PSN stands for. -/
def psnExt (x p : Nat) : Nat :=
  let d := psnDist x p
  if d < 2 ^ 31 then x + d else x + d - 2 ^ 32

/-- 12 Table 12.1: the ACK bitmap: bit i for the i-th PSN after APSN, of a reorder buffer whose next expected PSN is `x`. -/
def ackBitmap (x : Nat) (buf : List LntPkt) : Nat :=
  (List.range 64).foldl (fun n i => if buf.any fun p => p.psn == x + i then n + 2 ^ i else n) 0

/-- The highest PSN up to which everything has been received (12 Table 12.1, APSN). -/
def apsnOf (x : Nat) : Nat := (x + 2 ^ 32 - 1) % 2 ^ 32

/-! Ports (12 R225, R226, R252). -/

/-- A Linnet engine that can carry packets: the chip is in Idle or Run, the engine is in use, and an Ethernet port is Up. -/
def linkUp (s : State) (e : Nat) : Bool :=
  regsOpen s && !s.pwr.removing && (s.pwr.st == .idle || s.pwr.st == .run) && decide (e < 5) && !quarantined s (unitId 9 e)
    && (e == 4 || (getEth s e).st == 1)

/-- 12 Table 12.10: a dropped packet is counted. -/
def dropLnt (e : Nat) (s : State) : State :=
  if e = 4 then onLnt (fun l => { l with drop4 := incSat l.drop4 }) s else modEth e (fun v => { v with drop := incSat v.drop }) s

/-- 12 Table 12.2: the packet types. -/
def lntTyp (t : Nat) : Bool := (1 ≤ t && t ≤ 0x0F && t != 7) || (0x20 ≤ t && t ≤ 0x24)

/-- A packet arrives at an engine (12 R226, Table 12.2): a bad IPv6 packet or an unknown TYPE is dropped and counted, and a packet
of another type is not this command's. -/
def rxPkt (typ : Nat) (body : LntPkt → State → State) (p : LntPkt) (s : State) : State :=
  if !linkUp s p.engine then s
  else if (p.engine != 4 && !p.ipOk) || !lntTyp p.typ then dropLnt p.engine s
  else if p.typ ≠ typ then s
  else body p s

/-- 18 Table 18.4: Linnet bytes received and sent by a context. -/
def meterRx (c n : Nat) (s : State) : State := meter c (fun m => { m with lntRx := m.lntRx + n }) s
def meterTx (c n : Nat) (s : State) : State := meter c (fun m => { m with lntTx := m.lntTx + n }) s

/-- 12 R226: ICMPv6 Echo for the port's own address. -/
def execIcmpv6Echo (e : Nat) (src dst : BitVec 128) (body : List Byte) (s : State) : Res :=
  .next (if linkUp s e && decide (e < 4) && dst == (getEth s e).addr then emit (.icmp e 129 src body) s else s)

/-- 12 R226: a Neighbour Solicitation for the port's own address. -/
def execNeighbourSolicitation (e : Nat) (src target : BitVec 128) (s : State) : Res :=
  .next (if linkUp s e && decide (e < 4) && target == (getEth s e).addr then emit (.icmp e 136 src (natBE 16 target.toNat)) s else s)

/-- 12 R226: the latest Router Advertisement names the default router. -/
def execRouterAdvertisement (e : Nat) (router : BitVec 128) (s : State) : Res :=
  .next (if linkUp s e && decide (e < 4) then modEth e (fun v => { v with router := some router }) s else s)

/-- 12 R252, 05 Table 5.5: PORT_CONFIG. -/
def portConfig : Body := fun _ p s =>
  let e := bits (p.w 0) 0 2
  if quarantined s (unitId 9 e) then refuse s 0x0C01 (unitId 9 e)
  else if 500 < p.w 1 then refuse s 0x0105 (paramAt 1 0)
  else (.done Done.ok, modEth e (fun v => { v with hold := p.w 1, addr := BitVec.ofNat 128 (p.w 2 + p.w 3 * 2 ^ 64) }) s)

/-- 12 R252. -/
def execPortConfig (q : QRef) (s : State) : Res := .next (runCmd 0x0707 portConfig q s)

/-! Session handles (12 R235). -/

/-- The session indexes of a partition. -/
def sessRange (s : State) (p : Nat) : Nat × Nat := if s.host.shared then (p * 2 ^ 15, 2 ^ 15) else (0, 2 ^ 18)

/-- The handle of a session. -/
def sessHandle (i : Nat) (v : Sess) : Nat := i + v.gen * 2 ^ 18

/-- The session that a handle names: Open or Closed, of the current generation. -/
def sessOf (s : State) (h : Nat) : Option Nat :=
  let i := bits h 0 18
  if (getSess s i).st ≠ 0 ∧ (getSess s i).gen = bits h 18 14 then some i else none

/-- A listener by number. -/
def getLst (s : State) (n : Nat) : Listener := tabGet Listener.init s.lnt.listeners n

/-- A listener written. -/
def putLst (n : Nat) (v : Listener) (s : State) : State :=
  onLnt (fun l => { l with listeners := tabPut Listener.init l.listeners n v }) s

/-- The context of a session, through its listener. -/
def sessCtx (s : State) (v : Sess) : Nat := (getLst s v.lst).ctx

/-- The sessions of a listener. -/
def sessOfLst (s : State) (n : Nat) : List Nat := (s.lnt.sess.filter fun e => e.2.st != 0 && e.2.lst == n).map Prod.fst

/-- 12 Table 12.4: a session is freed: its state is scrubbed, its generation advances, and its index goes to the tail. -/
def freeSess (i : Nat) (s : State) : State :=
  if (getSess s i).st = 0 then s
  else
    onLnt (fun l => { l with freed := l.freed ++ [i], missBuf := l.missBuf.filter fun e => e.1 != i })
      (modSess i (fun v => { Sess.init with gen := (v.gen + 1) % 2 ^ 14 }) s)

/-- 12 R230: a listener closes: its sessions are freed and its keys erased. -/
def closeLst (n : Nat) (s : State) : State := putLst n Listener.init ((sessOfLst s n).foldl (fun s i => freeSess i s) s)

/-! Sending on a session. -/

/-- Reasons of S_CLOSE, as the model numbers them in IMM (log 40). -/
def closeNoSession : Nat := 1
def closeDuplicate : Nat := 2
def closeRoundEnd : Nat := 3
def closeLimit : Nat := 4
def closeProtocol : Nat := 5

/-- 12 R228: a control packet of a session, under the key of its direction and its own control sequence. -/
def sendSessCtl (i typ imm ts : Nat) (s : State) : State :=
  let v := getSess s i
  let e := (getLst s v.lst).port
  let p := { mkPkt s e typ (sessHandle i v) with dstPort := v.port, srcPort := (getLst s v.lst).udp, psn := v.ctlTx % 2 ^ 32
                                                 apsn := apsnOf v.rx, ts := ts, offset := ackBitmap v.rx v.reorder, imm := imm }
  emit (.lnt e v.addr { p with tag := ctlTag v.kOut 8 v.ctlTx p }) (modSess i (fun v => { v with ctlTx := v.ctlTx + 1 }) s)

/-- 12 Table 12.4: an Open session closes with a reason, which the contributor is told. -/
def closeSess (reason i : Nat) (s : State) : State :=
  if (getSess s i).st = 1 then sendSessCtl i 0x24 reason s.lark.time (modSess i (fun v => { v with st := 2, reason := reason }) s) else s

/-- One packet of a message to a contributor. -/
def sendSessData (i : Nat) (first last : Bool) (text : List Byte) (s : State) : State :=
  let v := getSess s i
  let e := (getLst s v.lst).port
  let p := { mkPkt s e 0x22 (sessHandle i v) with
    dstPort := v.port, srcPort := (getLst s v.lst).udp, flags := BitVec.ofNat 8 (b2n first + b2n last * 2), len := text.length
    psn := v.tx % 2 ^ 32, apsn := apsnOf v.rx, payload := text }
  meterTx (sessCtx s v) text.length
    (emit (.lnt e v.addr (sealData v.kOut 8 v.tx p)) (modSess i (fun v => { v with tx := v.tx + 1 }) s))

/-- The pieces of a message, none larger than `n`; the first number bounds them. -/
def chunks (n : Nat) : Nat → List Byte → List (List Byte)
  | 0, _ => []
  | k + 1, bs => if bs.length ≤ n then [bs] else bs.take n :: chunks n k (bs.drop n)

/-- A message to the contributor of an Open session, in packets within the granted payload (12 R231, case 12.1). -/
def sendSess (i : Nat) (msg : List Byte) (s : State) : State :=
  if (getSess s i).st ≠ 1 then s
  else
    let parts := (chunks ((getSess s i).granted - 16) (msg.length + 1) msg).zipIdx
    parts.foldl (fun s e => sendSessData i (e.2 == 0) (e.2 + 1 == parts.length) e.1 s) s

/-! The hot cache (12 R236). -/

/-- Sessions that the hot cache of a partition, or of the device in Sole tenancy, holds. -/
def hotLimit (s : State) : Nat := if s.host.shared then 2048 else 16384

/-- The hot sessions that share a cache with a session. -/
def hotPeers (s : State) (i : Nat) : List (Nat × Sess) :=
  s.lnt.sess.filter fun e => e.2.hot && e.2.st != 0 && (!s.host.shared || e.1 / 2 ^ 15 == i / 2 ^ 15)

/-- The least recently used of some sessions. -/
def leastUsed : List (Nat × Sess) → Option Nat
  | [] => none
  | e :: es => some ((es.foldl (fun b x => if x.2.used < b.2.used then x else b) e).1)

/-- 12 R236: a session is used: it is hot, and the least recently used one spills where the cache is over its limit. -/
def touchSess (i : Nat) (s : State) : State :=
  let s := onLnt (fun l => { l with useClock := l.useClock + 1 }) s
  let s := modSess i (fun v => { v with hot := true, used := s.lnt.useClock }) s
  if hotLimit s < (hotPeers s i).length then
    match leastUsed (hotPeers s i) with
    | some j => modSess j (fun v => { v with hot := false }) s
    | none => s
  else s

/-- The bytes that an engine's miss buffer holds. -/
def missBytes (s : State) (e : Nat) : Nat :=
  s.lnt.missBuf.foldl (fun n x => if x.2.engine = e then n + 48 + x.2.payload.length + x.2.tag.length else n) 0

/-- 12 R236: a packet for a cold session waits in the engine's 4 MiB miss buffer, or is dropped where that is full. -/
def parkPkt (i : Nat) (p : LntPkt) (s : State) : State :=
  if 4194304 < missBytes s p.engine + 48 + p.payload.length + p.tag.length then s
  else onLnt (fun l => { l with missBuf := l.missBuf ++ [(i, p)] }) s

/-! The handshake (12 R230 to R232). -/

/-- 12 R231: the session keys c2d, d2c and finish of an S_HELLO payload at a listener. -/
def sessKeys (s : State) (l : Listener) (hello : List Byte) : List Byte × List Byte × List Byte :=
  let ss := mlkemDecaps l.dk (sub hello 0x20 1088) ++ x25519 l.xPriv (sub hello 0 32)
  let sk := hkdfExtract (ascii "KL5-SESSION-V1" ++ s.boot.deviceId ++ sub hello 0x470 8 ++ sub hello 0x478 16) ss
  (hkdfExpand sk (ascii "c2d") 32, hkdfExpand sk (ascii "d2c") 32, hkdfExpand sk (ascii "finish") 48)

/-- 12 R231: the S_READY payload: handle, granted size, Rsvd, and the HMAC under k_fin. -/
def readyPayload (kFin hello : List Byte) (handle granted : Nat) : List Byte :=
  natLE 4 handle ++ natLE 2 granted ++ zeros 10 ++ hmac kFin (hello ++ natLE 4 handle ++ natLE 2 granted)

/-- S_READY leaves for the sender of an S_HELLO. -/
def sendReady (p : LntPkt) (i : Nat) (s : State) : State :=
  let v := getSess s i
  emit (.lnt p.engine p.srcAddr { mkPkt s p.engine 0x21 (sessHandle i v) with
    dstPort := p.srcPort, srcPort := p.dstPort, flags := 3, len := 64, payload := v.ready }) s

/-- S_CLOSE leaves for the sender of an S_HELLO that opened no session; no key protects it (log 40). -/
def refuseHello (p : LntPkt) (reason : Nat) (s : State) : State :=
  emit (.lnt p.engine p.srcAddr { mkPkt s p.engine 0x24 0 with dstPort := p.srcPort, srcPort := p.dstPort, imm := reason }) s

/-- 12 R231: a session opens at an index. -/
def openSess (n i : Nat) (p : LntPkt) (s : State) : State :=
  let l := getLst s n
  let k := sessKeys s l p.payload
  let gen := (getSess s i).gen
  let granted := min (field p.payload 0x488 2) 8192
  let v : Sess := { Sess.init with
    st := 1, gen := gen, lst := n, ident := sub p.payload 0x460 16, random := sub p.payload 0x478 16, kIn := k.1, kOut := k.2.1
    kFin := k.2.2, granted := granted, addr := p.srcAddr, port := p.srcPort, lastAt := s.lark.time
    ready := readyPayload k.2.2 p.payload (i + gen * 2 ^ 18) granted }
  let s := onLnt (fun x => { x with freed := x.freed.filter (· != i) }) (putSess i v s)
  sendReady p i (touchSess i (meter l.ctx (fun m => { m with sessions := m.sessions + 1 }) s))

/-- 12 R231, check 2: Rsvd bytes zero and the payload size in range. -/
def helloOk (b : List Byte) : Bool :=
  b.length == 1176 && (sub b 0x48A 14).all (· == 0) && decide (1184 ≤ field b 0x488 2) && decide (field b 0x488 2 ≤ 8192)

/-- 12 R231, R232: the listener of a port, UDP port and round. -/
def helloLst (s : State) (p : LntPkt) : Option Nat :=
  (tabFind (fun _ l => l.live && l.port == p.engine && l.udp == p.dstPort && l.rnd == field p.payload 0x470 8 && ctxActive s l.ctx)
    s.lnt.listeners).map Prod.fst

/-- 12 R231, R232: an S_HELLO. -/
def helloIn (p : LntPkt) (s : State) : State :=
  match helloLst s p with
  | none => s
  | some n =>
    if !helloOk p.payload then s
    else match (sessOfLst s n).find? fun i => (getSess s i).ident == sub p.payload 0x460 16 with
      | some i =>
        if (getSess s i).random = sub p.payload 0x478 16 then sendReady p i s else refuseHello p closeDuplicate s
      | none =>
        let r := sessRange s (getCtx s (getLst s n).ctx).part
        match nextNumber r.1 r.2 ((s.lnt.sess.filter fun e => e.2.st != 0).map Prod.fst) s.lnt.freed with
        | some i => openSess n i p s
        | none => raisePlain 0x0305 (some (getLst s n).ctx) (unitId 9 p.engine) (refuseHello p closeNoSession s)

/-- 12 R231. -/
def execSHello (p : LntPkt) (s : State) : Res := .next (if p.engine < 4 then rxPkt 0x20 helloIn p s else s)

/-! Session data (12 R233 to R235). -/

/-- The first packet of a reorder buffer with a PSN. -/
def atPsn (x : Nat) (buf : List LntPkt) : Option LntPkt := buf.find? fun p => p.psn == x

/-- 12 R233: plaintext is delivered in PSN order: FIRST begins a message and LAST ends it. The number bounds the packets. -/
def deliver : Nat → Sess → Sess
  | 0, v => v
  | k + 1, v =>
    match atPsn v.rx v.reorder with
    | none => v
    | some p =>
      let text := (if p.flags.getLsbD 0 then [] else v.partial_) ++ p.payload
      let v := { v with rx := v.rx + 1, reorder := v.reorder.filter fun x => x.psn != p.psn }
      deliver k (if p.flags.getLsbD 1 then { v with partial_ := [], inbox := v.inbox ++ [text] } else { v with partial_ := text })

/-- 12 R233: an S_DATA packet of a live Open session. -/
def sessData (i : Nat) (p : LntPkt) (s : State) : State :=
  let v := getSess s i
  match openData v.kIn 7 (psnExt v.rx p.psn) p with
  | none => dropLnt p.engine s
  | some text =>
    match psnCheck v.rx p.psn with
    | .beyond => sendSessCtl i 0x09 1 p.ts (dropLnt p.engine s)
    | .already => sendSessCtl i 0x23 0 p.ts (dropLnt p.engine s)
    | .ok ext =>
      if v.reorder.any fun x => x.psn == ext then sendSessCtl i 0x23 0 p.ts (dropLnt p.engine s)
      else
        let s := modSess i (fun v =>
          let v := { v with addr := p.srcAddr, port := p.srcPort, lastAt := s.lark.time
                            reorder := { p with psn := ext, payload := text, tag := [] } :: v.reorder }
          deliver v.reorder.length v) s
        sendSessCtl i 0x23 0 p.ts (meterRx (sessCtx s v) text.length s)

/-- 12 Table 12.4: an authenticated S_CLOSE from the contributor. -/
def sessClose (i : Nat) (p : LntPkt) (s : State) : State :=
  match ctlSeq (getSess s i).kIn 7 (getSess s i).ctlRx p with
  | none => dropLnt p.engine s
  | some c =>
    modSess i (fun v => { v with ctlRx := c + 1, st := 2, reason := if v.st = 1 then 0 else v.reason, lastAt := s.lark.time }) s

/-- A packet of a session whose state is hot. -/
def sessHot (i : Nat) (p : LntPkt) (s : State) : State :=
  let s := touchSess i s
  if p.typ = 0x24 then sessClose i p s
  else if (getSess s i).st = 2 then sendSessCtl i 0x24 (getSess s i).reason s.lark.time (dropLnt p.engine s)
  else sessData i p s

/-- A packet that names a session: the handle must name a live one of this port's listeners; a cold one is fetched first. -/
def sessIn (p : LntPkt) (s : State) : State :=
  match sessOf s p.dest with
  | none => dropLnt p.engine s
  | some i =>
    if (getLst s (getSess s i).lst).port ≠ p.engine then dropLnt p.engine s
    else if (getSess s i).hot then sessHot i p s
    else parkPkt i p s

/-- 12 R233. -/
def execSData (p : LntPkt) (s : State) : Res := .next (if p.engine < 4 then rxPkt 0x22 sessIn p s else s)

/-- 12 R235. -/
def execSClose (p : LntPkt) (s : State) : Res := .next (if p.engine < 4 then rxPkt 0x24 sessIn p s else s)

/-- 12 R236: a cold session's state arrives from the store, and the packets that wait for it proceed in order. -/
def execColdSessionFetch (i : Nat) (s : State) : Res :=
  .next (if (getSess s i).st = 0 || (getSess s i).hot then s
    else
      let mine := s.lnt.missBuf.filter fun e => e.1 == i
      let s := onLnt (fun l => { l with missBuf := l.missBuf.filter fun e => e.1 != i }) (touchSess i s)
      mine.foldl (fun s e => sessHot i e.2 s) s)

/-- 12 Table 12.4: no accepted packet for IDLE seconds. -/
def execSessionIdleTimeout (i : Nat) (s : State) : Res :=
  .next (let v := getSess s i
    if v.st = 1 && decide (v.lastAt + s.lnt.idle * 1000000000 ≤ s.lark.time) then modSess i (fun v => { v with st := 2, reason := 0 }) s
    else s)

/-! Commands. -/

/-- 12 R230: SESSION_LISTEN. -/
def sessionListen : Body := fun _ p s =>
  let e := bits (p.w 0) 0 2
  if quarantined s (unitId 9 e) then refuse s 0x0C01 (unitId 9 e)
  else if 64 ≤ s.lnt.listeners.length then refuse s 0x0305 64
  else
    let n := lowestFree (s.lnt.listeners.map Prod.fst)
    let x := drawBytes 32 s
    let d := drawBytes 64 x.2
    (.done (Done.res n 0),
     putLst n { live := true, port := e, addr := BitVec.ofNat 128 (p.w 1 + p.w 2 * 2 ^ 64), udp := if p.w 3 = 0 then 0x4B35 else p.w 3
                rnd := p.w 4, ctx := p.ctx, xPriv := x.1, xPub := x25519Pub x.1, dk := d.1, ek := mlkemEk d.1 } d.2)

/-- 12 R230. -/
def execSessionListen (q : QRef) (s : State) : Res := .next (runCmd 0x0700 sessionListen q s)

/-- 12 R230: LISTEN_CLOSE. -/
def listenClose : Body := fun _ p s =>
  let l := getLst s (p.w 0)
  if !l.live then refuse s 0x0403 0
  else if !inScope s p.ctx l.ctx then refuse s 0x0202 0
  else (.done Done.ok, closeLst (p.w 0) s)

/-- 12 R230. -/
def execListenClose (q : QRef) (s : State) : Res := .next (runCmd 0x0701 listenClose q s)

/-- The session that a command names (12 R235). -/
def withSess (p : Packet) (s : State) (k : Nat → Reply × State) : Reply × State :=
  match sessOf s (p.w 0) with
  | none => refuse s 0x0403 0
  | some i => if !inScope s p.ctx (sessCtx s (getSess s i)) then refuse s 0x0202 0 else k i

/-- 12 R235: SESSION_QUERY. -/
def sessionQuery : Body := fun _ p s => withSess p s fun i => (.done (Done.res (getSess s i).st 0), s)

/-- 12 R235. -/
def execSessionQuery (q : QRef) (s : State) : Res := .next (runCmd 0x0702 sessionQuery q s)

/-- 12 R235: SESSION_EVICT. -/
def sessionEvict : Body := fun _ p s => withSess p s fun i => (.done Done.ok, freeSess i s)

/-- 12 R235. -/
def execSessionEvict (q : QRef) (s : State) : Res := .next (runCmd 0x0703 sessionEvict q s)

/-- 06 Table 6.10: the listeners and sessions of a context go. -/
def dropCtxSessions (c : Nat) (s : State) : State :=
  ((s.lnt.listeners.filter fun e => e.2.live && e.2.ctx == c).map Prod.fst).foldl (fun s n => closeLst n s) s

end Sys2Proof.Machine
end

