-- ==== Sys2Proof/Machine/Qp.lean ====
section
/-! DEFINITION. Linnet queue pairs (12 R237 to R252): connection and keys, descriptors and their completion, placement at the target, windows, paging at the adapter, retransmission and congestion, errors, and the flap hold. -/

namespace Sys2Proof.Machine

/-! Records and counters. -/

/-- The mirror queues that follow one counter of a queue pair (06 R118). -/
def mirrorsOf (s : State) (n : Nat) (recv : Bool) : List (Nat × Queue) :=
  s.host.queues.filter fun e => e.2.typ == 3 && e.2.st != .absent && e.2.mirror == n && e.2.mirrorRecv == recv

/-- The MSI-X messages of a completion with IRQ: the vectors of the mirrors of the send counter (log 41). -/
def qpIrq (n : Nat) (s : State) : State :=
  emitAll ((mirrorsOf s n false).map fun e => .msix (ctxFn s e.2.ctx) e.2.vec) s

/-- 12 R241: a send descriptor completes: its record is queued and the send counter advances. -/
def finishSend (n : Nat) (d : SendDesc) (status detail rlen : Nat) (s : State) : State :=
  let r : StatusRec := { tag := d.tag, status := status, dup := false, sealed := false, phase := false, detail := detail, rlen := rlen,
                         res0 := d.msn, res1 := 0 }
  let s := modQp n (fun v => { v with sq := v.sq.erase d, cq := v.cq ++ [r], sendCnt := v.sendCnt + 1 }) s
  if bitOf d.flags 3 then qpIrq n s else s

/-! Sending packets. -/

/-- The direction bytes of a queue pair (12 R240): what it sends, and what it receives. -/
def txDir (v : Qp) : Nat := if v.initiator then 5 else 6
def rxDir (v : Qp) : Nat := if v.initiator then 6 else 5

/-- A packet of queue pair `n` to its peer. -/
def qpPkt (s : State) (n typ : Nat) : LntPkt :=
  let v := getQp s n
  { mkPkt s v.engine typ (v.peerQp.getD 0) with
    src := n, srcPort := if v.engine = 4 then 0 else 0xC000 + n % 0x4000, dstPort := if v.engine = 4 then 0 else 0x4B35, apsn := apsnOf v.rxPsn }

/-- 12 R228: a control packet of a queue pair leaves by an engine. `psn` names a packet; without one, PSN carries the low bits of
the control sequence. -/
def sendCtl (n e typ imm msn ts : Nat) (psn : Option Nat) (s : State) : State :=
  let v := getQp s n
  let p := { qpPkt s n typ with engine := e, imm := imm, msn := msn % 2 ^ 32, ts := ts, psn := (psn.getD v.ctlTx) % 2 ^ 32
                                offset := if typ = 8 then ackBitmap v.rxPsn v.reorder else 0 }
  let p := if v.prot then { p with tag := ctlTag v.kTx (txDir v) v.ctlTx p } else p
  sendLnt v.ctx e v.peer p (modQp n (fun v => { v with ctlTx := v.ctlTx + 1 }) s)

/-- An ACK that echoes a TS (12 R250). -/
def sendAck (n ts : Nat) (s : State) : State := sendCtl n (getQp s n).engine 0x08 0 0 ts none s

/-- A NAK with a code of 12 Table 12.7 for a PSN. -/
def sendNak (n code psn : Nat) (s : State) : State := sendCtl n (getQp s n).engine 0x09 code 0 s.lark.time (some psn) s

/-- Packets are given the next PSNs and wait to be sent. -/
def queuePkts (n : Nat) (ps : List LntPkt) (s : State) : State :=
  modQp n (fun v => { v with txq := v.txq ++ (ps.zipIdx.map fun e => { e.1 with psn := v.txPsn + e.2 }), txPsn := v.txPsn + ps.length }) s

/-- The packets of a message: payloads of at most 8,192 bytes (12 R227), OFFSET rising from `off`. -/
def msgPkts (s : State) (n typ off wkey imm msn : Nat) (bytes : List Byte) : List LntPkt :=
  let parts := (chunks 8192 (bytes.length / 8192 + 1) bytes).zipIdx
  parts.map fun e => { qpPkt s n typ with
    flags := BitVec.ofNat 8 (b2n (e.2 == 0) + b2n (e.2 + 1 == parts.length) * 2 + b2n (e.2 + 1 == parts.length) * 8)
    len := e.1.length, offset := off + 8192 * e.2, wkey := wkey, imm := imm, msn := msn % 2 ^ 32, payload := e.1 }

/-! Errors (12 R251). -/

/-- The DETAIL of a status that ends a queue pair (05 Table 5.7). -/
def qpDetail (s : State) (v : Qp) (status : Nat) : Nat :=
  if status / 256 = 7 then abortDetail s
  else if status = 0x0801 then (if v.engine = 4 then v.peer else 0xFFFFFFFF)
  else if status = 0x0C03 then unitId 9 v.engine
  else if status / 256 = 4 then v.st
  else Config.statusDetail status

/-- Every descriptor that has not completed completes with a status. -/
def failSends (n status detail : Nat) (s : State) : State := (getQp s n).sq.foldl (fun s d => finishSend n d status detail d.moved s) s

/-- TERMINATE leaves for a bound peer, by the engine named or the queue pair's own, where that can send. -/
def sendTerminate (n status : Nat) (via : Option Nat) (s : State) : State :=
  let v := getQp s n
  let e := via.getD v.engine
  if v.peerQp.isSome && linkUp s e then sendCtl n e 0x0F status 0 s.lark.time none s else s

/-- A queue pair's transfers stop: nothing waits to be sent, acknowledged or placed. -/
def dropTransfers (v : Qp) : Qp :=
  { v with txq := [], unacked := [], reorder := [], held := [], stall := none, sfault := none, edge := none, nr := none, rfull := none
           prov := none, failed := 0 }

/-- 12 R251: a queue pair enters Error with a status: its descriptors complete with it, and the peer is told. -/
def qpFail (n status detail : Nat) (via : Option Nat) (s : State) : State :=
  let s := sendTerminate n status via (failSends n status detail s)
  modQp n (fun v => { dropTransfers v with st := 5, errStatus := status }) s

/-- 12 Table 12.5: a cause ends a queue pair in Connecting, Connected or Held. -/
def qpError (n status : Nat) (s : State) : State :=
  let v := getQp s n
  if v.st = 2 ∨ v.st = 3 ∨ v.st = 4 then qpFail n status (qpDetail s v status) none s else s

/-! Starting descriptors (12 R241, R242, R248). -/

/-- 12 R241: why a descriptor is malformed. -/
def sendMalformed (b : List Byte) : Option (Nat × Nat) :=
  let op := field b 0 2
  let fl := field b 2 2
  let fmt := bits (field b 6 1) 0 3
  let row := match fmtOf fmt with | some f => tileBytes f | none => 1
  if op < 1 ∨ 5 < op then some (0x0102, 0)
  else if fl &&& (0xFFFF - 0xA) ≠ 0 then some (0x0104, 2)
  else if !bitOf fl 1 && field b 4 2 != 0 then some (0x0104, 4)
  else if (if op = 5 then bits (field b 6 1) 3 5 else field b 6 1) ≠ 0 then some (0x0104, 6)
  else if field b 7 1 ≠ 0 then some (0x0104, 7)
  else if !bitOf fl 1 && field b 0x0C 4 != 0 then some (0x0104, 0x0C)
  else if (sub b 0x30 16).any (· != 0) then some (0x0104, 0x30)
  else if 2 ^ 32 < field b 0x20 8 then some (0x0105, 0x20)
  else if op = 5 ∧ (fmt < 2 ∨ 4 < fmt) then some (0x0105, 6)
  else if op = 5 ∧ field b 0x20 8 % row ≠ 0 then some (0x0105, 0x20)
  else none

/-- A descriptor as it stands in the ring (12 Table 12.6); `failed` marks one that is malformed. -/
def parseSend (b : List Byte) : SendDesc :=
  { op := field b 0 2, flags := field b 2 2, waitQ := field b 4 2, waitV := BitVec.ofNat 32 (field b 0x0C 4), fmt := field b 6 1
    tag := field b 8 4, loc := field b 0x10 8, remote := field b 0x18 8, length := field b 0x20 8, wkey := field b 0x28 4
    imm := field b 0x2C 4, msn := 0, started := false, moved := 0 }

/-- 06 R115: the send queue stalls at a descriptor whose source is not present. -/
def stallSend (n dva : Nat) (s : State) : State :=
  raiseEv 0x0210 (some (getQp s n).ctx) (unitId 9 (getQp s n).engine) (n % 2 ^ 16 * 2 ^ 48 + dva)
    (modQp n (fun v => { v with sfault := some { cause := 1, access := 1, dva := dva } }) s)

/-- The descriptor has started: it takes the next message number. -/
def markSent (n : Nat) (d : SendDesc) (s : State) : State :=
  modQp n (fun v => { v with sq := v.sq.map fun x => if x = d then { d with started := true, msn := v.msn } else x, msn := v.msn + 1 }) s

/-- TYPE of the packets that an operation sends (12 Tables 12.2, 12.6). -/
def opTyp (op : Nat) : Nat := if op = 1 then 1 else if op = 2 then 2 else if op = 3 then 3 else if op = 4 then 5 else 6

/-- A descriptor sends its message. -/
def sendMsg (n : Nat) (d : SendDesc) (s : State) : State :=
  let v := getQp s n
  if d.op = 3 ∧ d.length = 0 then finishSend n { d with msn := v.msn } 0 0 0 (modQp n (fun v => { v with sq := v.sq.map fun x => if x = d then { d with msn := v.msn } else x }) s)
  else if d.op = 3 then queuePkts n (msgPkts s n 3 d.remote d.wkey 0 v.msn (natLE 8 d.length)) (markSent n d s)
  else if d.op = 4 then queuePkts n (msgPkts s n 5 0 0 0 v.msn []) (markSent n d s)
  else match dvaRead s v.ctx d.loc d.length .read false with
    | .ok bs => queuePkts n (msgPkts s n (opTyp d.op) d.remote d.wkey (if d.op = 5 then d.fmt else d.imm) v.msn bs) (markSent n d s)
    | .error (.cause 1 dva) => stallSend n dva s
    | .error e => finishSend n d (accStatus .read e).1 (accStatus .read e).2 0 s

/-- A queue that stands for queue pair `n` in the walk of R122: one of its mirrors. -/
def isMirror (s : State) (n q : Nat) : Bool := (getQ s q).typ == 3 && (getQ s q).mirror == n

/-- 12 R241: the head descriptor that has not started: refused, waiting, or sent. `b` are its bytes' faults, found at the post. -/
def startSend (n : Nat) (d : SendDesc) (s : State) : State :=
  let v := getQp s n
  if v.failed ≠ 0 then finishSend n d v.failed 0 0 (modQp n (fun v => { v with failed := 0 }) s)
  else if 0x100 ≤ d.op then finishSend n d (d.op / 2 ^ 16) (d.op % 2 ^ 16) 0 s
  else if bitOf d.flags 1 then
    match waitCheck s v.ctx (isMirror s n) d.waitQ d.waitV with
    | .error e => finishSend n d e.1 e.2 0 s
    | .ok true => sendMsg n d s
    | .ok false => modQp n (fun v => { v with edge := some (d.waitQ, d.waitV) }) s
  else sendMsg n d s

/-! The sender (12 R229, R242, R250). -/

/-- Unacknowledged payload bytes. -/
def unackedBytes (v : Qp) : Nat := v.unacked.foldl (fun n e => n + e.pkt.len) 0

/-- 12 R250: a packet may be sent: fewer than 1,024 unacknowledged ones, and their bytes below cwnd. -/
def sendRoom (v : Qp) : Bool := v.unacked.length < 1024 && unackedBytes v < v.cwnd

/-- A queue pair that may transmit: Connected, its engine up, not waiting under NOT_READY or RECEIVE_FULL. -/
def maySend (s : State) (v : Qp) : Bool :=
  v.st == 3 && linkUp s v.engine && v.rfull.isNone && !(v.nr.any NotReady.waiting)

/-- The packet as it goes out: protected under R228. -/
def wirePkt (v : Qp) (p : LntPkt) : LntPkt := if v.prot then sealData v.kTx (txDir v) p.psn p else p

/-- 12 R242: a write completes when its last packet has left the engine. -/
def leftEngine (n : Nat) (p : LntPkt) (s : State) : State :=
  if (p.typ = 1 ∨ p.typ = 2 ∨ p.typ = 6) ∧ p.flags.getLsbD 1 then
    match (getQp s n).sq.find? fun d => d.started && d.msn % 2 ^ 32 == p.msn && opTyp d.op == p.typ with
    | some d => finishSend n d 0 0 d.length s
    | none => s
  else s

/-- The first waiting packet leaves. -/
def sendFirst (n : Nat) (p : LntPkt) (s : State) : State :=
  let v := getQp s n
  let w := wirePkt v { p with ts := s.lark.time, apsn := apsnOf v.rxPsn }
  let s := modQp n (fun v => { v with txq := v.txq.drop 1, unacked := v.unacked ++ [{ psn := p.psn, pkt := w, at_ := s.lark.time }] }) s
  leftEngine n p (meterTx v.ctx p.len (sendLnt v.ctx v.engine v.peer w s))

/-- Packets are sent and descriptors started, as far as they may be; the number bounds the packets and descriptors. -/
def pumpLoop (n : Nat) : Nat → State → State
  | 0, s => s
  | k + 1, s =>
    let v := getQp s n
    if !maySend s v then s
    else match v.txq with
      | p :: _ =>
        if !sendRoom v then s
        else match lntRefused s v.ctx v.engine v.peer with
          | some st => qpError n st s
          | none => pumpLoop n k (sendFirst n p s)
      | [] =>
        match v.sq.find? fun d => !d.started with
        | some d => if v.sfault.isSome || v.edge.isSome then s else pumpLoop n k (startSend n d s)
        | none => s

/-- A queue pair sends what it may: at most 1,024 packets and the descriptors of its ring. -/
def pump (n : Nat) (s : State) : State := pumpLoop n (1025 + (getQp s n).sq.length) s

/-- A packet sent again: RETX set, the ciphertext unchanged (12 R228). -/
def resendPkt (s : State) (v : Qp) (p : LntPkt) : LntPkt :=
  { p with flags := p.flags ||| 4, ts := s.lark.time, apsn := apsnOf v.rxPsn }

/-- The unacknowledged packets from a PSN on are sent again. -/
def resendFrom (n psn : Nat) (s : State) : State :=
  let v := getQp s n
  let mine := v.unacked.filter fun e => decide (psn ≤ e.psn)
  let s := mine.foldl (fun s e => meterTx v.ctx e.pkt.len (sendLnt v.ctx v.engine v.peer (resendPkt s v e.pkt) s)) s
  modQp n (fun v => { v with unacked := v.unacked.map fun e => if psn ≤ e.psn then { e with at_ := s.lark.time } else e }) s

/-- The extended PSN that an APSN acknowledges up to, or none. -/
def ackedTo (v : Qp) (apsn : Nat) : Option Nat :=
  let d := psnDist apsn (v.txPsn % 2 ^ 32)
  if d = 0 ∨ v.txPsn < d then none else some (v.txPsn - d)

/-- 12 R250: cwnd after an ACK. -/
def cwndAfter (v : Qp) (rtt acked now : Nat) : Qp :=
  if rtt ≤ v.cc.target then { v with cwnd := min v.cc.cwndMax (v.cwnd + v.cc.ai * acked / v.cwnd) }
  else if v.lastCut + rtt ≤ now then
    { v with cwnd := max v.cc.cwndMin (v.cwnd - ceilDiv (v.cwnd * v.cc.beta * (rtt - v.cc.target)) (65536 * rtt)), lastCut := now }
  else v

/-- Acknowledged packets are freed; an acknowledgement of a packet under NOT_READY or RECEIVE_FULL ends its wait. -/
def freeAcked (apsn : Nat) (v : Qp) : Qp :=
  match ackedTo v apsn with
  | none => v
  | some a =>
    let left := v.unacked.filter fun e => decide (a < e.psn)
    if left.length = v.unacked.length then v
    else { v with unacked := left, retries := 0, nr := v.nr.filter fun r => decide (a < r.psn), rfull := v.rfull.filter fun r => decide (a < r.1) }

/-- 12 R250: an ACK frees packets and moves cwnd; the smoothed rtt is a free value (log 41). -/
def onAck (n : Nat) (p : LntPkt) (s : State) : State :=
  let r := drawNat s
  let s := modQp n (fun v =>
    let w := freeAcked p.apsn v
    let w := cwndAfter w (s.lark.time - p.ts) (unackedBytes v - unackedBytes w) s.lark.time
    { w with srtt := r.1 }) r.2
  let s :=
    if p.imm % 2 = 1 then
      match (getQp s n).sq.find? fun d => d.started && d.op == 4 && d.msn % 2 ^ 32 == p.msn with
      | some d => finishSend n d 0 0 0 s
      | none => s
    else s
  pump n s

/-! Windows at the target (12 R245, R246). -/

/-- What a target finds of a remote operation. -/
inductive Placed where
  | ok (s : State)
  | access | group | memory (unit : Nat) | full
  | absent (acc : Acc) (dva : Nat)

/-- 12 R245: the peer set of a window admits a source. -/
def peersAdmit (w : Win) (n : Nat) (v : Qp) : Bool :=
  if w.peers = 0 then true
  else if bits w.peers 28 4 = 1 then bits w.peers 0 24 == n
  else bitOf (bits w.peers 0 5) v.engine

/-- 12 R245: the window of an operation on queue pair `n`, if the check passes. -/
def winCheck (s : State) (n off len key : Nat) (acc : Acc) : Option Win :=
  match winOf s key with
  | none => none
  | some e =>
    let w := e.2
    let right := match acc with | .read => w.r | .write => w.w | _ => w.acc
    if w.ctx == (getQp s n).ctx && right && peersAdmit w n (getQp s n) && decide (off + len ≤ w.len) then some w else none

/-- The DVA at which the context of a window has mapped a byte of its object (log 42). -/
def winDva (s : State) (w : Win) (off : Nat) : Option Nat :=
  let x := w.off + off
  ((getCtx s w.ctx).maps.find? fun m => m.obj == w.obj && m.off ≤ x && x < m.off + m.len).map fun m => m.dva + x - m.off

/-- The first failure of an access to a window's bytes. -/
def winErr (s : State) (w : Win) (off len : Nat) (acc : Acc) : Option Placed :=
  if len = 0 then none else
  (pageStarts (w.off + off) len).findSome? fun x =>
    match winDva s w (x - w.off) with
    | none => some (.absent acc ((drawNat s).1 % 2 ^ 48))
    | some a =>
      match translate s w.ctx a acc false with
      | .error 1 => some (.absent acc a)
      | .error _ => some .access
      | .ok (.dev o) => if isHbm o && quarantined s (unitId 0x0D (pcOf s o)) then some (.memory (unitId 0x0D (pcOf s o))) else none
      | .ok (.host _) => none

/-- The byte of a window. -/
def winGet (s : State) (w : Win) (acc : Acc) (off : Nat) : Byte :=
  match winDva s w off with | some a => dvaGet s w.ctx a acc false | none => 0

/-- Bytes of a window written. -/
def winStore (w : Win) (acc : Acc) : Nat → List Byte → State → State
  | _, [], s => s
  | off, b :: bs, s =>
    winStore w acc (off + 1) bs (match winDva s w off with | some a => dvaPut s w.ctx a acc false b | none => s)

/-- 12 R247: one row added to a row of memory, atomically; at the X704 term limit the row stays (10 R203). -/
def addMemRow (w : Win) (f : AccFmt) (off : Nat) (raw : List Byte) (s : State) : State :=
  let old := decRow f ((List.range (tileBytes f)).map fun i => winGet s w .accum (off + i))
  let new := List.zipWith (addElem (f == .p255)) old ((decRow f raw).map (ingressElem f))
  if overLimit new then raisePlain 0x0607 (some w.ctx) 0xFFFF s else winStore w .accum off (encRow f new) s

/-- The rows of a message. -/
def rowsOf (f : AccFmt) (bs : List Byte) : List (Nat × List Byte) :=
  (List.range (bs.length / tileBytes f)).map fun i => (i, sub bs (i * tileBytes f) (tileBytes f))

/-- 12 R246, R247: rows added into the roost that a window offset names. -/
def addRoost (p : Prog) (c : Nat) (f : AccFmt) (off : Nat) (bs : List Byte) (s : State) : Placed :=
  let t := off % 2 ^ 19 / 256
  match (maskWrens p.mask)[off / 2 ^ 19]? with
  | none => .access
  | some w =>
    let r : Roost := { w := w, size := roostSize p.roost, ctx := c, ingress := false }
    let n := bs.length / tileBytes f
    if off % 256 ≠ 0 ∨ !r.fits f t n then .access
    else if inOpenRange s w f t n then .group
    else .ok ((rowsOf f bs).foldl (fun s e => ingressAdd r f (t + e.1 * granules f) e.2 s) s)

/-- 12 R246, R247: the rows of a whole ACC_WRITE message are added. -/
def addRows (w : Win) (code off : Nat) (bs : List Byte) (s : State) : Placed :=
  match fmtOf code with
  | none => .access
  | some f =>
    if !ingressFmt f || bs.length % tileBytes f != 0 then .access
    else match (getObj? s w.obj).map Obj.kind with
      | some (.prog p) => addRoost p w.ctx f (w.off + off) bs s
      | _ =>
        if (w.off + off) % 256 ≠ 0 then .access
        else match winErr s w off bs.length .accum with
          | some e => e
          | none => .ok ((rowsOf f bs).foldl (fun s e => addMemRow w f (off + e.1 * tileBytes f) e.2 s) s)

/-! Placement (12 R243 to R248). -/

/-- 12 R244: the receive record of a WRITE_IMM, from its first packet on. -/
def recvRecord (n : Nat) (first p : LntPkt) (s : State) : State :=
  let r : StatusRec := { tag := p.imm, status := 0, dup := false, sealed := false, phase := false, detail := p.src % 2 ^ 24
                         rlen := p.offset + p.len - first.offset, res0 := p.msn, res1 := first.offset }
  modQp n (fun v => { v with rq := v.rq ++ [r], recvCnt := v.recvCnt + 1 }) s

/-- A WRITE or WRITE_IMM packet is placed. -/
def placeWrite (n : Nat) (p : LntPkt) (s : State) : Placed :=
  let v := getQp s n
  let first := (v.held.head?).getD p
  let last := p.flags.getLsbD 1
  let hold := modQp n (fun v => { v with held := if last then [] else [{ first with payload := [] }] })
  let done (s : State) : Placed := .ok (hold (if p.typ = 2 ∧ last then recvRecord n first p s else s))
  if p.typ = 2 ∧ last ∧ 2 ^ v.r ≤ v.rq.length then .full
  else if p.len = 0 then done s
  else match winCheck s n p.offset p.len p.wkey .write with
    | none => .access
    | some w =>
      match (getObj? s w.obj).map Obj.kind with
      | some (.mem ..) =>
        (match winErr s w p.offset p.len .write with
         | some e => e
         | none => done (winStore w .write p.offset p.payload s))
      | _ => .access

/-- An ACC_WRITE packet: rows are added once the whole message is here, so that a refused message adds none (12 R247). -/
def placeAcc (n : Nat) (p : LntPkt) (s : State) : Placed :=
  let v := getQp s n
  if p.len ≠ 0 ∧ (winCheck s n p.offset p.len p.wkey .accum).isNone then .access
  else if !p.flags.getLsbD 1 then .ok (modQp n (fun v => { v with held := v.held ++ [p] }) s)
  else
    let all := v.held ++ [p]
    let bs := all.flatMap LntPkt.payload
    let s' := modQp n (fun v => { v with held := [] }) s
    if bs.isEmpty then .ok s'
    else match winCheck s n ((all.head?).getD p).offset bs.length p.wkey .accum with
      | none => .access
      | some w => addRows w (p.imm % 8) ((all.head?).getD p).offset bs s'

/-- 12 R243: a READ_REQ is answered with READ_RESP packets. -/
def placeReadReq (n : Nat) (p : LntPkt) (s : State) : Placed :=
  let len := field p.payload 0 8
  if len = 0 then .ok s
  else match winCheck s n p.offset len p.wkey .read with
    | none => .access
    | some w =>
      match (getObj? s w.obj).map Obj.kind with
      | some (.mem ..) =>
        (match winErr s w p.offset len .read with
         | some e => e
         | none => .ok (queuePkts n (msgPkts s n 4 p.offset p.wkey 0 p.msn ((List.range len).map fun i => winGet s w .read (p.offset + i))) s))
      | _ => .access

/-- 12 R242: READ_RESP data is placed locally; the READ completes once all of it is. -/
def placeResp (n : Nat) (p : LntPkt) (s : State) : Placed :=
  let v := getQp s n
  match v.sq.find? fun d => d.started && d.op == 3 && d.msn % 2 ^ 32 == p.msn with
  | none => .ok s
  | some d =>
    match dvaWrite s v.ctx (d.loc + (p.offset - d.remote)) p.payload .write false with
    | .error (.cause 1 dva) => .absent .write dva
    | .error e => .ok (finishSend n d (accStatus .write e).1 (accStatus .write e).2 d.moved s)
    | .ok s =>
      let d' := { d with moved := d.moved + p.payload.length }
      let s := modQp n (fun v => { v with sq := v.sq.map fun x => if x = d then d' else x }) s
      .ok (if d'.length ≤ d'.moved then finishSend n d' 0 0 d'.length s else s)

/-- One packet takes effect at its place in PSN order. -/
def placeOne (n : Nat) (p : LntPkt) (s : State) : Placed :=
  if p.typ = 1 ∨ p.typ = 2 then placeWrite n p s
  else if p.typ = 3 then placeReadReq n p s
  else if p.typ = 4 then placeResp n p s
  else if p.typ = 6 then placeAcc n p s
  else .ok (sendCtl n (getQp s n).engine 0x08 1 p.msn p.ts none s)

/-- 06 R116: a not-ready page: the event once for each queue pair and 4 KiB page, and again after 100 ms. -/
def tellPage (n dva : Nat) (s : State) : State :=
  let page := dva / 4096 * 4096
  let v := getQp s n
  if v.pagesTold.any fun e => e.1 == page && decide (s.lark.time < e.2 + 100000000) then s
  else raiseEv 0x0210 (some v.ctx) (unitId 9 v.engine) (n % 2 ^ 16 * 2 ^ 48 + page)
    (modQp n (fun v => { v with pagesTold := (page, s.lark.time) :: v.pagesTold.filter fun e => e.1 != page }) s)

/-- 06 R116: a page told of that is still not present. -/
def stillAbsent (s : State) (c : Nat) (e : Nat × Nat) : Bool :=
  match translate s c e.1 .read true with | .error 1 => true | _ => false

/-- 06 R114, 12 R249: a page that is not present, under the fault mode of the queue pair. -/
def pageAbsent (n : Nat) (p : LntPkt) (acc : Acc) (dva : Nat) (s : State) : State :=
  let v := getQp s n
  if v.notReady then
    sendCtl n v.engine 0x0A 0 0 s.lark.time (some p.psn)
      (tellPage n dva (modQp n (fun v => { v with reorder := v.reorder.filter fun x => x.psn != p.psn }) s))
  else
    raiseEv 0x0210 (some v.ctx) (unitId 9 v.engine) (n % 2 ^ 16 * 2 ^ 48 + dva)
      (modQp n (fun v => { v with stall := some (p.psn, { cause := 1, access := acc.code, dva := dva }) }) s)

/-- 12 Table 12.7: a cause at the target that ends the queue pair. -/
def targetError (n code status psn : Nat) (s : State) : State :=
  let s := sendNak n code psn s
  let s := if code = 2 then raisePlain 0x0204 (some (getQp s n).ctx) (unitId 9 (getQp s n).engine) s else s
  qpError n status s

/-- 12 R243: packets take effect in PSN order as far as they are here; the number bounds them. -/
def placeLoop (n : Nat) : Nat → State → State
  | 0, s => s
  | k + 1, s =>
    let v := getQp s n
    match atPsn v.rxPsn v.reorder with
    | none => s
    | some p =>
      if v.stall.isSome then s
      else match placeOne n p s with
        | .ok s => placeLoop n k (modQp n (fun v => { v with rxPsn := v.rxPsn + 1, reorder := v.reorder.filter fun x => x.psn != p.psn
                                                             pagesTold := v.pagesTold.filter (stillAbsent s v.ctx) }) s)
        | .access => targetError n 2 0x0204 p.psn s
        | .group => targetError n 6 0x0401 p.psn s
        | .memory _ => targetError n 0x0C 0x0C03 p.psn s
        | .full => sendNak n 4 p.psn (modQp n (fun v => { v with reorder := v.reorder.filter fun x => x.psn != p.psn }) s)
        | .absent acc dva => pageAbsent n p acc dva s

/-! Received packets. -/

/-- The queue pair that a packet reaches: live, of an active context, Connected to the sender. A packet of an unprotected one must
come from its bound peer address. -/
def rxQp (p : LntPkt) (s : State) : Option Nat :=
  let n := p.dest % 2 ^ 24
  let v := getQp s n
  if v.st == 3 && ctxActive s v.ctx && v.engine == p.engine && v.peerQp == some (p.src % 2 ^ 24) && (v.prot || p.srcAddr == v.peer) then some n
  else none

/-- A data packet: authenticated, checked against the window of R229, placed and acknowledged. -/
def dataIn (p : LntPkt) (s : State) : State :=
  match rxQp p s with
  | none => s
  | some n =>
    let v := getQp s n
    if v.stall.isSome then s
    else match (if v.prot then openData v.kRx (rxDir v) (psnExt v.rxPsn p.psn) p else some p.payload) with
      | none => dropLnt p.engine s
      | some text =>
        match psnCheck v.rxPsn p.psn with
        | .beyond => sendNak n 1 p.psn (dropLnt p.engine s)
        | .already => sendAck n p.ts (dropLnt p.engine s)
        | .ok ext =>
          if v.reorder.any fun x => x.psn == ext then sendAck n p.ts (dropLnt p.engine s)
          else
            let s := modQp n (fun v => { v with reorder := { p with psn := ext, payload := text, tag := [] } :: v.reorder }) s
            let s := placeLoop n (getQp s n).reorder.length (meterRx v.ctx text.length s)
            pump n (if (getQp s n).st = 3 then sendAck n p.ts s else s)

/-- A control packet: authenticated on a protected queue pair under its direction's control sequence. -/
def ctlIn (body : Nat → LntPkt → State → State) (p : LntPkt) (s : State) : State :=
  match rxQp p s with
  | none => s
  | some n =>
    let v := getQp s n
    if !v.prot then body n p s
    else match ctlSeq v.kRx (rxDir v) v.ctlRx p with
      | none => dropLnt p.engine s
      | some c => body n p (modQp n (fun v => { v with ctlRx := c + 1 }) s)

/-- 12 R243. -/
def execRxWrite (p : LntPkt) (s : State) : Res := .next (rxPkt 0x01 dataIn p s)

/-- 12 R244. -/
def execWriteImm (p : LntPkt) (s : State) : Res := .next (rxPkt 0x02 dataIn p s)

/-- 12 R243. -/
def execReadReq (p : LntPkt) (s : State) : Res := .next (rxPkt 0x03 dataIn p s)

/-- 12 R242. -/
def execReadResp (p : LntPkt) (s : State) : Res := .next (rxPkt 0x04 dataIn p s)

/-- 12 R243. -/
def execFlush (p : LntPkt) (s : State) : Res := .next (rxPkt 0x05 dataIn p s)

/-- 12 R247. -/
def execAccWrite (p : LntPkt) (s : State) : Res := .next (rxPkt 0x06 dataIn p s)

/-- 12 R250. -/
def execAck (p : LntPkt) (s : State) : Res := .next (rxPkt 0x08 (ctlIn onAck) p s)

/-- 12 Table 12.7: a NAK with a code. -/
def nakIn (code : Nat) (body : Nat → LntPkt → State → State) (p : LntPkt) (s : State) : State :=
  if p.imm % 256 = code then rxPkt 0x09 (ctlIn body) p s else s

/-- The extended PSN of the sent packet that a PSN names. -/
def sentPsn (v : Qp) (psn : Nat) : Nat := ((v.unacked.find? fun e => e.psn % 2 ^ 32 == psn % 2 ^ 32).map Sent.psn).getD v.txPsn

/-- 12 R229: NAK SEQUENCE: the sender retransmits from APSN. -/
def onNakSequence (n : Nat) (p : LntPkt) (s : State) : State :=
  let s := modQp n (freeAcked p.apsn) s
  resendFrom n (match ackedTo (getQp s n) p.apsn with | some a => a + 1 | none => 0) s

/-- 12 R229. -/
def execNakSequence (p : LntPkt) (s : State) : Res := .next (nakIn 1 onNakSequence p s)

/-- The rights that the packet a NAK names needed (05 Table 5.7). -/
def nakRights (v : Qp) (psn : Nat) : Nat :=
  match v.unacked.find? fun e => e.psn % 2 ^ 32 == psn % 2 ^ 32 with
  | some e => if e.pkt.typ = 3 then 1 else if e.pkt.typ = 6 then 4 else 2
  | none => 0

/-- 12 Table 12.7: NAK ACCESS: status 0x0204, Error, and event 0x0204. -/
def onNakAccess (n : Nat) (p : LntPkt) (s : State) : State :=
  let v := getQp s n
  qpFail n 0x0204 (nakRights v p.psn) none (raisePlain 0x0204 (some v.ctx) (unitId 9 v.engine) s)

/-- 12 R251. -/
def execNakAccess (p : LntPkt) (s : State) : Res := .next (nakIn 2 onNakAccess p s)

/-- 12 R249: NAK STALLED: the retry count is reset and the sender waits. -/
def onNakStalled (n : Nat) (_ : LntPkt) (s : State) : State :=
  modQp n (fun v => { v with retries := 0, unacked := v.unacked.map fun e => { e with at_ := s.lark.time } }) s

/-- 12 R249. -/
def execNakStalled (p : LntPkt) (s : State) : Res := .next (nakIn 3 onNakStalled p s)

/-- 12 R244: NAK RECEIVE_FULL: the sender waits 100 µs. -/
def onNakFull (n : Nat) (p : LntPkt) (s : State) : State :=
  modQp n (fun v => { v with rfull := some (sentPsn v p.psn, s.lark.time) }) s

/-- 12 R244. -/
def execNakReceiveFull (p : LntPkt) (s : State) : Res := .next (nakIn 4 onNakFull p s)

/-- 12 R247. -/
def execNakGroup (p : LntPkt) (s : State) : Res := .next (nakIn 6 (fun n _ s => qpError n 0x0401 s) p s)

/-- 12 R251. -/
def execNakMemoryError (p : LntPkt) (s : State) : Res := .next (nakIn 0x0C (fun n _ s => qpError n 0x0C03 s) p s)

/-- 12 R249: NOT_READY: the sender stops at the PSN, and the backoff doubles from 500 µs up to 8 ms. -/
def onNotReady (n : Nat) (p : LntPkt) (s : State) : State :=
  modQp n (fun v =>
    let psn := sentPsn v p.psn
    let r := match v.nr with
      | some r => if r.psn = psn then { r with backoff := min (2 * r.backoff) 8000000 } else { r with psn := psn, since := s.lark.time, backoff := 500000 }
      | none => { psn := psn, since := s.lark.time, backoff := 500000, due := 0, waiting := true }
    { v with nr := some { r with due := s.lark.time + r.backoff, waiting := true } }) s

/-- 12 R249. -/
def execNotReady (p : LntPkt) (s : State) : Res := .next (rxPkt 0x0A (ctlIn onNotReady) p s)

/-! Timers. -/

/-- A Connected queue pair whose engine can send. -/
def qpLive (s : State) (n : Nat) : Bool := (getQp s n).st == 3 && linkUp s (getQp s n).engine

/-- 12 R249: the backoff has passed: the sender sends from the PSN again, or ends the queue pair after 1 s. -/
def execNotReadyResend (n : Nat) (s : State) : Res :=
  .next (match (getQp s n).nr with
    | none => s
    | some r =>
      if !(qpLive s n && r.waiting && decide (r.due ≤ s.lark.time)) then s
      else if r.since + 1000000000 ≤ s.lark.time then qpFail n 0x0204 (nakRights (getQp s n) r.psn) none s
      else pump n (resendFrom n r.psn (modQp n (fun v => { v with nr := some { r with waiting := false } }) s)))

/-- 12 R249: a target in stall sends NAK STALLED. -/
def execStallNakTimer (n : Nat) (s : State) : Res :=
  .next (match (getQp s n).stall with
    | some e => if qpLive s n then sendNak n 3 e.1 s else s
    | none => s)

/-- 12 R250: RTO after the retries of the oldest unacknowledged packet. -/
def rtoOf (v : Qp) : Nat := min (max (4 * v.srtt) v.cc.rtoMin * 2 ^ v.retries) 10000000

/-- 12 R250: RTO has passed for the oldest unacknowledged PSN: it is sent again, or the queue pair enters Error. -/
def execRetransmitTimeout (n : Nat) (s : State) : Res :=
  .next (let v := getQp s n
    match v.unacked.head? with
    | none => s
    | some e =>
      if !(qpLive s n && v.rfull.isNone && !(v.nr.any NotReady.waiting) && decide (e.at_ + rtoOf v ≤ s.lark.time)) then s
      else if v.cc.retry ≤ v.retries then qpError n 0x0801 s
      else
        let s := meterTx v.ctx e.pkt.len (sendLnt v.ctx v.engine v.peer (resendPkt s v e.pkt) s)
        modQp n (fun v => { v with retries := v.retries + 1, unacked := { e with at_ := s.lark.time } :: v.unacked.drop 1 }) s)

/-- 12 R244: 100 µs after RECEIVE_FULL the message is sent again. -/
def execReceiveFullResend (n : Nat) (s : State) : Res :=
  .next (match (getQp s n).rfull with
    | none => s
    | some (psn, at_) =>
      if qpLive s n && decide (at_ + 100000 ≤ s.lark.time) then pump n (resendFrom n psn (modQp n (fun v => { v with rfull := none }) s)) else s)

/-! Connection (12 R239, R240). -/

/-- 12 R239: the lowest live slot of a context with ALG 0x2, LINNET and DERIVE. -/
def linkKeyOf (s : State) (c : Nat) : Option Key :=
  (s.nut.slots.find? fun e => e.2.st != 0 && !e.2.root && e.2.ctx == c && bits e.2.key.attr.toNat 20 4 == 2
    && e.2.key.attr.getLsbD 1 && e.2.key.attr.getLsbD 10).map fun e => e.2.key

/-- The link key of a queue pair on an engine: none on engine 4. -/
def qpKey (s : State) (e c : Nat) : Option Key := if e = 4 then none else linkKeyOf s c

/-- The key ID that CONNECT carries; zero without protection. -/
def keyIdOf (k : Option Key) : List Byte := match k with | some k => k.id | none => zeros 16

/-- The address of an engine: its port's, or the chip number. -/
def engineAddr (s : State) (e : Nat) : Nat := if e = 4 then chipNo s else (getEth s e).addr.toNat

/-- 12 R240: k_ir and k_ri. -/
def linkKeys (link nonceI nonceR : List Byte) (qpI qpR : Nat) : List Byte × List Byte :=
  let prk := hkdfExtract (ascii "KL5-QP-V1" ++ nonceI ++ nonceR) link
  (hkdfExpand prk (ascii "i2r" ++ natLE 4 qpI ++ natLE 4 qpR) 32, hkdfExpand prk (ascii "r2i" ++ natLE 4 qpI ++ natLE 4 qpR) 32)

/-- The tag of ACCEPT or CONFIRM over both payloads (log 41). -/
def handTag (key : List Byte) (dir : Nat) (linkId nonceI nonceR : List Byte) : List Byte :=
  gcmTag key (lntNonce dir 0) (linkId ++ nonceI ++ nonceR) []

/-- 12 R240: CONNECT is sent. -/
def sendConnect (n : Nat) (s : State) : State :=
  let v := getQp s n
  if linkUp s v.engine then
    sendLnt v.ctx v.engine v.peer { qpPkt s n 0x0B with dest := 0, len := 32, payload := v.linkId ++ v.nonceI } s
  else s

/-- 12 R240: a queue pair moves to Connecting. -/
def startConnect (n : Nat) (k : Option Key) (s : State) : State :=
  let r := drawBytes 16 s
  let s := modQp n (fun v => { v with
    st := 2, linkId := keyIdOf k, link := (match k with | some k => k.material | none => [])
    prot := k.isSome, nonceI := r.1, connSince := s.lark.time }) r.2
  match lntRefused s (getQp s n).ctx (getQp s n).engine (getQp s n).peer with
  | some st => qpError n st s
  | none => sendConnect n s

/-- 12 R240: every 1 ms CONNECT is sent again; after 100 ms the initiator enters Error. -/
def execConnectRetry (n : Nat) (s : State) : Res :=
  .next (let v := getQp s n
    if v.st ≠ 2 then s
    else if v.connSince + 100000000 ≤ s.lark.time then qpError n 0x0801 s
    else sendConnect n s)

/-- 12 R240: a queue pair that a CONNECT may bind to. -/
def accepts (s : State) (p : LntPkt) (v : Qp) : Bool :=
  let id := if v.st = 2 then v.linkId else keyIdOf (qpKey s v.engine v.ctx)
  v.engine == p.engine && v.peer == p.srcAddr && id == sub p.payload 0 16 && v.peerQp.isNone && v.prov.isNone && ctxActive s v.ctx
    && (v.st == 1 || (v.st == 2 && decide (engineAddr s v.engine < p.srcAddr)))

/-- A queue pair that a CONNECT of the same source has bound provisionally. -/
def rebinds (p : LntPkt) (v : Qp) : Bool :=
  v.engine == p.engine && v.peer == p.srcAddr && (v.st == 1 || v.st == 2) && (v.prov.map Prod.fst) == some (p.src % 2 ^ 24)

/-- 12 R240: the responder's keys and nonce; ACCEPT is sent. -/
def sendAccept (n : Nat) (p : LntPkt) (s : State) : State :=
  let r := drawBytes 16 s
  let v := getQp s n
  let k := if v.st = 2 then (if v.prot then some v.link else none) else (qpKey s v.engine v.ctx).map Key.material
  let link := k.getD []
  let ks := linkKeys link (sub p.payload 16 16) r.1 (p.src % 2 ^ 24) n
  let s := modQp n (fun v => { v with
    prov := some (p.src % 2 ^ 24, s.lark.time), prot := k.isSome, link := link, linkId := sub p.payload 0 16, nonceI := sub p.payload 16 16
    nonceR := r.1, kTx := ks.2, kRx := ks.1, initiator := false }) r.2
  sendLnt v.ctx v.engine v.peer { qpPkt s n 0x0C with
    dest := p.src % 2 ^ 24, len := 16, payload := r.1
    tag := if k.isSome then handTag ks.2 6 (sub p.payload 0 16) (sub p.payload 16 16) r.1 else [] } s

/-- 12 R240: a CONNECT binds provisionally to the lowest queue pair that qualifies, or is rejected. -/
def connectIn (p : LntPkt) (s : State) : State :=
  match (tabFind (fun _ v => rebinds p v) s.lnt.qps).or (tabFind (fun _ v => accepts s p v) s.lnt.qps) with
  | some e => sendAccept e.1 p s
  | none =>
    sendLnt 0 p.engine p.srcAddr { mkPkt s p.engine 0x0E (p.src % 2 ^ 24) with
      srcPort := if p.engine = 4 then 0 else 0xC000, dstPort := if p.engine = 4 then 0 else 0x4B35 } s

/-- 12 R240. -/
def execConnect (p : LntPkt) (s : State) : Res := .next (rxPkt 0x0B connectIn p s)

/-- A queue pair becomes Connected, and its queued descriptors start. -/
def connected (n peer : Nat) (s : State) : State :=
  pump n (modQp n (fun v => { v with st := 3, peerQp := some peer, prov := none, cwnd := v.cc.cwndInit, ctlTx := 1, ctlRx := 1 }) s)

/-- 12 R240: ACCEPT at the initiator: verified, answered with CONFIRM. -/
def acceptIn (p : LntPkt) (s : State) : State :=
  let n := p.dest % 2 ^ 24
  let v := getQp s n
  let peer := p.src % 2 ^ 24
  let ks := linkKeys v.link v.nonceI (sub p.payload 0 16) n peer
  if v.st ≠ 2 ∨ v.engine ≠ p.engine ∨ v.peer ≠ p.srcAddr ∨ !ctxActive s v.ctx then s
  else if v.prot && handTag ks.2 6 v.linkId v.nonceI (sub p.payload 0 16) != p.tag then dropLnt p.engine s
  else
    let s := modQp n (fun v => { v with nonceR := sub p.payload 0 16, kTx := ks.1, kRx := ks.2, initiator := true, peerQp := some peer }) s
    let tag := if v.prot then handTag ks.1 5 v.linkId v.nonceI (sub p.payload 0 16) else []
    connected n peer (sendLnt v.ctx v.engine v.peer { qpPkt s n 0x0D with tag := tag } s)

/-- 12 R240. -/
def execAccept (p : LntPkt) (s : State) : Res := .next (rxPkt 0x0C acceptIn p s)

/-- 12 R240: CONFIRM at the responder. -/
def confirmIn (p : LntPkt) (s : State) : State :=
  let n := p.dest % 2 ^ 24
  let v := getQp s n
  if !(v.st == 1 || v.st == 2) || v.engine != p.engine || v.peer != p.srcAddr || v.prov.map Prod.fst != some (p.src % 2 ^ 24) then s
  else if v.prot && handTag v.kRx 5 v.linkId v.nonceI v.nonceR != p.tag then dropLnt p.engine s
  else connected n (p.src % 2 ^ 24) s

/-- 12 R240. -/
def execConfirm (p : LntPkt) (s : State) : Res := .next (rxPkt 0x0D confirmIn p s)

/-- 12 R240: a provisional binding with no valid CONFIRM within 1 ms is dropped. -/
def execProvisionalBindTimeout (n : Nat) (s : State) : Res :=
  .next (match (getQp s n).prov with
    | some (_, at_) => if at_ + 1000000 ≤ s.lark.time then modQp n (fun v => { v with prov := none }) s else s
    | none => s)

/-- 12 R240: a REJECT changes nothing at the initiator, whose CONNECT goes on every 1 ms. -/
def rejectIn (_ : LntPkt) (s : State) : State := s

/-- 12 R240. -/
def execReject (p : LntPkt) (s : State) : Res := .next (rxPkt 0x0E rejectIn p s)

/-- 12 R251, R252: TERMINATE. On a protected queue pair it may come by any port; an unprotected one takes it only from its bound
peer address. -/
def terminateIn (p : LntPkt) (s : State) : State :=
  let n := p.dest % 2 ^ 24
  let v := getQp s n
  if !(v.st == 3 || v.st == 4) || v.peerQp != some (p.src % 2 ^ 24) || !ctxActive s v.ctx then s
  else if v.prot then
    match ctlSeq v.kRx (rxDir v) v.ctlRx p with
    | none => dropLnt p.engine s
    | some c => qpError n (p.imm % 2 ^ 16) (modQp n (fun v => { v with ctlRx := c + 1 }) s)
  else if p.engine = v.engine ∧ p.srcAddr = v.peer then qpError n (p.imm % 2 ^ 16) s
  else s

/-- 12 R251. -/
def execTerminate (p : LntPkt) (s : State) : Res := .next (rxPkt 0x0F terminateIn p s)

/-! Posting and reading records (12 R238). -/

/-- A queue pair whose page an access of a function reaches (19 R366). -/
def qpReach (f : Fn) (n : Nat) (s : State) : Bool :=
  (getQp s n).st != 0 && ((getQp s n).ctx == 0 || ctxActive s (getQp s n).ctx) && mayReach f (ctxFn s (getQp s n).ctx)

/-- The register offset of a queue pair's page (19 R365, Table 19.3). -/
def qpPage (s : State) (n : Nat) : Nat := 0x10000000 + 4096 * (if s.host.shared then 8192 * (n / 2 ^ 21) + n % 8192 else n % 65536)

/-- The code under which a malformed descriptor waits its turn: its status and DETAIL in one number. -/
def malformedOp (e : Nat × Nat) : Nat := e.1 * 2 ^ 16 + e.2

/-- A descriptor is posted (12 R238, R241, Table 12.5). -/
def postDesc (n : Nat) (b : List Byte) (s : State) : State :=
  let v := getQp s n
  let d := parseSend b
  let d := match sendMalformed b with | some e => { d with op := malformedOp e } | none => d
  if 2 ^ v.s ≤ v.sq.length then modQp n (fun v => { v with overrun := true }) s
  else
    let s := modQp n (fun v => { v with sq := v.sq ++ [d] }) s
    if v.st = 5 then finishSend n d 0x0401 5 0 s else pump n s

/-- A 64-byte write to LNT_QP_POST. A row's OP tells which one it is; an unknown OP is malformed under any of them. -/
def postRow (op : Nat) (f : Fn) (n : Nat) (b : List Byte) (s : State) : State :=
  if !regsOpen s then s
  else if s.pwr.st = .standby ∨ s.pwr.st = .tripped then onGlb (fun g => { g with dark := true }) s
  else if !qpReach f n s then foreignAccess f s
  else if b.length ≠ 64 then raiseDev 0x0108 (qpPage s n) (onGlb (fun g => { g with width := true }) s)
  else if field b 0 2 = op ∨ field b 0 2 = 0 ∨ 5 < field b 0 2 then postDesc n b s
  else s

/-- 12 R242. -/
def execPostWrite (f : Fn) (n : Nat) (d : List Byte) (s : State) : Res := .next (postRow 1 f n d s)

/-- 12 R244. -/
def execPostWriteImm (f : Fn) (n : Nat) (d : List Byte) (s : State) : Res := .next (postRow 2 f n d s)

/-- 12 R242. -/
def execPostRead (f : Fn) (n : Nat) (d : List Byte) (s : State) : Res := .next (postRow 3 f n d s)

/-- 12 R242. -/
def execPostFlush (f : Fn) (n : Nat) (d : List Byte) (s : State) : Res := .next (postRow 4 f n d s)

/-- 12 R247. -/
def execPostAccWrite (f : Fn) (n : Nat) (d : List Byte) (s : State) : Res := .next (postRow 5 f n d s)

/-- A read of LNT_QP_CQ or LNT_QP_RQ: the next record is returned and removed; all zero when none. Another width reads as zero,
clears nothing and raises event 0x0108 (19 R359). -/
def readRing (off : Nat) (get : Qp → List StatusRec) (pop : Qp → Qp) (f : Fn) (n width : Nat) (s : State) : State :=
  if !regsOpen s then setLastRead 0 s
  else if s.pwr.st = .standby ∨ s.pwr.st = .tripped then setLastRead 0 (onGlb (fun g => { g with dark := true }) s)
  else if !qpReach f n s then setLastRead 0 (foreignAccess f s)
  else if width ≠ 32 then setLastRead 0 (raiseDev 0x0108 (qpPage s n + off) (onGlb (fun g => { g with width := true }) s))
  else match (get (getQp s n)).head? with
    | some r => setLastRead (leNat (recBytes r)) (modQp n pop s)
    | none => setLastRead 0 s

/-- 12 R238. -/
def execLntQpCqRead (f : Fn) (n width : Nat) (s : State) : Res :=
  .next (readRing 0x80 Qp.cq (fun v => { v with cq := v.cq.drop 1 }) f n width s)

/-- 12 R238. -/
def execLntQpRqRead (f : Fn) (n width : Nat) (s : State) : Res :=
  .next (readRing 0xC0 Qp.rq (fun v => { v with rq := v.rq.drop 1 }) f n width s)

/-! Waits. -/

/-- 06 Table 6.7: the target counter has reached the value: the edge is removed and the entry starts. -/
def execWaitMet (w : Waiter) (s : State) : Res :=
  .next (match w with
    | .queue q => waitMetQueue q s
    | .qp n => if edgeMet s (getQp s n).edge ∨ (getQp s n).failed ≠ 0 then pump n (modQp n (fun v => { v with edge := none }) s) else s)

/-! Commands. -/

/-- The numbers of queue pairs of a partition (19 R365): the first and how many. -/
def qpRange (s : State) (p : Nat) : Nat × Nat := if s.host.shared then (p * 2 ^ 21, 8192) else (0, 65536)

/-- The congestion parameters that a new queue pair takes. -/
def ccFor (s : State) (c e : Nat) : CC :=
  ((s.lnt.ccDef.find? fun x => x.1 == c && x.2.1 == e).map fun x => x.2.2).getD (CC.init e)

/-- 12 R237: QP_CREATE. -/
def qpCreate : Body := fun _ p s =>
  let e := bits (p.w 0) 0 3
  let sl := bits (p.w 3) 0 4
  let rl := bits (p.w 3) 4 4
  let part := (getCtx s p.ctx).part
  let r := qpRange s part
  let live := (s.lnt.qps.filter fun x => x.2.st != 0).map Prod.fst
  let w := hbmWindow s part
  if 4 < e then refuse s 0x0105 (paramAt 0 0)
  else if quarantined s (unitId 9 e) then refuse s 0x0C01 (unitId 9 e)
  else if sl < 4 ∨ 12 < sl then refuse s 0x0105 (paramAt 3 0)
  else if rl < 4 ∨ 12 < rl then refuse s 0x0105 (paramAt 3 4)
  else if e = 4 ∧ 2 ^ 17 ≤ p.w 1 then refuse s 0x0104 (paramAt 1 17)
  else if e = 4 ∧ p.w 2 ≠ 0 then refuse s 0x0104 (paramAt 2 0)
  else match nextNumber r.1 r.2 live s.lnt.freedQp with
    | none => refuse s 0x0302 r.2
    | some n =>
      match firstFit w.1 w.2 4096 (ringBytes sl rl) (usedRanges s ++ scrubRanges s) with
      | none => refuse s 0x0303 (freePages w (usedRanges s ++ scrubRanges s))
      | some base =>
        let s := onLnt (fun l => { l with freedQp := l.freedQp.filter (· != n) }) s
        (.done (Done.res n 0),
         putQp n { Qp.init with st := 1, ctx := p.ctx, engine := e, notReady := bitOf (p.w 0) 8, peer := p.w 1 + p.w 2 * 2 ^ 64, s := sl, r := rl
                                base := base, cc := ccFor s p.ctx e } s)

/-- 12 R237. -/
def execQpCreate (q : QRef) (s : State) : Res := .next (runCmd 0x0704 qpCreate q s)

/-- The queue pair that a command names. -/
def withQp (p : Packet) (s : State) (k : Nat → Reply × State) : Reply × State :=
  let n := bits (p.w 0) 0 24
  if (getQp s n).st = 0 then refuse s 0x0403 0
  else if !inScope s p.ctx (getQp s n).ctx then refuse s 0x0202 0
  else k n

/-- 12 Table 12.5: an Error queue pair is Init again: rings emptied, binding and keys dropped, PSNs 0. -/
def qpReinit (v : Qp) : Qp :=
  { Qp.init with st := 1, ctx := v.ctx, engine := v.engine, notReady := v.notReady, peer := v.peer, s := v.s, r := v.r, base := v.base
                 cc := v.cc, sendCnt := v.sendCnt, recvCnt := v.recvCnt }

/-- 12 R239, R240, Table 12.5: QP_MODIFY. -/
def qpModify : Body := fun _ p s =>
  withQp p s fun n =>
    let v := getQp s n
    let t := bits (p.w 1) 0 4
    if t = 2 ∧ v.st = 1 then
      let k := qpKey s v.engine v.ctx
      if v.engine ≠ 4 ∧ k.isNone ∧ s.host.confidential then refuse s 0x0203 (2 + 2 ^ 10 + 2 * 2 ^ 20)
      else (.done Done.ok, startConnect n k s)
    else if t = 5 ∧ (v.st = 2 ∨ v.st = 3 ∨ v.st = 4) then (.done Done.ok, qpError n 0x0401 s)
    else if t = 1 ∧ v.st = 5 then (.done Done.ok, modQp n qpReinit s)
    else refuse s 0x0401 v.st

/-- 12 R240. -/
def execQpModify (q : QRef) (s : State) : Res := .next (runCmd 0x0705 qpModify q s)

/-- A queue pair is removed: as Error with a status, TERMINATE sent, its number freed. -/
def removeQp (status n : Nat) (s : State) : State :=
  if (getQp s n).st = 0 then s
  else
    let s := qpFail n status (qpDetail s (getQp s n) status) none s
    onLnt (fun l => { l with qps := tabDel l.qps n, freedQp := l.freedQp ++ [n] }) s

/-- 12 Table 12.5: QP_DESTROY. -/
def qpDestroy : Body := fun _ p s => withQp p s fun n => (.done Done.ok, removeQp 0x0403 n s)

/-- 12 R251. -/
def execQpDestroy (q : QRef) (s : State) : Res := .next (runCmd 0x0706 qpDestroy q s)

/-- 06 Table 6.10: the queue pairs of a context end with a status. -/
def dropCtxQps (status c : Nat) (s : State) : State :=
  let s := ((s.lnt.qps.filter fun e => e.2.st != 0 && e.2.ctx == c).map Prod.fst).foldl (fun s n => removeQp status n s) s
  onLnt (fun l => { l with ccDef := l.ccDef.filter fun x => x.1 != c }) s

/-- 12 Table 12.8: the first field out of range, by word and bit. -/
def ccFault (p : Packet) : Option (Nat × Nat) :=
  let cmin := bits (p.w 2) 32 32
  let cmax := bits (p.w 3) 0 32
  let cini := bits (p.w 3) 32 32
  if bits (p.w 1) 0 32 < 1000 ∨ 1000000 < bits (p.w 1) 0 32 then some (1, 0)
  else if 1048576 < bits (p.w 1) 32 32 then some (1, 32)
  else if bits (p.w 2) 0 16 < 1 ∨ 0x8000 < bits (p.w 2) 0 16 then some (2, 0)
  else if cmin < 8192 ∨ cmax < cmin then some (2, 32)
  else if 16777216 < cmax then some (3, 0)
  else if cini < cmin ∨ cmax < cini then some (3, 32)
  else if bits (p.w 4) 0 32 < 10000 ∨ 1000000 < bits (p.w 4) 0 32 then some (4, 0)
  else if bits (p.w 4) 32 4 < 1 then some (4, 32)
  else none

/-- The congestion parameters of a block (12 Table 12.8). -/
def ccOf (p : Packet) : CC :=
  { target := bits (p.w 1) 0 32, ai := bits (p.w 1) 32 32, beta := bits (p.w 2) 0 16, cwndMin := bits (p.w 2) 32 32, cwndMax := bits (p.w 3) 0 32
    cwndInit := bits (p.w 3) 32 32, rtoMin := bits (p.w 4) 0 32, retry := bits (p.w 4) 32 4 }

/-- 12 R250: CC_CONFIG. -/
def ccConfig : Body := fun _ p s =>
  let rsvd := (rsvdWord 2 (0xFFFF + (2 ^ 64 - 2 ^ 32)) (p.w 2)).or (rsvdWord 4 (2 ^ 36 - 1 + 7 * 2 ^ 60) (p.w 4))
  let set (s : State) (k : State) : Reply × State :=
    match rsvd with
    | some off => refuse s 0x0104 off
    | none =>
      match ccFault p with
      | some e => refuse s 0x0105 (paramAt e.1 e.2)
      | none => (.done Done.ok, k)
  if bits (p.w 0) 0 24 = 0xFFFFFF then
    let e := bits (p.w 4) 60 3
    if 4 < e then refuse s 0x0105 (paramAt 4 60)
    else set s (onLnt (fun l => { l with ccDef := (p.ctx, e, ccOf p) :: l.ccDef.filter fun x => !(x.1 == p.ctx && x.2.1 == e) }) s)
  else withQp p s fun n => set s (modQp n (fun v => { v with cc := ccOf p }) s)

/-- 12 R250. -/
def execCcConfig (q : QRef) (s : State) : Res := .next (runCmd 0x0708 ccConfig q s)

/-! Paging: FAULT_RESUME on a queue pair, through its mirror queues (06 R115; log 41). -/

/-- The pending fault of a mirror queue: that of the send queue, or of inbound placement. -/
def mirrorFault (s : State) (v : Queue) : Option QFault :=
  if v.mirrorRecv then (getQp s v.mirror).stall.map Prod.snd else (getQp s v.mirror).sfault

/-- FAULT_RESUME of the send queue: the access is tried again, or the descriptor fails. -/
def resumeSend (n : Nat) (fail : Bool) (s : State) : State :=
  let s := modQp n (fun v => { v with sfault := none }) s
  pump n (if fail then
    match (getQp s n).sq.find? fun d => !d.started with
    | some d => finishSend n d 0x0204 1 0 s
    | none => s
  else s)

/-- FAULT_RESUME of an inbound stall: the packet is tried again, or its message fails. -/
def resumePlace (n : Nat) (fail : Bool) (s : State) : State :=
  let v := getQp s n
  let s := modQp n (fun v => { v with stall := none }) s
  if fail then targetError n 2 0x0204 ((v.stall.map Prod.fst).getD v.rxPsn) s
  else
    let s := placeLoop n v.reorder.length s
    pump n (if (getQp s n).st = 3 ∧ (getQp s n).stall.isNone then sendAck n s.lark.time s else s)

/-! Ports down and up (12 R252). -/

/-- The queue pairs of an engine. -/
def qpsOn (s : State) (e : Nat) : List Nat := (s.lnt.qps.filter fun x => x.2.st != 0 && x.2.engine == e).map Prod.fst

/-- The lowest other Ethernet port that is up. -/
def otherPort (s : State) (e : Nat) : Option Nat := [0, 1, 2, 3].find? fun x => x != e && linkUp s x

/-- 12 R252: the hold expires: every queue pair enters Error, and each peer of a protected one is told through another port. -/
def holdExpired (e : Nat) (s : State) : State :=
  let s := modEth e (fun v => { v with st := 0, expired := true }) s
  let s := (qpsOn s e).foldl (fun s n =>
    let v := getQp s n
    if v.st = 2 ∨ v.st = 3 ∨ v.st = 4 then qpFail n 0x0702 (abortDetail s) (if v.prot then otherPort s e else none) s else s) s
  raisePlain 0x0702 none (unitId 9 e) s

/-- 12 R252: an Ethernet port that is Up loses its link. With a hold of 0 the hold has expired at once. -/
def ethLoss (e : Nat) (s : State) : State :=
  if (getEth s e).st ≠ 1 then s
  else
    let s := modEth e (fun v => { v with st := 2, downAt := s.lark.time, losses := v.losses + 1 }) s
    let s := (qpsOn s e).foldl (fun s n => if (getQp s n).st = 3 then modQp n (fun v => { v with st := 4 }) s else s) s
    if (getEth s e).hold = 0 then holdExpired e s else s

/-- 12 R252. -/
def execEthLinkDown (e : Nat) (s : State) : Res := .next (if powered s && decide (e < 4) then ethLoss e s else s)

/-- 12 R252: the link comes up: within the hold, frames resume with their original PSNs and timers restart. -/
def execEthLinkUp (e : Nat) (s : State) : Res :=
  .next (if !(regsOpen s && (s.pwr.st == .idle || s.pwr.st == .run)) || decide (3 < e) || (getEth s e).st == 1 || s.pwr.removing then s
    else
      let s := modEth e (fun v => { v with st := 1 }) s
      (qpsOn s e).foldl (fun s n =>
        if (getQp s n).st = 4 then
          pump n (modQp n (fun v => { v with st := 3, cwnd := v.cc.cwndInit, unacked := v.unacked.map fun u => { u with at_ := s.lark.time } }) s)
        else s) s)

/-- 12 R252: the flap hold has passed. -/
def execEthHoldExpiry (e : Nat) (s : State) : Res :=
  .next (let v := getEth s e
    if powered s && decide (e < 4) && v.st == 2 && decide (v.downAt + v.hold * 100000 ≤ s.lark.time) then holdExpired e s else s)

end Sys2Proof.Machine
end

