-- ==== Sys2Proof/Machine/Siskin.lean ====
section
/-! DEFINITION. Siskin links (13 R253 to R269): training, lanes, floods, link loss and the flap hold, Roost and wake, replay, and the commands LINK_CONFIG and LANE_RELEASE; with what a port's loss does to Quintidy's packets (14 R282). -/

namespace Sys2Proof.Machine

/-! Control messages, numbered as the model numbers them in its record of outputs (log 43). -/

def ctlLaneDrop : Nat := 2
def ctlLaneAdd : Nat := 3
def ctlRoostReq : Nat := 4
def ctlRoostAck : Nat := 5
def ctlWake : Nat := 6
def ctlStatus : Nat := 7
def ctlCredit : Nat := 8
def ctlBurst : Nat := 9
def ctlChorus : Nat := 10
def ctlPattern : Nat := 11
def ctlAlign : Nat := 12

/-- A control message that needs an answer: it is sent, and repeated by CONTROL_MESSAGE_REPEAT until the answer comes. -/
def sendAwait (n kind arg : Nat) (s : State) : State :=
  emit (.ctl n kind arg) (modSkn n (fun v => { v with await := (v.await.filter (· != kind * 256 + arg)) ++ [kind * 256 + arg] }) s)

/-- The messages of some kinds no longer await an answer. -/
def answered (kinds : List Nat) (v : Skn) : Skn := { v with await := v.await.filter fun a => !kinds.contains (a / 256) }

/-- 13 Table 13.2: an idle frame with ASEQ and NAK. -/
def sendIdle (n : Nat) (nak : Bool) (s : State) : State := emit (.frame n 0 (getSkn s n).rxSeq nak []) s

/-! Units and lanes. -/

/-- 18 Table 18.5: the unit identifiers of a port and of a receive lane. -/
def portUnit (n : Nat) : Nat := unitId 0x0A n
def laneUnit (n lane : Nat) : Nat := unitId 0x0B (8 * n + lane)

/-- One lane as a mask. -/
def laneBit (lane : Nat) : BitVec 8 := BitVec.ofNat 8 (2 ^ lane)

/-- How many lanes a mask holds. -/
def laneCount (v : BitVec 8) : Nat := (List.range 8).countP fun i => v.getLsbD i

/-- 13 R257: the largest width in 8, 7, 6, 4 that does not exceed the usable lanes; 0 below 4. -/
def widthFor (n : Nat) : Nat := if 8 ≤ n then 8 else if n = 7 then 7 else if n = 6 then 6 else if 4 ≤ n then 4 else 0

/-- 13, Model: the wake lane of a receiver: the lowest lane neither dropped nor quarantined. -/
def wakeLaneOf (v : Skn) : Nat := ((List.range 8).find? fun i => !(v.dropped.getLsbD i || v.quar.getLsbD i)).getD 0

/-- 14 R284: when the 50 ms wait of a level runs, and what is known there. -/
def getElect (s : State) (lvl : Level) : Elect := ((s.qtd.elect.find? fun e => e.1 == lvl).map Prod.snd).getD Elect.init

/-- An election record written. -/
def putElect (lvl : Level) (v : Elect) (s : State) : State :=
  onQtd (fun q => { q with elect := (lvl, v) :: q.elect.filter fun e => e.1 != lvl }) s

/-! Returned packets (14 R282). -/

/-- 14 R282: what a discarded or refused packet of this chip's own means to its engine: a PEER faults its run, a read request gives its space
back, Linnet and resident firmware retransmit or decide by their own rules. A serving run whose PEER cannot reach a chip of its board ends
with 0x0703 (01 R16, 14 R281). -/
def sourceNotice (status typ dest flow : Nat) (s : State) : State :=
  if typ = 6 then
    match asyncSite s flow with
    | some x =>
      if status = 0x0801 && serving s x.run then faultRun x.run flow (getWren s flow).ix 0x0703 (abortDetail s) none s
      else faultRun x.run flow (getWren s flow).ix status (if status = 0x0801 then dest else Config.statusDetail status) none s
    | none => s
  else if typ = 3 then onQtd (fun q => { q with reads := q.reads.filter fun r => r.flow != flow }) s
  else s

/-- 14 R282: the class 3 NOTICE that carries the destination of a discarded packet to its source, with its TYPE and FLOW (log 44). -/
def noticePkt (s : State) (p : QtdPkt) (status : Nat) : QtdPkt :=
  ownPkt s 8 3 p.src (natLE 4 p.dest ++ natLE 2 p.flow ++ natLE 1 p.typ ++ zeros 1 ++ natLE 2 status ++ zeros 6)

/-- 14 R282: a packet is discarded, and its source told. -/
def discardQtd (p : QtdPkt) (s : State) : State :=
  let s := count 0 9 0 0x65 1 s
  if p.src = chipNo s then sourceNotice 0x0801 p.typ p.dest p.flow s else originateQ (noticePkt s p 0x0801) s

/-- 14 R282: another next hop of a waiting packet that keeps the order of R278: another switch plane, or the other order of a pair
whose digits differ in both bits before its first hop there. -/
def otherHop (s : State) (n : Nat) (p : QtdPkt) : Option (Nat × QtdPkt) :=
  if 13 ≤ n ∧ n < 21 then (planeFor s p n).map fun m => (m, p)
  else
    let k := p.pair
    let delta := bits (rackOf (chipNo s)) (2 * k) 2 ^^^ bits (rackOf p.dest) (2 * k) 2
    if 3 ≤ n ∧ n < 13 ∧ p.stage = 2 ∧ p.pairHops = 1 ∧ delta = 3 ∧ pairClosed s p k then
      let m := if n = 3 + 2 * k then 4 + 2 * k else 3 + 2 * k
      if usable (getSkn s m) && fenceAdmits s p (chipAt (partnerRack (m - 3) (rackOf (chipNo s))) (posOf (chipNo s))) then
        some (m, { p with order := p.order ^^^ BitVec.ofNat 5 (2 ^ k) })
      else none
    else none

/-- 14 R282: a packet never transmitted goes another way or is discarded. -/
def reroute (n : Nat) (s : State) (p : QtdPkt) : State :=
  match otherHop s n p with
  | some (m, p) => queueOn m p (count 0 9 0 0x64 1 s)
  | none => discardQtd p s

/-! Link loss and the flap hold (13 R264, R265). -/

/-- The packets that frames of a port carry, each once, in order. -/
def framePkts : List (Nat × List Byte × QtdPkt) → List QtdPkt
  | [] => []
  | f :: fs => match framePkts fs with
    | [] => [f.2.2]
    | p :: ps => if f.2.2 = p then p :: ps else f.2.2 :: p :: ps

/-- A port whose hold has expired: its link is gone; lanes, floods and configuration stay. -/
def Skn.expired (v : Skn) : Skn :=
  { v.dark with flooded := v.flooded, floodAt := v.floodAt, optical := v.optical, check := v.check }

/-- 13 R264: the hold expires: event 0x0823, and every held packet goes back to Quintidy; a packet of which a frame was sent is possibly
delivered and never sent again. A board-cube port cuts the board (01 R16). -/
def expireHold (n : Nat) (s : State) : State :=
  let v := getSkn s n
  let s := putSkn n v.expired s
  let s := raisePlain 0x0823 none (portUnit n) (if n < 3 then endServing s else s)
  let s := (framePkts v.unacked).foldl (fun s p => discardQtd p s) s
  v.queued.foldl (reroute n) s

/-- 13 R264: the port loses its link: it holds, or with HOLD 0 takes the expired path at once. -/
def linkLoss (n : Nat) (s : State) : State :=
  let v := getSkn s n
  if v.st ≠ 4 ∧ v.st ≠ 6 then s
  else
    let s := modSkn n (fun v => { v with st := 5, losses := v.losses + 1, downAt := s.lark.time, await := [], reqSent := false
                                         reqSeen := false, chorusAt := none, nakAt := none, lost := false }) s
    if v.hold = 0 then expireHold n s else s

/-- 13 R265: the expired-hold path at once, whatever the hold. -/
def loseNow (n : Nat) (s : State) : State :=
  let v := getSkn s n
  if v.st = 5 then expireHold n s
  else if v.st = 4 ∨ v.st = 6 then expireHold n (modSkn n (fun v => { v with losses := v.losses + 1 }) s)
  else s

/-- A port of a chip that is powered and takes part in links. -/
def sknOn (s : State) (n : Nat) : Bool := regsOpen s && decide (n < 24)

/-- 13 R264. -/
def execSiskinLinkLoss (n : Nat) (s : State) : Res := .next (if sknOn s n then linkLoss n s else s)

/-- 13 R264: the hold expires. -/
def execSiskinHoldExpiry (n : Nat) (s : State) : Res :=
  .next (let v := getSkn s n
    if sknOn s n && v.st == 5 && decide (v.downAt + v.hold * 100000 ≤ s.lark.time) then expireHold n s else s)

/-- 13 R265: a link-down ordered set. -/
def execLinkDown (n : Nat) (s : State) : Res := .next (if sknOn s n then loseNow n s else s)

/-! Training (13 R257, R258; 14 R271, R273). -/

/-- 13 R257: whether the KL-5 starts a training of a port. -/
def mayTrain (s : State) (n : Nat) : Bool :=
  sknOn s n && s.pwr.straps.latched && !s.pwr.straps.fault && (getSkn s n).en && !quarantined s (portUnit n) && !s.pwr.removing
    && (s.pwr.st == .idle || s.pwr.st == .run || (s.pwr.st == .standby && s.boot.stage == 3 && bootPorts.contains n))

/-- 13 R257, 03 Table 3.12: OPT_RST_N[n] is held low while the KL-5 starts no training. -/
def optResetLow (s : State) (n : Nat) : Bool := !mayTrain s n

/-- 14 Table 14.1: the check of a partner: 1 good, 2 WRONG_PEER, 3 outside the fabric. -/
def partnerCheck (s : State) (n : Nat) (r : TrainReport) : Nat :=
  match expectedChip (chipNo s) n with
  | some e => if !inFabric s (rackOf e) then 3 else if r.chip = e ∧ r.port = n then 1 else 2
  | none => if r.kd1 = some (rackOf (chipNo s), n - 13) then 1 else 2

/-- The receive lanes that a training can use (13 Table 13.4, ADAPT). -/
def rxUsable (v : Skn) (r : TrainReport) : BitVec 8 := r.rxLanes &&& ~~~v.quar &&& ~~~(if r.optical then v.flooded else 0)

/-- What EXCHANGE reports is recorded (13 Table 13.7). -/
def recordPeer (own : Bool) (r : TrainReport) (v : Skn) : Skn :=
  { v with optical := r.optical, bootMode := own || r.bootMode, peerChip := r.chip, peerPort := r.port, peerRoost := r.roost
           delay := r.delay }

/-- The port becomes ACTIVE. A retrain within the hold keeps FSEQ and the held frames; any other training starts FSEQ at 0. -/
def activate (n : Nat) (r : TrainReport) (resumed : Bool) (s : State) : State :=
  let first := (List.range 24).all fun i => (getSkn s i).st != 4
  let v := recordPeer (s.pwr.st == .standby) r (getSkn s n)
  let v := { v with
    st := 4, check := 1, txWidth := widthFor (laneCount r.txLanes), rxWidth := widthFor (laneCount (rxUsable v r))
    dropped := ~~~(rxUsable v r), txDropped := ~~~r.txLanes, lastAseqAt := s.lark.time, lastTrafficAt := s.lark.time, resends := 0
    lost := false, nakAt := none }
  let v := { v with wakeLane := wakeLaneOf v, txWakeLane := wakeLaneOf { v with dropped := v.txDropped, quar := 0 } }
  let v := if resumed then v else { v with txSeq := 0, rxSeq := 0, unacked := [], credits := [] }
  let s := putSkn n v s
  let e := getElect s .rack
  let s := if first && e.waitFrom.isNone && s.pwr.st != .standby then putElect .rack { e with waitFrom := some s.lark.time } s else s
  pumpPort n v.queued.length s

/-- 13 R257: one training of a port, with what it found. -/
def train (n : Nat) (r : TrainReport) (s : State) : State :=
  let v := getSkn s n
  if !mayTrain s n || v.st == 4 || v.st == 6 then s
  else
    let inHold := v.st = 5 ∧ s.lark.time < v.downAt + v.hold * 100000
    let s := if v.st = 5 ∧ ¬inHold then expireHold n s else s
    if widthFor (laneCount r.txLanes) = 0 ∨ widthFor (laneCount (rxUsable v r)) = 0 then
      (if inHold then s else modSkn n (fun v => { v with st := 0 }) s)
    else
      let own := s.pwr.st == .standby
      let stopAt (st : Nat) (s : State) : State :=
        modSkn n (fun v => { recordPeer own r v with st := st }) (if inHold then expireHold n s else s)
      if r.roleClass ≠ roleOf n then raisePlain 0x0825 none (portUnit n) (stopAt 7 s)
      else
        let chk := partnerCheck s n r
        if chk = 3 then modSkn n (fun v => { v with check := 3 }) (stopAt 0 s)
        else if chk = 2 then raisePlain 0x0826 none (portUnit n) (modSkn n (fun v => { v with check := 2 }) (stopAt 3 s))
        else activate n r (decide inHold) s

/-- 13 R257. -/
def execLinkTraining (n : Nat) (r : TrainReport) (s : State) : Res := .next (train n r s)

/-- 13 R257: a port in DETECT retries every 1 s. -/
def execDetectRetry (n : Nat) (r : TrainReport) (s : State) : Res := .next (if (getSkn s n).st = 0 then train n r s else s)

/-! Frames and replay (13 R254, R255). -/

/-- 13 R255: frames before ASEQ are acknowledged: RFC 1982 in 12 bits. -/
def ackFrames (aseq : Nat) (now : Nat) (v : Skn) : Skn :=
  let keep := v.unacked.filter fun f => decide ((f.1 + 4096 - aseq) % 4096 < 2048)
  if keep.length = v.unacked.length then v else { v with unacked := keep, lastAseqAt := now, resends := 0 }

/-- 13 R255: the unacknowledged frames are sent again from the oldest; after 16 resends of one frame without progress the port
retrains. -/
def resendFrames (n : Nat) (s : State) : State :=
  let v := getSkn s n
  if v.unacked.isEmpty then s
  else if 16 ≤ v.resends then linkLoss n s
  else
    let s := emitAll (v.unacked.map fun f => .frame n f.1 v.rxSeq false f.2.1) s
    count 0 8 n 0x54 v.unacked.length
      (modSkn n (fun v => { v with resends := v.resends + 1, lastAseqAt := s.lark.time, lastTrafficAt := s.lark.time }) s)

/-- 13 R255: a receiver that discards a data frame sets NAK, and again only after 2 µs. -/
def sendNakFrame (n : Nat) (s : State) : State :=
  let due := match (getSkn s n).nakAt with | none => true | some t => decide (t + 2000 ≤ s.lark.time)
  if due then sendIdle n true (modSkn n (fun v => { v with nakAt := some s.lark.time }) s) else s

/-- 13 R254: a data frame that may be delivered to Quintidy. -/
def frameGood (v : Skn) (f : Frame) : Bool := f.rsOk && f.crcOk && !v.lost && f.fseq == v.rxSeq

/-- A data frame arrives on an ACTIVE port. -/
def frameIn (n : Nat) (f : Frame) (s : State) : State :=
  let s := if f.aligned then modSkn n (fun v => { answered [ctlLaneDrop, ctlLaneAdd] v with lost := false }) s else s
  let s := if f.rsOk then count 0 8 n 0x52 f.corrected s else s
  let s := modSkn n (fun v => { answered [ctlRoostReq] v with reqSent := false, reqSeen := false, lastTrafficAt := s.lark.time }) s
  let v := getSkn s n
  let good := frameGood v f
  let s := if f.rsOk && f.crcOk && !v.lost then
      let s := modSkn n (ackFrames f.aseq s.lark.time) s
      if f.nak then resendFrames n s else s
    else s
  if good then
    let s := count 0 8 n 0x51 1 (modSkn n (fun v => { v with rxSeq := (v.rxSeq + 1) % 4096, nakAt := none }) s)
    pumpPort n (getSkn s n).queued.length s
  else sendNakFrame n (count 0 8 n 0x53 1 s)

/-- 13 R254. -/
def execDataFrame (n : Nat) (f : Frame) (s : State) : Res :=
  .next (if sknOn s n && (getSkn s n).st == 4 then frameIn n f s else s)

/-- 13 R255: ASEQ has not advanced for 10 µs with frames outstanding. -/
def execReplayTimeout (n : Nat) (s : State) : Res :=
  .next (let v := getSkn s n
    if sknOn s n && v.st == 4 && !v.unacked.isEmpty && decide (v.lastAseqAt + 10000 ≤ s.lark.time) then resendFrames n s else s)

/-- 13 R256: the messages that still await an answer are sent again. -/
def execControlMessageRepeat (n : Nat) (s : State) : Res :=
  .next (if sknOn s n && (getSkn s n).st == 4 then
    emitAll ((getSkn s n).await.map fun a => .ctl n (a / 256) (a % 256)) s else s)

/-- 13 R256: STATUS carries the partner's Lark state; this end sends its own at the same rate (log 43). -/
def execStatus (n : Nat) (lark : BitVec 2) (s : State) : Res :=
  .next (if sknOn s n && (getSkn s n).st == 4 then
    emit (.ctl n ctlStatus s.lark.state.toNat) (modSkn n (fun v => { v with peerLark := lark }) s) else s)

/-- 14 R276: credits come back, and waiting packets leave. -/
def execCreditReturn (n cls vc reserve shared : Nat) (s : State) : Res :=
  .next (if sknOn s n && (getSkn s n).st == 4 && decide (cls < 4) && decide (vc < 2) then
    let s := modSkn n (fun v =>
      let u := tabGet (0, 0) v.credits (channelOf cls vc)
      { v with credits := tabPut (0, 0) v.credits (channelOf cls vc) (u.1 - reserve, u.2 - shared) }) s
    pumpPort n (getSkn s n).queued.length s
  else s)

/-! Lanes (13 R260, R261). -/

/-- 13 R260: a receiver drops a lane. Below width 8 a fast retrain starts; in Roost the wake lane moves on. -/
def dropLane (n lane : Nat) (s : State) : State :=
  let v := getSkn s n
  if (v.st ≠ 4 ∧ v.st ≠ 6) ∨ 8 ≤ lane ∨ v.dropped.getLsbD lane then s
  else
    let s := modSkn n (fun v => { v with dropped := v.dropped ||| laneBit lane }) s
    let s := modSkn n (fun v => { v with wakeLane := wakeLaneOf v }) s
    let s := if v.st = 4 then sendNakFrame n (sendAwait n ctlLaneDrop lane s) else s
    let s := raisePlain 0x0821 none (laneUnit n lane) s
    if v.st ≠ 4 then s
    else if v.rxWidth = 8 then modSkn n (fun v => { v with rxWidth := 7, lost := true }) s
    else linkLoss n s

/-- 13 R260: the partner dropped a lane of this end's transmit direction. -/
def execLaneDrop (n lane : Nat) (s : State) : Res :=
  .next (let v := getSkn s n
    if !(sknOn s n && v.st == 4 && decide (lane < 8)) || v.txDropped.getLsbD lane then s
    else
      let s := modSkn n (fun v => { v with txDropped := v.txDropped ||| laneBit lane }) s
      if v.txWidth = 8 then resendFrames n (emit (.ctl n ctlAlign 7) (modSkn n (fun v => { v with txWidth := 7 }) s))
      else linkLoss n s)

/-- 13 R261: the partner re-admits a lane of this end's transmit direction. -/
def execLaneAdd (n lane : Nat) (s : State) : Res :=
  .next (let v := getSkn s n
    if sknOn s n && v.st == 4 && decide (lane < 8) && v.txDropped.getLsbD lane then
      let d := v.txDropped &&& ~~~laneBit lane
      let w := widthFor (8 - laneCount d)
      emit (.ctl n ctlAlign w) (modSkn n (fun v => { v with txDropped := d, txWidth := w }) s)
    else s)

/-- 13 R261, R263: a lane has read clear for 100 ms: its flood has ended, and unless it is quarantined it returns. -/
def execLaneClearReadmit (n lane : Nat) (s : State) : Res :=
  .next (if !sknOn s n || decide (8 ≤ lane) then s
    else
      let s := modSkn n (fun v => { v with flooded := v.flooded &&& ~~~laneBit lane, floodAt := tabDel v.floodAt lane }) s
      let v := getSkn s n
      if v.st = 4 ∧ v.dropped.getLsbD lane ∧ !v.quar.getLsbD lane then
        let d := v.dropped &&& ~~~laneBit lane
        sendAwait n ctlLaneAdd lane (modSkn n (fun v => { v with dropped := d, rxWidth := widthFor (8 - laneCount d) }) s)
      else s)

/-- 13 R260: a lane loses lock. -/
def execLaneLockLoss (n lane : Nat) (s : State) : Res := .next (if sknOn s n then dropLane n lane s else s)

/-- 13 R260: a lane's RS symbol-error rate is above 10^−3 over 1 ms. -/
def execLaneErrorRate (n lane : Nat) (s : State) : Res := .next (if sknOn s n then dropLane n lane s else s)

/-! Floods (13 R262, R263). -/

/-- 13 R262: a flood test trips on a receive lane of a port in optical mode. -/
def floodTrip (n lane : Nat) (s : State) : State :=
  let v := getSkn s n
  if !(sknOn s n && v.optical && decide (lane < 8)) then s
  else
    let s := modSkn n (fun v => { v with
      flooded := v.flooded ||| laneBit lane, floodAt := if v.flooded.getLsbD lane then v.floodAt else tabPut 0 v.floodAt lane s.lark.time }) s
    dropLane n lane (count 0 8 n 0x56 1 (raisePlain 0x0820 none (laneUnit n lane) s))

/-- 13 R262: the DC test. -/
def execFloodDcTrip (n lane : Nat) (s : State) : Res := .next (floodTrip n lane s)

/-- 13 R262: the envelope test. -/
def execFloodEnvelopeTrip (n lane : Nat) (s : State) : Res := .next (floodTrip n lane s)

/-- A lane enters Quarantine (13 R263): it is no wake lane and is not re-admitted. -/
def quarLane (n lane : Nat) (s : State) : State :=
  let s := markQuar (laneUnit n lane) (modSkn n (fun v => { v with quar := v.quar ||| laneBit lane }) s)
  modSkn n (fun v => { v with wakeLane := wakeLaneOf v }) s

/-- 13 R263: a flood has persisted for 5 s. -/
def execFloodQuarantine (n lane : Nat) (s : State) : Res :=
  .next (let v := getSkn s n
    if sknOn s n && decide (lane < 8) && v.flooded.getLsbD lane && !v.quar.getLsbD lane
        && decide (tabGet 0 v.floodAt lane + 5000000000 ≤ s.lark.time) then
      raisePlain 0x0C13 none (laneUnit n lane) (quarLane n lane s)
    else s)

/-- 13 R263: the Quarantine of some lanes is cleared; the 5 s of one that still reads flooded start again. -/
def releaseLanes (n : Nat) (mask : BitVec 8) (s : State) : State :=
  let s := (List.range 8).foldl (fun s l => if mask.getLsbD l then putUnit (laneUnit n l) UnitSt.init s else s) s
  modSkn n (fun v => { v with quar := v.quar &&& ~~~mask
                              floodAt := v.floodAt.map fun e => if mask.getLsbD e.1 then (e.1, s.lark.time) else e }) s

/-- 13 R263: what a release of lanes comes to. -/
def laneReleaseOf (n : Nat) (mask : BitVec 8) (s : State) : Reply × State :=
  if mask = 0 then (.done Done.ok, s)
  else if mask &&& ~~~(getSkn s n).quar ≠ 0 then refuse s 0x0401 (Config.statusDetail 0x0401)
  else (.done Done.ok, releaseLanes n mask s)

/-- 13 R263: LANE_RELEASE. -/
def laneRelease : Body := fun _ p s =>
  if 24 ≤ p.w 0 then refuse s 0x0105 (paramAt 0 0) else laneReleaseOf (p.w 0) (BitVec.ofNat 8 (p.w 1)) s

/-- 13 R263. -/
def execLaneRelease (q : QRef) (s : State) : Res := .next (runCmd 0x0804 laneRelease q s)

/-- 13 R264, R266, Edges: LINK_CONFIG sets the flap hold and Roost enable. -/
def linkConfig : Body := fun _ p s =>
  let n := bits (p.w 0) 0 5
  if 24 ≤ n then refuse s 0x0105 (paramAt 0 0)
  else if quarantined s (portUnit n) then refuse s 0x0C01 (portUnit n)
  else if 500 < p.w 1 then refuse s 0x0105 (paramAt 1 0)
  else if (getSkn s n).roostK < 14 ∨ 30 < (getSkn s n).roostK then refuse s 0x0105 (paramAt 0 0)
  else (.done Done.ok, modSkn n (fun v => { v with hold := p.w 1, roostEn := bitOf (p.w 0) 8 }) s)

/-- 13 R264. -/
def execLinkConfig (q : QRef) (s : State) : Res := .next (runCmd 0x0803 linkConfig q s)

/-! Roost and wake (13 R266 to R269). -/

/-- 13 R266: the conditions of Roost but for the 10 µs without a frame. -/
def roostFit (s : State) (v : Skn) : Bool :=
  v.peerRoost && !v.bootMode && (s.pwr.st == .idle || (s.pwr.st == .run && v.roostEn)) && v.queued.isEmpty && v.unacked.isEmpty
    && (s.lark.state == 0 || s.lark.state == 1) && (v.peerLark == 0 || v.peerLark == 1)

/-- 13 R266: nothing queued or unacknowledged for 10 µs, and every other condition met. -/
def roostReady (s : State) (v : Skn) : Bool := v.st == 4 && roostFit s v && decide (v.lastTrafficAt + 10000 ≤ s.lark.time)

/-- This end is the lower partner (13, Model). -/
def isLower (s : State) (v : Skn) : Bool := chipNo s < v.peerChip

/-- This end's ROOST_REQ. -/
def sendRoostReq (n : Nat) (s : State) : State :=
  if (getSkn s n).reqSent then s
  else sendAwait n ctlRoostReq (getSkn s n).roostK (modSkn n (fun v => { v with reqSent := true }) s)

/-- 13 R266: an idle port starts the handshake. -/
def execRoostIdle (n : Nat) (s : State) : Res :=
  .next (if sknOn s n && roostReady s (getSkn s n) then sendRoostReq n s else s)

/-- 13 R266: a ROOST_REQ with the partner's ROOST_K: the lower partner's value becomes k; this end answers where it may roost. -/
def execRoostReq (n k : Nat) (s : State) : Res :=
  .next (if sknOn s n && roostReady s (getSkn s n) && decide (14 ≤ k) && decide (k ≤ 30) then
    let s := sendRoostReq n (modSkn n (fun v => { v with reqSeen := true, k := if isLower s v then v.roostK else k }) s)
    emit (.ctl n ctlRoostAck 0) s
  else s)

/-- 13 R266, R267: after ROOST_ACK the end sends its final idle codeword and roosts; it wakes at the next multiple of 2^k. -/
def execRoostAck (n : Nat) (s : State) : Res :=
  .next (let v := getSkn s n
    if sknOn s n && v.st == 4 && v.reqSent && v.reqSeen then
      sendIdle n false (modSkn n (fun v => { v with
        st := 6, await := [], reqSent := false, reqSeen := false, chorusAt := none, wakeLane := wakeLaneOf v
        nextWake := (s.lark.time / 2 ^ v.k + 1) * 2 ^ v.k }) s)
    else s)

/-- A roosting port returns to ACTIVE, and what waits leaves. -/
def unroost (n : Nat) (s : State) : State :=
  let s := modSkn n (fun v => { v with st := 4, chorusAt := none, lastTrafficAt := s.lark.time, lastAseqAt := s.lark.time }) s
  pumpPort n (getSkn s n).queued.length s

/-- 13 R267: a wake: this end sends its burst and looks for the partner's. A start within ±2 µs of t + d is a success; the higher
partner shifts its next wake by the offset. -/
def execRoostWake (n : Nat) (seen : Option Int) (s : State) : Res :=
  .next (let v := getSkn s n
    if !(sknOn s n && v.st == 6 && v.chorusAt.isNone && decide (v.nextWake ≤ s.lark.time)) then s
    else
      let s := emit (.ctl n ctlBurst v.txWakeLane) s
      match seen with
      | some d =>
        if d.natAbs ≤ 2000 then
          let next := (v.nextWake : Int) + 2 ^ v.k + (if isLower s v then 0 else d)
          let s := modSkn n (fun v => { v with wakes := v.wakes + 1, drift := d, nextWake := next.toNat }) s
          let busy := !roostFit s (getSkn s n)
          emit (.ctl n ctlWake (b2n busy + 2 * v.wakeLane)) (count 0 8 n 0x55 1 s)
        else s
      | none => s)

/-- 13 R267, Edges: the WAKE exchange: both return to ACTIVE if either has traffic or R266 no longer holds; the partner's wake lane is
learned. -/
def execWake (n : Nat) (partnerActive : Bool) (lane : Nat) (s : State) : Res :=
  .next (if sknOn s n && (getSkn s n).st == 6 then
    let s := modSkn n (fun v => { v with txWakeLane := if lane < 8 then lane else v.txWakeLane }) s
    if partnerActive || !roostFit s (getSkn s n) then unroost n s else s
  else s)

/-- 13 R268: with DEMAND set and a frame queued, the wake pattern is sent at once and the port returns to ACTIVE. -/
def execDemandWake (n : Nat) (s : State) : Res :=
  .next (let v := getSkn s n
    if sknOn s n && v.st == 6 && v.demand && !v.queued.isEmpty then unroost n (emit (.ctl n ctlPattern v.txWakeLane) s) else s)

/-- 13 R268, R269: a tone, burst or chorus is heard: this end answers with its own burst and the link relocks; the higher partner
adopts the measured offset. -/
def execWakePatternHeard (n : Nat) (offset : Int) (s : State) : Res :=
  .next (let v := getSkn s n
    if sknOn s n && v.st == 6 then
      let s := emit (.ctl n ctlBurst v.txWakeLane) s
      unroost n (modSkn n (fun v => { v with drift := offset, nextWake := if isLower s v then v.nextWake else ((v.nextWake : Int) + offset).toNat }) s)
    else s)

/-- 13 R269: no burst within the guard: the dawn chorus on the wake lane, and event 0x0824. -/
def execDawnChorus (n : Nat) (s : State) : Res :=
  .next (let v := getSkn s n
    if sknOn s n && v.st == 6 && v.chorusAt.isNone && decide (v.nextWake + v.delay * 4 / 5 + 2000 ≤ s.lark.time) then
      raisePlain 0x0824 none (portUnit n) (emit (.ctl n ctlChorus v.txWakeLane) (modSkn n (fun v => { v with chorusAt := some s.lark.time }) s))
    else s)

/-- 13 R269: 20 ms of chorus pass unanswered: the link is lost, whatever the hold. -/
def execChorusTimeout (n : Nat) (s : State) : Res :=
  .next (match (getSkn s n).chorusAt with
    | some t => if sknOn s n && (getSkn s n).st == 6 && decide (t + 20000000 ≤ s.lark.time) then loseNow n s else s
    | none => s)

end Sys2Proof.Machine
end

