-- ==== Sys2Proof/Machine/Fabric.lean ====
section
/-! DEFINITION. The Quintidy fabric (14): packets in transit and at their destination, notices, managers and their election, join reports and route tables, slices, boot service, draining, and the distribution of time. -/

namespace Sys2Proof.Machine

/-! Arrival (14 Table 14.2, R275, R286, R294). -/

/-- 14 Table 14.2: a header that discards the packet: a Rsvd bit, a LEN above 8,256, or a hop count that would pass 15. -/
def badPkt (p : QtdPkt) (more : Nat) : Bool := p.rsvd || decide (8256 < p.len) || decide (15 < p.hops + more)

/-- The chip takes part in the fabric: Idle or Run, the Quintidy engine in use. -/
def qtdOn (s : State) : Bool := regsOpen s && (s.pwr.st == .idle || s.pwr.st == .run) && !quarantined s qtdUnit

/-- A packet is on a port that carries traffic. -/
def fromPort (s : State) (p : QtdPkt) : Bool := decide (p.inPort < 24) && carries (getSkn s p.inPort)

/-- 14 R276: the credits of a packet that has left its receive buffer go back in a control frame. -/
def returnCredits (p : QtdPkt) (s : State) : State :=
  emit (.ctl p.inPort ctlCredit (channelOf p.cls p.vc + 8 * creditsOf p)) s

/-- 14 R286: a Quarantined chip answers fabric traffic only with NOTICEs; a NOTICE itself is not answered. -/
def quarNotice (p : QtdPkt) (s : State) : State := if p.typ = 8 ∨ p.src = chipNo s then s else originateQ (noticePkt s p 0x0801) s

/-- 14 R357, 19 R355: a packet that its destination refuses: the status goes back to the source. -/
def refuseQtd (status : Nat) (p : QtdPkt) (s : State) : State :=
  if p.src = chipNo s then sourceNotice status p.typ p.dest p.flow s else originateQ (noticePkt s p status) s

/-- A packet at this chip, its destination: discarded under Table 14.2 or R294, or consumed. -/
def consume (body : QtdPkt → State → State) (p : QtdPkt) (s : State) : State :=
  if badPkt p 0 then dropQtd s
  else if s.qtd.st = 3 then quarNotice p s
  else if p.cls ≠ 3 ∧ sliceOf s p.part p.slice = none then dropFence s
  else count 0 9 0 0x62 1 (body p s)

/-- The rows that name a packet type: a packet that resident firmware of this chip sends (port 24), or one that arrives for this
chip. -/
def qtdRow (typ : Nat) (body : QtdPkt → State → State) (p : QtdPkt) (s : State) : State :=
  if !qtdOn s || p.typ != typ then s
  else if p.inPort = 24 then (if p.dest = chipNo s then consume body { p with src := chipNo s } s else originateQ p s)
  else if !fromPort s p || p.dest != chipNo s then s
  else returnCredits p (consume body p s)

/-! Transit (14 R277, R294). -/

/-- 14 R277, R294: a transit chip sends a packet on. -/
def forward (p : QtdPkt) (s : State) : State :=
  if badPkt p 1 then dropQtd s
  else if s.qtd.st = 3 then quarNotice p s
  else match nextHop s (chipNo s) p with
    | .out n vc nx q =>
      if !fenceAdmits s p nx then dropFence s
      else
        let q := { q with vc := vc, hops := p.hops + 1 }
        count 0 9 0 0x61 1 (if usable (getSkn s n) then queueOn n q s else reroute n s q)
    | _ => discardQtd p s

/-- 14 R277. -/
def execQtdForward (p : QtdPkt) (s : State) : Res :=
  .next (if qtdOn s && fromPort s p && p.dest != chipNo s then returnCredits p (forward p s) else s)

/-! Linnet packets on engine 4 (12 R227). -/

/-- The queue pair commands of a Linnet packet, by its type (12 Table 12.2). -/
def lntDispatch (p : LntPkt) (s : State) : State :=
  match p.typ with
  | 0x08 => rxPkt 0x08 (ctlIn onAck) p s
  | 0x09 =>
    nakIn 1 onNakSequence p (nakIn 2 onNakAccess p (nakIn 3 onNakStalled p (nakIn 4 onNakFull p
      (nakIn 6 (fun n _ s => qpError n 0x0401 s) p (nakIn 0x0C (fun n _ s => qpError n 0x0C03 s) p s)))))
  | 0x0A => rxPkt 0x0A (ctlIn onNotReady) p s
  | 0x0B => rxPkt 0x0B connectIn p s
  | 0x0C => rxPkt 0x0C acceptIn p s
  | 0x0D => rxPkt 0x0D confirmIn p s
  | 0x0E => rxPkt 0x0E rejectIn p s
  | 0x0F => rxPkt 0x0F terminateIn p s
  | t => if 1 ≤ t ∧ t ≤ 6 then rxPkt t dataIn p s else dropLnt 4 s

/-- A Linnet payload is handed to engine 4. -/
def linnetIn (p : QtdPkt) (s : State) : State :=
  if p.payload.length < 48 then dropLnt 4 s else lntDispatch (lntParse p.src p.payload) s

/-- 12 R227. -/
def execQtdLinnet (p : QtdPkt) (s : State) : Res := .next (qtdRow 1 linnetIn p s)

/-! Memory access (14 R270, R275; 19 R355 to R357). -/

/-- 14 R270: the chip that a fabric address names, for an issuing chip; none where its Rsvd bits are not zero. -/
def addrChip (issuer a : Nat) : Option Nat :=
  if bitOf a 63 then some (bits a 46 17)
  else if bits a 49 14 = 0 then some (issuer / 8 * 8 + bits a 46 3)
  else none

/-- The offset of an address. -/
def addrOff (a : Nat) : Nat := a % 2 ^ 46

/-- 19 R356: the areas of a partition's HBM that belong to resident firmware: what is carved from its top. -/
def fwArea (s : State) (part off len : Nat) : Bool :=
  let top := if s.host.shared then 0x900000000 * (part + 1) else 0x4800000000
  (hbmWindow s part).2 ≤ off && off + len ≤ top

/-- 19 Table 19.2: HBM and thicket SRAM are reached within a memory object or a resident-firmware area of the partition named. -/
def fabricReach (s : State) (part off len : Nat) : Bool :=
  fwArea s part off len || s.host.objs.any fun e => (getCtx s e.2.ctx).part == part && (match e.2.kind with
    | .mem .host _ _ _ => false
    | .mem _ base size _ => base ≤ off && off + len ≤ base + size
    | _ => false)

/-- Why an access of a packet is refused: it names another chip, an offset out of reach, or a pseudo-channel in Quarantine. -/
def accessRefusal (s : State) (p : QtdPkt) (len : Nat) : Option Nat :=
  let off := addrOff p.addr
  if addrChip p.src p.addr ≠ some (chipNo s) then some 0x0801
  else if !fabricReach s p.part off len then some 0x0204
  else if (pageStarts off len).any fun a => isHbm a && quarantined s (unitId 0x0D (pcOf s a)) then some 0x0C03
  else none

/-- A fabric write at its destination. -/
def memWrIn (p : QtdPkt) (s : State) : State :=
  match accessRefusal s p p.payload.length with
  | some st => refuseQtd st p s
  | none => setMem (memWrite s.mem (addrOff p.addr) p.payload) s

/-- 19 R357. -/
def execMemWr (p : QtdPkt) (s : State) : Res := .next (qtdRow 2 memWrIn p s)

/-- 14 R275: the data of a response is placed in the space reserved for it. -/
def memRespIn (p : QtdPkt) (s : State) : State :=
  onQtd (fun q => { q with reads := q.reads.map fun r =>
    if r.flow = p.flow ∧ r.dest = p.src ∧ r.len = p.payload.length then { r with data := some p.payload } else r }) s

/-- 14 R275. -/
def execMemRdResp (p : QtdPkt) (s : State) : Res := .next (qtdRow 4 memRespIn p s)

/-- The length that a read request asks for: the first 8 payload bytes (log 44). -/
def readLen (p : QtdPkt) : Nat := field p.payload 0 8

/-- A read request at its destination is answered. -/
def memRdIn (p : QtdPkt) (s : State) : State :=
  if 8256 < readLen p then refuseQtd 0x0105 p s
  else match accessRefusal s p (readLen p) with
    | some st => refuseQtd st p s
    | none =>
      let r := { ownPkt s 4 1 p.src (memRead s.mem (addrOff p.addr) (readLen p)) with slice := p.slice, part := p.part, flow := p.flow }
      if p.src = chipNo s then memRespIn r s else originateQ r s

/-- 14 R275: a request that this chip sends first reserves the space for its whole response. -/
def execMemRdReq (p : QtdPkt) (s : State) : Res :=
  .next (if qtdOn s && p.typ == 3 && p.inPort == 24 then
    let s := onQtd (fun q => { q with reads := q.reads ++ [{ flow := p.flow, dest := p.dest, len := readLen p, data := none }] }) s
    if p.dest = chipNo s then consume memRdIn { p with src := chipNo s } s
    else match originate p s with
      | .ok s => s
      | .error _ => onQtd (fun q => { q with reads := q.reads.filter fun r => r.flow != p.flow || r.data.isSome }) s
  else qtdRow 3 memRdIn p s)

/-! ACC (14 R275; 10 R213; 19 Table 19.2). -/

/-- The format of the rows of an ACC packet: FLOW [2:0] (log 44). -/
def accFmt (p : QtdPkt) : Option AccFmt := fmtOf (p.flow % 8)

/-- 19 Table 19.2: a Wren whose tiles a round of the partition uses on this chip. -/
def roundWren (s : State) (part w : Nat) : Bool :=
  s.rnd.rounds.any fun r => r.worker && r.part == part && r.phase < 7 && r.mask.getLsbD (w / 24)

/-- Rows added into tiles of a Wren's roost. -/
def accTiles (w : Nat) (f : AccFmt) (p : QtdPkt) (s : State) : State :=
  let r : Roost := { w := w, size := 1048576, ctx := wrenCtx s w, ingress := true }
  let loc := addrOff p.addr % 2 ^ 20
  let n := p.payload.length / tileBytes f
  if !roundWren s p.part w || loc < 1048576 - r.size || loc % 256 != 0 then refuseQtd 0x0204 p s
  else
    let t := (loc - (1048576 - r.size)) / 256
    if !ingressFmt f || !r.fits f t n then refuseQtd 0x0105 p (countStl r 0x29 1 s)
    else if inOpenRange s w f t n then refuseQtd 0x0401 p (countStl r 0x29 1 s)
    else (rowsOf f p.payload).foldl (fun s e => ingressAdd r f (t + e.1 * granules f) e.2 s) s

/-- One row added into memory, in sequence; at the X704 term limit the row stays (10 R203). -/
def accRow (f : AccFmt) (off : Nat) (raw : List Byte) (s : State) : State :=
  let new := List.zipWith (addElem (f == .p255)) (decRow f (memRead s.mem off (tileBytes f))) ((decRow f raw).map (ingressElem f))
  if overLimit new then raisePlain 0x0607 none 0xFFFF s else setMem (memWrite s.mem off (encRow f new)) s

/-- A fabric ACC packet at its destination. -/
def accIn (p : QtdPkt) (s : State) : State :=
  let off := addrOff p.addr
  match accFmt p with
  | none => refuseQtd 0x0105 p s
  | some f =>
    if p.payload.length % tileBytes f ≠ 0 then refuseQtd 0x0105 p s
    else if addrChip p.src p.addr ≠ some (chipNo s) then refuseQtd 0x0801 p s
    else if wrenBase 0 ≤ off ∧ off < wrenBase (wrenCount s) then accTiles ((off - wrenBase 0) / 2 ^ 20) f p s
    else if !ingressFmt f || off % 256 != 0 then refuseQtd 0x0105 p s
    else match accessRefusal s p p.payload.length with
      | some st => refuseQtd st p s
      | none => (rowsOf f p.payload).foldl (fun s e => accRow f (off + e.1 * tileBytes f) e.2 s) s

/-- 10 R213. -/
def execAcc (p : QtdPkt) (s : State) : Res := .next (qtdRow 5 accIn p s)

/-! PEER and resident-firmware traffic (09 R180; 15 R299). -/

/-- A PEER packet at its destination; without a partner run its source is told (09 R180). -/
def peerIn (p : QtdPkt) (s : State) : State :=
  let h := p.payload
  let board := field h 0 4
  let widx := field h 4 2
  let off := addrOff p.addr
  let fl := field h 7 1
  match partnerWren s board widx with
  | none => refuseQtd 0x0801 p s
  | some (r, _) =>
    let n := h.length - 16
    if addrChip p.src p.addr ≠ some (chipNo s) ∨ off / 2 ^ 20 ≠ wrenBase widx / 2 ^ 20
        ∨ !((progOf s r.prog).map fun g => inWork g (off % 2 ^ 20) n).getD false then refuseQtd 0x0204 p s
    else placePeer board widx (off % 2 ^ 20) (field h 6 1) (bitOf fl 0) (bitOf fl 1) (h.drop 16) s

/-- 09 R180. -/
def execQtdPeer (p : QtdPkt) (s : State) : Res := .next (qtdRow 6 peerIn p s)

/-- 14 R282: a NOTICE at the source of the discarded packet. -/
def noticeIn (p : QtdPkt) (s : State) : State :=
  sourceNotice (field p.payload 8 2) (field p.payload 6 1) (field p.payload 0 4) (field p.payload 4 2) s

/-- 14 R282. -/
def execNotice (p : QtdPkt) (s : State) : Res := .next (qtdRow 8 noticeIn p s)

/-! Boot service (14 R290). -/

/-- 14 R290: a boot request from a partner in boot link mode. -/
def execBoot (n : Nat) (s : State) : Res :=
  .next (if qtdOn s && decide (n < 24) && s.boot.stage == 8 && s.qtd.bootServe && (getSkn s n).st == 4 && (getSkn s n).bootMode then
    emit (.bootImage n s.boot.image) s else s)

/-! Managers (14 R284 to R289). -/

/-- This chip's claim. -/
def ownBid (s : State) : Bid :=
  { rackMgr := (getElect s .rack).role, prio := s.pwr.straps.prio, chip := chipNo s, nonce := s.qtd.nonce }

/-- 14 R285, R288: a bid is stronger than another; in a slice, rack managers come before every other member. -/
def stronger (lvl : Level) (a b : Bid) : Bool :=
  match lvl with
  | .slice _ =>
    if a.rackMgr ≠ b.rackMgr then a.rackMgr else if a.prio ≠ b.prio then a.prio else a.chip < b.chip
  | _ => if a.prio ≠ b.prio then a.prio else a.chip < b.chip

/-- 14 Table 14.5: QTD_STATUS [1:0] follows the rack election, but for Quarantine. -/
def syncQtdSt (s : State) : State :=
  let e := getElect s .rack
  onQtd (fun q => { q with st := if q.st = 3 then 3 else if e.role || e.mgr.isSome then 2 else if e.claimAt.isSome then 1 else 0 }) s

/-- 14 R289: a manager role is lost, with event 0x0812. -/
def loseRole (lvl : Level) (s : State) : State :=
  let e := getElect s lvl
  if e.role then
    let s := putElect lvl { e with role := false, claimAt := none } s
    let s := if lvl = .rack then onQtd (fun q => { q with reports := [] }) s else s
    raisePlain 0x0812 none qtdUnit s
  else s

/-- The levels at which this chip has an election record. -/
def levelsOf (s : State) : List Level := s.qtd.elect.map Prod.fst

/-- 14 R286: two chips with one number: this one enters Quarantine, with event 0x0811 and every role off, and its board down (01 R16). -/
def quarChip (s : State) : State :=
  if s.qtd.st = 3 then s
  else
    let s := (levelsOf s).foldl (fun s l => loseRole l s) s
    let s := onQtd (fun q => { q with st := 3, dupChip := true, elect := [] }) s
    raisePlain 0x0811 none qtdUnit (endServing s)

/-- 14 R286: a bid or report with this chip's number and another nonce. -/
def isTwin (s : State) (chip : Nat) (nonce : BitVec 64) : Bool := chip == chipNo s && nonce != s.qtd.nonce

/-- The chip takes part in elections. -/
def electOn (s : State) : Bool := qtdOn s && s.qtd.st != 3 && s.boot.stage == 8

/-- A level that exists for this chip: slices are those of its partitions, and the fabric level is for rack managers (R287). -/
def levelOn (s : State) : Level → Bool
  | .rack => true
  | .fabric => (getElect s .rack).role
  | .slice p => (tabGet Part.init s.host.part p).slice != 0

/-- 14 R284, R288: this chip may claim a role: MGR_ELIG and no strap fault; in a slice debug locked and Lark not UNSYNC. -/
def eligible (s : State) : Level → Bool
  | .slice _ => s.qtd.mgrElig && !s.boot.debugUnlocked && s.lark.state != 3 && !s.pwr.straps.fault
  | _ => s.qtd.mgrElig && !s.pwr.straps.fault

/-- 14 R284: the 50 ms wait has passed; in a slice the election begins at once (R288). -/
def waitOver (s : State) (lvl : Level) (e : Elect) : Bool :=
  match lvl with
  | .slice _ => true
  | _ => match e.waitFrom with | some t => decide (t + 50000000 ≤ s.lark.time) | none => false

/-- 14 R284: the wait passes and the chip claims. -/
def execClaimWaitExpiry (lvl : Level) (s : State) : Res :=
  .next (let e := getElect s lvl
    if electOn s && levelOn s lvl && eligible s lvl && !e.role && e.mgr.isNone && e.claimAt.isNone && waitOver s lvl e then
      syncQtdSt (count 0 9 0 0x66 1 (emit (.mgmt lvl 1 (ownBid s)) (putElect lvl { e with claimAt := some s.lark.time } s)))
    else s)

/-- 14 R285: 200 µs after an unchallenged claim the chip takes the role and beacons. A new rack manager starts the fabric level's
wait. -/
def execClaimWindowEnd (lvl : Level) (s : State) : Res :=
  .next (let e := getElect s lvl
    match e.claimAt with
    | none => s
    | some t =>
      if electOn s && levelOn s lvl && decide (t + 200000 ≤ s.lark.time) then
        let s := putElect lvl { e with role := true, mgr := some (ownBid s), claimAt := none, missed := 0 } s
        let s := if lvl = .rack then putElect .fabric { getElect s .fabric with waitFrom := some s.lark.time } s else s
        syncQtdSt (emit (.mgmt lvl 0 (ownBid s)) s)
      else s)

/-- A stronger manager is followed; a claim of this chip's own ends silently. -/
def follow (lvl : Level) (b : Bid) (s : State) : State :=
  let e := getElect s lvl
  syncQtdSt (putElect lvl { e with mgr := some b, lastBeacon := s.lark.time, waitFrom := some s.lark.time, claimAt := none, missed := 0 } s)

/-- 14 R284, R285: a beacon. A manager yields to a stronger one; a claimant, to a stronger one; everyone else follows it, unless a
stronger manager is known. -/
def beaconIn (lvl : Level) (b : Bid) (s : State) : State :=
  let e := getElect s lvl
  if isTwin s b.chip b.nonce then quarChip s
  else if b.chip = chipNo s then s
  else if e.role then (if stronger lvl b (ownBid s) then follow lvl b (loseRole lvl s) else s)
  else if e.claimAt.isSome && !stronger lvl b (ownBid s) then s
  else match e.mgr with
    | some m => if m.chip ≠ b.chip ∧ stronger lvl m b then s else follow lvl b s
    | none => follow lvl b s

/-- 14 R284. -/
def execBeacon (lvl : Level) (b : Bid) (s : State) : Res := .next (if electOn s && levelOn s lvl then beaconIn lvl b s else s)

/-- 14 R284: every 10 ms a manager beacons. -/
def execBeaconSend (lvl : Level) (s : State) : Res :=
  .next (if electOn s && (getElect s lvl).role then emit (.mgmt lvl 0 (ownBid s)) s else s)

/-- 14 R285: a claim. A stronger one makes a manager yield, a claimant lose silently, and any other chip wait again. -/
def claimIn (lvl : Level) (b : Bid) (s : State) : State :=
  let e := getElect s lvl
  if isTwin s b.chip b.nonce then quarChip s
  else if b.chip = chipNo s || !stronger lvl b (ownBid s) then s
  else if e.role then follow lvl b (loseRole lvl s)
  else syncQtdSt (putElect lvl { e with claimAt := none, waitFrom := some s.lark.time } s)

/-- 14 R285. -/
def execClaim (lvl : Level) (b : Bid) (s : State) : Res := .next (if electOn s && levelOn s lvl then claimIn lvl b s else s)

/-- 14 R289: five consecutive beacons of the manager are missed: it is lost, and the chip may claim again. -/
def managerLost (lvl : Level) (s : State) : State :=
  let e := getElect s lvl
  syncQtdSt (putElect lvl { e with mgr := none, missed := 5 } s)

/-- 14 R289: whether the manager of a level is another chip, silent for 50 ms. -/
def managerSilent (s : State) (lvl : Level) : Bool :=
  let e := getElect s lvl
  electOn s && !e.role && e.mgr.isSome && decide (e.lastBeacon + 50000000 ≤ s.lark.time)

/-! Join reports and route tables (14 R280, R283). -/

/-- The link number of a port: inter-rack 0 to 9, chords 10 to 12. -/
def linkOfPort (n : Nat) : Option Nat :=
  if 3 ≤ n ∧ n < 13 then some (n - 3) else if 21 ≤ n ∧ n < 24 then some (n - 11) else none

/-- The links that a report shows up: those whose port checks good. -/
def reportLinks (r : JoinReport) : List (Nat × Nat) :=
  r.ports.filterMap fun e => if e.2 = 1 then (linkOfPort e.1).map fun l => (r.chip, l) else none

/-- This chip's own report: the check of every port, and only what carries traffic counts as good (14 R283). -/
def ownReport (s : State) : JoinReport :=
  { chip := chipNo s, nonce := s.qtd.nonce
    ports := (List.range 24).map fun n => (n, if carries (getSkn s n) then 1 else if (getSkn s n).check = 1 then 0 else (getSkn s n).check) }

/-- 14 R280: a route table is computed over the links known and installed. -/
def installRoutes (s : State) : State := onQtd (fun q => { q with installed := q.links, routeGen := q.routeGen + 1 }) s

/-- The links of a chip are replaced; each change is flooded by a rack manager (R283). -/
def setLinks (chip : Nat) (up : List (Nat × Nat)) (s : State) : State :=
  let old := s.qtd.links.filter fun l => l.1 == chip
  let flood (on : Bool) (ls : List (Nat × Nat)) : List Out := ls.map fun l => .adv { chip := l.1, link := l.2, up := on }
  let news := flood true (up.filter fun l => !old.contains l) ++ flood false (old.filter fun l => !up.contains l)
  let s := onQtd (fun q => { q with links := q.links.filter (fun l => l.1 != chip) ++ up }) s
  if (getElect s .rack).role then emitAll news s else s

/-- 14 R283, R286: a report reaches the rack manager: recorded, or the number is marked unreachable where two nonces claim it (on this
board, 01 R16 applies). -/
def reportIn (r : JoinReport) (s : State) : State :=
  if s.qtd.reports.any fun x => x.chip == r.chip && x.nonce != r.nonce then
    endServing (onQtd (fun q => { q with unreachable := r.chip :: q.unreachable.filter (· != r.chip)
                                         reports := q.reports.filter fun x => x.chip != r.chip }) s)
  else
    let s := onQtd (fun q => { q with reports := r :: q.reports.filter fun x => x.chip != r.chip }) s
    installRoutes (setLinks r.chip (reportLinks r) s)

/-- 14 R283, R291: this chip's own report goes to its rack manager, which installs routes; a rack manager takes in the reports of its
rack. -/
def joinReport (r : JoinReport) (s : State) : State :=
  if isTwin s r.chip r.nonce then quarChip s
  else if r.chip = chipNo s then
    let o := ownReport s
    let s := emit (.join o) (setLinks (chipNo s) (reportLinks o) s)
    if (getElect s .rack).mgr.isSome then installRoutes s else s
  else if (getElect s .rack).role && rackOf r.chip == rackOf (chipNo s) then reportIn r s
  else s

/-- 14 R283. -/
def execJoinReport (r : JoinReport) (s : State) : Res := .next (if electOn s then joinReport r s else s)

/-- 14 R283: a link change of another rack: a rack manager computes its rack's tables again. -/
def execLinkStateAdvertisement (a : LinkAdv) (s : State) : Res :=
  .next (if electOn s then
    let s := onQtd (fun q => { q with links := q.links.filter (fun l => l != (a.chip, a.link)) ++ (if a.up then [(a.chip, a.link)] else []) }) s
    if (getElect s .rack).role then installRoutes s else s
  else s)

/-! Commands (14 R287, R292, R293). -/

/-- The chip number of a level's manager; 0 where none is known. -/
def managerChip (s : State) (lvl : Level) : Nat := ((getElect s lvl).mgr.map Bid.chip).getD 0

/-- The partitions whose slice this chip manages. -/
def sliceRoles (s : State) : List Nat := (List.range 8).filter fun p => (getElect s (.slice p)).role

/-- 14 R287, 05 Table 5.5: FABRIC_STATUS. -/
def fabricStatus : Body := fun _ _ s =>
  let trained := (List.range 24).foldl (fun n i => if (getSkn s i).st = 4 ∨ (getSkn s i).st = 6 then n + 2 ^ i else n) 0
  (.done (Done.res (chipNo s + b2n (getElect s .rack).role * 2 ^ 17 + b2n (!(sliceRoles s).isEmpty) * 2 ^ 18
    + managerChip s .rack * 2 ^ 36) trained), s)

/-- 14 R287. -/
def execFabricStatus (q : QRef) (s : State) : Res := .next (runCmd 0x0800 fabricStatus q s)

/-- 14 R287: only the fabric manager creates and destroys slices. -/
def byFabricManager (s : State) (k : Reply × State) : Reply × State :=
  if (getElect s .fabric).role then k else refuse s 0x0803 (managerChip s .fabric)

/-- 14 R293: two slices of one partition have a member in common. -/
def slicesMeet (a b : SliceRec) : Bool :=
  a.part == b.part && (a.origin ^^^ b.origin) &&& ((2 ^ 17 - 1) ^^^ (spanMask a.span ||| spanMask b.span)) == 0

/-- This chip's registers of a slice that it is a member of. -/
def joinSlice (r : SliceRec) (s : State) : State :=
  if sliceMember r.origin r.span (chipNo s) then
    putPart r.part { getPart s r.part with slice := r.id, sliceOrigin := r.origin, sliceSpan := r.span } (putElect (.slice r.part) Elect.init s)
  else s

/-- 14 R293: a new slice's record, numbered from 1. -/
def newSlice (s : State) (p : Packet) : SliceRec :=
  { id := ((List.range 4095).find? fun i => !(s.qtd.slices.map SliceRec.id).contains (i + 1)).getD 4095 + 1
    origin := p.w 0, span := p.w 1 % 512, part := p.w 2 }

/-- 14 R293: SLICE_CREATE. The origin has every bit that the span names at 0; its slot bits are free (log 44). -/
def sliceCreate : Body := fun _ p s => byFabricManager s (
  let r := newSlice s p
  if bits (p.w 1) 9 4 ≠ 0 then refuse s 0x0104 (paramAt 1 9)
  else if r.origin &&& (spanMask r.span - 7) ≠ 0 then refuse s 0x0105 (paramAt 0 0)
  else if 8 ≤ r.part || (sliceMember r.origin r.span (chipNo s) && decide (s.host.parts ≤ r.part)) then refuse s 0x0105 (paramAt 2 0)
  else if s.qtd.slices.any (slicesMeet r) then refuse s 0x0401 (Config.statusDetail 0x0401)
  else if 4095 < r.id then refuse s 0x0303 4095
  else (.done (Done.res r.id 0), joinSlice r (onQtd (fun q => { q with slices := q.slices ++ [r] }) s)))

/-- 14 R293. -/
def execSliceCreate (q : QRef) (s : State) : Res := .next (runCmd 0x0801 sliceCreate q s)

/-- 14 R293: contexts of a slice that live on this chip. Context 0 belongs to no tenant. -/
def sliceLives (s : State) (r : SliceRec) : Bool :=
  (getPart s r.part).slice == r.id && s.host.ctxs.any fun e => e.1 != 0 && e.2.st != 0 && e.2.part == r.part

/-- This chip leaves a slice, and its role in it. -/
def leaveSlice (r : SliceRec) (s : State) : State :=
  if (getPart s r.part).slice = r.id then
    let s := loseRole (.slice r.part) s
    putPart r.part { getPart s r.part with slice := 0, sliceOrigin := 0, sliceSpan := 0 }
      (onQtd (fun q => { q with elect := q.elect.filter fun e => e.1 != .slice r.part }) s)
  else s

/-- 14 R293: SLICE_DESTROY. -/
def sliceDestroy : Body := fun _ p s => byFabricManager s (
  match s.qtd.slices.find? fun r => r.id == p.w 0 with
  | none => refuse s 0x0403 0
  | some r =>
    if sliceLives s r then refuse s 0x0401 (Config.statusDetail 0x0401)
    else (.done Done.ok, leaveSlice r (onQtd (fun q => { q with slices := q.slices.filter fun x => x.id != r.id }) s)))

/-- 14 R293. -/
def execSliceDestroy (q : QRef) (s : State) : Res := .next (runCmd 0x0802 sliceDestroy q s)

/-- 15 R321: the sessions that a drain moves: Open ones that are not in mid-message. -/
def movable (s : State) : Nat := s.lnt.sess.countP fun e => e.2.st == 1 && e.2.partial_.isEmpty

/-- Every session is gone from this chip. -/
def clearSessions (s : State) : State := (s.lnt.sess.map Prod.fst).foldl (fun s i => freeSess i s) s

/-- 14 R292: FABRIC_DRAIN: every role is yielded, MGR_ELIG falls to 0, and the sessions move away; the model moves them at once. -/
def fabricDrain : Body := fun _ _ s =>
  let n := movable s
  let s := (levelsOf s).foldl (fun s l => loseRole l s) s
  let s := onQtd (fun q => { q with mgrElig := false, drained := true, elect := q.elect.map fun e => (e.1, { e.2 with claimAt := none }) }) s
  (.done (Done.res n 0), syncQtdSt (clearSessions s))

/-- 14 R292. -/
def execFabricDrain (q : QRef) (s : State) : Res := .next (runCmd 0x0805 fabricDrain q s)

/-! Time (14 R295, R296). -/

/-- 14 R295: this chip's offset from its manager, positive when ahead: ((t2 − t1) − (t4 − t3)) / 2, CORR subtracted from the way that
it was gathered on (log 44). -/
def syncOffset (m : TimeSyncMsg) : Int := (((m.t2 : Int) - m.t1 - m.corr) - ((m.t4 : Int) - m.t3)) / 2

/-- The manager whose time a chip follows: its rack manager, or for a rack manager the fabric manager. -/
def timeMaster (s : State) : Option Nat :=
  let e := getElect s (if (getElect s .rack).role then .fabric else .rack)
  if e.role then none else e.mgr.map Bid.chip

/-- 14 R295: event 0x0827, with the state UNSYNC. -/
def staysUnsync (s : State) : State := raisePlain 0x0827 none qtdUnit (setLark 3 s)

/-- 14 R295: what the measured offset makes the chip do; it takes the place of a step that still waits. -/
def applyOffset (off : Int) (s : State) : State :=
  if s.lark.aheadStuck then s
  else
  let s := onLark (fun l => { l with stepWait := none }) s
  if off < 0 then
    (if beatsOn s = 0 then stepTime off.natAbs s else staysUnsync (onLark (fun l => { l with stepWait := some off.natAbs }) s))
  else if 1000000 < off then staysUnsync (onLark (fun l => { l with aheadStuck := true }) s)
  else if 0 < off then takeMeasure off s
  else s

/-- 14 R295. -/
def execTimeSync (m : TimeSyncMsg) (s : State) : Res :=
  .next (if electOn s && (timeMaster s).isSome then applyOffset (syncOffset m) s else s)

/-- 14 R296: once a second the skew is measured; above SKEW_LIM it raises event 0x0814. -/
def execTimeSyncPeriod (m : TimeSyncMsg) (s : State) : Res :=
  .next (if electOn s && (timeMaster s).isSome then
    let s := onQtd (fun q => { q with skew := syncOffset m }) s
    if s.qtd.skewLim < (syncOffset m).natAbs then raisePlain 0x0814 none qtdUnit s else s
  else s)

end Sys2Proof.Machine
end

