-- ==== Sys2Proof/Machine/Attest.lean ====
section
/-! DEFINITION. Attestation and the out-of-band responders: reports (07 R149 to R151), the measurement log and certificates (04 R71, R76), SPDM and PLDM over MCTP (05 R103, R105). -/

namespace Sys2Proof.Machine

/-! Signatures (07 R149, R150). -/

/-- FIPS 204, pure mode: the message that an ML-DSA-65 signature with a context string covers. -/
def withContext (ctx : String) (msg : List Byte) : List Byte := natLE 1 0 ++ natLE 1 (ascii ctx).length ++ ascii ctx ++ msg

/-- The ECDSA P-384 signature of the alias key over the SHA-384 of a message. -/
def aliasP384 (s : State) (msg : List Byte) : List Byte := p384Sig (hkdfExpand s.boot.aliasSeed (ascii "p384") 56) msg

/-- 07 R150: the signature block under the alias keys: ML-DSA-65, three zero bytes, ECDSA P-384. -/
def signBlock (s : State) (ctx : String) (msg : List Byte) : List Byte :=
  mldsaSig (hkdfExpand s.boot.aliasSeed (ascii "mldsa65") 32) (withContext ctx msg) ++ zeros 3 ++ aliasP384 s msg

/-! Report bodies (07 Tables 7.7 to 7.9). -/

/-- GLB_CC_FORCED (02 R23, Table 2.5): rows 0 to 6 always; Starling while a round binds contexts here, the array for a secret
program's run, Warbler for a secret stream. -/
def ccForced (s : State) : Nat :=
  0x7F + b2n (s.rnd.rounds.any fun r => r.worker && decide (r.phase < 7)) * 128
    + b2n (s.fab.runs.any fun r => r.st != 0 && ((progOf s r.prog).map Prog.secret).getD false) * 256
    + b2n (s.wbl.streams.any fun e => e.2.st != 0 && e.2.secret) * 512

/-- The live contexts of a partition. -/
def liveCtxs (s : State) (p : Nat) : Nat := s.host.ctxs.countP fun e => e.1 != 0 && e.2.st != 0 && e.2.part == p

/-- 07 Table 7.8. -/
def partEntry (s : State) (p : Nat) : List Byte :=
  if s.host.parts ≤ p then zeros 24
  else
    let v := getPart s p
    natLE 1 p ++ natLE 1 v.st ++ natLE 2 (liveCtxs s p) ++ zeros 4 ++ natLE 8 v.scrubSeq ++ sub (v.owner.getD []) 0 8

/-- 07 Table 7.7: the platform body of a kind and a total length. -/
def platformBody (s : State) (kind total : Nat) (nonce : List Byte) : List Byte :=
  let b := s.boot
  natLE 4 0x4B4C5250 ++ natLE 2 1 ++ natLE 2 kind ++ natLE 4 total ++ zeros 4 ++ sub nonce 0 32 ++ natLE 8 s.lark.time
    ++ sub b.deviceId 0 16 ++ natLE 8 b.fuses.serial.toNat ++ natLE 1 b.fuses.part.toNat ++ natLE 1 (lifecycleCode b.fuses.lifecycle)
    ++ natLE 1 (b2n b.debugUnlocked + b.debugScope.toNat * 2) ++ natLE 1 s.lark.state.toNat ++ natLE 4 (chipNo s) ++ natLE 4 b.svn
    ++ natLE 4 b.floor ++ natLE 2 b.fuses.epoch ++ natLE 1 (b2n s.host.confidential) ++ natLE 1 (b2n s.host.shared)
    ++ natLE 1 s.host.parts ++ natLE 1 (b.src.toNat + b2n b.slot * 4 + b2n b.fallback * 8) ++ natLE 2 b.measLog.length
    ++ natLE 8 b.fuses.thkMap.toNat ++ sub b.image 0x50 16 ++ sub b.image 0x20 48
    ++ ([5, 6, 7].flatMap fun i => sub (b.accs.getD i []) 0 48) ++ ((List.range 8).flatMap fun p => partEntry s p)
    ++ natLE 2 (ccForced s) ++ natLE 2 s.glb.ccOverrun.toNat ++ natLE 2 (quarCount s) ++ zeros 2

/-- The whole platform report (07 R149, R150): 3,928 bytes. -/
def platformReport (s : State) (nonce : List Byte) : List Byte :=
  let b := platformBody s 1 (0x208 + 3408) nonce
  b ++ signBlock s "KL5-REPORT" b

/-- One entry of a context report: kind, flag, handle and digest. -/
def reportEntry (kind : Nat) (flag : Bool) (h : Nat) (sha : List Byte) : List Byte :=
  natLE 1 kind ++ natLE 1 (b2n flag) ++ zeros 6 ++ natLE 8 h ++ sub sha 0 48

/-- 07 Table 7.9: the entries of a context: programs, models and tables. -/
def reportEntries (s : State) (c : Nat) : List (List Byte) :=
  (s.host.objs.filterMap fun e =>
    if e.2.ctx ≠ c then none
    else match e.2.kind with
      | .prog p => some (reportEntry 1 p.secret e.1 e.2.sha)
      | .model m => some (reportEntry 2 m.spillMode e.1 e.2.sha)
      | .mem .. => none)
    ++ s.wbl.tables.filterMap fun e =>
      if e.2.live && e.2.ctx == c then some (reportEntry (if e.2.norm then 4 else 3) false (tblHandle e.1 e.2.gen) (sha384 e.2.bytes)) else none

/-- The context report of a context with its entries (07 Table 7.9). -/
def contextReport (s : State) (c : Nat) (es : List (List Byte)) (nonce : List Byte) : List Byte :=
  let v := getCtx s c
  let b := platformBody s 2 (0x738 + 64 * es.length + 3408) nonce
    ++ natLE 2 c ++ natLE 1 v.part ++ natLE 1 v.st ++ natLE 1 v.chan.st ++ natLE 1 (b2n v.notReady + b2n (v.root != 0) * 2)
    ++ natLE 2 es.length ++ natLE 8 v.chan.gen ++ sub ((getPart s v.part).owner.getD []) 0 48 ++ sub v.chan.lastOpen 0 48
    ++ sub v.chan.xPub 0 32 ++ sub v.chan.ek 0 1184 ++ es.flatten
  b ++ signBlock s "KL5-REPORT" b

/-- The 32-byte nonce in four parameter words from word `i`. -/
def nonceAt (p : Packet) (i : Nat) : List Byte := sub p.params (8 * i) 32

/-- 07 R149: REPORT_PLATFORM. -/
def reportPlatform : Body := fun q p s =>
  withBuf 3928 q p s (.done { Done.ok with data := platformReport s (nonceAt p 0) }, s)

/-- 07 R149. -/
def execReportPlatform (q : QRef) (s : State) : Res := .next (runCmd 0x0400 reportPlatform q s)

/-- 07 R150, R151: REPORT_CONTEXT. -/
def reportContext : Body := fun q p s =>
  let c := p.w 0
  if (getCtx s c).st = 0 then refuse s 0x0403 0
  else if !mayName s p.ctx c then refuse s 0x0202 0
  else
    let es := reportEntries s c
    if 2048 < es.length then refuse s 0x0303 2048
    else withBuf (0x738 + 64 * es.length + 3408) q p s (.done { Done.ok with data := contextReport s c es (nonceAt p 1) }, s)

/-- 07 R150. -/
def execReportContext (q : QRef) (s : State) : Res := .next (runCmd 0x0401 reportContext q s)

/-! Measurement log and certificates (04 R71, R76). -/

/-- 04 R71: a 64-byte entry: accumulator, event type, fabric time and digest (log 19). -/
def measBytes (e : MeasEntry) : List Byte := natLE 1 e.acc ++ natLE 2 e.typ ++ zeros 5 ++ natLE 8 e.time ++ sub e.digest 0 48

/-- 05 Table 5.5: MEAS_LOG_READ. -/
def measLogRead : Body := fun q p s =>
  let n := bits (p.w 0) 8 9
  if n < 1 ∨ 256 < n then refuse s 0x0105 (paramAt 0 8)
  else
    let bs := ((s.boot.measLog.drop (bits (p.w 0) 0 8)).take n).flatMap measBytes
    withBuf bs.length q p s (.done { Done.ok with data := bs }, s)

/-- 04 R71. -/
def execMeasLogRead (q : QRef) (s : State) : Res := .next (runCmd 0x0402 measLogRead q s)

/-- 05 Table 5.5: CERT_READ. -/
def certRead : Body := fun q p s =>
  let bs := if bitOf (p.w 0) 0 then s.boot.aliasCert else s.boot.flash.certs
  withBuf bs.length q p s (.done { Done.ok with data := bs }, s)

/-- 04 R76. -/
def execCertRead (q : QRef) (s : State) : Res := .next (runCmd 0x0403 certRead q s)

/-! SPDM (05 R103). Response codes and bodies are those of SPDM 1.3 in short form (log 45). -/

/-- The MCTP endpoint answers: the chip is powered and no warm reset is in progress. -/
def mctpOn (s : State) : Bool := powered s && !s.pwr.warmBusy

/-- An SPDM ERROR response. -/
def spdmError (code : Nat) : Out := .spdm 0x7F (natLE 1 code)

/-- An SPDM answer that needs the alias keys of this boot; before them, ERROR Busy. -/
def spdmSigned (o : Out) (s : State) : State :=
  if !mctpOn s then s else if s.boot.aliasSeed.isEmpty then emit (spdmError 3) s else emit o s

/-- The certificate chain: identity certificates and the alias certificate. -/
def certChain (s : State) : List Byte := s.boot.flash.certs ++ s.boot.aliasCert

/-- 05 R103: version 1.3. -/
def execGetVersion (s : State) : Res := .next (if mctpOn s then emit (.spdm 0x04 (natLE 1 1 ++ natLE 2 0x1300)) s else s)

/-- 05 R103: certificates, challenge and signed measurements; no key exchange and no secure sessions. -/
def execGetCapabilities (s : State) : Res := .next (if mctpOn s then emit (.spdm 0x61 (natLE 4 0x16)) s else s)

/-- 05 R103: ECDSA P-384 and SHA-384. -/
def execNegotiateAlgorithms (s : State) : Res := .next (if mctpOn s then emit (.spdm 0x63 (natLE 4 0x80 ++ natLE 4 2)) s else s)

/-- 05 R103: the digest of the certificate chain. -/
def execGetDigests (s : State) : Res := .next (spdmSigned (.spdm 0x01 (sha384 (certChain s))) s)

/-- 05 R103: a piece of the certificate chain, with its length and what remains. -/
def execGetCertificate (offset len : Nat) (s : State) : Res :=
  .next (let ch := certChain s
    let bs := (ch.drop offset).take len
    spdmSigned (.spdm 0x02 (natLE 2 bs.length ++ natLE 2 (ch.length - offset - bs.length) ++ bs)) s)

/-- 05 R103: CHALLENGE: the chain digest, a fresh nonce, and the P-384 signature of the alias key over both nonces and the digest. -/
def execChallenge (nonce : List Byte) (s : State) : Res :=
  .next (let r := drawBytes 32 s
    let body := sha384 (certChain s) ++ r.1
    spdmSigned (.spdm 0x03 (body ++ aliasP384 s (sub nonce 0 32 ++ body))) r.2)

/-- 05 R103: measurement indexes 1 to 8 carry accumulators 0 to 7, signed; 0xF0 carries the platform report whole. -/
def execGetMeasurements (index : Nat) (nonce : List Byte) (s : State) : Res :=
  .next (if index = 0xF0 then spdmSigned (.spdm 0x60 (platformReport s nonce)) s
    else if 1 ≤ index ∧ index ≤ 8 then
      let r := drawBytes 32 s
      let body := natLE 1 index ++ sub (s.boot.accs.getD (index - 1) []) 0 48 ++ r.1
      spdmSigned (.spdm 0x60 (body ++ aliasP384 s (sub nonce 0 32 ++ body))) r.2
    else if mctpOn s then emit (spdmError 1) s else s)

/-! PLDM (05 R103, R105). -/

/-- 05 R103: base discovery names the PLDM types 0, 2 and 5. -/
def execPldmBaseDiscovery (s : State) : Res := .next (if mctpOn s then emit (.pldm 0 [0, 2, 5]) s else s)

/-- 05 R103: the reading of a sensor. -/
def sensorValue (s : State) : PldmSensor → Nat
  | .tj => wrap 16 s.pwr.tj
  | .vin => s.pwr.vin
  | .pin => s.pwr.pin
  | .hbm n => wrap 16 (s.pwr.hbmT.getD n 0)
  | .powerState => s.pwr.st.code
  | .bootStatus => bootStatus s

/-- A sensor that exists. -/
def sensorKnown : PldmSensor → Bool
  | .hbm n => n < 6
  | _ => true

/-- 05 R103: a sensor read: completion code 0 and the reading; a sensor that does not exist has none. -/
def execPldmSensorRead (k : PldmSensor) (s : State) : Res :=
  .next (if !mctpOn s then s else emit (.pldm 2 (if sensorKnown k then [0, sensorValue s k] else [0x80])) s)

/-- 05 R105, 04 R68: a PLDM firmware update: a request while one runs gets the completion code for that; the image is checked and
written as FW_UPDATE writes it. -/
def execPldmFwUpdate (ph : FwPhase) (s : State) : Res :=
  .next (if !(mctpOn s && s.boot.stage == 8) then s
    else match ph with
      | .request =>
        if s.boot.pldmUpd then emit (.pldm 5 [0x81]) s else emit (.pldm 5 [0]) (onBoot (fun b => { b with pldmUpd := true }) s)
      | .image img =>
        if !s.boot.pldmUpd then emit (.pldm 5 [0x80]) s
        else
          let s := onBoot (fun b => { b with pldmUpd := false }) s
          match imageFault s.boot s.boot.floor img with
          | some _ => emit (.pldm 5 [1]) s
          | none => emit (.pldm 5 [0]) (writeFirmware img s).2)

end Sys2Proof.Machine
end

