-- ==== Sys2Proof/Machine/Round.lean ====
section
/-! DEFINITION. Quorum aggregation rounds (15): creation, joining and start, the messages of contributors, the neighbourhood graph, staging and adding, recovery, the committee of a Sealed round, the unmask gate, publication, loss and the end of a round. The model follows one chip: contributors are those of its own sessions, and what other workers send comes in FW packets (log 46). -/

namespace Sys2Proof.Machine

/-! Rounds by number. -/

/-- The round with a number, as this chip knows it. -/
def getRnd? (s : State) (n : Nat) : Option Round := s.rnd.rounds.find? fun r => r.num == n

/-- A round changed. -/
def modRnd (n : Nat) (f : Round → Round) (s : State) : State :=
  onRnd (fun v => { v with rounds := v.rounds.map fun r => if r.num = n then f r else r }) s

/-- The quorum (15, Terms). -/
def Round.quorum (r : Round) : Nat := max r.t r.kmin

/-- A round that has not ended (15 Table 15.3). -/
def Round.live (r : Round) : Bool := r.phase < 7

/-- 05 R101: whether a context may name a round. -/
def roundScope (s : State) (c : Nat) (r : Round) : Bool := (r.manager && inScope s c r.ctx) || (r.worker && inScope s c r.wctx)

/-- What the chip tells the other chips of a round (log 46). -/
def tellRnd (n kind : Nat) (body : List Byte) (s : State) : State := emit (.round n kind body) s

/-! Messages to contributors (15 Table 15.4). -/

/-- The bytes of a round message. -/
def msgBytes (kind : Nat) (m : RoundMsg) : List Byte :=
  natLE 1 kind ++ natLE 1 m.flags.toNat ++ natLE 2 m.rsvd.toNat ++ natLE 4 m.index ++ natLE 8 m.offset ++ m.payload

/-- A message to the contributor of an Open session. -/
def tellSess (h kind index : Nat) (payload : List Byte) (s : State) : State :=
  match sessOf s h with
  | some i => sendSess i (msgBytes kind { flags := 0, rsvd := 0, index := index, offset := 0, payload := payload }) s
  | none => s

/-- 15 Table 15.4: OUTCOME: phase [3:0] and status [15:4], then the round number (log 46). -/
def outcome (r : Round) (status : Nat) : List Byte := natLE 2 (r.phase + status * 16) ++ natLE 8 r.num

/-! Layout (15 R300, R312). -/

/-- The parameter set of a Sealed round. -/
def Round.set (r : Round) : ThrSet := (thrSet r.pset).getD { n := 4096, l := 2, k := 0 }

/-- The ciphertexts of a contribution to a Sealed round. -/
def Round.cts (r : Round) : Nat := ceilDiv r.m r.set.n

/-- The 64-bit words of a contribution: the elements, or the ciphertext words of a Sealed round. -/
def Round.words (r : Round) : Nat := if r.sealed then r.cts * (2 * r.set.l * r.set.n) else r.m

/-- 15 R300: where the range of worker `i` begins. -/
def Round.lo (r : Round) (i : Nat) : Nat := i * r.words / r.workers.length

/-- The words of the range of worker `i`. -/
def Round.len (r : Round) (i : Nat) : Nat := r.lo (i + 1) - r.lo i

/-- The rows of the longest range. -/
def Round.maxRows (r : Round) : Nat := ceilDiv (ceilDiv r.words r.workers.length) 64

/-- The Wrens of the round thicket mask. -/
def Round.wrens (r : Round) : List Nat := maskWrens r.mask

/-- 15 R300: the ranges that this chip holds, each with its first tile: its own, and with REPLICAS2 the second copy of another,
whose tiles follow (log 46). -/
def ownRanges (s : State) (r : Round) : List (Nat × Nat) :=
  match r.workers.findIdx? (· == chipNo s) with
  | none => []
  | some i =>
    let w := r.workers.length
    (i, 0) :: if r.replicas2 then [((i + w - w / 2) % w, 2 * ceilDiv r.maxRows r.wrens.length)] else []

/-- The tiles that hold rows of this chip's ranges: range, row, Wren and tile. -/
def rowPlaces (s : State) (r : Round) : List (Nat × Nat × Nat × Nat) :=
  (ownRanges s r).flatMap fun e =>
    (List.range (ceilDiv (r.len e.1) 64)).map fun row =>
      (e.1, row, r.wrens.getD (row % r.wrens.length) 0, e.2 + row / r.wrens.length * 2)

/-- The roost of a round's tiles: the whole local SRAM of the Wren (log 46). -/
def roundRoost (r : Round) (w : Nat) : Roost := { w := w, size := 1048576, ctx := r.wctx, ingress := true }

/-- The 64-bit words of a row of tiles. -/
def rowWords (s : State) (r : Round) (w t : Nat) : List Nat :=
  let bs := memRead s.mem ((roundRoost r w).at_ t) 512
  (List.range 64).map fun i => field bs (8 * i) 8

/-- The words of a range that this chip holds. -/
def rangeWords (s : State) (r : Round) (i : Nat) : List Nat :=
  (((rowPlaces s r).filter fun e => e.1 == i).flatMap fun e => rowWords s r e.2.2.1 e.2.2.2).take (r.len i)

/-- 15 R307, R322: the tiles of a round are set to zero. -/
def clearTiles (r : Round) (s : State) : State :=
  (rowPlaces s r).foldl (fun s e =>
    let k := roundRoost r e.2.2.1
    putTsw k e.2.2.2 Tsw.init (setMem (memErase s.mem (k.at_ e.2.2.2) 512) s)) s

/-- The prime of a ciphertext word of a Sealed round (11 R215). -/
def Round.prime (r : Round) (e : Nat) : Nat := thrPrime r.pset (e / r.set.n % r.set.l)

/-- The staged word at an index. -/
def stagedWord (st : List (Nat × List Nat)) (e : Nat) : Nat :=
  match st.find? fun p => p.1 ≤ e && e < p.1 + p.2.length with
  | some p => p.2.getD (e - p.1) 0
  | none => 0

/-- 15 R307, R312: a contribution enters this chip's tiles, or leaves them: Z64 rows through ingress (10 R213), ciphertext words by
Thrush. -/
def addContrib (leave : Bool) (r : Round) (c : Contrib) (s : State) : State :=
  (rowPlaces s r).foldl (fun s e =>
    let k := roundRoost r e.2.2.1
    let at_ (i : Nat) : Nat := r.lo e.1 + 64 * e.2.1 + i
    let v (i : Nat) : Nat := if at_ i < r.lo (e.1 + 1) then stagedWord c.staged (at_ i) else 0
    if r.sealed then
      let new := (rowWords s r e.2.2.1 e.2.2.2).zipIdx.map fun x =>
        if at_ x.2 < r.lo (e.1 + 1) then (if leave then modSub else modAdd) (r.prime (at_ x.2)) x.1 (v x.2) 0 else 0
      count r.wctx 5 0 0x31 1 (setMem (memWrite s.mem (k.at_ e.2.2.2) (new.flatMap (natLE 8))) s)
    else
      let raw := (List.range 64).flatMap fun i => natLE 8 (if leave then (2 ^ 64 - v i % 2 ^ 64) % 2 ^ 64 else v i)
      match ingressFault s k .z64 e.2.2.2 raw.length with
      | some _ => countStl k 0x29 1 s
      | none => ingressAdd k .z64 e.2.2.2 raw s) s

/-! Guard records (15 R318). -/

/-- A part of a guard record as bytes (log 46). -/
def guardPart : Option (Nat × Nat × List Byte) → List Byte
  | none => zeros 64
  | some p => natLE 8 p.1 ++ natLE 8 p.2.1 ++ sub p.2.2 0 48

/-- A guard record with its MAC. -/
def guardRec (st owner : List Byte) (p q : Option (Nat × Nat × List Byte)) : GuardRec :=
  { owner := owner, p := p, q := q, mac := hmac (hkdfExpand st (ascii "guard-mac") 48) (owner ++ guardPart p ++ guardPart q) }

/-- The record of an owner. -/
def guardOf (s : State) (owner : List Byte) : Option GuardRec := s.boot.flash.guards.find? fun g => g.owner == owner

/-- The record of an owner changes; a new one is written only where there is room. -/
def putGuard (owner : List Byte) (p q : Option (Nat × Nat × List Byte)) (s : State) : State :=
  let g := guardRec s.nut.stKey owner p q
  onBoot (fun b => { b with flash := { b.flash with guards :=
    if (b.flash.guards.any fun x => x.owner == owner) then b.flash.guards.map fun x => if x.owner = owner then g else x
    else if b.flash.guards.length < 4096 then b.flash.guards ++ [g] else b.flash.guards } }) s

/-- A guard list as bytes. -/
def listBytes (ids : List Nat) : List Byte := ids.flatMap (natLE 16)

/-- 15 R318: Q := S. -/
def guardPend (r : Round) (ids : List Nat) (s : State) : State :=
  let s := putGuard r.owner ((guardOf s r.owner).bind GuardRec.p) (some (r.num, ids.length, sha384 (listBytes ids))) s
  onRnd (fun v => { v with guardLists := (v.guardLists.filter fun e => !(e.1 == r.owner && e.2.1 == r.num)) ++ [(r.owner, r.num, ids)] }) s

/-- 15 R318: Q is cleared. -/
def guardClear (r : Round) (s : State) : State :=
  match guardOf s r.owner with
  | some g => if (g.q.any fun q => q.1 == r.num) then putGuard r.owner g.p none s else s
  | none => s

/-- 15 R318: P := S and Q is cleared. Of the owner's guard lists only P's is kept. -/
def guardPublish (r : Round) (s : State) : State :=
  let s := putGuard r.owner (some (r.num, r.survivors.length, sha384 (listBytes r.survivors))) none s
  onRnd (fun v => { v with guardLists := v.guardLists.filter fun e => e.1 != r.owner || e.2.1 == r.num }) s

/-- |A Δ B| of two lists without repeats. -/
def symDiff (a b : List Nat) : Nat := (a.countP fun x => !b.contains x) + b.countP fun x => !a.contains x

/-- 15 R317: the differences of a survivor set from P and from Q. -/
def guardDiffs (r : Round) (ids : List Nat) : List Nat := (r.pSet.toList ++ r.qSet.toList).map (symDiff ids)

/-- 15 R315, R317: what keeps a survivor set from publication: status and DETAIL. -/
def gateFault (r : Round) (ids : List Nat) : Option (Nat × Nat) :=
  if ids.length < r.quorum then some (0x0604, ids.length)
  else match (guardDiffs r ids).min? with
    | some n => if n < r.kmin then some (0x0605, n) else none
    | none => none

/-! Publication (15 R319, Table 15.6). -/

/-- The header: `full` false leaves out the counts, as in the announcement. -/
def roundHeader (s : State) (r : Round) (phase : Nat) (full : Bool) (totalDigest : List Byte) : List Byte :=
  let f (n : Nat) : Nat := if full then n else 0
  natLE 4 0x4B4C5055 ++ natLE 2 1 ++ natLE 1 (b2n r.sealed) ++ natLE 1 phase ++ natLE 8 r.num ++ sub r.owner 0 48
    ++ sub s.boot.deviceId 0 16 ++ natLE 4 (f r.nE) ++ natLE 4 (f r.survivors.length) ++ natLE 4 (f (r.nA - r.survivors.length))
    ++ natLE 4 r.kmin ++ natLE 4 r.t ++ natLE 4 (if r.sealed then r.committee.length else r.d) ++ natLE 4 r.m ++ natLE 4 (f r.pDiff)
    ++ natLE 8 (f ((r.pRec.map Prod.fst).getD 0)) ++ natLE 8 s.lark.time
    ++ (if full then sha384 (listBytes r.survivors) else zeros 48)
    ++ (if full then sub ((r.pRec.map fun p => p.2.2).getD []) 0 48 else zeros 48) ++ sub totalDigest 0 48 ++ zeros 16

/-- The bytes of a memory object of a round. -/
def objBytes (s : State) (h n : Nat) : List Byte :=
  match getObj? s h with
  | some o =>
    (match o.kind with
     | .mem .host base _ _ => memRead s.hostMem (s.host.hpoolBase.toNat + base) n
     | .mem _ base _ _ => memRead s.mem base n
     | _ => [])
  | none => []

/-- The bytes of the joint public key of a parameter set (log 46). -/
def jointPkBytes (t : ThrSet) : Nat := 2 * t.l * t.n * 8

/-- 15, Announcement: one entry per listener. -/
def listenerEntry (s : State) (l : Listener) : List Byte :=
  natLE 4 (chipNo s) ++ natLE 1 l.port ++ zeros 3 ++ natLE 16 l.addr.toNat ++ natLE 2 l.udp ++ zeros 6 ++ sub l.xPub 0 32 ++ sub l.ek 0 1184

/-- The live listeners of a round on this chip: before ROUND_START all of them, then those it froze. -/
def roundListeners (s : State) (r : Round) : List (Nat × Listener) :=
  s.lnt.listeners.filter fun e => e.2.live && e.2.rnd == r.num && (!r.started || r.listeners.contains e.1)

/-- 15, Announcement. -/
def announcement (s : State) (r : Round) : List Byte :=
  let h := roundHeader s r r.phase false (zeros 48)
  h ++ ((roundListeners s r).flatMap fun e => listenerEntry s e.2)
    ++ (if r.sealed then objBytes s r.jointPk (jointPkBytes r.set) else []) ++ signBlock s "KL5-ROUND" h

/-- 15 R319: the key of the receipt slot: ATTEST and SIGN with ALG 0x3 or 0x4. -/
def receiptKey (s : State) (c n : Nat) : Except (Nat × Nat) Key :=
  match nameSlot s c n with
  | .error e => .error e
  | .ok v => keyUse v none 0x820 [3, 4]

/-- 15 R319: the receipt block: the signature of the receipt slot over the header (log 46). -/
def receiptBlock (s : State) (r : Round) (h : List Byte) : List Byte :=
  match r.receipt with
  | none => []
  | some n =>
    match receiptKey s r.ctx n with
    | .ok k => if bits k.attr.toNat 20 4 = 3 then mldsaSig k.material (withContext "KL5-ROUND" h) else p384Sig k.material h
    | .error _ => []

/-! The end of a round (15 R322). -/

/-- The share slots that a round binds on this chip, and their release. -/
def unbindSlots (r : Round) (s : State) : State :=
  (s.nut.slots.filter fun e => e.2.bound && e.2.ctx == r.wctx && r.committee.any fun m => m.2 == e.2.key.id).foldl
    (fun s e => putSlotK e.1 { e.2 with bound := false } s) s

/-- Resident firmware's hold on a Chaffinch instance of a partition is taken while some round recovers, and released
(09 R179; log 46). -/
def holdChf (part : Nat) (hold : Bool) (s : State) : State :=
  let i := if s.host.shared then 2 * part else 0
  let v := getInst s 0 i
  if hold then (if v.holder.isNone then putInst 0 i { v with fw := true } s else s) else putInst 0 i { v with fw := false } s

/-- Every Open session of a listener receives OUTCOME and S_CLOSE, and the listener closes. -/
def endListener (r : Round) (n : Nat) (s : State) : State :=
  let s := (sessOfLst s n).foldl (fun s i =>
    let idx := (r.contribs.findIdx? fun c => c.sess == sessHandle i (getSess s i)).getD 0
    closeSess closeRoundEnd i (tellSess (sessHandle i (getSess s i)) 0x0A (if r.phase < 2 then 0 else idx) (outcome r r.status) s)) s
  closeLst n s

/-- 15 R322: a round ends in a phase with a status: the guard and the failure header, the sessions and listeners, and the scrub of
everything that the round held. -/
def endRound (n phase status detail : Nat) (s : State) : State :=
  match getRnd? s n with
  | none => s
  | some r0 =>
    if !r0.live then s
    else
      let r := { r0 with phase := phase, status := status, detail := detail }
      let s := modRnd n (fun _ => r) s
      let s := if r.closed && phase != 7 then guardClear r s else s
      let s := if r.closed && phase == 8 && r.manager then
        modRnd n (fun v => { v with publication := roundHeader s r 8 true (zeros 48) ++ listBytes r.survivors }) s else s
      let s := ((s.lnt.listeners.filter fun e => e.2.live && e.2.rnd == n).map Prod.fst).foldl (fun s l => endListener r l s) s
      let s := if r.worker && r.started && phase != 7 then clearTiles r s else s
      let s := unbindSlots r (if (s.rnd.rounds.any fun x => x.part == r.part && decide (3 < x.phase) && decide (x.phase < 7)) then s
        else holdChf r.part false s)
      let s := modRnd n (fun v => { v with contribs := [], kRound := [], kinds := [], graphSeed := [], pds := [], pieces := [],
                                            pSet := none, qSet := none }) s
      let s := ([r.guardObj, r.jointPk, r.r2b, r.refresh].filter fun h => r.manager && h != 0).foldl (fun s h => dropRef h s) s
      let s := if r.worker then (maskThks r.mask).foldl (fun s t => unbindFree t s) s else s
      tellRnd n 2 (natLE 1 phase ++ natLE 2 status) s

/-- 15 Table 15.9: the rounds of a context end as Aborted when it is reset or destroyed. -/
def abortRounds (c : Nat) (s : State) : State :=
  ((s.rnd.rounds.filter fun r => r.live && ((r.manager && r.ctx == c) || (r.worker && r.wctx == c))).map Round.num).foldl
    (fun s n => endRound n 9 0x0707 (s.lark.time / 2 ^ 32 % 2 ^ 32) s) s

/-- A round fails, with event 0x0605 where the differencing guard refuses it (15 R317, case 15.2). -/
def failRound (r : Round) (status detail : Nat) (s : State) : State :=
  endRound r.num 8 status detail (if status = 0x0605 then raiseEv 0x0605 (some r.ctx) 0xFFFF detail s else s)

/-! ROUND_CREATE (15 R297, R298). -/

/-- 15 R297: this chip manages the slice of a partition. -/
def managesSlice (s : State) (part : Nat) : Bool := (getPart s part).slice != 0 && (getElect s (.slice part)).role

/-- 15 R297, 01 R15, 02 R32: what keeps a chip from a round. -/
def chipBarred (s : State) : Option (Nat × Nat) :=
  if s.boot.debugUnlocked then some (0x0408, Config.statusDetail 0x0408)
  else if s.lark.state = 3 then some (0x0409, devState 3 (lrkStatus s.lark))
  else none

/-- 15 R297, Table 15.1: the parameter words. -/
def createWords (p : Packet) : Option (Nat × Nat) :=
  let masked := !bitOf (p.w 0) 0
  let k := bits (p.w 0) 8 5
  let fmt := bits (p.w 0) 1 3
  let d := p.w 3 / 2 ^ 32
  if p.w 1 < 1 ∨ 2 ^ 22 < p.w 1 then some (0x0105, paramAt 1 0)
  else if p.w 2 < 1 ∨ 2 ^ 26 < p.w 2 then some (0x0105, paramAt 2 0)
  else if k < 10 ∨ 30 < k then some (0x0105, paramAt 0 8)
  else if fmt ≠ (if masked then 3 else 0) then some (0x0105, paramAt 0 0)
  else if masked && (d % 2 != 0 || decide (d < 16) || decide (1024 < d)) then some (0x0105, paramAt 3 32)
  else if !masked && d != 0 then some (0x0105, paramAt 3 32)
  else none

/-- 15 R297: t in (d / 2, d], or in (c / 2, c]. -/
def thresholdOk (t n : Nat) : Bool := decide (n < 2 * t) && decide (t ≤ n)

/-- 15 R298: a handle that names a live memory object of a context, of at least or of exactly a size. -/
def blockObj (s : State) (c h size : Nat) (exact : Bool) : Bool :=
  match getObj? s h with
  | some o =>
    (match o.kind with
     | .mem _ _ n _ => o.ctx == c && o.host && (if exact then n == size else decide (size ≤ n))
     | _ => false)
  | none => false

/-- The first check that fails. -/
def firstFail (l : List (Bool × Nat × Nat)) : Option (Nat × Nat) := (l.find? Prod.fst).map Prod.snd

/-- 15 R298, Table 15.2: the block's checks in table order. -/
def blockFault (s : State) (c : Nat) (sealed : Bool) (b : List Byte) : Option (Nat × Nat) :=
  let flags := field b 6 2
  let norm := flags % 4
  let cc := field b 0x25 1
  let set := (thrSet (field b 0x28 1)).getD { n := 0, l := 0, k := 0 }
  let w := field b 0x24 1
  let mask := field b 0x68 8
  firstFail ([(field b 0 4 != 0x4B4C524E, 0x0104, 0), (field b 4 2 != 1, 0x0104, 4), (flags / 16 != 0, 0x0104, 6),
    (if sealed then norm == 1 else decide (1 < norm), 0x0105, 6),
    (field b 8 4 == 0, 0x0105, 8), (field b 0xC 4 == 0, 0x0105, 0xC), (field b 0x10 4 == 0, 0x0105, 0x10),
    (field b 0x14 4 == 0, 0x0105, 0x14),
    (norm != 0 && (w == 0 || decide ((if norm = 2 then 15 else 32) < w)), 0x0105, 0x24),
    (if sealed then decide (cc < 2) || decide (32 < cc) else cc != 0, 0x0105, 0x25),
    (sealed && (decide (field b 0x26 1 < 20) || decide (60 < field b 0x26 1)), 0x0105, 0x26),
    (sealed && decide (3 < field b 0x28 1), 0x0105, 0x28),
    (field b 0x2A 2 != 0, 0x0104, 0x2A),
    (decide (field b 0x2C 4 < 64) || decide (32768 < field b 0x2C 4), 0x0105, 0x2C),
    (field b 0x40 8 != 0 && !blockObj s c (field b 0x40 8) (field b 0x48 8) false, 0x0105, 0x40),
    (field b 0x48 8 % 16 != 0, 0x0105, 0x48),
    (sealed && !blockObj s c (field b 0x50 8) (jointPkBytes set) true, 0x0105, 0x50),
    (norm == 2 && !blockObj s c (field b 0x58 8) (ringKeyBytes set.n) true, 0x0105, 0x58),
    (decide (2 ≤ norm) && !blockObj s c (field b 0x60 8) refreshKeyBytes true, 0x0105, 0x60),
    (mask == 0 || mask / 2 ^ thkCount s != 0, 0x0105, 0x68),
    ((sub b 0x70 16).any (· != 0), 0x0104, 0x70)]
    ++ (List.range cc).flatMap fun j =>
      [(decide (2 ^ 17 ≤ field b (0x80 + 24 * j) 4), 0x0105, 0x80 + 24 * j),
       (field b (0x84 + 24 * j) 4 != 0, 0x0104, 0x84 + 24 * j)])

/-- ⌈log2 n⌉. -/
def ceilLog2 (n : Nat) : Nat := if n ≤ 1 then 0 else Nat.log2 (n - 1) + 1

/-- The exponent of the plaintext modulus of a Sealed round (log 46). -/
def plainExp (pset : Nat) : Nat := if Config.roundWide pset then 48 else 32

/-- 15 R298: the noise conditions of a Sealed round. -/
def noiseOk (limit cc sigma ef pset : Nat) : Bool :=
  match thrSet pset with
  | some t =>
    decide (ceilLog2 limit + ef + 1 ≤ sigma) && decide (sigma + ceilLog2 cc + 2 ≤ Nat.log2 (thrDelta pset t (plainExp pset)))
  | none => false

/-- The live slot of a context with a key identifier. -/
def slotById (s : State) (c : Nat) (id : List Byte) : Option (Nat × KSlot) :=
  s.nut.slots.find? fun e => e.2.st != 0 && !e.2.root && e.2.ctx == c && e.2.key.id == id

/-- 15 R298, R303: the admission key of a round. -/
def admission (s : State) (c : Nat) (id : List Byte) : Option (List Byte) :=
  match slotById s c id with
  | some e => (match keyUse e.2 (some id) 0x802 [2] with | .ok k => some k.material | .error _ => none)
  | none => none

/-- The owner digest of a partition (15, Terms). -/
def ownerDigest (s : State) (part : Nat) : List Byte := ((getPart s part).owner).getD (zeros 48)

/-- 05 Table 5.5: the floor of an owner. -/
def kminOf (s : State) (owner : List Byte) : Nat := ((s.rnd.floors.find? fun f => f.1 == owner).map Prod.snd).getD 1000

/-- The round that a parameter block describes. -/
def newRound (s : State) (p : Packet) (b : List Byte) : Round :=
  let part := (getCtx s p.ctx).part
  { num := s.rnd.next, ctx := p.ctx, part := part, owner := ownerDigest s part, sealed := bitOf (p.w 0) 0, k := bits (p.w 0) 8 5
    limit := p.w 1, m := p.w 2, t := p.w 3 % 2 ^ 32, d := p.w 3 / 2 ^ 32
    windows := (List.range 4).map fun i => field b (8 + 4 * i) 4
    norm := field b 6 2 % 4, replicas2 := bitOf (field b 6 2) 2
    receipt := if bitOf (field b 6 2) 3 then some (field b 0x29 1) else none
    startAt := field b 0x18 8, bound := field b 0x20 4, width := field b 0x24 1
    committee := (List.range (field b 0x25 1)).map fun j => (field b (0x80 + 24 * j) 4, sub b (0x88 + 24 * j) 16)
    sigma := field b 0x26 1, ef := field b 0x27 1, pset := field b 0x28 1, staging := field b 0x2C 4, admKey := sub b 0x30 16
    guardObj := field b 0x40 8, guardLen := field b 0x48 8, jointPk := if bitOf (p.w 0) 0 then field b 0x50 8 else 0
    r2b := if field b 6 2 % 4 = 2 then field b 0x58 8 else 0, refresh := if 2 ≤ field b 6 2 % 4 then field b 0x60 8 else 0
    mask := BitVec.ofNat 64 (field b 0x68 8), kmin := kminOf s (ownerDigest s part), phase := 0, status := 0, detail := 0
    manager := true, mgrChip := chipNo s, worker := false, wctx := 0, member := false, workers := [], lost := [], listeners := []
    kRound := [], started := false, phaseStart := 0, earlyAt := none, contribs := [], graphSeed := [], kinds := [], pds := []
    pieces := [], pSet := none, qSet := none, pRec := none, pDiff := 0xFFFFFFFF, closed := false, nE := 0, nA := 0
    survivors := [], publication := [] }

/-- The checks of a block that has been read. -/
def createFault (s : State) (p : Packet) (b : List Byte) : Option (Nat × Nat) :=
  let sealed := bitOf (p.w 0) 0
  let n := if sealed then field b 0x25 1 else p.w 3 / 2 ^ 32
  if !thresholdOk (p.w 3 % 2 ^ 32) n then some (0x0105, paramAt 3 0)
  else match blockFault s p.ctx sealed b with
    | some e => some e
    | none =>
      if sealed && !noiseOk (p.w 1) (field b 0x25 1) (field b 0x26 1) (field b 0x27 1) (field b 0x28 1) then some (0x0105, 0x26)
      else if (admission s p.ctx (sub b 0x30 16)).isNone then some (0x0203, 0x802)
      else if bitOf (field b 6 2) 3 then
        (match receiptKey s p.ctx (field b 0x29 1) with | .error e => some e | .ok _ => none)
      else none

/-- 15 R297, R298: ROUND_CREATE. -/
def roundCreate : Body := fun _ p s =>
  let part := (getCtx s p.ctx).part
  if !managesSlice s part then refuse s 0x0803 (managerChip s (.slice part))
  else match chipBarred s with
    | some e => refuse s e.1 e.2
    | none =>
      match createWords p with
      | some e => refuse s e.1 e.2
      | none => withBlob p.ctx (p.w 4) 0x80 s fun h =>
        let cc := if bitOf (p.w 0) 0 then min (field h 0x25 1) 32 else 0
        withBlob p.ctx (p.w 4) (0x80 + 24 * cc) s fun b =>
          match createFault s p b with
          | some e => refuse s e.1 e.2
          | none =>
            let r := newRound s p b
            let s := onRnd (fun v => { v with rounds := v.rounds ++ [r], next := v.next + 1 }) s
            (.done (Done.res r.num 0),
             ([r.guardObj, r.jointPk, r.r2b, r.refresh].filter (· != 0)).foldl (fun s h => takeRef h s) s)

/-- 15 R297. -/
def execRoundCreate (q : QRef) (s : State) : Res := .next (runCmd 0x0600 roundCreate q s)

/-! ROUND_JOIN (15 R299). -/

/-- 15 R299, R182: the thickets of a mask may serve a context of a partition. -/
def joinMaskOk (s : State) (c : Nat) (m : BitVec 64) : Bool :=
  (badThk m (partThks s (getCtx s c).part)).isNone && (badThk m fun t => ((getThk s t).bound.getD c) == c).isNone

/-- 15 R311: the share slot of this chip in a committee: live, ALG 0x7, THRUSH and DECRYPT, with the entry's key ID. -/
def memberSlot (s : State) (c : Nat) (r : Round) : Option (Nat × KSlot) :=
  (r.committee.filter fun e => e.1 == chipNo s).findSome? fun e =>
    match slotById s c e.2 with
    | some v => (match keyUse v.2 (some e.2) 0x208 [7] with | .ok _ => some v | .error _ => none)
    | none => none

/-- The chip becomes a worker: its thickets are bound, its share slot is round-bound, and k_round is drawn or received. -/
def takeJoin (c : Nat) (r : Round) (s : State) : State :=
  let s := bindThks c r.mask s
  let slot := memberSlot s c r
  let s := match slot with
    | some v => putSlotK v.1 { v.2 with bound := true } s
    | none => s
  let x := drawBytes 32 s
  modRnd r.num (fun v => { v with
    worker := true, wctx := c, member := slot.isSome, workers := v.workers ++ [chipNo s]
    kRound := if v.kRound.isEmpty then x.1 else v.kRound }) x.2

/-- A round whose job manager is another chip: its parameters stay there, and the thicket mask it answers with is a free value
(log 46). -/
def remoteRound (s : State) (p : Packet) (mask : BitVec 64) : Round :=
  let part := (getCtx s p.ctx).part
  let h := zeros 0x80
  { newRound s { p with params := zeros 40 } h with
    num := p.w 0, ctx := 0, part := part, manager := false, mgrChip := p.w 1, mask := mask, t := 0, kmin := 0, receipt := none }

/-- 15 R299: ROUND_JOIN. -/
def roundJoin : Body := fun _ p s =>
  let part := (getCtx s p.ctx).part
  let mine := managesSlice s part
  let mgr := if mine then chipNo s else managerChip s (.slice part)
  if (getPart s part).slice = 0 ∨ (!mine ∧ (getElect s (.slice part)).mgr.isNone) ∨ p.w 1 ≠ mgr then refuse s 0x0803 mgr
  else
    let x := drawNat s
    let found := match getRnd? s (p.w 0) with
      | some r => some (r, s)
      | none => if mine then none else some (remoteRound s p (BitVec.ofNat 64 x.1), x.2)
    match found with
    | none => refuse s 0x0403 0
    | some (r, s') =>
      if r.phase ≠ 0 ∨ r.started ∨ r.worker then refuse s 0x0401 r.phase
      else if r.owner ≠ ownerDigest s part ∨ r.part ≠ part then refuse s 0x0202 0
      else if !joinMaskOk s p.ctx r.mask then refuse s 0x0105 (paramAt 0 0)
      else match chipBarred s with
        | some e => refuse s e.1 e.2
        | none =>
          let s := if r.manager then s' else onRnd (fun v => { v with rounds := v.rounds ++ [r] }) s'
          (.done Done.ok, (if r.manager then takeJoin p.ctx r s else tellRnd r.num 0 [] (takeJoin p.ctx r s)))

/-- 15 R299. -/
def execRoundJoin (q : QRef) (s : State) : Res := .next (runCmd 0x0601 roundJoin q s)

/-! ROUND_START (15 R300, R318). -/

/-- 15 R300, R311: every committee member has joined; this chip's own holds its share. -/
def committeeReady (s : State) (r : Round) : Bool :=
  r.committee.all fun e => r.workers.contains e.1 && (e.1 != chipNo s || (memberSlot s r.wctx r).isSome)

/-- The identifiers of a guard list of `n` entries at an offset of bytes. -/
def idsAt (b : List Byte) (off n : Nat) : List Nat := (List.range n).map fun i => field b (off + 16 * i) 16

/-- 15 R318: a guard list that a record names, from the guard range or from the tenant's bytes, if it matches the digest. -/
def guardList (s : State) (owner tenant : List Byte) (off : Nat) (e : Nat × Nat × List Byte) : Option (List Nat) :=
  match s.rnd.guardLists.find? fun g => g.1 == owner && g.2.1 == e.1 with
  | some g => if g.2.2.length = e.2.1 ∧ sha384 (listBytes g.2.2) = e.2.2 then some g.2.2 else none
  | none =>
    let ids := idsAt tenant off e.2.1
    if off + 16 * e.2.1 ≤ tenant.length ∧ sha384 (listBytes ids) = e.2.2 then some ids else none

/-- 15 R318: the lists of P and of Q of a record: none where one is missing or does not match. The tenant's object holds P's list,
then Q's (log 46). -/
def guardLists (s : State) (r : Round) (g : GuardRec) : Option (Option (List Nat) × Option (List Nat)) :=
  let tenant := objBytes s r.guardObj r.guardLen
  let pOff := match g.p with
    | some e => if (s.rnd.guardLists.any fun x => x.1 == r.owner && x.2.1 == e.1) then 0 else 16 * e.2.1
    | none => 0
  let get (off : Nat) (e : Option (Nat × Nat × List Byte)) : Option (Option (List Nat)) :=
    match e with
    | none => some none
    | some e => (guardList s r.owner tenant off e).map some
  match get 0 g.p, get pOff g.q with
  | some p, some q => some (p, q)
  | _, _ => none

/-- 15 R300, R318: what refuses ROUND_START, once the round is found. -/
def startFault (s : State) (r : Round) : Option (Nat × Nat) :=
  let w := r.workers.length
  let g := guardOf s r.owner
  let running := (g.bind GuardRec.q).bind fun q => (getRnd? s q.1).bind fun x => if x.live then some x.phase else none
  let room := 2048 * r.wrens.length
  let copies := if r.replicas2 then 2 else 1
  if w = 0 ∨ (s.lnt.listeners.all fun e => !(e.2.live && e.2.rnd == r.num)) then some (0x0401, 0)
  else if (r.replicas2 || r.norm == 1) && (w % 2 != 0 || decide (w < 2)) then some (0x0105, 0x06)
  else if r.sealed && !committeeReady s r then some (0x0401, 0)
  else match running with
    | some ph => some (0x0412, ph)
    | none =>
      if g.isNone && decide (4096 ≤ s.boot.flash.guards.length) then some (0x0303, 4096)
      else if decide (room < 2 * copies * r.maxRows) then some (0x0303, room / 16)
      else if (g.any fun x => (guardLists s r x).isNone) then some (0x0401, 0)
      else none

/-- The beat at which a started round enters ENROL (15 Tables 15.2, 15.3; log 46). -/
def startBeat (s : State) (r : Round) : Nat := max (s.lark.time / 2 ^ r.k + 1) (ceilDiv r.startAt (2 ^ r.k))

/-- 15 R300: ROUND_START. -/
def roundStart : Body := fun _ p s =>
  match getRnd? s (p.w 0) with
  | none => refuse s 0x0403 0
  | some r =>
    if !roundScope s p.ctx r then refuse s 0x0202 0
    else if !r.manager then refuse s 0x0803 r.mgrChip
    else if r.phase ≠ 0 ∨ r.started then refuse s 0x0401 r.phase
    else match (chipBarred s).or (startFault s r) with
      | some e => refuse s e.1 e.2
      | none =>
        let g := guardOf s r.owner
        let ls := (g.bind (guardLists s r)).getD (none, none)
        let s := modRnd r.num (fun v => { v with
          started := true, workers := v.workers.mergeSort (· ≤ ·), phaseStart := startBeat s r
          listeners := (s.lnt.listeners.filter fun e => e.2.live && e.2.rnd == r.num).map Prod.fst
          pSet := ls.1, qSet := ls.2, pRec := g.bind GuardRec.p }) s
        (.done Done.ok, (match getRnd? s r.num with | some r => if r.worker then clearTiles r s else s | none => s))

/-- 15 R300. -/
def execRoundStart (q : QRef) (s : State) : Res := .next (runCmd 0x0602 roundStart q s)

/-! ROUND_ABORT, ROUND_STATUS, ROUND_RESULT and SET_FLOOR (15 R301, R315, R320, R322). -/

/-- The round that a command names (05 R101). -/
def withRnd (p : Packet) (s : State) (k : Round → Reply × State) : Reply × State :=
  match getRnd? s (p.w 0) with
  | none => refuse s 0x0403 0
  | some r => if !roundScope s p.ctx r then refuse s 0x0202 0 else k r

/-- 15 R322: ROUND_ABORT. -/
def roundAbort : Body := fun _ p s => withRnd p s fun r =>
  if !r.live then refuse s 0x0401 r.phase
  else (.done Done.ok, endRound r.num 9 0x0707 (s.lark.time / 2 ^ 32 % 2 ^ 32) s)

/-- 15 R322. -/
def execRoundAbort (q : QRef) (s : State) : Res := .next (runCmd 0x0603 roundAbort q s)

/-- |S| so far, and the dropouts once A and S are frozen (15 Table 15.10; log 46). -/
def Round.survived (r : Round) : Nat := if r.closed then r.survivors.length else r.contribs.countP Contrib.committed
def Round.dropouts (r : Round) : Nat := if r.closed then r.nA - r.survivors.length else 0

/-- 15 R301: ROUND_STATUS. -/
def roundStatus : Body := fun _ p s => withRnd p s fun r => (.done (Done.res (r.phase + r.survived % 2 ^ 23 * 16) (r.dropouts % 2 ^ 23)), s)

/-- 15 R301. -/
def execRoundStatus (q : QRef) (s : State) : Res := .next (runCmd 0x0604 roundStatus q s)

/-- 15 R320: every page of a destination maps device-kind memory. -/
def deviceOnly (s : State) (c a n : Nat) : Bool :=
  (pageStarts a n).all fun p => match translate s c p .write false with | .ok (.host _) => false | _ => true

/-- 15 R320: what ROUND_RESULT writes, if anything. -/
def resultBytes (s : State) (r : Round) : Option (List Byte) :=
  if r.phase < 3 then some (announcement s r) else if r.publication.isEmpty then none else some r.publication

/-- 15 R320: ROUND_RESULT. -/
def roundResult : Body := fun _ p s => withRnd p s fun r =>
  if !r.manager then refuse s 0x0803 r.mgrChip
  else match resultBytes s r with
    | none => refuse s 0x0401 r.phase
    | some b =>
      if !deviceOnly s p.ctx (p.w 1) b.length then refuse s 0x0204 Acc.write.rights
      else match dvaWrite s p.ctx (p.w 1) b .write false with
        | .error e => refuse s (accStatus .write e).1 (accStatus .write e).2
        | .ok s' => (.done (Done.res b.length 0), s')

/-- 15 R320. -/
def execRoundResult (q : QRef) (s : State) : Res := .next (runCmd 0x0605 roundResult q s)

/-- 15 R315, Terms: SET_FLOOR. -/
def setFloor : Body := fun _ p s =>
  if p.w 0 < 64 then refuse s 0x0105 (paramAt 0 0)
  else
    let o := ownerDigest s (getCtx s p.ctx).part
    (.done Done.ok, onRnd (fun v => { v with floors := (v.floors.filter fun f => f.1 != o) ++ [(o, p.w 0)] }) s)

/-- 15 R315. -/
def execSetFloor (q : QRef) (s : State) : Res := .next (runCmd 0x0606 setFloor q s)

/-! Messages of contributors (15 R302). -/

/-- What becomes of a message: it took effect, it is discarded, it is discarded and the session closed, or it waits. -/
inductive MsgOut where
  | accept (s : State)
  | drop
  | close
  | wait

/-- The message at the front of a session's inbox is taken. -/
def takeMsg (i : Nat) (bytes : List Byte) (s : State) : State :=
  modSess i (fun v => if v.inbox.head? = some bytes then { v with inbox := v.inbox.drop 1 } else v) s

/-- 15 R302: a message of a kind is accepted only in its phase; out of it, or with a Rsvd byte set, it closes the session. A worker
that is not the job manager passes it on. -/
def roundMsg (kind phase : Nat) (body : Nat → Round → RoundMsg → State → MsgOut) (i : Nat) (m : RoundMsg) (s : State) : State :=
  if !regsOpen s || (getSess s i).st != 1 then s
  else
    let b := msgBytes kind m
    match getRnd? s (getLst s (getSess s i).lst).rnd with
    | none => closeSess closeProtocol i (takeMsg i b s)
    | some r =>
      if !r.manager then tellRnd r.num (16 + kind) b (takeMsg i b s)
      else if m.rsvd ≠ 0 ∨ !r.started ∨ r.phase ≠ phase then closeSess closeProtocol i (takeMsg i b s)
      else match body i r m s with
        | .accept s' => takeMsg i b s'
        | .drop => takeMsg i b s
        | .close => closeSess closeProtocol i (takeMsg i b s)
        | .wait => s

/-- The enrolled contributor of a session, with its place in the list. -/
def contribOf (s : State) (r : Round) (i : Nat) : Option (Nat × Contrib) :=
  (r.contribs.zipIdx.find? fun e => e.1.sess == sessHandle i (getSess s i)).map fun e => (e.2, e.1)

/-- A contributor changed. -/
def modContrib (n idx : Nat) (f : Contrib → Contrib) (s : State) : State :=
  modRnd n (fun r => { r with contribs := r.contribs.modify idx f }) s

/-- 15 R301: an early close: the phase ends at the next beat. -/
def closeEarly (n : Nat) (s : State) : State :=
  modRnd n (fun r => if r.earlyAt.isNone then { r with earlyAt := some (s.lark.time / 2 ^ r.k + 1) } else r) s

/-- 15 Table 15.3: an early close where a condition holds of the round. -/
def earlyIf (n : Nat) (cond : Round → Bool) (s : State) : State :=
  match getRnd? s n with
  | some r => if cond r then closeEarly n s else s
  | none => s

/-- 15 R303: ENROL. -/
def enrolMsg (i : Nat) (r : Round) (m : RoundMsg) (s : State) : MsgOut :=
  let v := getSess s i
  if m.payload.length ≠ 128 ∨ (contribOf s r i).isSome then .close
  else match admission s r.ctx r.admKey with
    | none => .close
    | some adm =>
      if hmac (hkdfExpand adm (ascii ("adm" ++ "it")) 48) (ascii "KL5-ADMIT-V1" ++ v.ident) ≠ sub m.payload 32 48 then .close
      else if r.limit ≤ r.contribs.length then .accept (closeSess closeLimit i s)
      else
        let c : Contrib :=
          { sess := sessHandle i v, ident := leNat v.ident, pk := sub m.payload 0 32, commit := sub m.payload 80 48, sent := false
            inA := false, committed := false, norm := none, shares := [], staged := [], resp := [], seed := none }
        .accept (modRnd r.num (fun x => { x with contribs := x.contribs ++ [c] }) s)

/-- 15 R303. -/
def execEnrol (i : Nat) (m : RoundMsg) (s : State) : Res := .next (roundMsg 0x01 1 enrolMsg i m s)

/-! The neighbourhood graph (15 R304). -/

/-- `n` distinct offsets below or at `hi` from word `j` of the keystream; the first number bounds the words read. -/
def graphOffsets (seed : List Byte) (hi n : Nat) : Nat → Nat → List Nat → List Nat
  | 0, _, acc => acc
  | fuel + 1, j, acc =>
    if n ≤ acc.length then acc
    else
      let o := 1 + leNat (ctrBytes seed 0 (4 * j) 4) % hi
      graphOffsets seed hi n fuel (j + 1) (if acc.contains o then acc else acc ++ [o])

/-- 15 R304: the neighbours of a contributor, in index order (log 46). -/
def neighbours (seed : List Byte) (n d i : Nat) : List Nat :=
  if n ≤ d + 1 then (List.range n).filter (· != i)
  else
    let os := graphOffsets seed ((n - 1) / 2) (d / 2) 65536 0 []
    (List.range n).filter fun j => os.any fun o => (i + o) % n == j || (i + n - o) % n == j

/-- The neighbours of an enrolled contributor. -/
def Round.nbrs (r : Round) (i : Nat) : List Nat := neighbours r.graphSeed r.contribs.length r.d i

/-- A contributor is in A. -/
def Round.isA (r : Round) (i : Nat) : Bool := ((r.contribs[i]?).map Contrib.inA).getD false

/-- 15 R305, R313: a contributor enters A when its shares came, where the variant has them, and its check passed, where the round has
one. -/
def admitContrib (n idx : Nat) (s : State) : State :=
  let s := modRnd n (fun r => { r with contribs := r.contribs.modify idx fun c =>
    { c with inA := (r.sealed || c.sent) && (r.norm == 0 || c.norm == some true) } }) s
  earlyIf n (fun r => r.contribs.all Contrib.inA) s

/-- 15 R305: SHARES: one ciphertext of 80 bytes per neighbour, relayed unread. -/
def sharesMsg (i : Nat) (r : Round) (m : RoundMsg) (s : State) : MsgOut :=
  match contribOf s r i with
  | none => .close
  | some (idx, c) =>
    let k := (r.nbrs idx).length
    if r.sealed || c.sent || m.payload.length != 80 * k then .close
    else
      .accept (admitContrib r.num idx (modContrib r.num idx (fun c => { c with
        sent := true, shares := (List.range k).map fun j => sub m.payload (80 * j) 80 }) s))

/-- 15 R305. -/
def execShares (i : Nat) (m : RoundMsg) (s : State) : Res := .next (roundMsg 0x03 2 sharesMsg i m s)

/-- 15 R313: NORM: the result of the check is a free value (log 46); a contributor that fails receives OUTCOME with 0x0105. -/
def normMsg (i : Nat) (r : Round) (_m : RoundMsg) (s : State) : MsgOut :=
  match contribOf s r i with
  | none => .close
  | some (idx, c) =>
    if r.norm = 0 ∨ c.norm.isSome then .close
    else
      let x := drawNat s
      let ok := x.1 % 2 == 1
      let s := modContrib r.num idx (fun c => { c with norm := some ok }) x.2
      .accept (admitContrib r.num idx (if ok then s else tellSess c.sess 0x0A idx (outcome r 0x0105) s))

/-- 15 R313. -/
def execNorm (i : Nat) (m : RoundMsg) (s : State) : Res := .next (roundMsg 0x09 2 normMsg i m s)

/-! VECTOR and COMMIT (15 R307, R312). -/

/-- The staging rows of this chip that a contribution takes. -/
def stagedRows (s : State) (r : Round) (st : List (Nat × List Nat)) : Nat :=
  (ownRanges s r).foldl (fun n e =>
    n + ((List.range (ceilDiv (r.len e.1) 64)).countP fun row => st.any fun p =>
      decide (p.1 < min (r.lo (e.1 + 1)) (r.lo e.1 + 64 * (row + 1))) && decide (r.lo e.1 + 64 * row < p.1 + p.2.length))) 0

/-- The staging rows in use. -/
def roundStaging (s : State) (r : Round) : Nat := r.contribs.foldl (fun n c => if c.committed then n else n + stagedRows s r c.staged) 0

/-- The words of a VECTOR payload. -/
def chunkWords (b : List Byte) : List Nat := (List.range (b.length / 8)).map fun i => field b (8 * i) 8

/-- 15 R307: VECTOR: a chunk is staged, and its part of other workers' ranges goes to them; with staging full it waits. -/
def vectorMsg (i : Nat) (r : Round) (m : RoundMsg) (s : State) : MsgOut :=
  match contribOf s r i with
  | none => .close
  | some (idx, c) =>
    let ws := chunkWords m.payload
    if !c.inA || ws.isEmpty || m.payload.length % 8 != 0 || decide (r.words < m.offset + ws.length)
        || (c.committed || c.staged.any fun p => overlaps (p.1, p.2.length) (m.offset, ws.length)) then .close
    else
      let new := c.staged ++ [(m.offset, ws)]
      if r.staging * 2048 < roundStaging s r + stagedRows s r new - stagedRows s r c.staged then .wait
      else
        let s := modContrib r.num idx (fun c => { c with staged := new }) s
        .accept (if r.workers.length ≤ 1 then s else tellRnd r.num 5 (natLE 4 idx ++ natLE 8 m.offset ++ m.payload) s)

/-- 15 R307. -/
def execVector (i : Nat) (m : RoundMsg) (s : State) : Res := .next (roundMsg 0x05 3 vectorMsg i m s)

/-- 15 R307: COMMIT: accepted once every word has come exactly once, with the round's count. -/
def commitMsg (i : Nat) (r : Round) (m : RoundMsg) (s : State) : MsgOut :=
  match contribOf s r i with
  | none => .close
  | some (idx, c) =>
    if m.payload.length ≠ 4 then .close
    else if !c.inA || c.committed || leNat m.payload != r.words
        || (c.staged.foldl (fun n p => n + p.2.length) 0) != r.words then .drop
    else
      let s := modContrib r.num idx (fun c => { c with committed := true }) (addContrib false r c s)
      let s := if r.workers.length ≤ 1 then s else tellRnd r.num 6 (natLE 4 idx) s
      .accept (earlyIf r.num (fun r => r.contribs.all fun c => !c.inA || c.committed) s)

/-- 15 R307. -/
def execCommit (i : Nat) (m : RoundMsg) (s : State) : Res := .next (roundMsg 0x06 3 commitMsg i m s)

/-! Recovery (15 R309, R316). -/

/-- The inverse modulo p of 10 Table 10.1. -/
def invP (a : Nat) : Nat := powMod primeP 256 (a % primeP) (primeP - 2)

/-- a − b modulo p. -/
def subP (a b : Nat) : Nat := (a % primeP + (primeP - b % primeP)) % primeP

/-- 15 R309: Lagrange interpolation over GF(p): the value at `x` of the polynomial through some points. -/
def lagrange (pts : List (Nat × Nat)) (x : Nat) : Nat :=
  pts.foldl (fun acc a =>
    (acc + pts.foldl (fun v b => if b.1 = a.1 then v else v * subP x b.1 % primeP * invP (subP a.1 b.1) % primeP) (a.2 % primeP)) % primeP) 0

/-- The parts of a list with `k` members. -/
def partsOf : Nat → List (Nat × Nat) → List (List (Nat × Nat))
  | 0, _ => [[]]
  | _ + 1, [] => []
  | k + 1, a :: as_ => (partsOf k as_).map (a :: ·) ++ partsOf (k + 1) as_

/-- 15 R309: Berlekamp–Welch: the polynomial of degree below t that all but ⌊(r − t)/2⌋ of r points lie on, as t of its points. -/
def decodeShares (t : Nat) (pts : List (Nat × Nat)) : Option (List (Nat × Nat)) :=
  (partsOf t pts).find? fun ps =>
    decide (pts.length - (pts.length - t) / 2 ≤ pts.countP fun a => lagrange ps a.1 == a.2 % primeP)

/-- 15 R309: the check of a reconstructed seed of a kind. -/
def seedOk (kind : Nat) (c : Contrib) (z : List Byte) : Bool :=
  if kind = 1 then sub (sha384 (ascii "KL5-SELF-V1" ++ z)) 0 48 == c.commit else x25519Pub z == c.pk

/-- 15 R309: the seed of a contributor and the holders of wrong shares: from the t holders of lowest index, else decoded from all. -/
def recoverSeed (t kind : Nat) (c : Contrib) : Option (List Byte × List Nat) :=
  let pts := (c.resp.map fun e => (e.1, leNat e.2)).mergeSort fun a b => decide (a.1 ≤ b.1)
  if pts.length < t then none
  else
    let z := natLE 32 (lagrange (pts.take t) 0)
    if seedOk kind c z then some (z, [])
    else match decodeShares t pts with
      | none => none
      | some ps =>
        let z := natLE 32 (lagrange ps 0)
        if seedOk kind c z then some (z, (pts.filter fun a => lagrange ps a.1 != a.2 % primeP).map Prod.fst) else none

/-- 15 R308, R310: the contributors whose seed the round needs: the survivors, and each dropout with a surviving neighbour. -/
def Round.needed (r : Round) (i : Nat) : Bool :=
  r.kinds.getD i 0 == 1 || (r.kinds.getD i 0 == 2 && (r.nbrs i).any fun j => r.kinds.getD j 0 == 1)

/-- Every seed the round needs is there. -/
def Round.allSeeds (r : Round) : Bool :=
  r.contribs.zipIdx.all fun e => !r.needed e.2 || e.1.seed.isSome

/-- A share about contributor `w` is recorded, and its seed reconstructed where that is now possible. -/
def takeShare (n w x : Nat) (share : List Byte) (s : State) : State :=
  let s := modContrib n w (fun c => { c with resp := c.resp ++ [(x, share)] }) s
  match getRnd? s n with
  | none => s
  | some r =>
    match r.contribs[w]? with
    | none => s
    | some c =>
      if c.seed.isSome then s
      else match recoverSeed r.t (r.kinds.getD w 0) c with
        | none => s
        | some (z, bad) =>
          let s := modContrib n w (fun c => { c with seed := some z }) s
          let s := count r.wctx 7 0 0x73 1 (if r.kinds.getD w 0 = 2 then count r.wctx 7 0 0x72 1 s else s)
          bad.foldl (fun s x => raiseEv 0x0207 (some r.ctx) (unitId 6 0) (x - 1) s) s

/-- 15 R314, R316: a share whose kind the table does not name is refused. -/
def refuseShare (r : Round) (w : Nat) (s : State) : State :=
  raiseEv 0x0206 (some r.ctx) (unitId 6 0) w (count r.wctx 7 0 0x74 1 (onFab (fun f => { f with kindRefused := incSat f.kindRefused }) s))

/-- One entry of RESPONSE: subject, x-coordinate, share. -/
def takeEntry (n idx : Nat) (b : List Byte) (s : State) : State :=
  match getRnd? s n with
  | none => s
  | some r =>
    let w := field b 0 4
    if r.kinds.getD idx 0 ≠ 1 ∨ r.kinds.getD w 0 = 0 ∨ !(r.nbrs idx).contains w then refuseShare r w s
    else if field b 4 4 ≠ idx + 1 ∨ ((r.contribs[w]?).any fun c => c.resp.any fun e => e.1 == idx + 1) then s
    else takeShare n w (idx + 1) (sub b 8 32) s

/-- 15 R309: RESPONSE. -/
def responseMsg (i : Nat) (r : Round) (m : RoundMsg) (s : State) : MsgOut :=
  match contribOf s r i with
  | none => .close
  | some (idx, _) =>
    if r.sealed || m.payload.isEmpty || m.payload.length % 40 != 0 then .close
    else
      let s := (List.range (m.payload.length / 40)).foldl (fun s j => takeEntry r.num idx (sub m.payload (40 * j) 40) s) s
      .accept (earlyIf r.num Round.allSeeds s)

/-- 15 R309. -/
def execResponse (i : Nat) (m : RoundMsg) (s : State) : Res := .next (roundMsg 0x08 4 responseMsg i m s)

/-- The members that have membersIn: those whose D_j came, and this chip's own. -/
def membersIn (s : State) (r : Round) : Nat := r.pds.length + b2n (r.member && r.committee.any fun e => e.1 == chipNo s)

/-- 15 R312: a member's partial decryption of the round sum. -/
def partialIn (n member : Nat) (data : List Byte) (s : State) : State :=
  match getRnd? s n with
  | none => s
  | some r =>
    if !r.manager || !r.sealed || r.phase != 4 || decide (r.committee.length ≤ member) || (r.committee.getD member (0, [])).1 == chipNo s
        || r.pds.any (fun e => e.1 == member) || data.length != 8 * (r.cts * r.set.l * r.set.n) then s
    else
      let s := modRnd n (fun r => { r with pds := r.pds ++ [(member, data)] }) s
      earlyIf n (fun r => membersIn s r == r.committee.length) s

/-- 15 R312. -/
def execPartialDecryption (n member : Nat) (data : List Byte) (s : State) : Res := .next (if regsOpen s then partialIn n member data s else s)

/-! Phases (15 R301, R303 to R308). -/

/-- The next phase begins at a beat; the workers are told. -/
def enterPhase (n phase beat : Nat) (s : State) : State :=
  tellRnd n 2 (natLE 1 phase ++ natLE 2 0) (modRnd n (fun r => { r with phase := phase, phaseStart := beat, earlyAt := none }) s)

/-- The Open session of a contributor. -/
def sessOpen (s : State) (c : Contrib) : Bool := ((sessOf s c.sess).map fun i => (getSess s i).st == 1).getD false

/-- 15 R303: at the close of ENROL, identifiers enrolled twice leave, and the rest are sorted and indexed. -/
def closeEnrol (r : Round) (beat : Nat) (s : State) : State :=
  let twice (c : Contrib) : Bool := decide (1 < r.contribs.countP fun x => x.ident == c.ident)
  let es := (r.contribs.filter fun c => !twice c).mergeSort fun a b => decide (a.ident ≤ b.ident)
  let s := (r.contribs.filter twice).foldl (fun s c => match sessOf s c.sess with | some i => closeSess closeDuplicate i s | none => s) s
  let s := modRnd r.num (fun v => { v with contribs := es, nE := es.length }) s
  if es.length < r.quorum then failRound r 0x0604 es.length s
  else
    let x := drawBytes 32 s
    let s := enterPhase r.num 2 beat (modRnd r.num (fun v => { v with graphSeed := x.1 }) x.2)
    if r.sealed then
      let s := if r.norm = 0 then modRnd r.num (fun v => { v with contribs := v.contribs.map fun c => { c with inA := true } }) s else s
      earlyIf r.num (fun v => v.contribs.all Contrib.inA) s
    else es.zipIdx.foldl (fun s e =>
      let nb := neighbours x.1 es.length r.d e.2
      tellSess e.1.sess 0x02 e.2 (natLE 4 es.length ++ natLE 4 e.2
        ++ nb.flatMap fun j => natLE 4 j ++ sub ((es[j]?).elim [] Contrib.pk) 0 32) s) s

/-- 15 R306: the BUNDLE of a contributor: what its neighbours in A encrypted for it. -/
def bundle (r : Round) (i : Nat) : List Byte :=
  ((r.nbrs i).filter r.isA).flatMap fun j =>
    natLE 4 j ++ sub (((r.contribs[j]?).elim [] Contrib.shares).getD (((r.nbrs j).findIdx? (· == i)).getD 0) []) 0 80

/-- 15 Table 15.9, R306: the close of SHARE. -/
def closeShare (r : Round) (beat : Nat) (s : State) : State :=
  let n := r.contribs.countP Contrib.inA
  let s := modRnd r.num (fun v => { v with nA := n }) s
  if n < r.quorum then failRound r 0x0604 n s
  else
    let s := enterPhase r.num 3 beat s
    if r.sealed then s
    else r.contribs.zipIdx.foldl (fun s e => if e.1.inA then tellSess e.1.sess 0x04 e.2 (bundle r e.2) s else s) s

/-- 15 R308: the REQUEST of a survivor. -/
def request (r : Round) (kinds : List Nat) (i : Nat) : List Byte :=
  ((r.nbrs i).filter r.isA).flatMap fun j => natLE 4 j ++ natLE 1 (kinds.getD j 0)

/-- 15 R302, R308: the close of COLLECT: who committed and still holds an open session survives; the rest of what was staged goes. -/
def closeCollect (r : Round) (beat : Nat) (s : State) : State :=
  let s := (r.contribs.filter fun c => c.committed && !sessOpen s c).foldl (fun s c => addContrib true r c s) s
  let es := r.contribs.map fun c => { c with committed := c.committed && sessOpen s c, staged := [] }
  let ids := (es.filter Contrib.committed).map Contrib.ident
  let kinds := es.map fun c => if c.committed then 1 else if c.inA then 2 else 0
  let s := modRnd r.num (fun v => { v with
    contribs := es, closed := true, survivors := ids, pDiff := (r.pSet.map (symDiff ids)).getD 0xFFFFFFFF }) s
  match gateFault r ids with
  | some e => failRound r e.1 e.2 s
  | none =>
    let s := if r.worker then holdChf r.part true (guardPend r ids s) else guardPend r ids s
    let s := enterPhase r.num 4 beat (modRnd r.num (fun v => { v with kinds := kinds }) s)
    if r.sealed then tellRnd r.num 7 [] (earlyIf r.num (fun v => membersIn s v == v.committee.length) s)
    else
      es.zipIdx.foldl (fun s e => if e.1.committed then tellSess e.1.sess 0x07 e.2 (request r kinds e.2) s else s) s

/-- 15 R309, R312: the close of RECOVER. -/
def closeRecover (r : Round) (beat : Nat) (s : State) : State :=
  if r.sealed then
    (if membersIn s r < r.t then failRound r 0x0604 (membersIn s r) s else enterPhase r.num 5 beat s)
  else
    let missing := r.contribs.zipIdx.countP fun e => r.needed e.2 && e.1.seed.isNone
    if missing ≠ 0 then failRound r 0x0604 missing s else enterPhase r.num 5 beat s

/-- 15 R301: the beat at which the phase of a round ends. -/
def Round.endBeat (r : Round) : Nat :=
  if r.phase = 0 then r.phaseStart
  else
    let e := r.phaseStart + r.windows.getD (r.phase - 1) 0
    match r.earlyAt with
    | some b => min e b
    | none => e

/-- 15 R301, Table 15.3: a phase of a round that this chip manages ends once its beat has come. -/
def phaseEnd (n : Nat) (s : State) : State :=
  match getRnd? s n with
  | none => s
  | some r =>
    if !r.manager || !r.started || decide (5 ≤ r.phase) || decide (s.lark.time < r.endBeat * 2 ^ r.k) then s
    else match r.phase with
      | 0 => enterPhase n 1 r.endBeat s
      | 1 => closeEnrol r r.endBeat s
      | 2 => closeShare r r.endBeat s
      | 3 => closeCollect r r.endBeat s
      | _ => closeRecover r r.endBeat s

/-- 15 R301. -/
def execRoundPhaseEnd (n : Nat) (s : State) : Res := .next (if regsOpen s then phaseEnd n s else s)

/-! UNMASK (15 R306, R310, R312). -/

/-- 15 R306: the keystream key of a seed. -/
def maskKey (num : Nat) (z : List Byte) : List Byte := hkdfExpand (hkdfExtract (ascii "KL5-MASK-V1" ++ natLE 8 num) z) (ascii "prg") 32

/-- 15 R310: the keystream keys of a round, each with whether its mask is subtracted (true) or added. -/
def maskKeys (r : Round) : List (List Byte × Bool) :=
  r.contribs.zipIdx.flatMap fun e =>
    match e.1.seed with
    | none => []
    | some z =>
      if r.kinds.getD e.2 0 = 1 then [(maskKey r.num z, true)]
      else ((r.nbrs e.2).filter fun u => r.kinds.getD u 0 == 1).map fun u =>
        (maskKey r.num (x25519 z ((r.contribs[u]?).elim [] Contrib.pk)), decide (u < e.2))

/-- 15 R306: the mask word of a keystream key at an element. -/
def maskWord (key : List Byte) (e : Nat) : Nat := leNat (ctrBytes key 0 (8 * e) 8)

/-- 15 R310: an element without its masks. -/
def unmasked (keys : List (List Byte × Bool)) (e v : Nat) : Nat :=
  keys.foldl (fun v k => if k.2 then (v + (2 ^ 64 - maskWord k.1 e % 2 ^ 64)) % 2 ^ 64 else (v + maskWord k.1 e) % 2 ^ 64) v

/-- The words of a range written back to its tiles (15 R310: Starling subtracts the masks). -/
def putRange (r : Round) (i : Nat) (ws : List Nat) (s : State) : State :=
  ((rowPlaces s r).filter fun e => e.1 == i).foldl (fun s e =>
    let row := (List.range 64).map fun j => ws.getD (64 * e.2.1 + j) 0
    setMem (memWrite s.mem ((roundRoost r e.2.2.1).at_ e.2.2.2) (row.flatMap (natLE 8))) s) s

/-- 15 R310: the ranges of this chip are unmasked and gathered; a Sealed round's are gathered as they are. -/
def gatherOwn (r : Round) (s : State) : State :=
  let keys := maskKeys r
  (ownRanges s r).foldl (fun s e =>
    if (r.pieces.any fun p => p.1 == r.lo e.1) then s
    else
      let ws := rangeWords s r e.1
      let new := if r.sealed then ws else ws.zipIdx.map fun x => unmasked keys (r.lo e.1 + x.2) x.1
      let s := if r.sealed then s else count r.wctx 7 0 0x71 (keys.length * ceilDiv (8 * ws.length) 4096) (putRange r e.1 new s)
      modRnd r.num (fun v => { v with pieces := (v.pieces.filter fun p => p.1 != r.lo e.1) ++ [(r.lo e.1, new)] }) s) s

/-- Every word of the total is gathered. -/
def Round.gathered (r : Round) : Bool :=
  (List.range r.workers.length).all fun i => r.len i == 0 || r.pieces.any fun p => p.1 == r.lo i && p.2.length == r.len i

/-- The gathered words. -/
def Round.sumWord (r : Round) (e : Nat) : Nat := stagedWord r.pieces e

/-- The words of one polynomial of a gathered ciphertext (11 R215): ciphertext, polynomial, limb. -/
def polyWords (r : Round) (ct poly l : Nat) : List Nat :=
  (List.range r.set.n).map fun i => r.sumWord (((2 * ct + poly) * r.set.l + l) * r.set.n + i)

/-- 15 R312, 11 R219: this chip's own partial decryption of the sum, with free smudging noise. -/
def ownPartial (s : State) (r : Round) : List Byte × State :=
  match memberSlot s r.wctx r with
  | none => drawBytes (8 * (r.cts * r.set.l * r.set.n)) s
  | some v =>
    let x := drawBytes (8 * (r.cts * r.set.n)) s
    let out := (List.range r.cts).flatMap fun ct =>
      let es := (List.range r.set.n).map fun k =>
        ((field x.1 (8 * (ct * r.set.n + k)) 8 % 2 ^ (r.sigma + 1) : Nat) : Int) - (2 ^ r.sigma : Nat)
      (List.range r.set.l).flatMap fun l =>
        pdecLimb r.set.n (thrPrime r.pset l) (polyWords r ct 0 l) (polyWords r ct 1 l) v.2.key.material es
    (out.flatMap (natLE 8), x.2)

/-- 15 R312: the D_j of every member: those that came, this chip's, and for a missing member a free value, since its seed shares
travel in FW packets (log 46). -/
def allPartials (s : State) (r : Round) : List (List Byte) × State :=
  r.committee.zipIdx.foldl (fun a e =>
    match r.pds.find? fun p => p.1 == e.2 with
    | some p => (a.1 ++ [p.2], a.2)
    | none =>
      let x := if e.1.1 = chipNo s ∧ r.member then ownPartial a.2 r else drawBytes (8 * (r.cts * r.set.l * r.set.n)) a.2
      (a.1 ++ [x.1], x.2)) ([], s)

/-- 15 R312: m := round((t_p / Q) · (Σ D_j − (c − 1) · c0)) mod t_p of one element. -/
def decodeElem (r : Round) (ds : List (List Byte)) (e : Nat) : Nat :=
  let ct := e / r.set.n
  let i := e % r.set.n
  let q := ((List.range r.set.l).map (thrPrime r.pset)).foldl (· * ·) 1
  let res := (List.range r.set.l).map fun l =>
    let ql := thrPrime r.pset l
    let sum := ds.foldl (fun v d => (v + field d (8 * ((ct * r.set.l + l) * r.set.n + i)) 8) % ql) 0
    modSub ql sum ((r.committee.length - 1) * (r.sumWord ((2 * ct * r.set.l + l) * r.set.n + i) % ql)) 0
  let v := crt r.pset r.set.l res
  let tp := 2 ^ plainExp r.pset
  (2 * tp * v + q) / (2 * q) % tp

/-- 15 R315 to R317: the unmask gate; through it the round goes to PUBLISH with its total as one piece. -/
def unmaskGate (r : Round) (total : List Nat) (s : State) : State :=
  match gateFault r r.survivors with
  | some e => failRound r e.1 e.2 s
  | none =>
    enterPhase r.num 6 r.phaseStart (modRnd r.num (fun v => { v with
      pieces := [(0, total)], pds := [], contribs := v.contribs.map fun c => { c with seed := none, resp := [] } }) s)

/-- 15 R310, R312: UNMASK. -/
def unmaskRound (n : Nat) (s : State) : State :=
  match getRnd? s n with
  | none => s
  | some r =>
    if r.phase ≠ 5 then s
    else
      let s := gatherOwn r s
      match getRnd? s n with
      | none => s
      | some r =>
        if !r.manager then tellRnd n 1 (r.pieces.flatMap fun p => natLE 8 p.1 ++ p.2.flatMap (natLE 8)) s
        else if !r.gathered then s
        else if r.sealed then
          let x := allPartials s r
          unmaskGate r ((List.range r.m).map (decodeElem r x.1)) x.2
        else unmaskGate r ((List.range r.m).map r.sumWord) s

/-- 15 R310. -/
def execUnmask (n : Nat) (s : State) : Res := .next (if regsOpen s then unmaskRound n s else s)

/-! PUBLISH (15 R318, R319). -/

/-- 15 R319: the publication of a round with its total. -/
def publicationOf (s : State) (r : Round) : List Byte :=
  let total := (List.range r.m).flatMap fun e => natLE 8 (r.sumWord e)
  let h := roundHeader s r 7 true (sha384 total)
  h ++ total ++ listBytes r.survivors ++ signBlock s "KL5-ROUND" h ++ receiptBlock s r h

/-- 15 R319: PUBLISH. -/
def publishRound (n : Nat) (s : State) : State :=
  match getRnd? s n with
  | none => s
  | some r =>
    if !r.manager || r.phase != 6 then s
    else
      let s := modRnd n (fun v => { v with publication := publicationOf s r }) s
      let s := meter r.ctx (fun m => { m with rounds := m.rounds + 1 }) (guardPublish r s)
      endRound n 7 0 0 s

/-- 15 R319. -/
def execPublish (n : Nat) (s : State) : Res := .next (if regsOpen s then publishRound n s else s)

/-! Loss (15 R321; 14 R289). -/

/-- 15 R321: every coordinate range keeps a live copy. -/
def rangesLive (r : Round) : Bool :=
  let w := r.workers.length
  (List.range w).all fun i =>
    r.len i == 0 || !r.lost.contains (r.workers.getD i 0)
      || (r.replicas2 && !r.lost.contains (r.workers.getD ((i + w / 2) % w) 0))

/-- 15 R321: a worker of a round that this chip manages is lost. -/
def loseWorker (n chip : Nat) (s : State) : State :=
  match getRnd? s n with
  | none => s
  | some r =>
    if !r.manager || !r.live || !r.workers.contains chip || r.lost.contains chip then s
    else if !r.started then modRnd n (fun v => { v with workers := v.workers.filter (· != chip)
                                                        worker := v.worker && chip != chipNo s }) s
    else
      let r := { r with lost := chip :: r.lost }
      let s := modRnd n (fun _ => r) s
      let members := r.committee.countP fun e => !r.lost.contains e.1
      if !rangesLive r || (r.sealed && decide (members < r.t)) || (r.closed && decide (r.survivors.length < r.quorum)) then
        failRound r 0x0805 chip s
      else if chip = chipNo s then
        (r.contribs.filter fun c => !c.committed).foldl (fun s c => match sessOf s c.sess with
          | some i => closeSess closeRoundEnd i s | none => s) s
      else s

/-- 15 R321. -/
def execWorkerLost (n chip : Nat) (s : State) : Res := .next (if regsOpen s then loseWorker n chip s else s)

/-- 15 Table 15.9: the rounds that a lost slice manager managed fail. -/
def loseJobManager (part chip : Nat) (s : State) : State :=
  ((s.rnd.rounds.filter fun r => r.live && !r.manager && r.worker && r.part == part && r.mgrChip == chip).map Round.num).foldl
    (fun s n => endRound n 8 0x0805 chip s) s

/-- 14 R289: 5 beacons missed: the manager is lost, and with a slice manager its rounds. -/
def execManagerLoss (lvl : Level) (s : State) : Res :=
  .next (if managerSilent s lvl then
    match lvl with
    | .slice p => managerLost lvl (loseJobManager p (managerChip s lvl) s)
    | _ => managerLost lvl s
  else s)

/-! Round traffic of other chips (15 R299). -/

/-- 15 R299: a FW packet, as the model frames it (log 46): round number, kind, body. Kind 0 joins a worker, 1 brings unmasked words of
its range, 2 is the job manager's phase. -/
def fwRound (src : Nat) (b : List Byte) (s : State) : State :=
  let n := field b 0 8
  match getRnd? s n with
  | none => s
  | some r =>
    let kind := field b 8 1
    if kind = 0 ∧ r.manager ∧ r.phase = 0 ∧ !r.started ∧ !r.workers.contains src then
      modRnd n (fun v => { v with workers := v.workers ++ [src] }) s
    else if kind = 1 ∧ r.manager ∧ r.started ∧ r.workers.contains src ∧ (r.phase = 4 ∨ r.phase = 5) then
      let p := (field b 9 8, chunkWords (b.drop 17))
      modRnd n (fun v => { v with pieces := (v.pieces.filter fun x => x.1 != p.1) ++ [p] }) s
    else if kind = 2 ∧ !r.manager ∧ r.live ∧ src = r.mgrChip then
      (if 7 ≤ field b 9 1 then endRound n (field b 9 1) (field b 10 2) 0 s
       else modRnd n (fun v => { v with phase := field b 9 1, started := true }) s)
    else s

/-- 15 R299: resident-firmware round traffic is delivered to Robin. -/
def fwIn (p : QtdPkt) (s : State) : State :=
  fwRound p.src p.payload (onRnd (fun r => { r with fw := r.fw ++ [(p.src, p.payload)] }) s)

/-- 15 R299. -/
def execFw (p : QtdPkt) (s : State) : Res := .next (qtdRow 7 fwIn p s)

end Sys2Proof.Machine
end

