-- ==== Sys2Proof/Machine/Queue.lean ====
section
/-! DEFINITION. Queues (05 R98, R380; 06 R115, R118, R120, R123): QUEUE_CREATE, QUEUE_DESTROY, QUEUE_RESET, FAULT_RESUME and the admin-queue control registers. -/

namespace Sys2Proof.Machine

/-! Creating queues (06 R118, 19 R365). -/

/-- 19 R365: the queue numbers of a context, as first number and count; queue 0 is the admin queue. -/
def queueRange (s : State) (c : Nat) : Nat × Nat :=
  if !s.host.shared then (1, 65535)
  else if c = 0 then (1, 63)
  else
    let p := (getCtx s c).part
    if p = 0 then (64, 8128) else (8192 * p, 8192)

/-- The queues of a context that exist. -/
def ctxQueues (s : State) (c : Nat) : List Nat := (s.host.queues.filter fun e => e.2.st != .absent && e.2.ctx == c).map Prod.fst

/-- The queue numbers that are taken: every live queue, and queue 0 of a function context while it is disabled. -/
def queuesTaken (s : State) : List Nat :=
  (s.host.queues.filter fun e => e.2.st != .absent).map Prod.fst ++ s.host.vfAdmq.map fun e => e.2.q

/-- 06 R123: the number that a new queue of a context takes. -/
def freeQueue (s : State) (c : Nat) : Option Nat :=
  let r := queueRange s c
  nextNumber r.1 r.2 (queuesTaken s) s.host.freedQ

/-- A queue enters the table. -/
def addQueue (n : Nat) (v : Queue) (s : State) : State :=
  onHost (fun h => { h with freedQ := h.freedQ.filter (· != n) }) (putQ n v s)

/-- 05, Model; 06 R118, R120; 19 R367: why the parameters of QUEUE_CREATE are refused. -/
def queueParams (s : State) (p : Packet) : Option (Nat × Nat) :=
  let typ := bits (p.w 0) 0 8
  let sz := bits (p.w 0) 8 4
  let cz := bits (p.w 0) 12 4
  if 3 < typ then some (0x0105, paramAt 0 0)
  else if ctxFn s p.ctx ≠ .pf ∧ 15 < bits (p.w 0) 16 11 then some (0x0105, paramAt 0 16)
  else if typ = 3 then
    let n := bits (p.w 1) 0 24
    if (getQp s n).st = 0 then some (0x0403, 0) else if (getQp s n).ctx ≠ p.ctx then some (0x0202, 0) else none
  else if sz < 6 then some (0x0105, paramAt 0 8)
  else if cz < 6 then some (0x0105, paramAt 0 12)
  else if p.w 1 % 4096 ≠ 0 then some (0x0105, paramAt 1 0)
  else if p.w 2 % 4096 ≠ 0 then some (0x0105, paramAt 2 0)
  else if p.w 3 % 8 ≠ 0 then some (0x0105, paramAt 3 0)
  else none

/-- The queue that QUEUE_CREATE describes. A mirror has no rings of its own. -/
def newQueue (p : Packet) : Queue :=
  let typ := bits (p.w 0) 0 8
  if typ = 3 then
    { Queue.init with st := .ready, typ := 3, vec := bits (p.w 0) 16 11, ctx := p.ctx, mirror := bits (p.w 1) 0 24, mirrorRecv := bitOf (p.w 2) 0 }
  else
    { Queue.init with st := .ready, typ := typ, s := bits (p.w 0) 8 4, c := bits (p.w 0) 12 4, vec := bits (p.w 0) 16 11, sq := p.w 1
                      cq := p.w 2, cntAddr := p.w 3, ctx := p.ctx }

/-- 06 R118, Table 6.1: QUEUE_CREATE. -/
def queueCreate : Body := fun _ p s =>
  match queueParams s p with
  | some e => refuse s e.1 e.2
  | none =>
    if 64 ≤ (ctxQueues s p.ctx).length then refuse s 0x0302 64
    else match freeQueue s p.ctx with
      | none => refuse s 0x0302 (queueRange s p.ctx).2
      | some n =>
        let v := newQueue p
        let s := addQueue n v s
        (.done (Done.res n 0), if v.typ = 3 then s else writeCounter v s)

/-- 06 R118. -/
def execQueueCreate (q : QRef) (s : State) : Res := .next (runCmd 0x0104 queueCreate q s)

/-! Resetting and destroying queues (05 R98; 06 R107, R108, R123). -/

/-- Queue pairs whose head descriptor failed with a destroyed queue go on (06 R123). -/
def pumpFailed (s : State) : State :=
  ((s.lnt.qps.filter fun e => e.2.failed != 0).map Prod.fst).foldl (fun s n => pump n s) s

/-- 09 Edges: the runs that a launch queue holds are aborted with 0x0701. -/
def abortLaunches (q : Nat) (s : State) : State :=
  (s.fab.runs.filter fun r => r.src == .launch q).foldl (fun s r => abortRun 0x0701 s r) s

/-- A queue is reset (mode 0), destroyed (mode 1) or disabled (mode 2), its running work aside. -/
def endQueue (q mode : Nat) (s : State) : State :=
  let s := clearQueue q mode (if (getQ s q).typ = 2 then abortLaunches q s else s)
  if mode = 1 then pumpFailed s else s

/-- A reset of another queue: a command that runs there completes first, and this command after it (05 R98). -/
def resetOther (by_ : QRef) (q mode : Nat) (s : State) : Reply × State :=
  let v := getQ s q
  if (v.cur.any Packet.started) then
    (if v.resetBy.isSome then refuse s 0x0412 v.st.code
     else (.later, modQ q (fun v => { v with resetBy := some (mode, some by_) }) s))
  else (.done (Done.res (if mode = 0 then discarded s v else 0) 0), endQueue q mode s)

/-- The queue that a command names: live, and in the scope of R101. -/
def withQueue (p : Packet) (s : State) (k : Nat → Reply × State) : Reply × State :=
  let n := bits (p.w 0) 0 16
  if (getQ s n).st = .absent then refuse s 0x0403 0
  else if !inScope s p.ctx (getQ s n).ctx then refuse s 0x0202 0
  else k n

/-- 06 R107: the admin queue, or queue 0 of a function context. -/
def isAdminQueue (s : State) (n : Nat) : Bool := n == 0 || s.host.vfAdmq.any fun e => e.2.q == n

/-- 05 R98: QUEUE_RESET. A mirror is always Ready and has nothing to discard. -/
def queueReset : Body := fun by_ p s => withQueue p s fun n =>
  let v := getQ s n
  if v.typ = 3 then (.done (Done.res 0 0), s)
  else if by_ = .host n then (.doneThen (Done.res (discarded s { v with cur := none }) 0) (endQueue n 0), s)
  else resetOther by_ n 0 s

/-- 05 R98. -/
def execQueueReset (q : QRef) (s : State) : Res := .next (runCmd 0x0106 queueReset q s)

/-- 06 R107, R108, R123: QUEUE_DESTROY. -/
def queueDestroy : Body := fun by_ p s => withQueue p s fun n =>
  if isAdminQueue s n then refuse s 0x0201 0
  else if by_ = .host n then (.doneThen Done.ok (endQueue n 1), s)
  else resetOther by_ n 1 s

/-- 06 R123. -/
def execQueueDestroy (q : QRef) (s : State) : Res := .next (runCmd 0x0105 queueDestroy q s)

/-! Faults (06 R115). -/

/-- The rights that an access code needs (05 Table 5.7). -/
def rightsOf (code : Nat) : Nat := if code = 1 then 1 else if code = 2 then 2 else if code = 3 then 4 else 8

/-- 06 R115: FAULT_RESUME: the access is tried again, or the faulting entry completes with 0x0204. -/
def faultResume : Body := fun _ p s => withQueue p s fun n =>
  let v := getQ s n
  let fail := bitOf (p.w 1) 0
  if !queueLive s n then refuse s 0x0403 0
  else if v.typ = 3 then
    (if (mirrorFault s v).isNone then refuse s 0x0401 v.st.code
     else (.done Done.ok, if v.mirrorRecv then resumePlace v.mirror fail s else resumeSend v.mirror fail s))
  else match v.fault with
    | none => refuse s 0x0401 v.st.code
    | some f =>
      let s := modQ n (fun v => { v with fault := none }) s
      (.done Done.ok, if fail then finishDesc n 0x0204 (rightsOf f.access) 0 0 s else s)

/-- 06 R115. -/
def execFaultResume (q : QRef) (s : State) : Res := .next (runCmd 0x0108 faultResume q s)

/-! The admin-queue control registers (05 R380, Table 5.8; 19 Table 19.6). -/

/-- The admin-queue registers of a function: those of a virtual function exist while it is enabled. -/
def admqOf (s : State) (f : Fn) : Option Admq :=
  match f with
  | .pf => some s.host.admq
  | .vf v => if s.host.vfEnable && s.host.vfAdmq.any fun e => e.1 == v then some (tabGet Admq.init s.host.vfAdmq v) else none

/-- The admin-queue registers of a function written. -/
def putAdmq (f : Fn) (a : Admq) (s : State) : State :=
  match f with
  | .pf => onHost (fun h => { h with admq := a }) s
  | .vf v => onHost (fun h => { h with vfAdmq := tabIns (tabDel h.vfAdmq v) v a }) s

/-- The fields of DNK_ADMQ_CTL in a value. -/
def ctlFields (a : Admq) (v : Nat) : Admq := { a with en := bitOf v 0, vec := bits v 1 11, s := bits v 12 4, c := bits v 16 4 }

/-- 19 R362: s and c from 6 to 15; the vector of a virtual function from 0 to 15. -/
def ctlInRange (f : Fn) (v : Nat) : Bool := decide (6 ≤ bits v 12 4) && decide (6 ≤ bits v 16 4) && (f == .pf || decide (bits v 1 11 < 16))

/-- 05 R380: the admin queue starts with its configuration: Ready, indexes at zero, the kept counter written to its address. -/
def enableAdmq (c : Nat) (a : Admq) (s : State) : State :=
  let v := getQ s a.q
  let w : Queue :=
    { resetQueue 0 v with typ := 0, s := a.s, c := a.c, vec := a.vec, sq := a.sq.toNat, cq := a.cq.toNat, cntAddr := a.cnt.toNat, ctx := c }
  let busy := v.cur.any Packet.started && v.resetBy.isSome
  writeCounter w (putQ a.q (if busy then { w with st := v.st, cur := v.cur, resetBy := some (0, none) } else w) s)

/-- 05 R380: EN falls: as R98 on the queue, which is then Absent. -/
def disableAdmq (q : Nat) (s : State) : State :=
  if (getQ s q).cur.any Packet.started then modQ q (fun v => { v with resetBy := some (2, none) }) s else endQueue q 2 s

/-- 05 R380, 19 R362: a write to DNK_ADMQ_CTL or VF_ADMQ_CTL. -/
def writeAdmq (f : Fn) (a : Admq) (v : Nat) (s : State) : State :=
  let b := ctlFields a v
  if !ctlInRange f v then discardWrite (if f == .pf then 0x30000 else 0) s
  else if a.en && b.en then (if b = a then s else discardWrite (if f == .pf then 0x30000 else 0) s)
  else
    let s := putAdmq f b s
    if b.en then enableAdmq (match f with | .pf => 0 | .vf _ => (getQ s a.q).ctx) b s
    else if a.en then disableAdmq a.q s
    else s

/-- 05 R380. -/
def execAdmqCtlWrite (f : Fn) (v : BitVec 32) (s : State) : Res :=
  .next (if !regsOpen s then s
    else match admqOf s f with
      | none => s
      | some a => writeAdmq f a v.toNat s)

end Sys2Proof.Machine
end

