-- ==== Sys2Proof/Machine/Units.lean ====
section
/-! DEFINITION. Units (18 Tables 18.5, 18.6, R352 to R354; 02 R25): the two states of a unit, Quarantine and what it does to the unit's work, release, and replica overruns. -/

namespace Sys2Proof.Machine

/-! The two states (18 Table 18.6). Both are derived from the rest of State (log 25). -/

/-- Kind and instance of a unit identifier. -/
def kindOf (u : Nat) : Nat := u / 2048
def instOf (u : Nat) : Nat := u % 2048

/-- A unit whose rails are off: the Wren islands outside Run, the other units of VCORE and VSERDES outside Idle and Run (03 Table 3.1,
R39). -/
def unitGated (s : State) (k : Nat) : Bool :=
  if k = 7 || k = 8 then s.pwr.st == .off
  else if k = 1 || k = 4 || k = 0x0E then s.pwr.st != .run
  else !(s.pwr.st == .idle || s.pwr.st == .run)

/-- The data-path state of a unit that answers: 1 Active, 2 Idle, 3 Transitional. -/
def unitWork (s : State) (u : Nat) : Nat :=
  let i := instOf u
  let idle (b : Bool) : Nat := if b then 1 else 2
  match kindOf u with
  | 0x01 | 0x04 | 0x0E => idle ((getWren s i).st != 0)
  | 0x02 => idle ((List.range 24).any fun j => (getWren s (24 * i + j)).st != 0)
  | 0x03 => idle (s.rnd.rounds.any fun r => r.worker && r.started && r.live)
  | 0x05 => idle (getInst s 1 i).busy
  | 0x06 => idle (getInst s 0 i).busy
  | 0x08 => idle (s.host.queues.any fun e => e.2.typ == 1 && e.2.desc.isSome && e.2.st == .running)
  | 0x09 =>
    if i = 4 then idle (s.lnt.qps.any fun e => e.2.engine == 4 && e.2.st == 3)
    else if (getEth s i).st = 1 then 1 else if (getEth s i).st = 2 then 3 else 2
  | 0x0A => let t := (getSkn s i).st; if t = 4 then 1 else if t = 0 ∨ t = 7 then 2 else 3
  | 0x0B =>
    let v := getSkn s (i / 8)
    if v.st = 4 then idle !(v.dropped.getLsbD (i % 8)) else if v.st = 0 ∨ v.st = 7 then 2 else 3
  | 0x0C => idle (s.wbl.streams.any fun e => e.2.st == 1)
  | 0x0F => idle !(trainedPorts s).isEmpty
  | _ => 2

/-- 18 Table 18.6: the data-path state and Robin's state of a unit. -/
def unitStates (s : State) (u : Nat) : Nat × Nat :=
  if !unitOnPart s u then (0, 0)
  else if (getUnit s u).quar then (8, 8)
  else if (getUnit s u).releasing then (9, 9)
  else if unitGated s (kindOf u) then (4, 3)
  else if s.pwr.warmBusy then (3, 2)
  else (unitWork s u, 1)

/-! Quarantine (18 R353). -/

/-- A run is ended by a unit in Quarantine: its entry completes with 0x0C01. -/
def abortRunUnit (u : Nat) (s : State) (r : Run) : State := completeRun r 0x0C01 u 0 0 (stopRun r s)

/-- The runs with which a predicate holds, ended. -/
def abortRunsWhere (u : Nat) (p : Run → Bool) (s : State) : State :=
  (s.fab.runs.filter fun r => r.st != 0 && p r).foldl (abortRunUnit u) s

/-- A run with an operation in progress in an instance of Chaffinch (kind 0) or Goldcrest (kind 1). -/
def runInInst (s : State) (kind i : Nat) (r : Run) : Bool :=
  r.wrens.any fun w => (getWren s w).async.any fun a => asyncInst a == some (kind, i)

/-- The DMA descriptors being moved complete with 0x0C01. -/
def failDma (u : Nat) (s : State) : State :=
  ((s.host.queues.filter fun e => e.2.typ == 1 && e.2.desc.isSome && e.2.st == .running).map Prod.fst).foldl
    (fun s q => finishDesc q 0x0C01 u 0 0 s) s

/-- The KEY_COMMITs that wait in Nuthatch complete with 0x0C01. -/
def failCommits (u : Nat) (s : State) : State :=
  (s.nut.slots.filter fun e => e.2.by_.isSome).foldl (fun s e =>
    releaseCommit e.2.by_ (Done.fail 0x0C01 u) (putSlotK e.1 { e.2 with by_ := none } s)) s

/-- The queue pairs of an engine that are in use enter Error with a status. -/
def failEngine (e status detail : Nat) (s : State) : State :=
  (qpsOn s e).foldl (fun s n =>
    if (getQp s n).st = 2 ∨ (getQp s n).st = 3 ∨ (getQp s n).st = 4 then qpFail n status detail none s else s) s

/-- 18 R353: what the Quarantine of a unit does to the work in it and to its neighbours. -/
def stopUnit (u : Nat) (s : State) : State :=
  let i := instOf u
  match kindOf u with
  | 0x01 => modWren i (fun v => { v with st := 4 }) (abortRunsWhere u (fun r => r.thks.contains (i / 24)) s)
  | 0x04 => abortRunsWhere u (fun r => r.thks.contains (i / 24)) s
  | 0x02 => abortRunsWhere u (fun r => r.thks.contains i) s
  | 0x05 => abortRunsWhere u (runInInst s 1 i) s
  | 0x06 => abortRunsWhere u (runInInst s 0 i) s
  | 0x07 => failCommits u s
  | 0x08 => failDma u s
  | 0x09 => if i = 4 then failEngine 4 0x0C01 u s else ethLoss i s
  | 0x0A => linkLoss i s
  | 0x0B => dropLane (i / 8) (i % 8) (quarLane (i / 8) (i % 8) s)
  | _ => s

/-- 18 R353, R354: a unit enters Quarantine with the event of its cause. One that was Releasing returns to Quarantine with event
0x0C15 as well; one already in Quarantine stays as it is. Requests that need the unit end under 01 R16. -/
def quarantine (u : Nat) (event : State → State) (s : State) : State :=
  let v := getUnit s u
  if v.quar then event s
  else
    let s := event (endServing (stopUnit u (markQuar u s)))
    if v.releasing then raisePlain 0x0C15 none u s else s

/-! Disagreements (18 R352). -/

/-- 18 R352: a data-path state and a Robin state that disagree. -/
def disagree (dp robin : Nat) : Bool :=
  (robin == 3 && (dp == 1 || dp == 2)) || (robin == 1 && dp == 4) || (robin == 2 && dp == 1)

/-- 18 R352, Edges: a disagreement that has lasted 100 ms; on a unit already in Quarantine or Releasing it is ignored. -/
def execUnitDisagreement (unit : BitVec 16) (dp robin : Nat) (s : State) : Res :=
  .next (let u := unit.toNat
    if powered s && unitKnown u && unitOnPart s u && !quarantined s u && disagree dp robin then
      quarantine u (raiseEv 0x0C02 none u (dp + robin * 16)) s
    else s)

/-! Replica overruns (02 R25). -/

/-- The row of 02 Table 2.5 that a unit kind belongs to, as its bit of GLB_CC_OVERRUN. A Wren is taken as its systolic array, the
Starling block as Starling (log 48). -/
def forcedRow : Nat → Option Nat
  | 0x04 => some 0 | 0x05 => some 1 | 0x06 => some 2 | 0x07 => some 3 | 0x08 => some 4 | 0x09 => some 5 | 0x0E => some 6
  | 0x03 => some 7 | 0x01 => some 8 | 0x0C => some 9 | _ => none

/-- 02 R25: the operation of a Wren, or the one in the unit, completes with 0x0C05. -/
def overrunWork (u w : Nat) (s : State) : State :=
  match runOf s w with
  | some r =>
    if (kindOf u = 1 ∨ kindOf u = 4 ∨ kindOf u = 0x0E) ∧ instOf u ≠ w then s
    else faultRun r w (getWren s w).ix 0x0C05 u none s
  | none => s

/-- 02 R25: a replica overrun: the result is discarded, the operation completes with 0x0C05, event 0x0C05 is raised and the unit is in
Quarantine. `w` is the Wren whose operation the unit ran. -/
def execReplicaOverrun (unit : BitVec 16) (w : Nat) (s : State) : Res :=
  .next (let u := unit.toNat
    match forcedRow (kindOf u) with
    | none => s
    | some b =>
      if powered s && unitKnown u && unitOnPart s u && !quarantined s u then
        quarantine u (raisePlain 0x0C05 none u)
          (overrunWork u w (onGlb (fun g => { g with ccOverrun := g.ccOverrun ||| BitVec.ofNat 10 (2 ^ b) }) s))
      else s)

/-! Commands (05 opcodes 0x0F03, 0x0F04). -/

/-- 18 Table 18.6: UNIT_STATUS. A disagreement shorter than 100 ms is not state of the model: its time reads 0 (log 25). -/
def unitStatus : Body := fun _ p s =>
  let u := bits (p.w 0) 0 16
  if !unitKnown u then refuse s 0x0105 (paramAt 0 0)
  else (.done (Done.res (unitStates s u).1 (unitStates s u).2), s)

/-- 18 Table 18.6. -/
def execUnitStatus (q : QRef) (s : State) : Res := .next (runCmd 0x0F03 unitStatus q s)

/-- A Siskin port after its reset: its registers at their reset values; the Quarantine of its lanes is theirs. -/
def resetSkn (v : Skn) : Skn := { Skn.init with quar := v.quar, wakeLane := wakeLaneOf { Skn.init with quar := v.quar } }

/-- The Quintidy engine after its reset: its roles and registers; what the fabric told the chip stays (log 48). -/
def resetQtd (q : Qtd) : Qtd :=
  { q with bootServe := true, mgrElig := true, skewLim := 0x3E8, st := if q.st = 3 then 3 else 0, drained := false, elect := []
           drop := 0, fenceDrop := 0, skew := 0, reads := [] }

/-- 04 Table 4.1 (unit), 18 R354: Robin resets a unit: its own storage is scrubbed, its registers take their reset values, and its work
completes with 0x0701. -/
def resetUnit (u : Nat) (s : State) : State :=
  let i := instOf u
  match kindOf u with
  | 0x01 => putWren i { Wren.init with st := 4 } (setMem (memErase s.mem (wrenBase i) 1048576) s)
  | 0x02 => setMem (memErase s.mem (thkBase i) 16777216) (modThk i (fun v => { v with sems := [], semSat := false, ksw := 0, passes := 0 }) s)
  | 0x05 => putInst 1 i { getInst s 1 i with busy := false, count := 0 } s
  | 0x06 => putInst 0 i { getInst s 0 i with busy := false, count := 0 } s
  | 0x09 => if i = 4 then onLnt (fun l => { l with drop4 := 0 }) (failEngine 4 0x0701 (abortDetail s) s)
            else putEth i EthPort.init (failEngine i 0x0701 (abortDetail s) s)
  | 0x0A => putSkn i (resetSkn (getSkn s i)) (loseNow i s)
  | 0x0D => setHbmPc (tabPut HbmPc.init s.hbmPc i HbmPc.init) (setMem (s.mem.filter fun c => !(isHbm c.1 && pcOf s c.1 == i)) s)
  | 0x0F => onQtd resetQtd s
  | _ => s

/-- 18 R354: UNIT_RELEASE: both paths read Releasing, and Robin resets the unit. -/
def unitRelease : Body := fun _ p s =>
  let u := bits (p.w 0) 0 16
  if !unitKnown u then refuse s 0x0105 (paramAt 0 0)
  else if kindOf u = 0x0B then laneReleaseOf (instOf u / 8) (laneBit (instOf u % 8)) s
  else if (getUnit s u).releasing then refuse s 0x0412 (Config.statusDetail 0x0412)
  else if !(getUnit s u).quar then refuse s 0x0401 (unitStates s u).1
  else (.done Done.ok, putUnit u { quar := false, releasing := true, relAt := s.lark.time } (resetUnit u s))

/-- 18 R354. -/
def execUnitRelease (q : QRef) (s : State) : Res := .next (runCmd 0x0F04 unitRelease q s)

/-- A unit leaves Quarantine. -/
def admitUnit (u : Nat) (s : State) : State :=
  let s := putUnit u UnitSt.init s
  if kindOf u = 1 then modWren (instOf u) (fun v => { v with st := 0 }) s else s

/-- 18 R354: the health check window ends, 100 ms or more after the release: with the data path Active or Idle and Robin On the unit
admits work, event 0x0C14; otherwise it returns to Quarantine, event 0x0C15. -/
def execUnitReleaseCheck (unit : BitVec 16) (dp robin : Nat) (s : State) : Res :=
  .next (let u := unit.toNat
    if powered s && (getUnit s u).releasing && decide ((getUnit s u).relAt + 100000000 ≤ s.lark.time) then
      if (dp = 1 ∨ dp = 2) ∧ robin = 1 then raisePlain 0x0C14 none u (admitUnit u s)
      else raisePlain 0x0C15 none u (markQuar u s)
    else s)

end Sys2Proof.Machine
end

