-- ==== Sys2Proof/Machine/Context.lean ====
section
/-! DEFINITION. Contexts (06 R107, R108, R128 to R130; 07 R144, R146 to R148; 04 R64; 03 R51): creation, reset and destroy with the engines' acknowledgements, function resets, virtual functions, the partition scrub, time-sharing slots, and the loss of CAR_PWR_EN. -/

namespace Sys2Proof.Machine

/-! Creation (06 R107, 07 Table 7.5). -/

/-- 06 Table 6.1: 4,096 contexts, context 0 among them. -/
def ctxLimit : Nat := 4096

/-- The contexts that exist. -/
def ctxNumbers (s : State) : List Nat := (s.host.ctxs.filter fun e => e.2.st != 0).map Prod.fst

/-- 07 Table 7.5: a Vacant partition becomes Held; in Open host mode its roots are filled (08 R154). -/
def holdPart (p : Nat) (s : State) : State :=
  if (getPart s p).st ≠ 0 then s
  else
    let s := putPart p { getPart s p with st := 1 } s
    if s.host.confidential then s else fillRoots p s

/-- The channel of a new or reset context: in Confidential host mode it is Awaiting, with fresh keys (07, The channel). -/
def newChannel (gen : Nat) (s : State) : Channel × State :=
  if s.host.confidential then freshPair { Channel.init with st := 1, gen := gen } s else (Channel.init, s)

/-- A context enters the table. -/
def addCtx (c p root creator : Nat) (notReady : Bool) (fn : Fn) (s : State) : State :=
  let r := newChannel 0 (holdPart p s)
  onHost (fun h => { h with nextOrder := h.nextOrder + 1 })
    (putCtx c { Ctx.init with st := 1, part := p, notReady := notReady, root := root, creator := creator, fn := fn
                              order := s.host.nextOrder, chan := r.1 } r.2)

/-- 06 R107: the partition of a new context: the one that context 0 names, or the issuer's. -/
def ctxPart (s : State) (p : Packet) : Nat :=
  if !s.host.shared then 0 else if p.ctx = 0 then bits (p.w 1) 0 4 else (getCtx s p.ctx).part

/-- 06 R107, Table 6.3: why CTX_CREATE is refused. -/
def ctxCreateFault (s : State) (p : Packet) : Option (Nat × Nat) :=
  let named := bits (p.w 1) 0 4
  if !s.host.shared && named != 0 then some (0x0105, paramAt 1 0)
  else if s.host.shared && p.ctx == 0 && decide (s.host.parts ≤ named) then some (0x0105, paramAt 1 0)
  else if p.w 0 % 4096 ≠ 0 then some (0x0105, paramAt 0 0)
  else if s.host.confidential && p.w 0 != 0 then some (0x0201, 0)
  else if ctxLimit ≤ (ctxNumbers s).length then some (0x0301, ctxLimit)
  else none

/-- 06 R107: CTX_CREATE. It waits while its partition is Scrubbing (07 Table 7.5). -/
def ctxCreate : Body := fun _ p s =>
  match ctxCreateFault s p with
  | some e => refuse s e.1 e.2
  | none =>
    let c := lowestFree (ctxNumbers s)
    if (getPart s (ctxPart s p)).st = 2 then (.wait, s)
    else (.done (Done.res c 0), addCtx c (ctxPart s p) (p.w 0) p.ctx (bitOf (p.w 1) 8) (ctxFn s p.ctx) s)

/-- 06 R107. -/
def execCtxCreate (q : QRef) (s : State) : Res := .next (runCmd 0x0100 ctxCreate q s)

/-! What each engine does (06 Table 6.10). -/

/-- Nothing waits any more to complete a command of a queue. -/
def forgetRef (q : QRef) (s : State) : State :=
  let gone (b : Option QRef) : Option QRef := if b = some q then none else b
  let s := onPwr (fun p => { p with req := gone p.req }) s
  let s := onNut (fun n => { n with slots := n.slots.map fun e => (e.1, { e.2 with by_ := gone e.2.by_ }) }) s
  onHost (fun h => { h with
    ctxs := h.ctxs.map fun e => (e.1, { e.2 with wait := e.2.wait.map fun w => { w with by_ := gone w.by_ } })
    queues := h.queues.map fun e => (e.1, { e.2 with resetBy := e.2.resetBy.map fun r => (r.1, gone r.2) }) }) s

/-- What a queue holds is aborted with a status, unless it is the command that asked for the reset. -/
def abortEntry (status : Nat) (by_ : Option QRef) (s : State) (q : Nat) : State :=
  if by_ = some (.host q) then s else forgetRef (.host q) (abortQueue status q s)

/-- Queues of some types of a context. -/
def queuesOfType (s : State) (c : Nat) (typs : List Nat) : List Nat := (ctxQueues s c).filter fun q => typs.contains (getQ s q).typ

/-- The runs of a context. -/
def ctxRuns (s : State) (c : Nat) : List Run := s.fab.runs.filter fun r => r.ctx == c

/-- The thickets bound to a context. -/
def boundThks (s : State) (c : Nat) : List Nat := (List.range 64).filter fun t => (getThk s t).bound == some c

/-- The Wrens of the context's thickets: runs are aborted, the entries of launch queues complete, and local SRAM is zero. -/
def wrensEnd (c status : Nat) (by_ : Option QRef) (s : State) : State :=
  let s := (ctxRuns s c).foldl (fun s r => abortRun status s r) s
  let s := (queuesOfType s c [2]).foldl (abortEntry status by_) s
  (boundThks s c).foldl (fun s t => (List.range 24).foldl (fun s j =>
    setMem (memErase s.mem (wrenBase (24 * t + j)) 1048576) (modWren (24 * t + j) (fun v => { v with tsw := [], pend := [], groups := [] }) s)) s) s

/-- The runs of a context with an operation in an engine are aborted. -/
def kernelsEnd (kind c status : Nat) (s : State) : State :=
  ((ctxRuns s c).filter fun r => (List.range 16).any fun i => runInInst s kind i r).foldl (fun s r => abortRun status s r) s

/-- Linnet engine `e`: queue pairs end, windows are revoked and listeners with their sessions go. -/
def linnetEnd (e c status : Nat) (s : State) : State :=
  let s := ((s.lnt.qps.filter fun x => x.2.st != 0 && x.2.ctx == c && x.2.engine == e).map Prod.fst).foldl (fun s n => removeQp status n s) s
  let s := ((s.lnt.listeners.filter fun x => x.2.live && x.2.ctx == c && x.2.port == e).map Prod.fst).foldl (fun s n => closeLst n s) s
  ((s.host.wins.filter fun x => x.2.live && x.2.ctx == c).map Prod.fst).foldl (fun s i => revokeWin i s) s

/-- Nuthatch: key operations of the context are aborted and its slots emptied. -/
def nuthatchEnd (c status : Nat) (s : State) : State :=
  let own (b : Option QRef) : Bool := match b with | some (.host q) => (getQ s q).ctx == c | _ => false
  let s := (s.nut.slots.filter fun e => own e.2.by_).foldl (fun s e =>
    releaseCommit e.2.by_ (Done.fail status (abortDetail s)) (putSlotK e.1 { getSlotK s e.1 with by_ := none } s)) s
  dropCtxKeys c s

/-- 06 R128, Table 6.10: an engine aborts and scrubs a context's work. Thrush runs within the instructions of a Wren and the HBM
controllers within accesses: between commands of the model neither holds work (log 47). -/
def engineEnd (e : Engine) (c status : Nat) (by_ : Option QRef) (s : State) : State :=
  match e with
  | .dunnock => (queuesOfType s c [0, 1]).foldl (abortEntry status by_) s
  | .linnet n => linnetEnd n c status s
  | .ingress => onLnt (fun l => { l with sess := l.sess.map fun x => if (getLst s x.2.lst).ctx = c ∧ x.2.st ≠ 0 then (x.1, { x.2 with inbox := [], partial_ := [] }) else x }) s
  | .chaffinch => kernelsEnd 0 c status s
  | .thrush => s
  | .goldcrest => kernelsEnd 1 c status s
  | .warbler => dropCtxWbl c s
  | .wrens => wrensEnd c status by_ s
  | .nuthatch => nuthatchEnd c status s
  | .hbm => s

/-- 06 Table 6.10: the engines that acknowledge. -/
def engines : List Engine :=
  [.dunnock, .linnet 0, .linnet 1, .linnet 2, .linnet 3, .linnet 4, .ingress, .chaffinch, .thrush, .goldcrest, .warbler, .wrens, .nuthatch, .hbm]

/-! The end of a reset or destroy (06 R108, R128, R130; 07 R147). -/

/-- The queues of a context are removed, and with a destroyed function context its admin registers. The admin queue of a context that
stays is disabled, and its EN falls (log 47). -/
def removeQueues (c : Nat) (destroy : Bool) (s : State) : State :=
  let mine (e : Nat × Admq) : Bool := c != 0 && (getQ s e.2.q).ctx == c
  let off (a : Admq) : Admq := { a with en := false }
  let t := (ctxQueues s c).foldl (fun s q => endQueue q (if isAdminQueue s q && !destroy then 2 else 1) s) s
  onHost (fun h => { h with
    admq := if c = 0 then off h.admq else h.admq
    vfAdmq := if destroy then h.vfAdmq.filter fun e => !mine e else h.vfAdmq.map fun e => if mine e then (e.1, off e.2) else e }) t

/-- The device ranges that a context leaves to the scrub (06 R130). -/
def ctxRanges (s : State) (c : Nat) : List Scrub :=
  ((s.host.objs.filter fun e => e.2.ctx == c).flatMap fun e => objRanges e.2).map fun r => { base := r.1, len := r.2, ctx := c }

/-- The objects of a context lose their host references, mappings and windows; those still in use by another context's work go when it
ends (06 R127). -/
def dropObjs (c : Nat) (s : State) : State :=
  let mine := (s.host.objs.filter fun e => e.2.ctx == c).map Prod.fst
  let s := modCtx c (fun v => { v with maps := [] }) s
  mine.foldl (fun s h => dropHost h (revokeWins h (dropMaps h s))) s

/-- What a context holds besides its queues goes: rounds, runs, sessions, queue pairs, streams, keys, objects and beat generators; and its
storage is to be scrubbed. -/
def emptyCtx (c status : Nat) (s : State) : State :=
  let s := abortRounds c s
  let s := wrensEnd c status none s
  let s := nuthatchEnd c status (dropCtxWbl c (dropCtxQps status c (dropCtxSessions c s)))
  let ranges := ctxRanges s c
  let s := onHost (fun h => { h with scrubs := h.scrubs ++ ranges }) (dropObjs c s)
  let s := (boundThks s c).foldl (fun s t => unbindFree t s) s
  ((List.range 16).filter fun n => (getBeat s n).en && (getBeat s n).owner == c).foldl (fun s n => disarmBeat n s) s

/-- 06 Table 6.2: the context is Active again; it keeps its number, partition, fault mode and table mode. -/
def reviveCtx (c : Nat) (s : State) : State :=
  let v := getCtx s c
  let r := if c = 0 then (v.chan, s) else newChannel v.chan.gen s
  putCtx c { v with st := 1, lastFault := 0, maps := [], chan := r.1, wait := none } r.2

/-- 07 Table 7.5, R147: a partition that its last context has left is Scrubbing, and its roots are emptied (08 R154). -/
def scrubIfLeft (p : Nat) (s : State) : State :=
  if (getPart s p).st = 1 ∧ (ctxNumbers s).all fun c => c == 0 || (getCtx s c).part != p then dropRoots p (putPart p { getPart s p with st := 2 } s) else s

/-- 06 Table 6.2: the context is Absent and its number free. Contexts that it created have no creator any more (log 47). -/
def removeCtx (c : Nat) (s : State) : State :=
  let p := (getCtx s c).part
  let s := onHost (fun h => { h with
    ctxs := (tabDel h.ctxs c).map fun e => if e.2.creator = c then (e.1, { e.2 with creator := ctxLimit }) else e }) s
  scrubIfLeft p s

/-- The status of a context's end: 0x0701 reset, 0x0706 destroy. -/
def endStatus (destroy : Bool) : Nat := if destroy then 0x0706 else 0x0701

/-- A command that resets or destroys the context on whose queue it runs (06 R108). -/
def selfCmd (s : State) (c : Nat) (by_ : Option QRef) : Bool :=
  match by_ with
  | some (.host q) => (getQ s q).ctx == c && (getQ s q).st != .absent
  | _ => false

/-- The command that asked completes. -/
def answer (by_ : Option QRef) (d : Done) (s : State) : State :=
  match by_ with
  | some q => finish q d s
  | none => s

/-- 06 R128: the last engine has acknowledged. A command on a queue of the context writes its record before the queue goes (R108). -/
def endCtx (c : Nat) (w : ResetWait) (s : State) : State :=
  let d := match w.quar with | some u => Done.fail 0x0C01 u | none => Done.ok
  let own := selfCmd s c w.by_
  let s := if own then answer w.by_ d s else s
  let s := removeQueues c w.destroy (emptyCtx c (endStatus w.destroy) s)
  let s := if w.destroy then removeCtx c s else reviveCtx c s
  if own then s else answer w.by_ d s

/-- 06 R128: an engine acknowledges. -/
def ackEngine (c : Nat) (e : Engine) (w : ResetWait) (s : State) : State :=
  let s := engineEnd e c (endStatus w.destroy) w.by_ s
  let acks := w.acks.filter (· != e)
  if acks.isEmpty then endCtx c { w with acks := [] } s else modCtx c (fun v => { v with wait := some { w with acks := acks } }) s

/-- 06 R128. -/
def execEngineAck (c : Nat) (e : Engine) (s : State) : Res :=
  .next (match (getCtx s c).wait with
    | some w => if regsOpen s && w.acks.contains e then ackEngine c e w s else s
    | none => s)

/-- 06 R129: the unit that stands for an engine, as far as it holds the context's work (log 47). -/
def engineUnit (s : State) (c : Nat) : Engine → Nat
  | .dunnock => unitId 8 0
  | .linnet e => unitId 9 e
  | .ingress => unitId 3 0
  | .chaffinch => unitId 6 (((List.range 16).find? fun i => (ctxRuns s c).any (runInInst s 0 i)).getD 0)
  | .thrush => unitId 4 (24 * (boundThks s c).headD 0)
  | .goldcrest => unitId 5 (((List.range 8).find? fun i => (ctxRuns s c).any (runInInst s 1 i)).getD 0)
  | .warbler => unitId 0x0C 0
  | .wrens => unitId 1 (24 * (boundThks s c).headD 0)
  | .nuthatch => unitId 7 0
  | .hbm => unitId 0x0D (((ctxRanges s c).filter fun r => isHbm r.base).head?.map (fun r => pcOf s r.base) |>.getD 0)

/-- 06 R129: the reset of the unit completes the work in it, of every context, with 0x0C01. -/
def failUnitWork (u : Nat) (s : State) : State :=
  if kindOf u = 9 then failEngine (instOf u) 0x0C01 u s else s

/-- 06 R129: an engine has not acknowledged after 1 ms: it is in Quarantine with event 0x0C04, it is reset, and that counts as its
acknowledgement. -/
def execEngineAckTimeout (c : Nat) (e : Engine) (s : State) : Res :=
  .next (match (getCtx s c).wait with
    | some w =>
      if regsOpen s && w.acks.contains e && decide (w.since + 1000000 ≤ s.lark.time) then
        let u := engineUnit s c e
        let s := failUnitWork u (quarantine u (raisePlain 0x0C04 (some c) u) s)
        ackEngine c e { w with quar := w.quar.or (some u) } s
      else s
    | none => s)

/-- 06 R130: the scrub of a context's storage completes; allocations that wait for it may proceed. -/
def execContextScrubDone (c : Nat) (s : State) : Res :=
  .next (if powered s then onHost (fun h => { h with scrubs := h.scrubs.filter fun r => r.ctx != c }) s else s)

/-! CTX_RESET and CTX_DESTROY (06 R107, R108, R128). -/

/-- A reset or destroy starts: the context is Resetting or Destroying, and its rounds end (15 R322). -/
def startEnd (c : Nat) (destroy : Bool) (by_ : Option QRef) (s : State) : State :=
  let w : ResetWait := { destroy := destroy, acks := engines, by_ := by_, since := s.lark.time, quar := none }
  modCtx c (fun v => { v with st := if destroy then 3 else 2, wait := some w }) (abortRounds c s)

/-- 06 R107, R128, Edges: a command that finds the context Resetting waits for that to end; Destroying, or Absent, it completes with
0x0403. -/
def endCmd (destroy : Bool) : Body := fun q p s =>
  let c := bits (p.w 0) 0 12
  let v := getCtx s c
  if c = 0 then refuse s 0x0201 0
  else if v.st = 0 ∨ v.st = 3 then refuse s 0x0403 0
  else if !mayName s p.ctx c then refuse s 0x0202 0
  else if v.st = 2 then (.wait, s)
  else (.later, startEnd c destroy (some q) s)

/-- 06 R128. -/
def execCtxReset (q : QRef) (s : State) : Res := .next (runCmd 0x0102 (endCmd false) q s)

/-- 06 R128. -/
def execCtxDestroy (q : QRef) (s : State) : Res := .next (runCmd 0x0101 (endCmd true) q s)

/-! Function resets and virtual functions (04 R64, 05 R99, 07 R148). -/

/-- 05 R99: the outstanding commands of a context are discarded without status records: its runs stop and its queues go. -/
def discardCtx (c : Nat) (s : State) : State :=
  let s := (ctxRuns s c).foldl (fun s r => stopRun r s) s
  let qs := ctxQueues s c
  let s := qs.foldl (fun s q => forgetRef (.host q) s) s
  removeQueues c false s

/-- 04 R64: a function reset reaches a context: it is Resetting, with no command to complete. One that is Resetting or Destroying already
goes on. Context 0 is Active throughout (06 R107): what it holds goes at once. -/
def fnResetCtx (s : State) (c : Nat) : State :=
  let s := discardCtx c s
  if c = 0 then reviveCtx 0 (emptyCtx 0 0x0701 s)
  else if (getCtx s c).st = 1 then startEnd c false none s
  else s

/-- The contexts that a function reset reaches (04 Table 4.1). -/
def fnCtxs (s : State) : Fn → List Nat
  | .pf => ctxNumbers s
  | .vf v => (ctxNumbers s).filter fun c => c != 0 && (getCtx s c).fn == .vf v

/-- 19 R369: the admin registers of a function take their reset values. -/
def resetAdmq (f : Fn) (s : State) : State :=
  match f with
  | .pf => onHost (fun h => { h with admq := Admq.init }) s
  | .vf v => onHost (fun h => { h with vfAdmq := h.vfAdmq.map fun e => if e.1 = v then (e.1, { Admq.init with q := e.2.q }) else e }) s

/-- 04 R64. The management pseudo-queue is not a function's. -/
def fnReset (f : Fn) (s : State) : State := resetAdmq f ((fnCtxs s f).foldl fnResetCtx s)

/-- 04 R64. -/
def execFunctionLevelReset (f : Fn) (s : State) : Res := .next (if regsOpen s then fnReset f s else s)

/-- 07 R148: the partition that a virtual function serves. -/
def vfPart (s : State) (v : Nat) : Nat := (v - 1) % s.host.parts

/-- 19 Table 19.6: the lowest free queue number of a partition. -/
def vfQueue (s : State) (p : Nat) : Nat :=
  let lo := if p = 0 then 64 else 8192 * p
  lo + lowestFree (((queuesTaken s).filter (lo ≤ ·)).map (· - lo))

/-- 07 R148: the function context of a virtual function and its queue 0, as by CTX_CREATE. One that exists stays, and one whose partition is
Scrubbing waits for the scrub. -/
def makeVf (s : State) (v : Nat) : State :=
  let p := vfPart s v
  let c := lowestFree (ctxNumbers s)
  if (s.host.vfAdmq.any fun e => e.1 == v) || (getPart s p).st == 2 || decide (ctxLimit ≤ (ctxNumbers s).length) then s
  else
    let n := vfQueue s p
    putAdmq (.vf v) { Admq.init with q := n } (addQueue n { Queue.init with ctx := c } (addCtx c p 0 0 false (.vf v) s))

/-- The enabled virtual functions. -/
def vfsOn (s : State) : List Nat := if s.host.vfEnable then (List.range (min s.host.vfNum 63)).map (· + 1) else []

/-- 07 R148; 19 Edges: VF Enable set creates the function contexts; cleared, it acts as a function reset of every virtual function. In
Sole tenancy a write of 1 leaves it 0 with event 0x0201. -/
def writeVfEnable (on : Bool) (num : Nat) (s : State) : State :=
  if on then
    if s.host.vfEnable then s
    else if !s.host.shared then raisePlain 0x0201 none 0xFFFF s
    else
      let s := onHost (fun h => { h with vfEnable := true, vfNum := num }) s
      (vfsOn s).foldl makeVf s
  else
    let s := (vfsOn s).foldl (fun s v => fnReset (.vf v) s) s
    onHost (fun h => { h with vfEnable := false, vfNum := 0 }) s

/-- 07 R148. -/
def execVfEnableWrite (value : Bool) (num : Nat) (s : State) : Res := .next (if regsOpen s then writeVfEnable value num s else s)

/-! The partition scrub (07 R147). -/

/-- The device storage of a partition: its HBM but for the guard range, which is not kept as bytes, and the SRAM of its thickets and their
Wrens. -/
def inPart (s : State) (p off : Nat) : Bool :=
  if isHbm off then !s.host.shared || off / 0x900000000 == p
  else if thkBase 0 ≤ off then partThks s p ((off - thkBase 0) / 16777216)
  else partThks s p ((off - wrenBase 0) / 1048576 / 24)

/-- 07 R147: everything that the scrub zeroes. Context 0 counts with partition 0 (log 23). -/
def scrubPart (p : Nat) (s : State) : State :=
  let s := (ctxNumbers s).foldl (fun s c =>
    if (getCtx s c).part = p then dropCtxWbl c (dropCtxQps 0x0706 c (dropCtxSessions c s)) else s) s
  let s := (partSlots s p).foldl (fun s n => releaseCommit (getSlotK s n).by_ (Done.fail 0x0403 0) (putSlotK n KSlot.init s)) s
  let s := setMem (s.mem.filter fun c => !inPart s p c.1) s
  onHost (fun h => { h with scrubs := h.scrubs.filter fun r => !inPart s p r.base }) s

/-- 07 Table 7.5, R146: the scrub of a partition is complete: the owner binding is cleared, the scrub sequence advances, and the partition
is Vacant. -/
def execPartitionScrubDone (p : Nat) (s : State) : Res :=
  .next (if powered s && (getPart s p).st == 2 then
    let s := scrubPart p s
    let s := putPart p { getPart s p with st := 0, owner := none, scrubSeq := (getPart s p).scrubSeq + 1 } s
    ((vfsOn s).filter fun v => vfPart s v == p).foldl makeVf s
  else s)

/-! Time-sharing (07 R144). -/

/-- 07 R144: the partition whose slot it is. -/
def slotPart (s : State) : Nat := s.lark.time / 1000 % s.host.parts

/-- The next descriptor of a DMA queue starts. -/
def dmaNext (s : State) (q : Nat) : State :=
  let v := getQ s q
  dmaStep (descOp (v.desc.getD (ringSlots s v 1))) q s

/-- 07 R144: a slot of 1 µs begins in Shared tenancy: what its partition has waiting in the unit starts. The Dunnock engine starts the next
descriptor of each DMA queue and a Linnet engine sends on each queue pair; the other units work within the commands that use them. How many
steps fit is timing (log 49). -/
def execTimeShareSlot (unit : TimeShared) (s : State) : Res :=
  .next (if !(regsOpen s && s.host.shared && decide (1 < s.host.parts)) then s
    else
      let mine (c : Nat) : Bool := (getCtx s c).part == slotPart s
      match unit with
      | .dunnock => ((s.host.queues.filter fun e => e.2.typ == 1 && mine e.2.ctx).map Prod.fst).foldl dmaNext s
      | .linnet e => ((s.lnt.qps.filter fun x => x.2.engine == e && mine x.2.ctx).map Prod.fst).foldl (fun s n => pump n s) s
      | .ingress => s
      | .warbler => s
      | .nuthatch => s
      | .quintidy => s)

/-! CAR_PWR_EN low (03 R51). -/

/-- 03 R51: every outstanding command, transfer and Wren program completes with 0x0704. The rounds that the chip takes part in end as
Aborted, since their sums are lost with the SRAM (log 47). -/
def carrierOff (s : State) : State :=
  let s := (s.rnd.rounds.filter Round.live).foldl (fun s r => endRound r.num 9 0x0704 (abortDetail s) s) s
  let s := s.fab.runs.foldl (fun s r => abortRun 0x0704 s r) s
  let s := (s.host.queues.map Prod.fst).foldl (abortEntry 0x0704 none) s
  let s := if s.host.mgmt.isSome then forgetRef .mgmt (finish .mgmt (Done.fail 0x0704 (abortDetail s)) s) else s
  [0, 1, 2, 3, 4].foldl (fun s e => failEngine e 0x0704 (abortDetail s) s) s

/-- 03 R39, R51: a transition out of Standby that is under way as CAR_PWR_EN goes low cannot complete: its command ends with
0x0704 (log 53). -/
def standbyHeld (s : State) : State :=
  match s.pwr.req with
  | none => onPwr (fun p => { p with target := none }) s
  | some q => finish q (Done.fail 0x0704 (abortDetail s)) (onPwr (fun p => { p with target := none, req := none }) s)

/-- 03 R51, R38: CAR_PWR_EN goes low in Idle or Run: the chip passes through Idle into Standby. -/
def execCarPwrEnLow (held : Bool) (s : State) : Res :=
  .next (let t := onPins (fun p => { p with carPwrEn := !held }) s
    if s.pwr.st = .idle ∨ s.pwr.st = .run then
      let t := onPwr (fun p => { p with target := none, req := none }) (carrierOff t)
      powerLeg .standby (onPwr (fun p => setSt .idle { p with settling := false }) t)
    else if s.pwr.st = .standby then standbyHeld t
    else t)

end Sys2Proof.Machine
end

