-- ==== Sys2Proof/Machine/Regs.lean ====
section
/-! DEFINITION. Register space (19 R358 to R363, R364 to R367): what each register reads as, what a read clears or latches, and what a write does. -/

namespace Sys2Proof.Machine

/-- Access codes (00, Conventions). -/
inductive RegKind where
  | ro | rw | w1c | rc | wo
  deriving DecidableEq, Repr

/-- A register as a reader finds it: its bytes, its access code (w1c where any field is W1C) and its value. -/
structure Reg where
  bytes : Nat
  kind : RegKind
  val : Nat
  deriving DecidableEq, Repr

def ro4 (v : Nat) : Option Reg := some { bytes := 4, kind := .ro, val := v % 2 ^ 32 }
def ro8 (v : Nat) : Option Reg := some { bytes := 8, kind := .ro, val := v % 2 ^ 64 }
def rw4 (v : Nat) : Option Reg := some { bytes := 4, kind := .rw, val := v % 2 ^ 32 }
def rw8 (v : Nat) : Option Reg := some { bytes := 8, kind := .rw, val := v % 2 ^ 64 }
def wc4 (v : Nat) : Option Reg := some { bytes := 4, kind := .w1c, val := v % 2 ^ 32 }
def wc8 (v : Nat) : Option Reg := some { bytes := 8, kind := .w1c, val := v % 2 ^ 64 }
def rc4 (v : Nat) : Option Reg := some { bytes := 4, kind := .rc, val := v % 2 ^ 32 }
def wo4 : Option Reg := some { bytes := 4, kind := .wo, val := 0 }
def wo8 : Option Reg := some { bytes := 8, kind := .wo, val := 0 }

/-- A signed value as a field of `n` bits. -/
def sfield (n : Nat) (v : Int) : Nat := (v % (2 ^ n : Nat)).toNat

/-- Instance and offset within it, for `count` instances of stride `stride` from `base`. -/
def strided (base stride count o : Nat) : Option (Nat × Nat) :=
  if base ≤ o ∧ o < base + stride * count then some ((o - base) / stride, (o - base) % stride) else none

/-- The index of a register in a run of `count` registers of `size` bytes from `base`. -/
def indexed (base size count o : Nat) : Option Nat :=
  if base ≤ o ∧ o < base + size * count ∧ (o - base) % size = 0 then some ((o - base) / size) else none

/-! Counter slots (02 Table 2.10). -/

/-- Where the three registers of slot 0 of an instance stand: SEL, HSC, SNAP. -/
structure HscAt where
  blk : Nat
  inst : Nat
  sel : Nat
  hsc : Nat
  snap : Nat
  deriving DecidableEq, Repr

/-- The counter registers of the block and instance that an offset lies in (chapters 09 to 17, Registers). -/
def hscAt (s : State) (o : Nat) : Option HscAt :=
  let at_ (blk base stride : Nat) (sel hsc snap : Nat) : Option HscAt :=
    (strided base stride (slotInsts s blk) o).map fun r =>
      let b := base + stride * r.1
      { blk := blk, inst := r.1, sel := b + sel, hsc := b + hsc, snap := b + snap }
  (at_ 1 0x140000 0x80 0x20 0x30 0x40).or <| (at_ 2 0x180000 0x1000 0x200 0x220 0x240).or <|
  (at_ 3 0x100000 0x1000 0x100 0x120 0x140).or <| (at_ 4 0x110000 0x40 0x8 0x10 0x20).or <|
  (at_ 5 0x18000 0x1000 0x400 0x420 0x440).or <| (at_ 6 0x16000 0x40 0x8 0x10 0x20).or <|
  (at_ 7 0x15000 0x1000 0xE00 0xE20 0xE40).or <| (at_ 8 0x60000 0x400 0x200 0x220 0x240).or <|
  (at_ 9 0x13000 0x1000 0xE00 0xE20 0xE40).or <| at_ 10 0x14000 0x1000 0x600 0x620 0x640

/-- Which register of which slot stands at an offset: 0 SEL, 1 HSC, 2 SNAP, and the slot. -/
def hscSlot (h : HscAt) (o : Nat) : Option (Nat × Nat) :=
  let n := slotCount h.blk
  ((indexed h.sel 4 n o).map fun i => (0, i)).or <| ((indexed h.hsc 8 n o).map fun i => (1, i)).or <|
    (indexed h.snap 8 n o).map fun i => (2, i)

/-- The counter-slot register at an offset. -/
def hscReg (s : State) (o : Nat) : Option Reg :=
  (hscAt s o).bind fun h => (hscSlot h o).bind fun k =>
    let v := tabGet Slot.init s.hsc (slotKey h.blk h.inst k.2)
    if k.1 = 0 then rw4 v.sel else if k.1 = 1 then wc8 (v.cnt + b2n v.wrap * 2 ^ 48) else ro8 v.snap

/-- A write to a counter-slot register: SEL takes a listed event or 0 (05 R381), WRAP is W1C. -/
def hscWrite (h : HscAt) (k : Nat × Nat) (o v : Nat) (s : State) : State :=
  if k.1 = 0 then
    let ev := v % 65536
    if ev ≠ 0 ∧ ev ∉ slotEvents h.blk then discardWrite o s else selectSlot 0 h.blk h.inst k.2 ev s
  else if k.1 = 1 ∧ bitOf v 48 then
    let key := slotKey h.blk h.inst k.2
    setSlots (tabPut Slot.init s.hsc key { tabGet Slot.init s.hsc key with wrap := false }) s
  else s

/-! The registers of each block. `o` is the offset from the block base. -/

/-- GLB_EVLOG_CTL (18 Table 18.8). -/
def evlogCtl (g : Glb) : Nat := b2n g.evEn + b2n g.evAlert * 2 + g.evVec * 4 + g.evMark * 2 ^ 13

/-- 19 Table 19.4, 02 Table 2.11, 18 Table 18.8. -/
def glbReg (s : State) : Nat → Option Reg
  | 0x000 => ro4 (s.boot.fuses.part.toNat + 1 * 2 ^ 4 + 1 * 2 ^ 8 + thkCount s * 2 ^ 16)
  | 0x008 => ro4 (chipNo s + b2n (s.pwr.straps.latched && !s.pwr.straps.fault) * 2 ^ 17)
  | 0x010 => ro8 s.boot.fuses.serial.toNat
  | 0x018 => ro8 s.boot.fuses.thkMap.toNat
  | 0x020 => ro4 (maxParts s + 63 * 2 ^ 4)
  | 0x028 => wc4 (b2n s.glb.dark + b2n s.glb.width * 2 + b2n s.glb.foreign * 4 + b2n s.glb.range * 8)
  | 0x100 => ro4 (ccForced s)
  | 0x104 => wc4 s.glb.ccOverrun.toNat
  | 0x400 => rw4 (evlogCtl s.glb)
  | 0x408 => ro8 (tabGet EvGroup.init s.evlog 0).next
  | 0x410 => ro8 (s.evlog.foldl (fun n e => n + e.2.lost) 0)
  | 0x420 => ro8 s.mtr.cur.num
  | 0x428 => ro8 ((s.mtr.pend.map Prod.fst).getD 0)
  | 0x430 => ro8 (sfield 64 s.mtr.wall)
  | 0x438 => ro4 (quarCount s + relCount s * 2 ^ 16)
  | _ => none

/-- PWR_HBM_T (03 Table 3.15). -/
def hbmTemps : List Int → Nat
  | [] => 0
  | t :: ts => sfield 8 t + 256 * hbmTemps ts

/-- PWR_THERM_CFG (03 Table 3.15). -/
def thermCfg (p : Pwr) : Nat := p.warn + p.throttle * 2 ^ 8 + b2n p.phOut * 2 ^ 16

/-- 03 Tables 3.14, 3.15. -/
def pwrReg (s : State) : Nat → Option Reg
  | 0x000 => ro4 (pwrState s.pwr)
  | 0x008 => rw4 s.pwr.ptReq
  | 0x00C => rw4 s.pwr.cap
  | 0x010 => ro4 (s.pwr.vin % 65536)
  | 0x014 => ro4 (s.pwr.pin % 65536)
  | 0x018 => ro4 (sfield 8 s.pwr.tj + s.pwr.hotSensor * 2 ^ 8)
  | 0x020 => ro8 (hbmTemps (s.pwr.hbmT.take 6))
  | 0x028 => rw4 (thermCfg s.pwr)
  | 0x030 => rc4 (causeCode s.pwr.cause)
  | 0x038 => ro4 (strapWord s.pwr.straps)
  | _ => none

/-- LRK_BEAT_CFG (02 Table 2.9). -/
def beatCfg (b : Beat) : Nat := b.k + b2n b.en * 2 ^ 5 + b.owner * 2 ^ 6

/-- 02 Tables 2.7 to 2.9. -/
def lrkReg (s : State) (o : Nat) : Option Reg :=
  match o with
  | 0x000 => rw4 (s.lark.src.toNat + s.lark.ptpPort.toNat * 4 + b2n s.lark.holdoverEn * 16)
  | 0x008 => wc4 (lrkStatus s.lark)
  | 0x010 => ro8 s.lark.time
  | 0x018 => ro4 (sfield 32 s.lark.offset)
  | 0x01C => rw4 s.lark.slew
  | 0x020 => wo8
  | 0x200 => wo4
  | 0x208 => ro8 s.lark.snapTime
  | 0x210 => ro4 s.lark.snapSeq.toNat
  | _ =>
    ((indexed 0x100 8 16 o).bind fun n => rw4 (beatCfg (getBeat s n))).or
      ((indexed 0x180 8 16 o).bind fun n => ro4 (getBeat s n).cnt.toNat)

/-- NUT_SLOT (08 Table 8.9). -/
def nutSlot (v : KSlot) : Nat :=
  v.st + (if v.root then 0 else v.ctx) * 2 ^ 4 + v.key.attr.toNat % 16 * 2 ^ 16 + b2n v.root * 2 ^ 20

/-- 08 Table 8.9. -/
def nutReg (s : State) (o : Nat) : Option Reg :=
  match o with
  | 0x000 => ro4 (nutStatus s.nut)
  | 0x008 => ro4 s.nut.updCnt
  | _ =>
    ((indexed 0x100 8 256 o).bind fun n => ro8 (nutSlot (getSlotK s n))).or
      ((indexed 0x900 4 12 o).bind fun w => ro4 (field s.nut.authority (4 * w) 4))

/-- The manager state of a level (14 R284). -/
def electOf (s : State) (l : Level) : Elect := ((s.qtd.elect.find? fun e => e.1 == l).map Prod.snd).getD Elect.init

/-- The chip that manages a level, 0 when none is known. -/
def mgrChipOf (s : State) (l : Level) : Nat :=
  if (electOf s l).role then chipNo s else ((electOf s l).mgr.map Bid.chip).getD 0

/-- QTD_ROLE (14 Table 14.5). -/
def qtdRole (s : State) : Nat :=
  b2n (electOf s .rack).role + b2n (electOf s .fabric).role * 2
    + (List.range 8).foldl (fun n p => n + b2n (electOf s (.slice p)).role * 2 ^ (p + 2)) 0
    + mgrChipOf s .rack * 2 ^ 10 + mgrChipOf s .fabric * 2 ^ 27

/-- 14 Table 14.5. -/
def qtdReg (s : State) (o : Nat) : Option Reg :=
  match o with
  | 0x000 => rw4 (b2n s.qtd.bootServe + b2n s.qtd.mgrElig * 2 + s.qtd.skewLim * 2 ^ 16)
  | 0x008 => ro4 (s.qtd.st + b2n s.qtd.dupChip * 4 + b2n s.qtd.drained * 8 + s.qtd.routeGen.toNat * 16)
  | 0x010 => ro8 (qtdRole s)
  | 0x018 => ro8 s.qtd.nonce.toNat
  | 0x300 => rc4 s.qtd.drop.toNat
  | 0x304 => rc4 s.qtd.fenceDrop.toNat
  | 0x308 => ro4 (sfield 32 s.qtd.skew)
  | _ =>
    ((indexed 0x100 8 24 o).bind fun n =>
      ro4 ((getSkn s n).check + ((expectedChip (chipNo s) n).getD (getSkn s n).peerChip) * 4)).or
      ((indexed 0x200 8 8 o).bind fun p =>
        ro8 ((getPart s p).slice + (getPart s p).sliceOrigin * 2 ^ 12 + (getPart s p).sliceSpan * 2 ^ 29))

/-- WBL_STREAM: fields [63:15] of a secret stream read as zero (17 Table 17.9). -/
def streamWord (v : Stream) : Nat :=
  v.st + b2n v.secret * 4 + v.ctx * 8
    + if v.secret then 0 else v.frames.length * 2 ^ 15 + v.e * 2 ^ 24 + v.q * 2 ^ 40

/-- WBL_STREAM_LIM (17 Table 17.9, R340). -/
def streamLim (s : State) (v : Stream) : Nat :=
  if v.secret || v.st = 0 then 0 else v.lout + needAt (gramOf s v) v.q v.frames.length (topCost v) * 2 ^ 16

/-- 17 Table 17.9. -/
def wblReg (s : State) (o : Nat) : Option Reg :=
  match o with
  | 0x000 =>
    let live := s.wbl.tables.filter fun e => e.2.live
    ro4 (ceilDiv (live.foldl (fun n e => n + e.2.bytes.length) 0) 1024 + live.length * 2 ^ 16)
  | _ =>
    (strided 0x100 0x10 64 o).bind fun r =>
      if r.2 = 0 then ro8 (streamWord (getStream s r.1)) else if r.2 = 8 then ro8 (streamLim s (getStream s r.1)) else none

/-- CHF_STATUS and GCR_STATUS (15 Table 15.10, 11 Table 11.9). COUNT stands only in GCR_STATUS. -/
def instWord (s : State) (kind i : Nat) : Nat :=
  let v := getInst s kind i
  let st := if quarantined s (unitId (if kind = 0 then 6 else 5) i) then 3 else if v.busy then 2
            else if v.holder.isSome || v.fw then 1 else 0
  st + v.holder.getD 0 * 4 + b2n v.fw * 2 ^ 14 + if kind = 1 then v.count % 512 * 2 ^ 15 else 0

/-- 15 Table 15.10. -/
def chfReg (s : State) (o : Nat) : Option Reg :=
  if o = 0x400 then rc4 s.fab.kindRefused.toNat else (indexed 0 0x40 16 o).bind fun i => ro4 (instWord s 0 i)

/-- 11 Table 11.9. -/
def gcrReg (s : State) (o : Nat) : Option Reg := (indexed 0 0x40 8 o).bind fun i => ro4 (instWord s 1 i)

/-- THR_KS (11 Table 11.9): `ksw` is the batch of the pass in progress. -/
def thrKs (v : Thk) : Nat := b2n (v.ksw != 0) + v.ksw % 128 * 2 + v.passes.toNat * 2 ^ 32

/-- 11 Table 11.9. -/
def thrReg (s : State) (o : Nat) : Option Reg :=
  if o = 0 then ro4 0xF
  else ((indexed 0x100 8 64 o).bind fun t => ro8 (thrKs (getThk s t))).or
    ((indexed 0x1000 8 64 o).bind fun i => ro8 (thrPrime (i / 16) (i % 16)))

/-- RBN_RND_STATE and its neighbours show the newest round of the partition. -/
def rndOf (s : State) (p : Nat) : Option Round := (s.rnd.rounds.filter fun r => r.part == p).getLast?

/-- 15 Table 15.10: RBN_RND_STATE. -/
def rndState (r : Round) : Nat := r.phase + b2n r.manager * 16 + b2n r.worker * 32 + b2n r.member * 64

/-- 15 Table 15.10: RBN_RND_CNT. -/
def rndCnt (r : Round) : Nat := r.survived % 2 ^ 23 + r.dropouts % 2 ^ 23 * 2 ^ 23

/-- 04 Tables 4.7, 4.8; 15 Table 15.10. -/
def rbnReg (s : State) (o : Nat) : Option Reg :=
  match o with
  | 0x000 => ro4 (bootStatus s)
  | 0x008 => ro4 s.boot.svn
  | 0x00C => ro4 s.boot.floor
  | 0x010 => ro4 (s.boot.fuses.epoch % 1024)
  | 0x018 => ro8 (debugWord s.boot)
  | 0x300 => ro4 (s.boot.measLog.length % 512)
  | 0x400 => rw4 (b2n s.boot.mbxBusy * 2)
  | 0x404 => rw4 s.boot.mbxLen
  | 0x1100 => ro4 (s.boot.flash.guards.length % 8192)
  | _ =>
    ((indexed 0x20 4 4 o).bind fun n => ro4 (field s.boot.deviceId (4 * n) 4)).or <|
    ((strided 0x100 0x40 8 o).bind fun r => (indexed 0 4 12 r.2).bind fun w => ro4 (field (s.boot.accs.getD r.1 []) (4 * w) 4)).or <|
    (strided 0x1000 0x20 8 o).bind fun r =>
      if r.2 = 0 then ro4 (((rndOf s r.1).map rndState).getD 0)
      else if r.2 = 8 then ro8 (((rndOf s r.1).map Round.num).getD 0)
      else if r.2 = 0x10 then ro8 (((rndOf s r.1).map rndCnt).getD 0)
      else none

/-- The admin-queue control word (05 Table 5.8). -/
def admqCtl (a : Admq) : Nat := b2n a.en + a.vec * 2 + a.s * 2 ^ 12 + a.c * 2 ^ 16

/-- The four admin-queue registers (05 Table 5.8, 19 Table 19.6). -/
def admqReg (a : Admq) : Nat → Option Reg
  | 0x00 => rw4 (admqCtl a)
  | 0x08 => rw8 a.sq.toNat
  | 0x10 => rw8 a.cq.toNat
  | 0x18 => rw8 a.cnt.toNat
  | _ => none

/-- DNK_PART_STATE (07 Table 7.10). -/
def partWord (s : State) (p : Nat) : Nat :=
  if s.host.parts ≤ p then 3
  else (getPart s p).st + liveCtxs s p % 2 ^ 12 * 4 + (getPart s p).scrubSeq % 2 ^ 32 * 2 ^ 32

/-- DNK_CTX_STATE (06 Table 6.11). -/
def ctxWord (c : Ctx) : Nat := c.st + c.part * 4 + b2n c.notReady * 2 ^ 6 + b2n (c.root != 0) * 2 ^ 7

/-- 05 Table 5.8, 06 Table 6.11, 07 Table 7.10. -/
def dnkReg (s : State) (o : Nat) : Option Reg :=
  match o with
  | 0x040 => rw8 s.host.hpoolBase.toNat
  | 0x048 => rw8 s.host.hpoolLen.toNat
  | 0x060 => ro4 (tenancyWord s.host)
  | 0x0C0 => rc4 s.host.authFail.toNat
  | 0x0C4 => rc4 s.host.replayCnt.toNat
  | _ =>
    (admqReg s.host.admq o).or <| ((indexed 0x80 8 8 o).bind fun p => ro8 (partWord s p)).or <|
    ((indexed 0x8000 8 4096 o).bind fun c => ro4 (ctxWord (getCtx s c))).or <|
    (indexed 0x10000 8 4096 o).bind fun c =>
      ro8 ((getCtx s c).chan.st + (getCtx s c).chan.gen % 2 ^ 32 * 2 ^ 32)

/-- 19 Table 19.5: the stack of a pseudo-channel has 16 of them. -/
def hbmReg (s : State) (o : Nat) : Option Reg :=
  (strided 0 0x100 96 o).bind fun r =>
    let c := r.1
    let v := tabGet HbmPc.init s.hbmPc c
    match r.2 with
    | 0x00 => ro4 ((if quarantined s (unitId 0x0D c) then 3 else 2) + b2n (s.pwr.stackDouble.getLsbD (c / 16)) * 4
        + b2n (s.pwr.stackLimit.getLsbD (c / 16)) * 8 + (if s.host.shared then c / 12 else 0) * 16)
    | 0x08 => rc4 v.ce.toNat
    | 0x0C => rc4 v.ue.toNat
    | 0x10 => ro8 (v.ueAddr % 2 ^ 46)
    | 0x18 => ro4 (tabGet 0 s.boot.fuses.hbmRepair c % 65536)
    | _ => none

/-- SKN_CTL (13 Table 13.7). -/
def sknCtl (v : Skn) : Nat := b2n v.en + b2n v.roostEn * 2 + b2n v.demand * 4 + v.hold * 8 + v.roostK * 2 ^ 12

/-- 13 Table 13.7. -/
def sknReg (s : State) (o : Nat) : Option Reg :=
  if o = 0xF000 then rw4 (s.floodDc.toNat + s.floodEnv.toNat * 2 ^ 16)
  else (strided 0 0x400 24 o).bind fun r =>
    let v := getSkn s r.1
    match r.2 with
    | 0x00 => rw4 (sknCtl v)
    | 0x08 => ro4 (v.st + v.txWidth * 2 ^ 3 + v.rxWidth * 2 ^ 7 + b2n v.optical * 2 ^ 11 + b2n v.bootMode * 2 ^ 12
        + v.losses.toNat * 2 ^ 16)
    | 0x10 => ro4 (v.dropped.toNat + v.flooded.toNat * 2 ^ 8 + v.quar.toNat * 2 ^ 16 + v.txDropped.toNat * 2 ^ 24)
    | 0x18 => ro8 (v.peerChip + v.peerPort * 2 ^ 17 + v.peerLark.toNat * 2 ^ 22 + b2n v.peerRoost * 2 ^ 24
        + v.delay % 2 ^ 32 * 2 ^ 32)
    | 0x20 => ro8 (v.k + v.wakes.toNat * 2 ^ 8 + sfield 32 v.drift * 2 ^ 32)
    | _ => none

/-- 12 Table 12.10. -/
def lntReg (s : State) (o : Nat) : Option Reg :=
  match o with
  | 0x040 => rw4 (b2n s.lnt.sessHost + s.lnt.idle * 2 ^ 16)
  | 0x048 => ro8 (s.lnt.sess.countP (fun e => e.2.st == 1) + s.lnt.sess.countP (fun e => e.2.st != 0 && e.2.hot) * 2 ^ 19)
  | 0x40020 => rc4 s.lnt.drop4.toNat
  | _ =>
    (strided 0 0x10000 4 o).bind fun r =>
      let v := getEth s r.1
      match r.2 with
      | 0x00 => wc4 (v.st + b2n v.expired * 4 + v.losses.toNat * 2 ^ 16)
      | 0x08 => ro4 v.hold
      | 0x10 => ro8 (v.addr.toNat % 2 ^ 64)
      | 0x18 => ro8 (v.addr.toNat / 2 ^ 64)
      | 0x20 => rc4 v.drop.toNat
      | _ => none

/-- STL_WSTAT (10 Table 10.7). -/
def wstat (v : Wren) : Nat :=
  (List.range 8).foldl (fun n g => n + b2n (tabGet Group.init v.groups g).opn * 2 ^ g) 0
    + b2n v.sExh * 2 ^ 8 + b2n v.sTl * 2 ^ 9 + b2n v.sBl * 2 ^ 10 + b2n v.sNan * 2 ^ 11
    + min 256 (v.pend.foldl (fun n e => n + e.2.length) 0) * 2 ^ 12

/-- 10 Table 10.7. -/
def stlReg (s : State) (o : Nat) : Option Reg := (indexed 0x10000 0x40 (wrenCount s) o).bind fun w => wc4 (wstat (getWren s w))

/-- The ROOST code of the run that a Wren serves. -/
def roostCode (s : State) (v : Wren) : Nat :=
  match v.run with
  | some id => (((s.fab.runs.find? fun r => r.id == id).bind fun r => progOf s r.prog).map Prog.roost).getD 0
  | none => 0

/-- WRN_STALL (09 Table 9.14). -/
def wrenStall (s : State) (v : Wren) : Nat :=
  match v.blockedAt with
  | some t => min ((s.lark.time - t) / 1000) 0xFFFFFF
  | none => 0

/-- 09 Table 9.14, 16 Table 16.7. -/
def wrnReg (s : State) (o : Nat) : Option Reg :=
  (strided 0 0x80 (wrenCount s) o).bind fun r =>
    let v := getWren s r.1
    match r.2 with
    | 0x00 => ro4 ((if s.pwr.st = .idle then 0 else v.st) + v.block * 2 ^ 3 + v.ix * 2 ^ 7 + roostCode s v * 2 ^ 21)
    | 0x08 => ro4 (v.faultStatus + v.faultIx * 2 ^ 16)
    | 0x10 => ro8 (v.faultAddr % 2 ^ 48)
    | 0x18 => ro4 (wrenStall s v)
    | 0x50 => ro8 (v.region + b2n v.regionSpill * 2 ^ 21 + b2n v.keyHeld * 2 ^ 22 + v.regionCtx * 2 ^ 23)
    | 0x58 => ro8 v.spillCnt.toNat
    | _ => none

/-- THK_STATUS [1:0] (09 Table 9.15; 19 R363: Dark while the islands are gated). -/
def thkState (s : State) (t : Nat) : Nat :=
  if s.pwr.st != .run then 0
  else if quarantined s (unitId 2 t) then 3
  else if (List.range 24).any fun j => (getWren s (24 * t + j)).run.isSome then 2
  else 1

/-- 09 Table 9.15. -/
def thkReg (s : State) (o : Nat) : Option Reg :=
  (strided 0 0x1000 (thkCount s) o).bind fun r =>
    let v := getThk s r.1
    match r.2 with
    | 0x00 => ro4 (v.bound.getD 0 + b2n v.bound.isSome * 2 ^ 12 + tabGet 0 s.boot.fuses.spare r.1 % 32 * 2 ^ 13)
    | 0x08 => wc4 (thkState s r.1 + b2n v.semSat * 4)
    | 0x10 => ro8 (storeUsed s r.1 + (16777216 - thkFree s r.1) / 4096 * 2 ^ 15)
    | _ => (indexed 0x100 4 64 r.2).bind fun n => ro4 (tabGet 0 v.sems n)

/-- DNK_KQ_FAULT (06 Table 6.11). -/
def faultWord (f : QFault) : Nat := 1 + f.cause * 2 + f.access * 16

/-- DNK_KQ_WAIT (06 Table 6.11). -/
def waitWord (s : State) (q : Nat) : Nat := match nextEdge s q with | some t => t + 2 ^ 16 | none => 0

/-- The registers of a doorbell page (05 Table 5.8, 06 Table 6.11). -/
def kqReg (s : State) (q : Nat) : Nat → Option Reg
  | 0x00 => wo4
  | 0x04 => wo4
  | 0x08 => ro4 (getQ s q).fetch.toNat
  | 0x0C => ro4 ((getQ s q).st.code + (getQ s q).errStatus * 2 ^ 16)
  | 0x10 => ro4 (counterOf s q).toNat
  | 0x14 => ro4 (getQ s q).typ
  | 0x18 => ro8 (((getQ s q).fault.map QFault.dva).getD 0)
  | 0x20 => ro4 (((getQ s q).fault.map faultWord).getD 0)
  | 0x24 => ro4 (waitWord s q)
  | _ => none

/-- LNT_QP_STAT (12 Table 12.10). -/
def qpStat (v : Qp) : Nat := v.st + (2 ^ v.s - v.sq.length) * 8 + b2n v.overrun * 2 ^ 16 + v.errStatus * 2 ^ 32

/-- The queue pair of a page index (19 R365). -/
def qpOfPage (s : State) (i : Nat) : Nat := if s.host.shared then i / 8192 * 2 ^ 21 + i % 8192 else i

/-- The mailbox window as 64-bit words; it reads zero while BUSY is set (19 Edges). -/
def mbxWord (s : State) (a : Nat) : Nat :=
  if s.boot.mbxBusy then 0 else leNat ((List.range 8).map fun i => tabGet 0 s.boot.mbx (a + i))

/-- The register that starts at a register offset (19 Table 19.3), but for the pages of queues and queue pairs. -/
def regAt (s : State) (o : Nat) : Option Reg :=
  if o < 0x10000 then glbReg s o
  else if o < 0x11000 then pwrReg s (o - 0x10000)
  else if o < 0x12000 then lrkReg s (o - 0x11000)
  else if o < 0x13000 then nutReg s (o - 0x12000)
  else (hscReg s o).or <|
    if o < 0x14000 then qtdReg s (o - 0x13000)
    else if o < 0x15000 then wblReg s (o - 0x14000)
    else if o < 0x16000 then chfReg s (o - 0x15000)
    else if o < 0x17000 then gcrReg s (o - 0x16000)
    else if o < 0x18000 then none
    else if o < 0x1A000 then thrReg s (o - 0x18000)
    else if o < 0x20000 then none
    else if o < 0x30000 then rbnReg s (o - 0x20000)
    else if o < 0x50000 then dnkReg s (o - 0x30000)
    else if o < 0x60000 then hbmReg s (o - 0x50000)
    else if o < 0x70000 then sknReg s (o - 0x60000)
    else if o < 0x80000 then none
    else if o < 0xD0000 then lntReg s (o - 0x80000)
    else if o < 0x100000 then none
    else if o < 0x140000 then stlReg s (o - 0x100000)
    else if o < 0x180000 then wrnReg s (o - 0x140000)
    else if o < 0x1C0000 then thkReg s (o - 0x180000)
    else if 0x1000000 ≤ o ∧ o < 0x2000000 ∧ o % 8 = 0 then rw8 (mbxWord s (o - 0x1000000))
    else none

/-- 19 R363: the blocks powered from VCORE, VSRAM or VSERDES. -/
def darkBlock (o : Nat) : Bool :=
  (0x13000 ≤ o && o < 0x1A000) || (0x50000 ≤ o && o < 0xD0000) || (0x100000 ≤ o && o < 0x1C0000) || decide (0x10000000 ≤ o)

/-- An access of `width` bytes as Dunnock sees it. -/
inductive Place where
  /-- A register offset. -/
  | reg (o : Nat)
  /-- A register of virtual function `v` (19 Table 19.6). -/
  | vfr (v o : Nat)
  /-- Nothing is mapped there. -/
  | none
  deriving DecidableEq, Repr

/-- 19 R364, R367: where an offset of a function's BARs leads. BAR2 is given as offsets from 0x1000_0000. -/
def placeOf (s : State) (f : Fn) (o : Nat) : Place :=
  match f with
  | .pf => if o < 0x2000000 ∨ (0x10000000 ≤ o ∧ o < 0x20000000) then .reg o else .none
  | .vf v =>
    if admqOf s f = Option.none then .none
    else if o < 0x80000 then .vfr v o
    else if o < 0x100000 then .reg (0x400000 + 64 * (8192 * vfPart s v) + (o - 0x80000))
    else if 0x10000000 ≤ o ∧ o < 0x12000000 then .reg (0x10000000 + 4096 * (8192 * vfPart s v) + (o - 0x10000000))
    else .none

/-- VF_INFO (19 Table 19.6). -/
def vfInfo (s : State) (a : Admq) : Nat :=
  let c := (getQ s a.q).ctx
  c + (getCtx s c).part * 2 ^ 12 + a.q * 2 ^ 16 + (getCtx s c).chan.st * 2 ^ 32

/-- 19 Table 19.6. -/
def vfReg (s : State) (v o : Nat) : Option Reg :=
  (admqOf s (.vf v)).bind fun a => if o = 0x20 then ro8 (vfInfo s a) else admqReg a o

/-! Reads (19 R359 to R361). -/

/-- The half of a register that an access touches. -/
inductive Half where
  | whole | low | high
  deriving DecidableEq, Repr

/-- The register that covers a byte, with the offset at which it starts. -/
def covering (look : Nat → Option Reg) (o : Nat) : Option (Nat × Reg) :=
  match look (o / 4 * 4) with
  | some r => some (o / 4 * 4, r)
  | none => match look (o / 8 * 8) with
    | some r => if r.bytes = 8 then some (o / 8 * 8, r) else none
    | none => none

/-- 19 R359: an access allowed to a register. -/
def halfOf (r : Reg) (base o width : Nat) : Option Half :=
  if o = base ∧ width = r.bytes then some .whole
  else if r.bytes = 8 ∧ width = 4 ∧ o = base then some .low
  else if r.bytes = 8 ∧ width = 4 ∧ o = base + 4 then some .high
  else none

/-- The register that an access touches first, if it touches one. -/
def touched (look : Nat → Option Reg) (o width : Nat) : Option (Nat × Reg) :=
  (covering look o).or (covering look (o + (width - 1)))

/-- 19 R360: a 64-bit register all of whose fields are RO, RC or W1C. -/
def Reg.latches (r : Reg) : Bool := r.bytes == 8 && (r.kind == .ro || r.kind == .rc || r.kind == .w1c)

/-- 19 R360: the half latched for a function. -/
def latchedFor (s : State) (f : Fn) (base : Nat) : Option (BitVec 32) :=
  (s.glb.latches.find? fun e => e.1 == f && e.2.1 == base).map fun e => e.2.2

/-- The latch of a function for a register, set or removed. -/
def setLatch (f : Fn) (base : Nat) (v : Option (BitVec 32)) (s : State) : State :=
  onGlb (fun g => { g with latches := (g.latches.filter fun e => !(e.1 == f && e.2.1 == base)) ++ (v.map fun h => (f, base, h)).toList }) s

/-- 19 R359: an access of another width or alignment: no effect, event 0x0108. -/
def widthError (o : Nat) (s : State) : State := raiseDev 0x0108 o (onGlb (fun g => { g with width := true }) s)

/-- 19 R361: what an RC read leaves of a register: the value it returned is subtracted. -/
def clearRc (o : Nat) (s : State) : State :=
  if o = 0x10030 then onPwr (fun p => { p with cause := none }) s
  else if o = 0x300C0 then onHost (fun h => { h with authFail := 0 }) s
  else if o = 0x300C4 then onHost (fun h => { h with replayCnt := 0 }) s
  else if o = 0x13300 then onQtd (fun q => { q with drop := 0 }) s
  else if o = 0x13304 then onQtd (fun q => { q with fenceDrop := 0 }) s
  else if o = 0x15400 then onFab (fun f => { f with kindRefused := 0 }) s
  else if o = 0xC0020 then onLnt (fun l => { l with drop4 := 0 }) s
  else match strided 0x50000 0x100 96 o with
    | some r =>
      let v := tabGet HbmPc.init s.hbmPc r.1
      setHbmPc (tabPut HbmPc.init s.hbmPc r.1 (if r.2 = 8 then { v with ce := 0 } else { v with ue := 0 })) s
    | none => match strided 0x80000 0x10000 4 o with
      | some r => modEth r.1 (fun v => { v with drop := 0 }) s
      | none => s

/-- A read of a register of 4 or 8 bytes: the value, the latch and what it clears. -/
def readReg (f : Fn) (base : Nat) (r : Reg) (h : Half) (s : State) : State :=
  let clear (s : State) : State := if r.kind = .rc then clearRc base s else s
  match h with
  | .whole => setLastRead r.val (clear s)
  | .low =>
    let s := if r.latches then setLatch f base (some (BitVec.ofNat 32 (r.val / 2 ^ 32))) s else s
    setLastRead (r.val % 2 ^ 32) (clear s)
  | .high => match latchedFor s f base with
    | some v => setLastRead v.toNat (setLatch f base none s)
    | none => setLastRead (r.val / 2 ^ 32) s

/-- A read of registers that a lookup gives: an unimplemented offset reads as zero (19 R363). -/
def readFrom (look : Nat → Option Reg) (f : Fn) (o width : Nat) (s : State) : State :=
  match touched look o width with
  | none => setLastRead 0 s
  | some (base, r) => match halfOf r base o width with
    | some h => readReg f base r h s
    | none => setLastRead 0 (widthError o s)

/-- A read inside a doorbell page: owner first (19 R366). -/
def readKq (f : Fn) (o width : Nat) (s : State) : State :=
  let q := (o - 0x400000) / 64
  if !queueLive s q || !mayReach f (queueFn s q) then setLastRead 0 (foreignAccess f s)
  else readFrom (fun a => if 0x400000 + 64 * q ≤ a ∧ a < 0x400000 + 64 * q + 64 then kqReg s q (a - (0x400000 + 64 * q)) else none) f o width s

/-- A read inside a queue-pair page: owner first, the two record rings whole (19 R359, R366). -/
def readQpPage (f : Fn) (o width : Nat) (s : State) : State :=
  let base := 0x10000000 + (o - 0x10000000) / 4096 * 4096
  let n := qpOfPage s ((o - 0x10000000) / 4096)
  let a := o - base
  if !qpReach f n s then setLastRead 0 (foreignAccess f s)
  else if a = 0x80 ∧ width = 32 then readRing 0x80 Qp.cq (fun v => { v with cq := v.cq.drop 1 }) f n width s
  else if a = 0xC0 ∧ width = 32 then readRing 0xC0 Qp.rq (fun v => { v with rq := v.rq.drop 1 }) f n width s
  else if a < 0x40 ∨ (0x80 ≤ a ∧ a < 0xA0) ∨ (0xC0 ≤ a ∧ a < 0xE0) then setLastRead 0 (widthError o s)
  else readFrom (fun b => if b = base + 0x40 then wc8 (qpStat (getQp s n)) else none) f o width s

/-- 19 R363: whether an access finds an unpowered block. -/
def findsDark (s : State) (o : Nat) : Bool := darkBlock o && (s.pwr.st == .standby || s.pwr.st == .tripped)

/-- A register read by a function. -/
def readAccess (f : Fn) (off width : Nat) (s : State) : State :=
  if !powered s then setLastRead 0 s
  else if s.pwr.warmBusy then setLastRead (if f = .pf ∧ off = 0x20000 ∧ width = 4 then bootStatus s else 0) s
  else match placeOf s f off with
    | .none => setLastRead 0 s
    | .vfr v o => readFrom (vfReg s v) f o width s
    | .reg o =>
      if findsDark s o then setLastRead 0 (onGlb (fun g => { g with dark := true }) s)
      else if 0x400000 ≤ o ∧ o < 0x800000 then readKq f o width s
      else if 0x10000000 ≤ o then readQpPage f o width s
      else readFrom (regAt s) f o width s

/-- 19 R361: a read of a register returns its value and, of an RC register, subtracts it. -/
def execRcRead (f : Fn) (off width : Nat) (s : State) : Res := .next (readAccess f off width s)

/-- The lookup of the registers behind an access. -/
def lookAt (s : State) (f : Fn) (off : Nat) : Option Reg :=
  match placeOf s f off with
  | .none => none
  | .vfr v o => vfReg s v o
  | .reg o =>
    if 0x400000 ≤ o ∧ o < 0x800000 then kqReg s ((o - 0x400000) / 64) (o % 64)
    else if 0x10000000 ≤ o then (if o % 4096 = 0x40 then wc8 (qpStat (getQp s (qpOfPage s ((o - 0x10000000) / 4096)))) else none)
    else regAt s o

/-- 19 R360: a 32-bit read of the low half of a 64-bit register latches its high half; an offset with no such register is no such
read. -/
def execHalfReadLatch (f : Fn) (off : Nat) (s : State) : Res :=
  .next (if (lookAt s f off).any Reg.latches then readAccess f off 4 s else s)

/-! Writes (19 R360 to R363). -/

/-- The next state of an outcome. -/
def nextOf (s : State) : Res → State
  | .next t => t
  | _ => s

/-- 03 R40, 19 R362: PWR_PT_REQ. -/
def writePtReq (v : Nat) (s : State) : State :=
  if bits v 0 3 = 0 ∨ 5 < bits v 0 3 then discardWrite 0x10008 s else putPoint (bits v 0 3) s

/-- 03 R41, 19 R362: PWR_CAP. -/
def writeCap (v : Nat) (s : State) : State :=
  if bits v 0 11 < 400 ∨ 1150 < bits v 0 11 then discardWrite 0x1000C s else onPwr (fun p => { p with cap := bits v 0 11 }) s

/-- 03 R53, R55, 19 R362: PWR_THERM_CFG. -/
def writeThermCfg (v : Nat) (s : State) : State :=
  let w := bits v 0 8
  let t := bits v 8 8
  if w < 70 ∨ 95 < w ∨ t < 80 ∨ 100 < t then discardWrite 0x10028 s
  else onPwr (fun p => syncProchot { p with warn := w, throttle := t, phOut := bitOf v 16 }) s

/-- 03 R40: a write to PWR_PT_REQ. -/
def execPwrPtReqWrite (v : BitVec 32) (s : State) : Res := .next (if regsOpen s then writePtReq v.toNat s else s)

/-- 03 R41: a write to PWR_CAP. -/
def execPwrCapWrite (v : BitVec 32) (s : State) : Res := .next (if regsOpen s then writeCap v.toNat s else s)

/-- 03 R55: a write to PWR_THERM_CFG. -/
def execPwrThermCfgWrite (v : BitVec 32) (s : State) : Res := .next (if regsOpen s then writeThermCfg v.toNat s else s)

/-- GLB writes: W1C of GLB_ACCESS and GLB_CC_OVERRUN, and GLB_EVLOG_CTL (18 Table 18.8, WATERMARK 1 to 8,192). -/
def writeGlb (o v : Nat) (s : State) : State :=
  if o = 0x28 then onGlb (fun g => { g with
    dark := g.dark && !bitOf v 0
    width := g.width && !bitOf v 1
    foreign := g.foreign && !bitOf v 2
    range := g.range && !bitOf v 3 }) s
  else if o = 0x104 then onGlb (fun g => { g with ccOverrun := g.ccOverrun &&& ~~~(BitVec.ofNat 10 v) }) s
  else if o = 0x400 then
    if bits v 13 14 = 0 ∨ 8192 < bits v 13 14 then discardWrite o s
    else syncAlert (onGlb (fun g => { g with evEn := bitOf v 0, evAlert := bitOf v 1, evVec := bits v 2 11, evMark := bits v 13 14 }) s)
  else s

/-- PWR writes. -/
def writePwr (o v : Nat) (s : State) : State :=
  if o = 0x08 then writePtReq v s else if o = 0x0C then writeCap v s else if o = 0x28 then writeThermCfg v s else s

/-- LRK writes (02 Tables 2.7 to 2.9). -/
def writeLrk (o v : Nat) (s : State) : State :=
  if o = 0x00 then nextOf s (execLrkCtlWrite (BitVec.ofNat 32 v) s)
  else if o = 0x08 then onLark (fun l => { l with refLost := l.refLost && !bitOf v 2, ppsLost := l.ppsLost && !bitOf v 3 }) s
  else if o = 0x1C then
    if bits v 0 16 = 0 ∨ 500 < bits v 0 16 then discardWrite 0x1101C s else onLark (fun l => { l with slew := bits v 0 16 }) s
  else if o = 0x200 then nextOf s (execLrkSnap (BitVec.ofNat 32 v) s)
  else match indexed 0x100 8 16 o with
    | some n => writeBeatCfg n (BitVec.ofNat 32 v) s
    | none => s

/-- LRK_STEP (02 Table 2.9): whole, or the low half and then the high half, which acts. -/
def writeStep (h : Half) (v : BitVec 64) (s : State) : State :=
  match h with
  | .whole => nextOf s (execLrkStep v s)
  | .low => onLark (fun l => { l with stepLo := v.extractLsb' 0 32 }) s
  | .high => nextOf s (execLrkStep (v.extractLsb' 0 32 ++ s.lark.stepLo) s)

/-- QTD_CFG (14 Table 14.5). -/
def writeQtd (o v : Nat) (s : State) : State :=
  if o = 0 then onQtd (fun q => { q with bootServe := bitOf v 0, mgrElig := bitOf v 1, skewLim := bits v 16 16 }) s else s

/-- RBN writes: the boot mailbox (04 Table 4.8). -/
def writeRbn (o v : Nat) (s : State) : State :=
  if o = 0x400 then (if bitOf v 0 then nextOf s (execBootMbxGo s) else s)
  else if o = 0x404 then onBoot (fun b => { b with mbxLen := v % 2 ^ 32 }) s
  else s

/-- The three address registers of an admin queue: discarded while EN is 1 (05 R380). -/
def writeAdmqAddr (f : Fn) (a : Admq) (o off : Nat) (v : Nat) (s : State) : State :=
  if a.en then discardWrite off s
  else if o = 0x08 then putAdmq f { a with sq := BitVec.ofNat 64 (v / 4096 * 4096) } s
  else if o = 0x10 then putAdmq f { a with cq := BitVec.ofNat 64 (v / 4096 * 4096) } s
  else putAdmq f { a with cnt := BitVec.ofNat 64 (v / 8 * 8) } s

/-- An admin-queue register written. -/
def writeAdmqReg (f : Fn) (a : Admq) (o off v : Nat) (s : State) : State :=
  if o = 0 then writeAdmq f a v s else if o ≤ 0x18 then writeAdmqAddr f a o off v s else s

/-- DNK writes (05 Table 5.8, 06 Table 6.11). -/
def writeDnk (o v : Nat) (s : State) : State :=
  if o = 0x40 then onHost (fun h => { h with hpoolBase := BitVec.ofNat 64 (v / 2097152 * 2097152) }) s
  else if o = 0x48 then nextOf s (execDnkHpoolLenWrite (BitVec.ofNat 64 v) s)
  else writeAdmqReg .pf s.host.admq o (0x30000 + o) v s

/-- SKN_CTL and SKN_FLOOD_CFG (13 Table 13.7). -/
def writeSkn (o v : Nat) (s : State) : State :=
  if o = 0xF000 then
    if bits v 16 8 = 0 ∨ 100 < bits v 16 8 then discardWrite 0x6F000 s
    else { s with floodDc := BitVec.ofNat 16 v, floodEnv := BitVec.ofNat 8 (bits v 16 8) }
  else if o % 0x400 ≠ 0 then s
  else if 500 < bits v 3 9 ∨ bits v 12 5 < 14 ∨ 30 < bits v 12 5 then discardWrite (0x60000 + o) s
  else modSkn (o / 0x400) (fun w => { w with
    en := bitOf v 0
    roostEn := bitOf v 1
    demand := bitOf v 2
    hold := bits v 3 9
    roostK := bits v 12 5 }) s

/-- LNT_PORT_STATUS and LNT_SESS_CFG (12 Table 12.10). -/
def writeLnt (o v : Nat) (s : State) : State :=
  if o = 0x40 then
    if bits v 16 16 = 0 ∨ 3600 < bits v 16 16 ∨ (bitOf v 0 ∧ s.host.shared) then discardWrite 0x80040 s
    else onLnt (fun l => { l with sessHost := bitOf v 0, idle := bits v 16 16 }) s
  else if o % 0x10000 = 0 ∧ bitOf v 2 then modEth (o / 0x10000) (fun e => { e with expired := false }) s
  else s

/-- STL_WSTAT (10 Table 10.7). -/
def writeStl (o v : Nat) (s : State) : State :=
  match indexed 0x10000 0x40 (wrenCount s) o with
  | some w => modWren w (fun x => { x with
      sExh := x.sExh && !bitOf v 8
      sTl := x.sTl && !bitOf v 9
      sBl := x.sBl && !bitOf v 10
      sNan := x.sNan && !bitOf v 11 }) s
  | none => s

/-- THK_STATUS (09 Table 9.15). -/
def writeThk (o v : Nat) (s : State) : State :=
  if o % 0x1000 = 8 ∧ bitOf v 2 then modThk (o / 0x1000) (fun t => { t with semSat := false }) s else s

/-- The mailbox window (04 R66; 19 Edges: discarded while BUSY is set). -/
def writeMbx (a v : Nat) (s : State) : State :=
  if s.boot.mbxBusy then s
  else onBoot (fun b => { b with mbx := (List.range 8).foldl (fun m i => tabPut 0 m (a + i) (BitVec.ofNat 8 (v / 256 ^ i))) b.mbx }) s

/-- A whole value written to the register that starts at an offset. -/
def writeWhole (o v : Nat) (s : State) : State :=
  match (hscAt s o).bind fun h => (hscSlot h o).map fun k => (h, k) with
  | some x => hscWrite x.1 x.2 o v s
  | none =>
    if o < 0x10000 then writeGlb o v s
    else if o < 0x11000 then writePwr (o - 0x10000) v s
    else if o < 0x12000 then writeLrk (o - 0x11000) v s
    else if o < 0x13000 then s
    else if o < 0x14000 then writeQtd (o - 0x13000) v s
    else if o < 0x20000 then s
    else if o < 0x30000 then writeRbn (o - 0x20000) v s
    else if o < 0x50000 then writeDnk (o - 0x30000) v s
    else if o < 0x60000 then s
    else if o < 0x70000 then writeSkn (o - 0x60000) v s
    else if o < 0xD0000 then writeLnt (o - 0x80000) v s
    else if o < 0x140000 then writeStl (o - 0x100000) v s
    else if o < 0x180000 then s
    else if o < 0x1C0000 then writeThk (o - 0x180000) v s
    else writeMbx (o - 0x1000000) v s

/-- The whole value that a write of a half stands for: an RW register keeps its other half, a W1C register gets zeros there. -/
def mergeHalf (r : Reg) (h : Half) (v : Nat) : Nat :=
  match h with
  | .whole => v % 2 ^ (8 * r.bytes)
  | .low => v % 2 ^ 32 + (if r.kind = .rw then r.val / 2 ^ 32 * 2 ^ 32 else 0)
  | .high => v % 2 ^ 32 * 2 ^ 32 + (if r.kind = .rw then r.val % 2 ^ 32 else 0)

/-- A write to registers that a lookup gives; RO and RC registers keep their value. -/
def writeFrom (look : Nat → Option Reg) (put : Nat → Nat → State → State) (o width : Nat) (v : BitVec 64) (s : State) : State :=
  match touched look o width with
  | none => s
  | some (base, r) => match halfOf r base o width with
    | none => widthError o s
    | some h =>
      if r.kind = .ro ∨ r.kind = .rc then s
      else if r.kind = .wo ∧ r.bytes = 8 then writeStep h v s
      else put base (mergeHalf r h v.toNat) s

/-- A write inside a doorbell page. -/
def writeKq (f : Fn) (o width : Nat) (v : BitVec 64) (s : State) : State :=
  let q := (o - 0x400000) / 64
  let base := 0x400000 + 64 * q
  if !queueLive s q || !mayReach f (queueFn s q) then foreignAccess f s
  else writeFrom (fun a => if base ≤ a ∧ a < base + 64 then kqReg s q (a - base) else none)
    (fun a v s => if a = base then nextOf s (execDoorbell f q (BitVec.ofNat 32 v) s) else nextOf s (execStatusRelease f q (BitVec.ofNat 32 v) s))
    o width v s

/-- A write inside a queue-pair page other than a post: OVERRUN is W1C. -/
def writeQpPage (f : Fn) (o width : Nat) (v : BitVec 64) (s : State) : State :=
  let base := 0x10000000 + (o - 0x10000000) / 4096 * 4096
  let n := qpOfPage s ((o - 0x10000000) / 4096)
  let a := o - base
  if !qpReach f n s then foreignAccess f s
  else if a < 0x40 ∨ (0x80 ≤ a ∧ a < 0xA0) ∨ (0xC0 ≤ a ∧ a < 0xE0) then widthError o s
  else writeFrom (fun b => if b = base + 0x40 then wc8 (qpStat (getQp s n)) else none)
    (fun _ v s => if bitOf v 16 then modQp n (fun q => { q with overrun := false }) s else s) o width v s

/-- A register write by a function. -/
def writeAccess (f : Fn) (off width : Nat) (v : BitVec 64) (s : State) : State :=
  if !regsOpen s then s
  else match placeOf s f off with
    | .none => s
    | .vfr n o =>
      writeFrom (vfReg s n) (fun b v s => match admqOf s (.vf n) with | some a => writeAdmqReg (.vf n) a b b v s | none => s) o width v s
    | .reg o =>
      if findsDark s o then onGlb (fun g => { g with dark := true }) s
      else if 0x400000 ≤ o ∧ o < 0x800000 then writeKq f o width v s
      else if 0x10000000 ≤ o then writeQpPage f o width v s
      else writeFrom (regAt s) writeWhole o width v s

/-- 19 R362: a write to any register. -/
def execRegisterWrite (f : Fn) (off width : Nat) (v : BitVec 64) (s : State) : Res := .next (writeAccess f off width v s)

end Sys2Proof.Machine
end

