-- ==== Sys2Proof/Machine/Dispatch.lean ====
section
/-! DEFINITION. exec: one arm for each command, in the order of the operation table; each arm calls the command's own meaning. -/

namespace Sys2Proof.Machine

def exec (i : Instr) (s : State) : Host.Outcome State Fault Refusal :=
  match i with
  | .vinOn => Sys2Proof.Machine.execVinOn s
  | .strapLatch samples => Sys2Proof.Machine.execStrapLatch samples s
  | .vinLow => Sys2Proof.Machine.execVinLow s
  | .vinLowClear => Sys2Proof.Machine.execVinLowClear s
  | .vinUv also => Sys2Proof.Machine.execVinUv also s
  | .vinOv also => Sys2Proof.Machine.execVinOv also s
  | .thermalAnalogStop also => Sys2Proof.Machine.execThermalAnalogStop also s
  | .removal also => Sys2Proof.Machine.execRemoval also s
  | .matedReturnStop => Sys2Proof.Machine.execMatedReturnStop s
  | .modLatchOpen => Sys2Proof.Machine.execModLatchOpen s
  | .carPwrEnLow held => Sys2Proof.Machine.execCarPwrEnLow held s
  | .coldResetPin also => Sys2Proof.Machine.execColdResetPin also s
  | .coldResetRelease => Sys2Proof.Machine.execColdResetRelease s
  | .prochotLow => Sys2Proof.Machine.execProchotLow s
  | .prochotReleaseSample low => Sys2Proof.Machine.execProchotReleaseSample low s
  | .thermalWarn tj sensor => Sys2Proof.Machine.execThermalWarn tj sensor s
  | .throttlePeriod tj sensor => Sys2Proof.Machine.execThrottlePeriod tj sensor s
  | .throttleRecovery tj sensor => Sys2Proof.Machine.execThrottleRecovery tj sensor s
  | .pointChangeSettled => Sys2Proof.Machine.execPointChangeSettled s
  | .critTrip tj sensor => Sys2Proof.Machine.execCritTrip tj sensor s
  | .hbmStackLimit stack temp => Sys2Proof.Machine.execHbmStackLimit stack temp s
  | .powerWindow mean vin => Sys2Proof.Machine.execPowerWindow mean vin s
  | .powerCeilingRise => Sys2Proof.Machine.execPowerCeilingRise s
  | .runToIdle => Sys2Proof.Machine.execRunToIdle s
  | .powerTransitionDone => Sys2Proof.Machine.execPowerTransitionDone s
  | .warmResetPin => Sys2Proof.Machine.execWarmResetPin s
  | .warmResetScrubDone => Sys2Proof.Machine.execWarmResetScrubDone s
  | .functionLevelReset f => Sys2Proof.Machine.execFunctionLevelReset f s
  | .vfEnableWrite value num => Sys2Proof.Machine.execVfEnableWrite value num s
  | .bootSequence => Sys2Proof.Machine.execBootSequence s
  | .firmwareReady => Sys2Proof.Machine.execFirmwareReady s
  | .bootMbxGo => Sys2Proof.Machine.execBootMbxGo s
  | .fabricBootRequest => Sys2Proof.Machine.execFabricBootRequest s
  | .fabricBootTimeout => Sys2Proof.Machine.execFabricBootTimeout s
  | .debugHold => Sys2Proof.Machine.execDebugHold s
  | .debugUnlockToken tok => Sys2Proof.Machine.execDebugUnlockToken tok s
  | .debugHoldTimeout => Sys2Proof.Machine.execDebugHoldTimeout s
  | .recoveryMessage msg => Sys2Proof.Machine.execRecoveryMessage msg s
  | .replicaOverrun unit w => Sys2Proof.Machine.execReplicaOverrun unit w s
  | .counterWrap blk inst slot => Sys2Proof.Machine.execCounterWrap blk inst slot s
  | .lrkSnap v => Sys2Proof.Machine.execLrkSnap v s
  | .ppsMeasurement => Sys2Proof.Machine.execPpsMeasurement s
  | .ptpSyncExchange offset => Sys2Proof.Machine.execPtpSyncExchange offset s
  | .slewLocked => Sys2Proof.Machine.execSlewLocked s
  | .lrkCtlWrite v => Sys2Proof.Machine.execLrkCtlWrite v s
  | .lrkStep v => Sys2Proof.Machine.execLrkStep v s
  | .referenceLoss => Sys2Proof.Machine.execReferenceLoss s
  | .holdoverReselect => Sys2Proof.Machine.execHoldoverReselect s
  | .referenceReturn => Sys2Proof.Machine.execReferenceReturn s
  | .ptpSyncLoss => Sys2Proof.Machine.execPtpSyncLoss s
  | .ppsOutRise => Sys2Proof.Machine.execPpsOutRise s
  | .ppsOutFall => Sys2Proof.Machine.execPpsOutFall s
  | .beatFire n => Sys2Proof.Machine.execBeatFire n s
  | .lrkBeatCfgWrite n v => Sys2Proof.Machine.execLrkBeatCfgWrite n v s
  | .doorbell f q v => Sys2Proof.Machine.execDoorbell f q v s
  | .statusRelease f q v => Sys2Proof.Machine.execStatusRelease f q v s
  | .kcpFetch q => Sys2Proof.Machine.execKcpFetch q s
  | .waitMet q => Sys2Proof.Machine.execWaitMet q s
  | .startTimeout q => Sys2Proof.Machine.execStartTimeout q s
  | .admqCtlWrite f v => Sys2Proof.Machine.execAdmqCtlWrite f v s
  | .nop q => Sys2Proof.Machine.execNop q s
  | .getInfo q => Sys2Proof.Machine.execGetInfo q s
  | .setPowerState q => Sys2Proof.Machine.execSetPowerState q s
  | .setPoint q => Sys2Proof.Machine.execSetPoint q s
  | .setPowerCap q => Sys2Proof.Machine.execSetPowerCap q s
  | .reset q => Sys2Proof.Machine.execReset q s
  | .raiseSvnFloor q => Sys2Proof.Machine.execRaiseSvnFloor q s
  | .fwUpdate q => Sys2Proof.Machine.execFwUpdate q s
  | .setTenancy q => Sys2Proof.Machine.execSetTenancy q s
  | .setHostMode q => Sys2Proof.Machine.execSetHostMode q s
  | .ctxCreate q => Sys2Proof.Machine.execCtxCreate q s
  | .ctxDestroy q => Sys2Proof.Machine.execCtxDestroy q s
  | .ctxReset q => Sys2Proof.Machine.execCtxReset q s
  | .engineAck c e => Sys2Proof.Machine.execEngineAck c e s
  | .engineAckTimeout c e => Sys2Proof.Machine.execEngineAckTimeout c e s
  | .contextScrubDone c => Sys2Proof.Machine.execContextScrubDone c s
  | .ctxQuery q => Sys2Proof.Machine.execCtxQuery q s
  | .queueCreate q => Sys2Proof.Machine.execQueueCreate q s
  | .queueDestroy q => Sys2Proof.Machine.execQueueDestroy q s
  | .queueReset q => Sys2Proof.Machine.execQueueReset q s
  | .objRelease q => Sys2Proof.Machine.execObjRelease q s
  | .faultResume q => Sys2Proof.Machine.execFaultResume q s
  | .memAlloc q => Sys2Proof.Machine.execMemAlloc q s
  | .memFree q => Sys2Proof.Machine.execMemFree q s
  | .memMap q => Sys2Proof.Machine.execMemMap q s
  | .memUnmap q => Sys2Proof.Machine.execMemUnmap q s
  | .winOpen q => Sys2Proof.Machine.execWinOpen q s
  | .winRevoke q => Sys2Proof.Machine.execWinRevoke q s
  | .memCopy q => Sys2Proof.Machine.execMemCopy q s
  | .memFill q => Sys2Proof.Machine.execMemFill q s
  | .dmaCopy q => Sys2Proof.Machine.execDmaCopy q s
  | .dmaFill q => Sys2Proof.Machine.execDmaFill q s
  | .dmaMarker q => Sys2Proof.Machine.execDmaMarker q s
  | .keyLoad q => Sys2Proof.Machine.execKeyLoad q s
  | .keyEvict q => Sys2Proof.Machine.execKeyEvict q s
  | .keyDerive q => Sys2Proof.Machine.execKeyDerive q s
  | .keyWrap q => Sys2Proof.Machine.execKeyWrap q s
  | .keyStage q => Sys2Proof.Machine.execKeyStage q s
  | .keyCommit q => Sys2Proof.Machine.execKeyCommit q s
  | .keyOldReleased slot => Sys2Proof.Machine.execKeyOldReleased slot s
  | .keyUpdate q => Sys2Proof.Machine.execKeyUpdate q s
  | .keyQuery q => Sys2Proof.Machine.execKeyQuery q s
  | .reportPlatform q => Sys2Proof.Machine.execReportPlatform q s
  | .reportContext q => Sys2Proof.Machine.execReportContext q s
  | .measLogRead q => Sys2Proof.Machine.execMeasLogRead q s
  | .certRead q => Sys2Proof.Machine.execCertRead q s
  | .progLoad q => Sys2Proof.Machine.execProgLoad q s
  | .progUnload q => Sys2Proof.Machine.execProgUnload q s
  | .progRun q => Sys2Proof.Machine.execProgRun q s
  | .launch q => Sys2Proof.Machine.execLaunch q s
  | .launchMarker q => Sys2Proof.Machine.execLaunchMarker q s
  | .runStart r => Sys2Proof.Machine.execRunStart r s
  | .runStalled r => Sys2Proof.Machine.execRunStalled r s
  | .stallExamination => Sys2Proof.Machine.execStallExamination s
  | .modelLoad q => Sys2Proof.Machine.execModelLoad q s
  | .modelUnload q => Sys2Proof.Machine.execModelUnload q s
  | .modelQuery q => Sys2Proof.Machine.execModelQuery q s
  | .roundCreate q => Sys2Proof.Machine.execRoundCreate q s
  | .roundJoin q => Sys2Proof.Machine.execRoundJoin q s
  | .roundStart q => Sys2Proof.Machine.execRoundStart q s
  | .roundAbort q => Sys2Proof.Machine.execRoundAbort q s
  | .roundStatus q => Sys2Proof.Machine.execRoundStatus q s
  | .roundResult q => Sys2Proof.Machine.execRoundResult q s
  | .setFloor q => Sys2Proof.Machine.execSetFloor q s
  | .sessionListen q => Sys2Proof.Machine.execSessionListen q s
  | .listenClose q => Sys2Proof.Machine.execListenClose q s
  | .sessionQuery q => Sys2Proof.Machine.execSessionQuery q s
  | .sessionEvict q => Sys2Proof.Machine.execSessionEvict q s
  | .qpCreate q => Sys2Proof.Machine.execQpCreate q s
  | .qpModify q => Sys2Proof.Machine.execQpModify q s
  | .qpDestroy q => Sys2Proof.Machine.execQpDestroy q s
  | .portConfig q => Sys2Proof.Machine.execPortConfig q s
  | .ccConfig q => Sys2Proof.Machine.execCcConfig q s
  | .fabricStatus q => Sys2Proof.Machine.execFabricStatus q s
  | .sliceCreate q => Sys2Proof.Machine.execSliceCreate q s
  | .sliceDestroy q => Sys2Proof.Machine.execSliceDestroy q s
  | .linkConfig q => Sys2Proof.Machine.execLinkConfig q s
  | .laneRelease q => Sys2Proof.Machine.execLaneRelease q s
  | .fabricDrain q => Sys2Proof.Machine.execFabricDrain q s
  | .wblTableLoad q => Sys2Proof.Machine.execWblTableLoad q s
  | .wblTableUnload q => Sys2Proof.Machine.execWblTableUnload q s
  | .wblStreamOpen q => Sys2Proof.Machine.execWblStreamOpen q s
  | .wblStreamClose q => Sys2Proof.Machine.execWblStreamClose q s
  | .wblNormalize q => Sys2Proof.Machine.execWblNormalize q s
  | .timeRead q => Sys2Proof.Machine.execTimeRead q s
  | .timeConfig q => Sys2Proof.Machine.execTimeConfig q s
  | .beatArm q => Sys2Proof.Machine.execBeatArm q s
  | .beatDisarm q => Sys2Proof.Machine.execBeatDisarm q s
  | .wallOffsetSet q => Sys2Proof.Machine.execWallOffsetSet q s
  | .periodClose q => Sys2Proof.Machine.execPeriodClose q s
  | .periodCloseTakesEffect => Sys2Proof.Machine.execPeriodCloseTakesEffect s
  | .meterRead q => Sys2Proof.Machine.execMeterRead q s
  | .eventLogRead q => Sys2Proof.Machine.execEventLogRead q s
  | .counterSelect q => Sys2Proof.Machine.execCounterSelect q s
  | .snapshot q => Sys2Proof.Machine.execSnapshot q s
  | .unitStatus q => Sys2Proof.Machine.execUnitStatus q s
  | .unitRelease q => Sys2Proof.Machine.execUnitRelease q s
  | .unitReleaseCheck unit dataPath robin => Sys2Proof.Machine.execUnitReleaseCheck unit dataPath robin s
  | .unitDisagreement unit dataPath robin => Sys2Proof.Machine.execUnitDisagreement unit dataPath robin s
  | .echo q => Sys2Proof.Machine.execEcho q s
  | .mctpKcp pkt => Sys2Proof.Machine.execMctpKcp pkt s
  | .pldmBaseDiscovery => Sys2Proof.Machine.execPldmBaseDiscovery s
  | .pldmSensorRead sensor => Sys2Proof.Machine.execPldmSensorRead sensor s
  | .pldmFwUpdate ph => Sys2Proof.Machine.execPldmFwUpdate ph s
  | .getVersion => Sys2Proof.Machine.execGetVersion s
  | .getCapabilities => Sys2Proof.Machine.execGetCapabilities s
  | .negotiateAlgorithms => Sys2Proof.Machine.execNegotiateAlgorithms s
  | .getDigests => Sys2Proof.Machine.execGetDigests s
  | .getCertificate offset len => Sys2Proof.Machine.execGetCertificate offset len s
  | .challenge nonce => Sys2Proof.Machine.execChallenge nonce s
  | .getMeasurements index nonce => Sys2Proof.Machine.execGetMeasurements index nonce s
  | .timeShareSlot unit => Sys2Proof.Machine.execTimeShareSlot unit s
  | .partitionScrubDone p => Sys2Proof.Machine.execPartitionScrubDone p s
  | .wrenNop w => Sys2Proof.Machine.execWrenNop w s
  | .endRun w => Sys2Proof.Machine.execEndRun w s
  | .br w => Sys2Proof.Machine.execBr w s
  | .loop w => Sys2Proof.Machine.execLoop w s
  | .add w => Sys2Proof.Machine.execAdd w s
  | .sub w => Sys2Proof.Machine.execSub w s
  | .and w => Sys2Proof.Machine.execAnd w s
  | .or w => Sys2Proof.Machine.execOr w s
  | .xor w => Sys2Proof.Machine.execXor w s
  | .shl w => Sys2Proof.Machine.execShl w s
  | .shr w => Sys2Proof.Machine.execShr w s
  | .mul w => Sys2Proof.Machine.execMul w s
  | .cmpeq w => Sys2Proof.Machine.execCmpeq w s
  | .cmpltu w => Sys2Proof.Machine.execCmpltu w s
  | .cmplts w => Sys2Proof.Machine.execCmplts w s
  | .mov w => Sys2Proof.Machine.execMov w s
  | .rdarg w => Sys2Proof.Machine.execRdarg w s
  | .rdtime w => Sys2Proof.Machine.execRdtime w s
  | .move w => Sys2Proof.Machine.execMove w s
  | .peer w => Sys2Proof.Machine.execPeer w s
  | .fill w => Sys2Proof.Machine.execFill w s
  | .wrenAsyncComplete w k => Sys2Proof.Machine.execWrenAsyncComplete w k s
  | .peerPlaced w tag => Sys2Proof.Machine.execPeerPlaced w tag s
  | .peerTimeout w => Sys2Proof.Machine.execPeerTimeout w s
  | .wld w => Sys2Proof.Machine.execWld w s
  | .wswap w => Sys2Proof.Machine.execWswap w s
  | .mma w => Sys2Proof.Machine.execMma w s
  | .vadd w => Sys2Proof.Machine.execVadd w s
  | .preload w => Sys2Proof.Machine.execPreload w s
  | .tread w => Sys2Proof.Machine.execTread w s
  | .twrite w => Sys2Proof.Machine.execTwrite w s
  | .topk w => Sys2Proof.Machine.execTopk w s
  | .maxi w => Sys2Proof.Machine.execMaxi w s
  | .mini w => Sys2Proof.Machine.execMini w s
  | .combine w => Sys2Proof.Machine.execCombine w s
  | .madd w => Sys2Proof.Machine.execMadd w s
  | .msub w => Sys2Proof.Machine.execMsub w s
  | .mmul w => Sys2Proof.Machine.execMmul w s
  | .mmac w => Sys2Proof.Machine.execMmac w s
  | .mscal w => Sys2Proof.Machine.execMscal w s
  | .ntt w => Sys2Proof.Machine.execNtt w s
  | .intt w => Sys2Proof.Machine.execIntt w s
  | .plift w => Sys2Proof.Machine.execPlift w s
  | .sample w => Sys2Proof.Machine.execSample w s
  | .modsw w => Sys2Proof.Machine.execModsw w s
  | .ksw w => Sys2Proof.Machine.execKsw w s
  | .extract w => Sys2Proof.Machine.execExtract w s
  | .pdec w => Sys2Proof.Machine.execPdec w s
  | .semwait w => Sys2Proof.Machine.execSemwait w s
  | .semsig w => Sys2Proof.Machine.execSemsig w s
  | .bar w => Sys2Proof.Machine.execBar w s
  | .cwait w => Sys2Proof.Machine.execCwait w s
  | .bwait w => Sys2Proof.Machine.execBwait w s
  | .arrwait w => Sys2Proof.Machine.execArrwait w s
  | .eventWaitTimeout w => Sys2Proof.Machine.execEventWaitTimeout w s
  | .rsv w => Sys2Proof.Machine.execRsv w s
  | .rls w => Sys2Proof.Machine.execRls w s
  | .fence w => Sys2Proof.Machine.execFence w s
  | .eng w => Sys2Proof.Machine.execEng w s
  | .mask w => Sys2Proof.Machine.execMask w s
  | .gateAnd w => Sys2Proof.Machine.execGateAnd w s
  | .gateOr w => Sys2Proof.Machine.execGateOr w s
  | .gateNand w => Sys2Proof.Machine.execGateNand w s
  | .gateNor w => Sys2Proof.Machine.execGateNor w s
  | .gateXor w => Sys2Proof.Machine.execGateXor w s
  | .gateXnor w => Sys2Proof.Machine.execGateXnor w s
  | .andny w => Sys2Proof.Machine.execAndny w s
  | .orny w => Sys2Proof.Machine.execOrny w s
  | .gateMux w => Sys2Proof.Machine.execGateMux w s
  | .gateNot w => Sys2Proof.Machine.execGateNot w s
  | .gateCopy w => Sys2Proof.Machine.execGateCopy w s
  | .switchBits w => Sys2Proof.Machine.execSwitchBits w s
  | .wblByte w => Sys2Proof.Machine.execWblByte w s
  | .wblEnd w => Sys2Proof.Machine.execWblEnd w s
  | .wblPad w => Sys2Proof.Machine.execWblPad w s
  | .wblRestart w => Sys2Proof.Machine.execWblRestart w s
  | .ingressRowAdd w tile fmt row => Sys2Proof.Machine.execIngressRowAdd w tile fmt row s
  | .ethLinkDown e => Sys2Proof.Machine.execEthLinkDown e s
  | .ethLinkUp e => Sys2Proof.Machine.execEthLinkUp e s
  | .ethHoldExpiry e => Sys2Proof.Machine.execEthHoldExpiry e s
  | .icmpv6Echo e src dst body => Sys2Proof.Machine.execIcmpv6Echo e src dst body s
  | .neighbourSolicitation e src target => Sys2Proof.Machine.execNeighbourSolicitation e src target s
  | .routerAdvertisement e router => Sys2Proof.Machine.execRouterAdvertisement e router s
  | .sHello p => Sys2Proof.Machine.execSHello p s
  | .sData p => Sys2Proof.Machine.execSData p s
  | .sClose p => Sys2Proof.Machine.execSClose p s
  | .sessionIdleTimeout k => Sys2Proof.Machine.execSessionIdleTimeout k s
  | .coldSessionFetch k => Sys2Proof.Machine.execColdSessionFetch k s
  | .postWrite f qp d => Sys2Proof.Machine.execPostWrite f qp d s
  | .postWriteImm f qp d => Sys2Proof.Machine.execPostWriteImm f qp d s
  | .postRead f qp d => Sys2Proof.Machine.execPostRead f qp d s
  | .postFlush f qp d => Sys2Proof.Machine.execPostFlush f qp d s
  | .postAccWrite f qp d => Sys2Proof.Machine.execPostAccWrite f qp d s
  | .rxWrite p => Sys2Proof.Machine.execRxWrite p s
  | .writeImm p => Sys2Proof.Machine.execWriteImm p s
  | .readReq p => Sys2Proof.Machine.execReadReq p s
  | .readResp p => Sys2Proof.Machine.execReadResp p s
  | .flush p => Sys2Proof.Machine.execFlush p s
  | .accWrite p => Sys2Proof.Machine.execAccWrite p s
  | .ack p => Sys2Proof.Machine.execAck p s
  | .nakSequence p => Sys2Proof.Machine.execNakSequence p s
  | .nakAccess p => Sys2Proof.Machine.execNakAccess p s
  | .nakStalled p => Sys2Proof.Machine.execNakStalled p s
  | .nakReceiveFull p => Sys2Proof.Machine.execNakReceiveFull p s
  | .nakGroup p => Sys2Proof.Machine.execNakGroup p s
  | .nakMemoryError p => Sys2Proof.Machine.execNakMemoryError p s
  | .notReady p => Sys2Proof.Machine.execNotReady p s
  | .notReadyResend qp => Sys2Proof.Machine.execNotReadyResend qp s
  | .stallNakTimer qp => Sys2Proof.Machine.execStallNakTimer qp s
  | .retransmitTimeout qp => Sys2Proof.Machine.execRetransmitTimeout qp s
  | .receiveFullResend qp => Sys2Proof.Machine.execReceiveFullResend qp s
  | .connect p => Sys2Proof.Machine.execConnect p s
  | .connectRetry qp => Sys2Proof.Machine.execConnectRetry qp s
  | .accept p => Sys2Proof.Machine.execAccept p s
  | .confirm p => Sys2Proof.Machine.execConfirm p s
  | .provisionalBindTimeout qp => Sys2Proof.Machine.execProvisionalBindTimeout qp s
  | .reject p => Sys2Proof.Machine.execReject p s
  | .terminate p => Sys2Proof.Machine.execTerminate p s
  | .lntQpCqRead f qp width => Sys2Proof.Machine.execLntQpCqRead f qp width s
  | .lntQpRqRead f qp width => Sys2Proof.Machine.execLntQpRqRead f qp width s
  | .linkTraining n r => Sys2Proof.Machine.execLinkTraining n r s
  | .detectRetry n r => Sys2Proof.Machine.execDetectRetry n r s
  | .dataFrame n fr => Sys2Proof.Machine.execDataFrame n fr s
  | .replayTimeout n => Sys2Proof.Machine.execReplayTimeout n s
  | .linkDown n => Sys2Proof.Machine.execLinkDown n s
  | .laneDrop n lane => Sys2Proof.Machine.execLaneDrop n lane s
  | .laneAdd n lane => Sys2Proof.Machine.execLaneAdd n lane s
  | .laneClearReadmit n lane => Sys2Proof.Machine.execLaneClearReadmit n lane s
  | .laneLockLoss n lane => Sys2Proof.Machine.execLaneLockLoss n lane s
  | .laneErrorRate n lane => Sys2Proof.Machine.execLaneErrorRate n lane s
  | .floodDcTrip n lane => Sys2Proof.Machine.execFloodDcTrip n lane s
  | .floodEnvelopeTrip n lane => Sys2Proof.Machine.execFloodEnvelopeTrip n lane s
  | .floodQuarantine n lane => Sys2Proof.Machine.execFloodQuarantine n lane s
  | .siskinLinkLoss n => Sys2Proof.Machine.execSiskinLinkLoss n s
  | .siskinHoldExpiry n => Sys2Proof.Machine.execSiskinHoldExpiry n s
  | .roostReq n k => Sys2Proof.Machine.execRoostReq n k s
  | .roostAck n => Sys2Proof.Machine.execRoostAck n s
  | .roostIdle n => Sys2Proof.Machine.execRoostIdle n s
  | .roostWake n seen => Sys2Proof.Machine.execRoostWake n seen s
  | .wake n partnerActive lane => Sys2Proof.Machine.execWake n partnerActive lane s
  | .demandWake n => Sys2Proof.Machine.execDemandWake n s
  | .wakePatternHeard n offset => Sys2Proof.Machine.execWakePatternHeard n offset s
  | .dawnChorus n => Sys2Proof.Machine.execDawnChorus n s
  | .chorusTimeout n => Sys2Proof.Machine.execChorusTimeout n s
  | .status n lark => Sys2Proof.Machine.execStatus n lark s
  | .creditReturn n cls vc reserve shared => Sys2Proof.Machine.execCreditReturn n cls vc reserve shared s
  | .qtdForward p => Sys2Proof.Machine.execQtdForward p s
  | .qtdLinnet p => Sys2Proof.Machine.execQtdLinnet p s
  | .memWr p => Sys2Proof.Machine.execMemWr p s
  | .memRdReq p => Sys2Proof.Machine.execMemRdReq p s
  | .memRdResp p => Sys2Proof.Machine.execMemRdResp p s
  | .acc p => Sys2Proof.Machine.execAcc p s
  | .qtdPeer p => Sys2Proof.Machine.execQtdPeer p s
  | .fw p => Sys2Proof.Machine.execFw p s
  | .notice p => Sys2Proof.Machine.execNotice p s
  | .timeSync m => Sys2Proof.Machine.execTimeSync m s
  | .timeSyncPeriod m => Sys2Proof.Machine.execTimeSyncPeriod m s
  | .boot n => Sys2Proof.Machine.execBoot n s
  | .joinReport r => Sys2Proof.Machine.execJoinReport r s
  | .linkStateAdvertisement a => Sys2Proof.Machine.execLinkStateAdvertisement a s
  | .beacon lvl b => Sys2Proof.Machine.execBeacon lvl b s
  | .beaconSend lvl => Sys2Proof.Machine.execBeaconSend lvl s
  | .claimWaitExpiry lvl => Sys2Proof.Machine.execClaimWaitExpiry lvl s
  | .claim lvl b => Sys2Proof.Machine.execClaim lvl b s
  | .claimWindowEnd lvl => Sys2Proof.Machine.execClaimWindowEnd lvl s
  | .managerLoss lvl => Sys2Proof.Machine.execManagerLoss lvl s
  | .enrol sess m => Sys2Proof.Machine.execEnrol sess m s
  | .shares sess m => Sys2Proof.Machine.execShares sess m s
  | .vector sess m => Sys2Proof.Machine.execVector sess m s
  | .commit sess m => Sys2Proof.Machine.execCommit sess m s
  | .response sess m => Sys2Proof.Machine.execResponse sess m s
  | .norm sess m => Sys2Proof.Machine.execNorm sess m s
  | .partialDecryption rnd member data => Sys2Proof.Machine.execPartialDecryption rnd member data s
  | .roundPhaseEnd rnd => Sys2Proof.Machine.execRoundPhaseEnd rnd s
  | .unmask rnd => Sys2Proof.Machine.execUnmask rnd s
  | .publish rnd => Sys2Proof.Machine.execPublish rnd s
  | .workerLost rnd chip => Sys2Proof.Machine.execWorkerLost rnd chip s
  | .dnkHpoolLenWrite v => Sys2Proof.Machine.execDnkHpoolLenWrite v s
  | .pwrPtReqWrite v => Sys2Proof.Machine.execPwrPtReqWrite v s
  | .pwrCapWrite v => Sys2Proof.Machine.execPwrCapWrite v s
  | .pwrThermCfgWrite v => Sys2Proof.Machine.execPwrThermCfgWrite v s
  | .rcRead f off width => Sys2Proof.Machine.execRcRead f off width s
  | .halfReadLatch f off => Sys2Proof.Machine.execHalfReadLatch f off s
  | .registerWrite f off width v => Sys2Proof.Machine.execRegisterWrite f off width v s
  | .perstNRelease => Sys2Proof.Machine.execPerstNRelease s
  | .prochotHigh => Sys2Proof.Machine.execProchotHigh s
  | .atsInvalidation addr len => Sys2Proof.Machine.execAtsInvalidation addr len s
  | .fabricBootImage img => Sys2Proof.Machine.execFabricBootImage img s
  | .controlMessageRepeat n => Sys2Proof.Machine.execControlMessageRepeat n s

end Sys2Proof.Machine
end

