-- ==== Sys2Proof/Safety.lean ====
section
/-! DEFINITION. What counts as a safe state: the memories and the sparse tables of the chip keep their canonical form, so that equal contents are equal data. -/

namespace Sys2Proof.Machine

/-- The memories and the top-level tables keep their canonical form: rising numbers, no entry equal to what an unlisted number stands
for. -/
def State.tablesWf (s : State) : Bool :=
  Memory.wf s.mem && Memory.wf s.hostMem && tabWf Slot.init s.hsc && tabWf EvGroup.init s.evlog && tabWf Skn.init s.skn
    && tabWf UnitSt.init s.units && tabWf HbmPc.init s.hbmPc

end Sys2Proof.Machine
end

