-- ==== Sys2Proof/Certificates/Slice0/Obligations.lean ====
section
/-! DEFINITION. The statements about the model for the provers, one Prop for each; the conditions and expected results that several of them name stand before them. -/

namespace Sys2Proof.Machine

/-- The invariant: chip memory, host memory and the chip's sparse tables (counter slots, event log, links, units, pseudo-channels) are in
canonical form. -/
abbrev State.Inv (s : State) : Prop := s.tablesWf = true

/-- 02 R29: what a measurement of offset `off` leaves of Lark. -/
def Lark.measured (off : Int) (l : Lark) : Lark :=
  { l with offset := off, remaining := off * 100000000, ptpLost := false, state := if 100 < off.natAbs then 1 else 0 }

/-- A chip that is powered and not in a warm reset. -/
def State.up (s : State) : Prop := s.pwr.st ≠ .off ∧ s.pwr.warmBusy = false

/-- It is the turn of opcode `op` with packet `p` on queue `q`: the packet is fetched, its waits are over, the chip serves the queue and
the opcode in its power state, and a sealed packet has a usable result buffer (05 R90 to R94, R100; 07 R138). -/
def Turn (s : State) (q : QRef) (op : Nat) (p : Packet) : Prop :=
  startable s q = some p ∧ p.opcode = op ∧ p.started = false ∧ serves s q = true ∧ fenceMet s p = true ∧ darkRefusal s op = false ∧
    sealedBufErr s q p = none

/-- 03 R44, Table 4.1: the chip has stopped: Off, cold, with what a stop keeps. -/
def Stopped (s t : State) : Prop :=
  t.pwr.st = .off ∧ t.pwr.pins.pwrFaultN = false ∧ t.pwr.pins.pwrGood = false ∧ t.boot.fuses = s.boot.fuses ∧
    t.boot.flash = s.boot.flash ∧ t.mem = [] ∧ t.host = HostSt.init ∧ t.fab = Fab.init ∧ t.lnt = Lnt.init ∧ t.rnd = Rounds.init ∧
    t.nut = Nut.init ∧ t.hostMem = s.hostMem ∧ t.pending = s.pending

/-- 03 R47: the cause latch after a stop for `c`, with the other causes of the same period. -/
def Latched (s t : State) (c : StopCause) (also : List StopCause) : Prop :=
  if s.pwr.causeHeld then t.pwr.cause = s.pwr.cause
  else ∃ f, t.pwr.cause = some f ∧ f ∈ c :: also ∧ ∀ d ∈ c :: also, causeRank f ≤ causeRank d

/-- 04 R69: the eight checks of an image, as the boot ROM knows the fuses, the floor and the debug state. -/
def ImageOk (b : Boot) (floor : Nat) (img : List Byte) : Prop :=
  (field img 0 4 = 0x4B4C4657 ∧ field img 4 2 = 1) ∧
  (bits (field img 0xC 4) 1 31 = 0 ∧ ∀ x ∈ sub img 0x14 12 ++ sub img 0x861 31 ++ sub img 0x156D 3 ++ sub img 0x15D0 2608, x = 0) ∧
  (field img 6 2 ≤ 3 ∧ b.fuses.revoked.getLsbD (field img 6 2) = false) ∧
  sha384 (sub img 0x60 1952 ++ sub img 0x800 97) = b.fuses.rootDigest.getD (field img 6 2) [] ∧
  (Config.mldsaOk (sub img 0x60 1952) (sub img 0 0x880) (sub img 0x880 3309) = true ∧
    Config.p384Ok (sub img 0x800 97) (sub img 0 0x880) (sub img 0x1570 96) = true) ∧
  (1 ≤ field img 0x10 4 ∧ field img 0x10 4 ≤ 15720448 ∧ sha384 (sub img 0x2000 (field img 0x10 4)) = sub img 0x20 48) ∧
  floor ≤ field img 8 4 ∧
  (bitOf (field img 0xC 4) 0 = true → b.debugUnlocked = true)

/-- The boot ROM has accepted image `img` from source `src`: step 6 is done, identity is derived, Nuthatch has its roots. -/
def Accepted (img : List Byte) (src : Nat) (t : State) : Prop :=
  t.boot.stage = 1 ∧ t.boot.step = 6 ∧ t.boot.image = img ∧ t.boot.svn = field img 8 4 ∧ t.boot.src = BitVec.ofNat 2 src ∧
    t.boot.accClosed = true ∧ t.boot.deviceId = deviceIdOf t.boot.fuses ∧ t.nut.rootsReady = true

/-- The boot has halted (04 R67). -/
def Halted (code : Nat) (t : State) : Prop := t.boot.stage = 4 ∧ t.boot.code = code ∧ t.pwr.pins.mgmtAlertN = false

/-- What a completion of a host queue's command leaves of its queue (05 R84, R96, R98). -/
def Queue.completed (v : Queue) (e : DupEntry) : Queue :=
  { v with st := if v.st = .error then .error else .ready, cur := none, edge := none, fault := none, written := v.written + 1
           cnt := v.cnt + 1, dup := (v.dup ++ [e]).drop (v.dup.length + 1 - 64) }

/-- Slots other than `n`, and everything outside the slot table, are as before. -/
def OnlySlot (n : Nat) (s u : State) : Prop :=
  (∀ m, m ≠ n → getSlotK u m = getSlotK s m) ∧ u = { s with nut := { s.nut with slots := u.nut.slots } }

/-- Wren `w` stands at an instruction of class `cls` and operation `op` that its predicate does not skip (09 Tables 9.5, 9.6). -/
def Stands (s : State) (w cls op : Nat) (x : Site) : Prop :=
  siteOf s w = some x ∧ insClass x.insn = cls ∧ insOp x.insn = op ∧ skipped x s = false

/-- No run of the chip serves a board model (16, Serving run). -/
def NoServing (s : State) : Prop := ∀ r ∈ s.fab.runs, serving s r = false

/-- Every serving run of `s` has ended in `t` (01 R16). -/
def ServingEnded (s t : State) : Prop := ∀ r ∈ s.fab.runs, serving s r = true → ∀ x ∈ t.fab.runs, x.id ≠ r.id

/-- State `t` is `u` but for Wrens, runs, and the counter slots with their wrap events, alert and interrupts. -/
def WrenOnly (u t : State) : Prop :=
  t.fab = { u.fab with wrens := t.fab.wrens, runs := t.fab.runs } ∧ t.pwr = { u.pwr with pins := t.pwr.pins } ∧
    t = { u with fab := t.fab, pwr := t.pwr, hsc := t.hsc, evlog := t.evlog, glb := t.glb, out := t.out }

/-- State `t` is `u` with the instruction of site `x` retired and its Wren at `ix` with `loops` open: no other Wren changes, and the
run has retired one instruction more (09 R189, Table 9.16). -/
def Retires (x : Site) (ix : Nat) (loops : List LoopLvl) (u t : State) : Prop :=
  getWren t x.w = { getWren u x.w with ix := ix, loops := loops, block := 0, blockedAt := none } ∧
  (∀ v, v ≠ x.w → getWren t v = getWren u v) ∧ WrenOnly u t ∧
  t.fab.runs = u.fab.runs.map fun r => if r.id = x.run.id then { r with retired := r.retired + 1, stalled := false } else r

/-- The instruction of site `x` retires and its Wren moves past it, through the ends of loops (09 Table 9.6). -/
def Passed (x : Site) (u t : State) : Prop :=
  Retires x (nextIx (getWren u x.w).ix (getWren u x.w).loops).1 (nextIx (getWren u x.w).ix (getWren u x.w).loops).2 u t

/-- State `u` is `s` with scalar register `d` of Wren `w` written; SR[0] stays zero (09 R174). -/
def SrWritten (w d v : Nat) (s u : State) : Prop :=
  (∀ n, getSr u w n = if n = d ∧ d ≠ 0 then v % 2 ^ 64 else getSr s w n) ∧
    getWren u w = { getWren s w with sr := (getWren u w).sr } ∧ (∀ v, v ≠ w → getWren u v = getWren s v) ∧
    u = { s with fab := { s.fab with wrens := u.fab.wrens } }

/-- The Wren of site `x` waits, blocked with a code (09 Table 9.14); no other Wren, and nothing else, changes. -/
def Blocks (x : Site) (code : Nat) (s t : State) : Prop :=
  getWren t x.w = { getWren s x.w with block := code, blockedAt := if (getWren s x.w).block = code then (getWren s x.w).blockedAt else some s.lark.time } ∧
    (∀ v, v ≠ x.w → getWren t v = getWren s v) ∧ WrenOnly s t ∧ t.fab.runs = s.fab.runs

/-- The run of site `x` faults at its Wren (09 R188): its launch completes with the status and where, WRN_FAULT records it, the run
is gone, and its Wrens hold no run. -/
def Faulted (x : Site) (status : Nat) (s t : State) : Prop :=
  ∃ d u, t = completeRun x.run status d 0 (x.run.widx x.w + (getWren s x.w).ix * 2 ^ 16) u ∧ (getWren u x.w).faultStatus = status ∧
    (getWren u x.w).faultIx = (getWren s x.w).ix ∧ (∀ r ∈ u.fab.runs, r.id ≠ x.run.id) ∧ ∀ v ∈ x.run.wrens, (getWren u v).run = none

/-- The rows that a Wren runs, with CLASS and OP (09 Table 9.6, 10, 11, 17); several engine rows share one instruction. -/
def WrenRow (c : Nat → Instr) (cls op : Nat) : Prop :=
  cls = 0 ∧ (op = 0 ∧ c = .wrenNop ∨ op = 1 ∧ c = .endRun ∨ op = 2 ∧ c = .br ∨ op = 3 ∧ c = .loop) ∨
  cls = 1 ∧ (op = 1 ∧ c = .add ∨ op = 2 ∧ c = .sub ∨ op = 3 ∧ c = .and ∨ op = 4 ∧ c = .or ∨ op = 5 ∧ c = .xor ∨ op = 6 ∧ c = .shl ∨ op = 7 ∧ c = .shr ∨ op = 8 ∧ c = .mul ∨ op = 9 ∧ c = .cmpeq ∨ op = 0xA ∧ c = .cmpltu ∨ op = 0xB ∧ c = .cmplts ∨ op = 0xC ∧ c = .mov ∨ op = 0xD ∧ c = .rdarg ∨ op = 0xE ∧ c = .rdtime) ∨
  cls = 2 ∧ (op = 1 ∧ c = .move ∨ op = 2 ∧ c = .peer ∨ op = 3 ∧ c = .fill) ∨
  cls = 3 ∧ (op = 1 ∧ c = .wld ∨ op = 2 ∧ c = .wswap ∨ op = 3 ∧ c = .mma) ∨
  cls = 4 ∧ (op = 1 ∧ c = .vadd ∨ op = 2 ∧ c = .preload ∨ op = 3 ∧ c = .tread ∨ op = 4 ∧ c = .twrite ∨ op = 5 ∧ c = .topk ∨ op = 6 ∧ c = .maxi ∨ op = 7 ∧ c = .mini ∨ op = 8 ∧ c = .combine) ∨
  cls = 5 ∧ (op = 1 ∧ c = .madd ∨ op = 2 ∧ c = .msub ∨ op = 3 ∧ c = .mmul ∨ op = 4 ∧ c = .mmac ∨ op = 5 ∧ c = .mscal ∨ op = 6 ∧ c = .ntt ∨ op = 7 ∧ c = .intt ∨ op = 8 ∧ c = .plift ∨ op = 9 ∧ c = .sample ∨ op = 0xA ∧ c = .modsw ∨ op = 0xB ∧ c = .ksw ∨ op = 0xC ∧ c = .extract ∨ op = 0xD ∧ c = .pdec) ∨
  cls = 6 ∧ (op = 1 ∧ c = .semwait ∨ op = 2 ∧ c = .semsig ∨ op = 3 ∧ c = .bar ∨ op = 4 ∧ c = .cwait ∨ op = 5 ∧ c = .bwait ∨ op = 6 ∧ c = .arrwait ∨ op = 7 ∧ c = .rsv ∨ op = 8 ∧ c = .rls ∨ op = 9 ∧ c = .fence) ∨
  cls = 7 ∧ (op = 1 ∧ (c = .eng ∨ c = .gateAnd ∨ c = .gateOr ∨ c = .gateNand ∨ c = .gateNor ∨ c = .gateXor ∨ c = .gateXnor ∨ c = .andny ∨ c = .orny ∨ c = .gateMux ∨ c = .gateNot ∨ c = .gateCopy ∨ c = .switchBits ∨ c = .wblByte ∨ c = .wblEnd ∨ c = .wblPad ∨ c = .wblRestart) ∨ op = 2 ∧ c = .mask)

/-- The operands of a scalar instruction: SA, and SB or IMM64 (09 Table 9.7). -/
def opA (x : Site) (s : State) : Nat := getSr s x.w (bits x.insn 25 5)
def opB (x : Site) (s : State) : Nat := if bitOf x.insn 35 then bits x.insn 36 64 else getSr s x.w (bits x.insn 30 5)

/-- A scalar instruction writes this value to DST and retires. -/
def ScalarRule (c : Nat → Instr) (op : Nat) (val : Site → State → Nat) : Prop :=
  ∀ (s : State) (w : Nat) (x : Site), Stands s w 1 op x →
    ∃ u t, exec (c w) s = .next t ∧ SrWritten w (bits x.insn 20 5) (val x s) s u ∧ Passed x u t

/-- A shift by fewer than 64 places writes this value; by more, a free value (log 31). -/
def ShiftRule (c : Nat → Instr) (op : Nat) (val : Nat → Nat → Nat) : Prop :=
  ∀ (s : State) (w : Nat) (x : Site), Stands s w 1 op x →
    (opB x s < 64 → ∃ u t, exec (c w) s = .next t ∧ SrWritten w (bits x.insn 20 5) (val (opA x s) (opB x s)) s u ∧ Passed x u t) ∧
    (64 ≤ opB x s → ∃ v u t, exec (c w) s = .next t ∧ SrWritten w (bits x.insn 20 5) v { s with free := s.free + 1 } u ∧ Passed x u t)

/-- The value of semaphore `i` of thicket `t`. -/
def semVal (s : State) (t i : Nat) : Nat := tabGet 0 (getThk s t).sems i

/-- Work of Wren `w` on its own state and on memory: `t` is `s` but for that Wren, runs, memory, and the counter slots with their wrap
events, alert and interrupts; the Wren's registers and run stay and it moves past its instruction. -/
def WrenWork (w : Nat) (s t : State) : Prop :=
  (getWren t w).ix = (nextIx (getWren s w).ix (getWren s w).loops).1 ∧ (getWren t w).loops = (nextIx (getWren s w).ix (getWren s w).loops).2 ∧
    (getWren t w).block = 0 ∧ (getWren t w).sr = (getWren s w).sr ∧ (getWren t w).async = (getWren s w).async ∧
    (∀ v, v ≠ w → getWren t v = getWren s v) ∧ t.fab = { s.fab with wrens := t.fab.wrens, runs := t.fab.runs } ∧
    t.pwr = { s.pwr with pins := t.pwr.pins } ∧
    t = { s with mem := t.mem, fab := t.fab, pwr := t.pwr, hsc := t.hsc, evlog := t.evlog, glb := t.glb, out := t.out }

/-- Memory is as before outside `n` bytes from `a`. -/
def MemOutside (a n : Nat) (s t : State) : Prop := ∀ x, x < a ∨ a + n ≤ x → memGet t.mem x = memGet s.mem x

/-- The raw bytes of tile `t` hold these elements, or what they held. -/
def TileIs (r : Roost) (f : AccFmt) (t : Nat) (es : List Elem) (u : State) : Prop := memRead u.mem (r.at_ t) (tileBytes f) = encRow f es
def TileKept (r : Roost) (f : AccFmt) (t : Nat) (s u : State) : Prop :=
  memRead u.mem (r.at_ t) (tileBytes f) = memRead s.mem (r.at_ t) (tileBytes f)

/-- Row `i` of `n` is added in sequence, as one term, to tile `tile + i * granules` (10 R194, R195, R200, R203 to R205). -/
def TermsAdded (r : Roost) (f : AccFmt) (k tile n : Nat) (row : Nat → List Elem) (s u : State) : Prop :=
  ∀ i t old new v, i < n → t = tile + i * granules f → old = getTile r f t s → v = getTsw r t s →
    new = List.zipWith (fun e x => addTerm k e x (f == .p255)) old (row i) →
    (f ≠ .i64s → overLimit new = false → TileIs r f t new u ∧ getTsw r t u = tswEnter f none v) ∧
    (f ≠ .i64s → overLimit new = true → TileKept r f t s u ∧ getTsw r t u = { v with termLimit := true }) ∧
    (f = .i64s → v.exhausted = true → TileKept r f t s u ∧ getTsw r t u = v) ∧
    (f = .i64s → v.exhausted = false → fixedRow (row i) v.scale = none → TileKept r f t s u ∧ getTsw r t u = { v with exhausted := true }) ∧
    (∀ ts, f = .i64s → v.exhausted = false → fixedRow (row i) v.scale = some ts →
      (∀ q ∈ List.zipWith (· + ·) (fixedOf old) ts, -(2 : Int) ^ 63 ≤ q ∧ q < (2 : Int) ^ 63) →
      TileIs r f t ((List.zipWith (· + ·) (fixedOf old) ts).map .fixed) u ∧ getTsw r t u = tswEnter f none v)

/-- The fields of an MMA at which a Wren stands, within its limits (09 Table 9.7, R172). -/
structure MmaAt (s : State) (w : Nat) (x : Site) (f : AccFmt) (t : WTile) (a tile m : Nat) : Prop where
  stands : Stands s w 3 3 x
  fmt : fmtOf (bits x.insn 49 4) = some f
  rows : m = bits x.insn 25 6 + 1
  acts : a = getSr s w (bits x.insn 20 5)
  at_ : tile = if bitOf x.insn 43 then getSr s w (bits x.insn 44 5) else bits x.insn 31 12
  active : (getWren s w).active = some t
  infmt : t.infmt = bits x.insn 55 2
  pair : mmaPair f t.infmt = true
  fits : x.roost.fits f tile m = true
  work : a + m * actBytes t.infmt ≤ x.prog.wsize
  apart : x.prog.wsize + x.roost.size ≤ 1048576
  open_ : f = .i64s → x.prog.secret = false
  free : interlocked (getWren s w) [(a, m * actBytes t.infmt)] [tilesRange x.roost f tile m] = false

/-- The fields of a Thrush instruction at which a Wren stands, with a listed parameter set (09 Table 9.7, 11 Table 11.1). -/
structure ThrAt (s : State) (w op : Nat) (x : Site) (i : ThrIns) : Prop where
  stands : Stands s w 5 op x
  set : thrSet i.p = some i.t
  pset : i.p = bits x.insn 35 4
  len : i.len = bits x.insn 39 12
  a : i.a = getSr s w (bits x.insn 20 5)
  b : i.b = getSr s w (bits x.insn 25 5)
  d : i.d = getSr s w (bits x.insn 30 5)

/-- Element `e` of the operand at an offset of a Wren's local SRAM. -/
def elemAt (s : State) (w off e : Nat) : Nat := leNat (memRead s.mem (wrenBase w + off + 8 * e) 8)

/-- An elementwise operation: with aligned operands in the working area that are apart or identical, element `e` of D becomes `f q a b d`
of the elements and the prime of its limb; nothing else of memory changes. -/
def ThrRule (c : Nat → Instr) (op : Nat) (useB useD : Bool) (ok : ThrIns → Prop) (f : ThrIns → Nat → Nat → Nat → Nat → Nat) : Prop :=
  ∀ (s : State) (w : Nat) (x : Site) (i : ThrIns), ThrAt s w op x i → ok i → opOk x i.a i.len = true → opOk x i.d i.len = true →
    opsApart (wordRange i.a i.len) (wordRange i.d i.len) = true →
    (useB = true → opOk x i.b i.len = true ∧ opsApart (wordRange i.a i.len) (wordRange i.b i.len) = true ∧
      opsApart (wordRange i.b i.len) (wordRange i.d i.len) = true) →
    interlocked (getWren s w) (wordRange i.a i.len :: (if useB then [wordRange i.b i.len] else []) ++ if useD then [wordRange i.d i.len] else [])
      [wordRange i.d i.len] = false →
    ∃ t, exec (c w) s = .next t ∧ WrenWork w s t ∧ MemOutside (wrenBase w + i.d) (2048 * i.len) s t ∧
      ∀ e, e < 256 * i.len → elemAt t w i.d e = f i (thrPrime i.p (e / i.t.n % (i.t.l + i.t.k))) (elemAt s w i.a e) (elemAt s w i.b e) (elemAt s w i.d e)

/-- State `t` is `s` but for Linnet, what was sent, and the meters. -/
def LntOnly (s t : State) : Prop := t = { s with lnt := t.lnt, out := t.out, mtr := t.mtr }

/-- A packet of a type reaches an Ethernet engine that can carry packets, over a good IPv6 packet. -/
def Arrives (s : State) (p : LntPkt) (typ : Nat) : Prop := p.engine < 4 ∧ linkUp s p.engine = true ∧ p.ipOk = true ∧ p.typ = typ

/-- Only Siskin port `n` differs among the ports, and neither memory does. -/
def OnlyPort (n : Nat) (s t : State) : Prop := (∀ m, m ≠ n → getSkn t m = getSkn s m) ∧ t.mem = s.mem ∧ t.hostMem = s.hostMem

/-- A training that would find a partner where Table 14.1 wants one, with enough lanes both ways. -/
def GoodTraining (s : State) (n : Nat) (r : TrainReport) : Prop :=
  4 ≤ laneCount r.txLanes ∧ 4 ≤ laneCount (rxUsable (getSkn s n) r) ∧ r.roleClass = roleOf n ∧ partnerCheck s n r = 1

/-- The unacknowledged frames of a port as they are sent again. -/
def framesAgain (n aseq : Nat) (fs : List (Nat × List Byte × QtdPkt)) : List Out := fs.map fun f => .frame n f.1 aseq false f.2.1

/-- Only port `n` differs, where no serving run ends with it: a board-cube port ends every serving run (01 R16). -/
def PortGone (n : Nat) (s u : State) : Prop :=
  (n < 3 → ServingEnded s u) ∧ (3 ≤ n ∨ NoServing s → OnlyPort n s u ∧ u = { s with skn := u.skn })

/-- The row of a packet type at its destination (14 Table 14.2). -/
def QtdCmd (typ : Nat) (p : QtdPkt) (c : Instr) : Prop :=
  typ = 1 ∧ c = .qtdLinnet p ∨ typ = 2 ∧ c = .memWr p ∨ typ = 3 ∧ c = .memRdReq p ∨ typ = 4 ∧ c = .memRdResp p ∨ typ = 5 ∧ c = .acc p ∨
    typ = 6 ∧ c = .qtdPeer p ∨ typ = 8 ∧ c = .notice p

/-- A packet of a type arrives for this chip on a port that carries traffic, in a chip that takes part in the fabric. -/
def Reaches (s : State) (p : QtdPkt) (typ : Nat) : Prop := qtdOn s = true ∧ p.typ = typ ∧ fromPort s p = true ∧ p.dest = chipNo s ∧ s.qtd.st ≠ 3

/-- Neither Table 14.2 nor the fence of R294 discards the packet here. -/
def Admitted (s : State) (p : QtdPkt) : Prop := badPkt p 0 = false ∧ (p.cls = 3 ∨ sliceOf s p.part p.slice ≠ none)

/-- The credits of a packet going back (14 R276). -/
def creditOf (p : QtdPkt) : Out := .ctl p.inPort 8 (2 * p.cls + p.vc + 8 * ceilDiv (32 + p.len) 64)

/-- The bytes of tiles of Wren `w` that an ACC packet names are this chip's to add to (10 R213, 14 R275). -/
def AccTiles (s : State) (w t : Nat) (f : AccFmt) (p : QtdPkt) : Prop :=
  addrChip p.src p.addr = some (chipNo s) ∧ wrenBase 0 ≤ addrOff p.addr ∧ addrOff p.addr < wrenBase (wrenCount s) ∧
    w = (addrOff p.addr - wrenBase 0) / 2 ^ 20 ∧ roundWren s p.part w = true ∧ t = addrOff p.addr % 2 ^ 20 / 256 ∧ addrOff p.addr % 256 = 0 ∧
    Roost.fits { w := w, size := 1048576, ctx := wrenCtx s w, ingress := true } f t (p.payload.length / tileBytes f) = true ∧
    inOpenRange s w f t (p.payload.length / tileBytes f) = false

/-- Round `n` has ended in a phase with a status, and everything it held here is scrubbed (15 R322); other rounds are as they were. -/
def RoundEnded (n phase status : Nat) (s t : State) : Prop :=
  (∃ r, getRnd? t n = some r ∧ r.phase = phase ∧ r.status = status ∧ r.contribs = [] ∧ r.kRound = [] ∧ r.kinds = [] ∧ r.pds = [] ∧ r.pieces = [] ∧
    r.pSet = none ∧ r.qSet = none) ∧ (∀ m, m ≠ n → getRnd? t m = getRnd? s m) ∧ ∀ l, (getLst t l).live = true → (getLst t l).rnd ≠ n

/-- A command names a round that its context may name (05 R101). -/
def RoundTurn (s : State) (q : QRef) (op : Nat) (p : Packet) (r : Round) : Prop :=
  Turn s q op p ∧ getRnd? s (p.w 0) = some r ∧ roundScope s p.ctx r = true

/-- The rows that submit to a Warbler stream, with the values that each covers (17 R339). -/
def SubmitRow (c : Nat → Instr) (v : Nat) : Prop :=
  c = .wblByte ∧ v < 0x100 ∨ c = .wblEnd ∧ v = 0x100 ∨ c = .wblPad ∧ v = 0x101 ∨ c = .wblRestart ∧ v = 0x102

/-- Streams other than `i`, tables, and everything but counter slots with their wrap events are as before. -/
def StreamOnly (i : Nat) (s u : State) : Prop :=
  (∀ j, j ≠ i → getStream u j = getStream s j) ∧ u.wbl.tables = s.wbl.tables ∧ u.mem = s.mem ∧ u.hostMem = s.hostMem ∧ u.fab = s.fab ∧
    u.host = s.host ∧ u.nut = s.nut ∧ u.rnd = s.rnd ∧ u.lnt = s.lnt

/-- The open period closes at a fabric time with a wall end, and the next one opens at the same time (18 R351). -/
def PeriodClosed (m : Metering) (w : Int) (late : Bool) (time : Nat) (m' : Metering) : Prop :=
  m'.cur = Period.init (m.cur.num + 1) time ∧
    m'.closed <:+ m.closed ++ [{ m.cur with closeAt := time, wallEnd := w, offset := m.wall, late := late }] ∧
    m'.closed.length = min (m.closed.length + 1) 64 ∧ m'.wall = m.wall ∧ m'.pend = m.pend ∧
    ∃ e, m'.lastEnd = some e ∧ w ≤ e ∧ ∀ d, m.lastEnd = some d → d ≤ e

/-- An access of function `f` at `off` that reaches register offset `o` outside the doorbell and queue-pair pages, in a block that has power. -/
def PlainReg (s : State) (f : Fn) (off o : Nat) : Prop :=
  s.up ∧ placeOf s f off = .reg o ∧ findsDark s o = false ∧ (o < 0x400000 ∨ 0x800000 ≤ o ∧ o < 0x10000000)

end Sys2Proof.Machine

open Sys2Proof Sys2Proof.Machine

/-- A step runs the command at the front of the queue with the queue's rest; an empty queue is one Lark reference edge. For every command c, every state s and every queue rest: step of s with c :: rest pending is exec of c on s with rest pending; step of a state with nothing pending answers the state after one Lark reference edge (the model's choice, log 7). -/
def Obligations.StepRunsFrontCommand : Prop :=
  (∀ (c : Instr) (rest : List Instr) (s : State),
    step { s with pending := c :: rest } = exec c { s with pending := rest }) ∧
  (∀ s : State, s.pending = [] → step s = .next (larkTick s))

/-- Every command answers a next state from every state: none ends in a fault or a refusal. For every command c and every state s there is a state t with exec c s = next t. The spec gives every row an effect, and what it calls a fault or a refusal is data: a status, an event or a queue state. -/
def Obligations.NoCommandStops : Prop := ∀ (c : Instr) (s : State), ∃ t : State, exec c s = .next t

/-- The reset state satisfies the invariant of memories and tables. State.reset satisfies Inv: chip memory, host memory, counter slots, event log, links, units and pseudo-channel registers are in canonical form. -/
def Obligations.ResetTablesCanonical : Prop := State.reset.Inv

/-- Every step keeps memories and tables canonical, whatever command it runs and in whatever state. For every state s with Inv s: if step s answers next t then Inv t. Every store, scrub, descriptor move, status record, counter write and page of every command keeps chip memory and host memory in canonical form, and every event, counter, link and unit update keeps its table so (numbers strictly rising, no entry equal to what an unlisted number stands for), so equal contents are equal data. -/
def Obligations.StepKeepsTablesCanonical : Prop :=
  ∀ s t : State, s.Inv → step s = .next t → t.Inv

/-- Measurements set offset, remaining correction and state; LRK_CTL selects the source; a small remainder locks. In every powered state: (1) PPS_MEASUREMENT under SRC 0 with the reference present and no condition of R295 that keeps the chip UNSYNC answers the state with offset and remaining correction set to the distance of fabric time from the nearest whole second, STATE SLEWING above 100 ns and LOCKED otherwise, nothing else changed, and under such a condition only notes an offset; (2) PTP_SYNC_EXCHANGE under SRC 1 with its port Up and the reference present does the same with the measured offset, HOLD_PORT 0x1F; (3) SLEW_LOCKED in SLEWING with at most 100 ns remaining sets LOCKED and changes nothing else; (4) LRK_CTL_WRITE of SRC 0 or 1 stores SRC, PTP_PORT and HOLDOVER_EN and changes nothing else; (5) of SRC 2 it also sets STATE UNSYNC, drops the remaining correction (the model's reading, log 21) and holds LARK_PPS_OUT low. -/
def Obligations.LarkMeasurementsDiscipline : Prop :=
  (∀ s : State, s.pwr.st ≠ .off → s.lark.src = 0 → s.lark.refPresent = true → s.lark.aheadStuck = false → s.lark.stepWait = none →
    ∀ d : Int, (d = s.lark.time % 1000000000 ∧ s.lark.time % 1000000000 < 500000000 ∨
        d = (s.lark.time % 1000000000 : Nat) - 1000000000 ∧ 500000000 ≤ s.lark.time % 1000000000) →
      exec .ppsMeasurement s = .next { s with lark := s.lark.measured d }) ∧
  (∀ s : State, s.pwr.st ≠ .off → s.lark.src = 0 → s.lark.refPresent = true → s.lark.aheadStuck = true ∨ s.lark.stepWait.isSome = true →
    ∃ d, exec .ppsMeasurement s = .next { s with lark := { s.lark with offset := d, ptpLost := false } }) ∧
  (∀ (s : State) (d : Int), s.pwr.st ≠ .off → s.lark.src = 1 → s.lark.refPresent = true → s.lark.aheadStuck = false → s.lark.stepWait = none →
    (getEth s s.lark.ptpPort.toNat).st = 1 →
      exec (.ptpSyncExchange d) s = .next { s with lark := { s.lark.measured d with holdPort := 0x1F } }) ∧
  (∀ s : State, s.pwr.st ≠ .off → s.lark.state = 1 → s.lark.remaining.natAbs ≤ 10000000000 →
      exec .slewLocked s = .next { s with lark := { s.lark with state := 0 } }) ∧
  (∀ (s : State) (v : BitVec 32), s.up → v.extractLsb' 0 2 = 0 ∨ v.extractLsb' 0 2 = 1 →
      exec (.lrkCtlWrite v) s = .next { s with lark := { s.lark with
        src := v.extractLsb' 0 2, ptpPort := v.extractLsb' 2 2, holdoverEn := v.getLsbD 4 } }) ∧
  (∀ (s : State) (v : BitVec 32), s.up → v.extractLsb' 0 2 = 2 →
      exec (.lrkCtlWrite v) s = .next { s with
        lark := { s.lark with src := 2, ptpPort := v.extractLsb' 2 2, holdoverEn := v.getLsbD 4, remaining := 0, state := 3 }
        pwr := { s.pwr with pins := { s.pwr.pins with ppsOut := false } } })

/-- LRK_STEP moves fabric time forward by the value written, and only while no beat generator is enabled. In every powered state outside a warm reset: with no beat generator enabled, LRK_STEP of v answers the state whose fabric time is v ns later and whose remaining correction is 0, with STATE and everything else unchanged; with n > 0 enabled, fabric time and every other block are unchanged but for the event log's record of event 0x0409 with DETAIL n and no context. -/
def Obligations.LrkStepMovesTimeOnlyWithoutBeats : Prop :=
  ∀ (s : State) (v : BitVec 64), s.up →
    ((∀ n, n < 16 → (getBeat s n).en = false) →
      exec (.lrkStep v) s = .next { s with lark := { s.lark with time := s.lark.time + v.toNat, remaining := 0 } }) ∧
    (∀ n, n = ((List.range 16).countP fun n => (getBeat s n).en) → 0 < n →
      exec (.lrkStep v) s = .next (raiseEv 0x0409 none 0xFFFF n s) ∧
      (raiseEv 0x0409 none 0xFFFF n s).lark = s.lark)

/-- Without a reference Lark holds over on the lowest synchronised ACTIVE port, or runs UNSYNC on its oscillator. (1) REFERENCE_LOSS in a powered chip with the reference present, a disciplined source, HOLDOVER_EN 1 and no condition of R295 that keeps it UNSYNC, where n is the lowest port in ACTIVE whose partner reports LOCKED or SLEWING, sets STATE HOLDOVER, HOLD_PORT n and REF_LOST and raises 0x0C06 with n in [4:0] and STATE in [9:8]; (2) with no such port or HOLDOVER_EN 0 it sets UNSYNC with HOLD_PORT 0x1F, holds LARK_PPS_OUT low and raises the event with those values; (3) HOLDOVER_RESELECT with the reference lost and another choice than the present one makes that choice with the same event; (4) REFERENCE_RETURN reads HOLD_PORT 0x1F, keeps STATE and raises nothing; (5) PTP_SYNC_LOSS under SRC 1 selects in the same way. Fabric time is the same in every case. -/
def Obligations.LarkHoldoverSelectsLowestSyncedPort : Prop :=
  (∀ (s : State) (n : Nat), s.pwr.st ≠ .off → s.lark.refPresent = true → s.lark.src ≠ 2 → s.lark.holdoverEn = true → n < 24 →
    s.lark.aheadStuck = false → s.lark.stepWait = none →
    (getSkn s n).st = 4 → (getSkn s n).peerLark = 0 ∨ (getSkn s n).peerLark = 1 →
    (∀ m, m < n → ¬ ((getSkn s m).st = 4 ∧ ((getSkn s m).peerLark = 0 ∨ (getSkn s m).peerLark = 1))) →
      exec .referenceLoss s = .next (raiseEv 0x0C06 none 0xFFFF (n + 2 * 256) { s with lark := { s.lark with
        refPresent := false, refLost := true, state := 2, holdPort := BitVec.ofNat 5 n } })) ∧
  (∀ s : State, s.pwr.st ≠ .off → s.lark.refPresent = true → s.lark.src ≠ 2 →
    (s.lark.holdoverEn = false ∨
      ∀ m, m < 24 → ¬ ((getSkn s m).st = 4 ∧ ((getSkn s m).peerLark = 0 ∨ (getSkn s m).peerLark = 1))) →
      exec .referenceLoss s = .next (raiseEv 0x0C06 none 0xFFFF (31 + 3 * 256) { s with
        lark := { s.lark with refPresent := false, refLost := true, state := 3, holdPort := 0x1F }
        pwr := { s.pwr with pins := { s.pwr.pins with ppsOut := false } } })) ∧
  (∀ s : State, s.pwr.st ≠ .off → s.lark.src ≠ 2 → s.lark.refPresent = false → (s.lark.state, s.lark.holdPort) ≠ holdChoice s →
      exec .holdoverReselect s = .next (enterHold s) ∧ (enterHold s).lark.time = s.lark.time ∧
      ((enterHold s).lark.state, (enterHold s).lark.holdPort) = holdChoice s) ∧
  (∀ s : State, s.pwr.st ≠ .off →
      exec .referenceReturn s = .next { s with lark := { s.lark with refPresent := true, holdPort := 0x1F } }) ∧
  (∀ s : State, s.pwr.st ≠ .off → s.lark.src = 1 → s.lark.ptpLost = false →
      ∃ t, exec .ptpSyncLoss s = .next t ∧ t.lark.ptpLost = true ∧ t.lark.time = s.lark.time ∧
        (t.lark.state, t.lark.holdPort) = holdChoice s)

/-- Beats count every multiple of 2^k passed; LRK_BEAT_CFG arms, re-arms or disarms; LARK_PPS_OUT follows whole seconds. (1) BEAT_FIRE of an enabled generator whose next multiple of 2^k has passed adds the number of multiples passed to LRK_BEAT_CNT, including missed ones, and changes no other generator nor anything outside Lark; (2) LRK_BEAT_CFG_WRITE with EN and K from 10 to 30, on a disabled generator or with another K, arms it: count zero, the given owner, fabric time of the write as its start; (3) with EN and K outside 10 to 30 the write is discarded: the generator keeps its configuration, GLB_ACCESS.RANGE is set and 0x0109 carries the register offset 0x11100 + 8n; (4) with EN 0 and no TIME_SYNC step waiting the generator is disabled, its count kept; (5) LARK_PPS_OUT rises in the first 100 ms of a second unless UNSYNC or Tripped, and (6) falls after them. -/
def Obligations.BeatsFireAtEveryMultiple : Prop :=
  (∀ (s : State) (n : Nat), s.pwr.st ≠ .off → n < 16 → (getBeat s n).en = true →
    (getBeat s n).base / 2 ^ (getBeat s n).k < s.lark.time / 2 ^ (getBeat s n).k →
    ∃ t, exec (.beatFire n) s = .next t ∧
      (getBeat t n).cnt = (getBeat s n).cnt +
        BitVec.ofNat 32 (s.lark.time / 2 ^ (getBeat s n).k - (getBeat s n).base / 2 ^ (getBeat s n).k) ∧
      (∀ m, m ≠ n → getBeat t m = getBeat s m) ∧ t = { s with lark := t.lark }) ∧
  (∀ (s : State) (n : Nat) (v : BitVec 32), s.up → n < 16 → v.getLsbD 5 = true → 10 ≤ (v.extractLsb' 0 5).toNat →
    (v.extractLsb' 0 5).toNat ≤ 30 → (getBeat s n).en = false ∨ (getBeat s n).k ≠ (v.extractLsb' 0 5).toNat →
    ∃ t, exec (.lrkBeatCfgWrite n v) s = .next t ∧ getBeat t n =
        { k := (v.extractLsb' 0 5).toNat, en := true, owner := (v.extractLsb' 6 12).toNat, cnt := 0, base := s.lark.time } ∧
      (∀ m, m ≠ n → getBeat t m = getBeat s m) ∧ t = { s with lark := t.lark }) ∧
  (∀ (s : State) (n : Nat) (v : BitVec 32), s.up → n < 16 → v.getLsbD 5 = true →
    (v.extractLsb' 0 5).toNat < 10 ∨ 30 < (v.extractLsb' 0 5).toNat →
      exec (.lrkBeatCfgWrite n v) s =
        .next (raiseEv 0x0109 none 0xFFFF (0x11100 + 8 * n) { s with glb := { s.glb with range := true } })) ∧
  (∀ (s : State) (n : Nat) (v : BitVec 32), s.up → n < 16 → v.getLsbD 5 = false → s.lark.stepWait = none →
    ∃ t, exec (.lrkBeatCfgWrite n v) s = .next t ∧ (getBeat t n).en = false ∧ (getBeat t n).cnt = (getBeat s n).cnt ∧
      (∀ m, m ≠ n → getBeat t m = getBeat s m) ∧ t = { s with lark := t.lark }) ∧
  (∀ s : State, s.pwr.st ≠ .off → s.pwr.st ≠ .tripped → s.lark.state ≠ 3 → s.lark.time % 1000000000 < 100000000 →
      exec .ppsOutRise s = .next { s with pwr := { s.pwr with pins := { s.pwr.pins with ppsOut := true } } }) ∧
  (∀ s : State, s.pwr.st ≠ .off → 100000000 ≤ s.lark.time % 1000000000 →
      exec .ppsOutFall s = .next { s with pwr := { s.pwr with pins := { s.pwr.pins with ppsOut := false } } })

/-- A slot that wraps reads zero with WRAP set and raises 0x0611; LRK_SNAP freezes every slot and fabric time. (1) COUNTER_WRAP of a selected slot at 0xFFFF_FFFF_FFFF leaves it at count 0 with WRAP set, keeps its selection and snapshot, and raises event 0x0611 with the offset of its BLK_HSC register; (2) LRK_SNAP of a value with bit 0 set, in a powered chip, copies the live count of every slot into its snapshot at the reference edge that follows, freezes the fabric time of that edge, increments LRK_SNAP_SEQ, and leaves every live count as it was; (3) with bit 0 clear it changes nothing. -/
def Obligations.CounterSlotsWrapAndFreeze : Prop :=
  (∀ (s : State) (blk inst slot : Nat), s.pwr.st ≠ .off → slot < slotCount blk → inst < slotInsts s blk →
    (tabGet Slot.init s.hsc (slotKey blk inst slot)).sel ≠ 0 → (tabGet Slot.init s.hsc (slotKey blk inst slot)).cnt = 2 ^ 48 - 1 →
    (tabGet Slot.init s.hsc (slotKey blk inst slot)).part < evUnit blk (tabGet Slot.init s.hsc (slotKey blk inst slot)).sel →
    tabWf Slot.init s.hsc = true →
    ∃ u, exec (.counterWrap blk inst slot) s = .next (raiseEv 0x0611 none 0xFFFF (hscOffset blk inst slot) u) ∧
      u = { s with hsc := u.hsc } ∧
      tabGet Slot.init u.hsc (slotKey blk inst slot) =
        { tabGet Slot.init s.hsc (slotKey blk inst slot) with cnt := 0, part := 0, wrap := true } ∧
      ∀ k, k ≠ slotKey blk inst slot → tabGet Slot.init u.hsc k = tabGet Slot.init s.hsc k) ∧
  (∀ (s : State) (v : BitVec 32), s.up → v.getLsbD 0 = true → tabWf Slot.init s.hsc = true →
    ∃ t, exec (.lrkSnap v) s = .next t ∧ t.lark.snapTime = (larkEdge s.lark).time ∧ t.lark.snapSeq = s.lark.snapSeq + 1 ∧
      ∀ k, tabGet Slot.init t.hsc k = { tabGet Slot.init s.hsc k with snap := (tabGet Slot.init s.hsc k).cnt }) ∧
  (∀ (s : State) (v : BitVec 32), v.getLsbD 0 = false → exec (.lrkSnap v) s = .next s)

/-- A reference edge never moves fabric time back, nor forward by more than 6.4 ns and the slew limit. For every state with LRK_SLEW in its range (1 to 500 in 0.1 ppm) that is powered with an empty queue: step answers a state whose fabric time, counted in units of 10^-8 ns with Lark's fraction below 1 ns, is not less than before and at most 640,000,000 + 64 times LRK_SLEW units greater, which is 6.4 ns times (1 + the slew limit). -/
def Obligations.FabricTimeIsSlewLimited : Prop :=
  ∀ s : State, s.pwr.st ≠ .off → s.pending = [] → 1 ≤ s.lark.slew → s.lark.slew ≤ 500 → s.lark.frac < 100000000 →
    ∃ t, step s = .next t ∧ t.lark.frac < 100000000 ∧
      s.lark.time * 100000000 + s.lark.frac ≤ t.lark.time * 100000000 + t.lark.frac ∧
      t.lark.time * 100000000 + t.lark.frac ≤ s.lark.time * 100000000 + s.lark.frac + 640000000 + 64 * s.lark.slew

/-- A stop switches the chip off, loses all work and content, and the cause latch keeps the first cause. In a powered chip VIN_UV, VIN_OV, THERMAL_ANALOG_STOP and COLD_RESET_PIN (also holding the chip off), and in a chip whose removal began MATED_RETURN_STOP, answer a state that is Off with PWR_FAULT_N and PWR_GOOD low, memory, host objects, fabric, Linnet, rounds and keys as at reset, fuses, flash and host memory kept. The cause latch keeps a cause held before (the model's reading of R47, log 8), and otherwise takes, of the causes given for the period, one of least rank in R47's order. REMOVAL in Idle or Run latches its cause in the same way, marks the removal, sends LINK_DOWN on every trained port and stops Ethernet, and changes nothing else. -/
def Obligations.StopsGoColdAndLatchTheFirstCause : Prop :=
  (∀ (s : State) (also : List StopCause), s.pwr.st ≠ .off →
    (∃ t, exec (.vinUv also) s = .next t ∧ Stopped s t ∧ Latched s t .undervolt also) ∧
    (∃ t, exec (.vinOv also) s = .next t ∧ Stopped s t ∧ Latched s t .overvolt also) ∧
    (∃ t, exec (.thermalAnalogStop also) s = .next t ∧ Stopped s t ∧ Latched s t .thermalAnalog also) ∧
    (∃ t, exec (.coldResetPin also) s = .next t ∧ Stopped s t ∧ Latched s t .coldPin also ∧ t.pwr.coldHeld = true)) ∧
  (∀ s : State, s.pwr.removing = true → ∃ t, exec .matedReturnStop s = .next t ∧ Stopped s t ∧ Latched s t .removal []) ∧
  (∀ (s : State) (also : List StopCause), s.pwr.st = .idle ∨ s.pwr.st = .run →
    ∃ t, exec (.removal also) s = .next t ∧ Latched s t .removal also ∧ t.pwr.removing = true ∧ t.pwr.st = s.pwr.st ∧
      t.out = s.out ++ ((trainedPorts s).map fun n => Out.ctl n 1 0) ++ [Out.ethStop] ∧
      t = { s with out := t.out
                   pwr := { s.pwr with cause := t.pwr.cause, causeHeld := true, removing := true
                                       pins := { s.pwr.pins with carMatedN := true } } })

/-- VIN_ON and the release of a cold reset enter Standby; eight equal samples latch the straps; pads and VCORE follow. (1) VIN_ON in Off, not held by COLD_RESET_N, and (2) COLD_RESET_RELEASE of a held chip enter Standby with PWR_FAULT_N and THERMTRIP_N high; with PROCHOT_N driven low by the carrier the carrier ceiling is PP1; with it released and the latch closed nothing but the power block changes, with the latch open 0x0C0F is raised; (3) STRAP_LATCH in Standby of eight equal samples whose position and parity bits count odd, PCIE not 0b11, latches chip number, priority, boot source and PCIE without fault and lets the boot ROM run; (4) MOD_LATCH_OPEN of a powered chip only raises 0x0C0F (DETAIL a free value, log 11); (5) POINT_CHANGE_SETTLED ends a move of VCORE at the effective point. -/
def Obligations.PowerOnLatchesStrapsAndEvents : Prop :=
  (∀ s : State, s.pwr.st = .off → s.pwr.coldHeld = false →
    ∃ t, exec .vinOn s = .next t ∧ t.pwr.st = .standby ∧ t.pwr.pins.pwrFaultN = true ∧ t.pwr.pins.thermtripN = true ∧
      (s.pwr.pins.prochotExt = false → t.pwr.ceilCar = 1) ∧
      (s.pwr.pins.prochotExt = true → s.pwr.pins.modLatchN = false → t = { s with pwr := t.pwr } ∧ t.pwr.ceilCar = s.pwr.ceilCar) ∧
      (s.pwr.pins.prochotExt = true → s.pwr.pins.modLatchN = true → ∃ p, t = raiseEv 0x0C0F none 0xFFFF (Config.eventDetail 0x0C0F) { s with pwr := p })) ∧
  (∀ s : State, s.pwr.coldHeld = true →
    ∃ t, exec .coldResetRelease s = .next t ∧ t.pwr.st = .standby ∧ t.pwr.coldHeld = false ∧ t.pwr.pins.coldResetN = true ∧
      t.pwr.pins.pwrFaultN = true ∧
      (s.pwr.pins.prochotExt = false → t.pwr.ceilCar = 1) ∧
      (s.pwr.pins.prochotExt = true → s.pwr.pins.modLatchN = false → t = { s with pwr := t.pwr })) ∧
  (∀ (s : State) (w : BitVec 23), s.pwr.st = .standby → s.pwr.straps.latched = false →
    ((List.range 18).countP fun i => w.getLsbD i) % 2 = 1 → w.extractLsb' 21 2 ≠ 3 →
      exec (.strapLatch (List.replicate 8 w)) s = .next { s with
        boot := { s.boot with romReady := true }
        pwr := { s.pwr with
          pins := { s.pwr.pins with carMatedN := false }
          straps := { latched := true, fault := false, pos := w.extractLsb' 0 17, par := w.getLsbD 17, prio := w.getLsbD 18,
                      boot := w.extractLsb' 19 2, pcie := w.extractLsb' 21 2 } } }) ∧
  (∀ s : State, s.pwr.st ≠ .off →
    exec .modLatchOpen s = .next (raiseEv 0x0C0F none 0xFFFF (Config.eventDetail 0x0C0F)
      { s with pwr := { s.pwr with pins := { s.pwr.pins with modLatchN := true } } })) ∧
  (∀ s : State, s.pwr.settling = true →
    exec .pointChangeSettled s = .next { s with pwr := { s.pwr with settling := false, curPt := effPoint s.pwr } })

/-- A ceiling has gone to `v`: the others stay, and its event is recorded with the new ceiling in [2:0] and the old one in [5:3] when it
changed (03 R40). -/
def CeilingAt (c : Ceiling) (v : Nat) (s t : State) : Prop :=
  c.get t.pwr = v ∧ (∀ d, d ≠ c → d.get t.pwr = d.get s.pwr) ∧ t.pwr.ptReq = s.pwr.ptReq ∧ t.pwr.st = s.pwr.st ∧
    t.evlog = (if c.get s.pwr = v then s else raiseEv c.event none 0xFFFF (v + c.get s.pwr * 8) s).evlog ∧
    t.mem = s.mem ∧ t.host = s.host ∧ t.fab = s.fab

/-- Each cause moves its own ceiling as its rule says and raises that ceiling's event when it changed. In a powered chip: VIN_LOW sets the input-voltage ceiling to PP1 and VIN_LOW_CLEAR to PP5; PROCHOT_LOW sets the carrier ceiling to PP1 and PROCHOT_HIGH to PP5 while the KL-5 does not drive the pad, and leave it alone while it does; PROCHOT_RELEASE_SAMPLE, when the sample is due, takes the pad level; THROTTLE_PERIOD with Tj at or above THROTTLE lowers the thermal ceiling to one point below the lower of the ceiling and the effective point, not below PP1, and THROTTLE_RECOVERY raises it by one up to PP5; POWER_WINDOW above PWR_CAP lowers the power ceiling in the same way, or at PP1 sets DUTY, and one below the cap clears DUTY; POWER_CEILING_RISE raises it by one up to PP5. The other ceilings, the requested point, the state, memory, host objects and runs are unchanged. -/
def Obligations.CeilingsFollowTheirCausesWithEvents : Prop :=
  ∀ s : State, s.pwr.st ≠ .off →
    (∃ t, exec .vinLow s = .next t ∧ CeilingAt .vin 1 s t) ∧
    (∃ t, exec .vinLowClear s = .next t ∧ CeilingAt .vin 5 s t) ∧
    (∃ t, exec .prochotLow s = .next t ∧ t.pwr.pins.prochotExt = false ∧
      CeilingAt .car (if s.pwr.pins.prochotDrive then s.pwr.ceilCar else 1) s t) ∧
    (∃ t, exec .prochotHigh s = .next t ∧ t.pwr.pins.prochotExt = true ∧
      CeilingAt .car (if s.pwr.pins.prochotDrive then s.pwr.ceilCar else 5) s t) ∧
    (∀ low, s.pwr.phSample = true → ∃ t, exec (.prochotReleaseSample low) s = .next t ∧ CeilingAt .car (if low then 1 else 5) s t) ∧
    (∀ tj sensor, (s.pwr.throttle : Int) ≤ tj → ∃ t, exec (.throttlePeriod tj sensor) s = .next t ∧
      CeilingAt .therm (max 1 (min s.pwr.ceilTherm (runPoint s.pwr) - 1)) s t) ∧
    (∀ tj sensor, tj ≤ (s.pwr.throttle : Int) - 8 → ∃ t, exec (.throttleRecovery tj sensor) s = .next t ∧
      CeilingAt .therm (min 5 (s.pwr.ceilTherm + 1)) s t) ∧
    (∀ mean vin, s.pwr.cap * 10 < mean → s.pwr.ceilPower ≠ 1 → ∃ t, exec (.powerWindow mean vin) s = .next t ∧
      CeilingAt .power (max 1 (min s.pwr.ceilPower (runPoint s.pwr) - 1)) s t ∧ t.pwr.duty = s.pwr.duty) ∧
    (∀ mean vin, s.pwr.cap * 10 < mean → s.pwr.ceilPower = 1 → ∃ t, exec (.powerWindow mean vin) s = .next t ∧
      CeilingAt .power 1 s t ∧ t.pwr.duty = true) ∧
    (∀ mean vin, mean < s.pwr.cap * 10 → ∃ t, exec (.powerWindow mean vin) s = .next t ∧
      CeilingAt .power s.pwr.ceilPower s t ∧ t.pwr.duty = false) ∧
    (∃ t, exec .powerCeilingRise s = .next t ∧ CeilingAt .power (min 5 (s.pwr.ceilPower + 1)) s t)

/-- 03 R56: the chip has tripped. -/
def Tripped (s t : State) : Prop :=
  t.pwr.st = .tripped ∧ t.pwr.pins.thermtripN = false ∧ t.pwr.pins.pwrFaultN = false ∧ t.mem = [] ∧
    t.pwr.cause = (if s.pwr.causeHeld then s.pwr.cause else some .thermal) ∧ (∀ n, (getSkn t n).st = 0) ∧ t.host = s.host ∧ t.pwr.req = none ∧ t.pwr.warmBusy = false

/-- A SET_POWER_STATE that waited as the chip tripped is refused with PWR_STATE in DETAIL (the model's choice, log 53). -/
def pendingRefused (s u : State) : State :=
  match s.pwr.req with
  | none => u
  | some q => finish q (Done.fail 0x0409 (devState 1 (pwrState u.pwr))) u

/-- Tj at 110 °C or a stack at 105 °C trips the chip; 85 and 95 °C double refresh and halve bandwidth of that stack alone. (1) CRIT_TRIP with Tj of 110 °C or more, in a powered chip not yet Tripped, records the reading and enters Tripped with THERMTRIP_N and PWR_FAULT_N low, memory lost, links down and cause THERMAL unless one is held; below 110 °C it only records the reading; (2) HBM_STACK_LIMIT of a stack sets its refresh-doubled bit from 85 °C and its bandwidth bit from 95 °C, leaves those of the other stacks, and trips from 105 °C; a SET_POWER_STATE that waits at a trip completes with 0x0409 (the model's choice, log 53); (3) THERMAL_WARN at or above WARN records the reading and raises 0x0C0A. -/
def Obligations.ThermalTripsAndStackLimits : Prop :=
  (∀ (s : State) (tj : Int) (sensor : Nat), s.pwr.st ≠ .off → s.pwr.st ≠ .tripped → 110 ≤ tj →
    ∃ t, exec (.critTrip tj sensor) s = .next (pendingRefused s t) ∧ Tripped s t ∧ t.pwr.tj = tj ∧ t.pwr.hotSensor = sensor) ∧
  (∀ (s : State) (tj : Int) (sensor : Nat), s.pwr.st ≠ .off → tj < 110 →
    exec (.critTrip tj sensor) s = .next { s with pwr := { s.pwr with tj := tj, hotSensor := sensor } }) ∧
  (∀ (s : State) (k : Nat) (temp : Int), s.pwr.st ≠ .off → k < 6 →
    ∃ t, exec (.hbmStackLimit k temp) s = .next (if 105 ≤ temp ∧ s.pwr.st ≠ .tripped then pendingRefused s t else t) ∧
      (∀ j, j < 6 → t.pwr.stackDouble.getLsbD j = (if j = k then decide (85 ≤ temp) else s.pwr.stackDouble.getLsbD j)) ∧
      (∀ j, j < 6 → t.pwr.stackLimit.getLsbD j = (if j = k then decide (95 ≤ temp) else s.pwr.stackLimit.getLsbD j)) ∧
      (105 ≤ temp → s.pwr.st ≠ .tripped → Tripped s t) ∧ (temp < 105 → t.pwr.st = s.pwr.st ∧ t.mem = s.mem)) ∧
  (∀ (s : State) (tj : Int) (sensor : Nat), s.pwr.st ≠ .off → (s.pwr.warn : Int) ≤ tj →
    exec (.thermalWarn tj sensor) s = .next (raiseEv 0x0C0A none 0xFFFF (Config.eventDetail 0x0C0A)
      { s with pwr := { s.pwr with tj := tj, hotSensor := sensor } }))

/-- The chip changes power state one step of the chain at a time; Idle is refused without the carrier, the straps or when Tripped. (1) SET_POWER_STATE of Standby or Idle, on a chip in Standby, Idle or Run that is in another state and has no transition under way, starts a transition to that state and leaves the command begun; Idle from Standby needs CAR_PWR_EN high and latched straps; (2) with one of these missing, or in Tripped, it completes with 0x0409 and PWR_STATE in DETAIL; (3) POWER_TRANSITION_DONE of a transition to a neighbouring state that nothing waits for ends it in that state; (4) from Standby with target Run it reaches Idle first and goes on; (5) RUN_TO_IDLE returns from Run to Idle when no run is live or ready and no round holds Wrens, and (6) leaves a chip alone that still has a live run. -/
def Obligations.PowerStatesMoveAlongTheChain : Prop :=
  (∀ (s : State) (q : QRef) (p : Packet), Turn s q 0x0002 p → s.pwr.req = none → s.pwr.st ≠ .tripped → s.pwr.st ≠ .off →
    (bits (p.w 0) 0 3 = 1 ∧ s.pwr.st ≠ .standby → exec (.setPowerState q) s =
        .next (markStarted q { s with pwr := { s.pwr with target := some .standby, req := some q } })) ∧
    (bits (p.w 0) 0 3 = 2 ∧ s.pwr.st ≠ .idle ∧ (s.pwr.st = .standby → s.pwr.pins.carPwrEn = true ∧ s.pwr.straps.latched = true) →
      exec (.setPowerState q) s = .next (markStarted q { s with pwr := { s.pwr with target := some .idle, req := some q } })) ∧
    (bits (p.w 0) 0 3 = 2 ∧ s.pwr.st = .standby ∧ (s.pwr.pins.carPwrEn = false ∨ s.pwr.straps.latched = false) →
      exec (.setPowerState q) s = .next (finish q (Done.fail 0x0409 (devState 1 (pwrState s.pwr))) s))) ∧
  (∀ (s : State) (q : QRef) (p : Packet), Turn s q 0x0002 p → s.pwr.st = .tripped → bits (p.w 0) 0 3 = 2 →
    exec (.setPowerState q) s = .next (finish q (Done.fail 0x0409 (devState 1 (pwrState s.pwr))) s)) ∧
  (∀ (s : State) (a b : PState), s.pwr.st = a → s.pwr.target = some b → s.pwr.req = none →
    (a = .standby ∧ b = .idle ∨ a = .idle ∧ b = .run ∨ a = .idle ∧ b = .standby ∨ a = .run ∧ b = .idle ∧ wrensIdle s = true) →
    ∃ t, exec .powerTransitionDone s = .next t ∧ t.pwr.st = b ∧ t.pwr.target = none) ∧
  (∀ s : State, s.pwr.st = .standby → s.pwr.target = some .run →
    ∃ t, exec .powerTransitionDone s = .next t ∧ t.pwr.st = .idle ∧ t.pwr.target = some .run) ∧
  (∀ s : State, s.pwr.st = .run → wrensIdle s = true → runReady s = false →
    ∃ t, exec .runToIdle s = .next t ∧ t.pwr.st = .idle ∧ t = { s with pwr := t.pwr } ∧ t.pwr.ptReq = s.pwr.ptReq) ∧
  (∀ (s : State) (r : Run), r ∈ s.fab.runs → r.st ≠ 0 → exec .runToIdle s = .next s)

/-- A warm reset discards work and objects at once, scrubs all memory, and ends in Standby with Lark time kept. (1) WARM_RESET_PIN in Standby, Idle or Run with no warm reset under way drops contexts, queues, keys, runs, sessions, rounds and streams, keeps fabric time, Lark configuration, event log, meters, ceilings, DUTY and PWR_CAUSE, and marks the warm reset; in Tripped it has no effect but the pad; (2) WARM_RESET_SCRUB_DONE leaves memory empty and Standby; with PERST_N high the warm reset is over and the boot ROM may run, with PERST_N low (3) PERST_N_RELEASE then ends it; (4) RESET at its turn writes its own record, as a completion with status 0, and then begins the warm reset; in Tripped it completes with 0x0409, with a reserved type with 0x0105. -/
def Obligations.WarmResetDiscardsWorkAndScrubs : Prop :=
  (∀ s : State, (s.pwr.st = .standby ∨ s.pwr.st = .idle ∨ s.pwr.st = .run) → s.pwr.warmBusy = false →
    ∃ t, exec .warmResetPin s = .next t ∧ t.pwr.warmBusy = true ∧ t.pwr.warmFromPin = true ∧ t.host = HostSt.init ∧ t.nut = Nut.init ∧
      t.fab = Fab.init ∧ t.lnt = Lnt.init ∧ t.rnd.rounds = [] ∧ t.wbl.streams = [] ∧ t.lark.time = s.lark.time ∧
      t.lark.src = s.lark.src ∧ t.lark.slew = s.lark.slew ∧ t.evlog = s.evlog ∧ t.mtr = s.mtr ∧ t.pwr.cause = s.pwr.cause ∧
      t.pwr.duty = s.pwr.duty ∧ (∀ c : Ceiling, c.get t.pwr = c.get s.pwr) ∧ t.boot.fuses = s.boot.fuses ∧ t.boot.flash = s.boot.flash) ∧
  (∀ s : State, s.pwr.st = .tripped →
    exec .warmResetPin s = .next { s with pwr := { s.pwr with pins := { s.pwr.pins with perstN := false } } }) ∧
  (∀ s : State, s.pwr.warmBusy = true → s.pwr.warmScrubbed = false →
    ∃ t, exec .warmResetScrubDone s = .next t ∧ t.mem = [] ∧ t.pwr.st = .standby ∧ t.hostMem = s.hostMem ∧
      (s.pwr.warmFromPin = true ∧ s.pwr.pins.perstN = false → t.pwr.warmBusy = true ∧ t.pwr.warmScrubbed = true ∧ t.boot = s.boot) ∧
      (s.pwr.warmFromPin = false ∨ s.pwr.pins.perstN = true → t.pwr.warmBusy = false ∧ t.boot = { s.boot with romReady := true })) ∧
  (∀ s : State, s.pwr.warmBusy = true → s.pwr.warmScrubbed = true →
    ∃ t, exec .perstNRelease s = .next t ∧ t.pwr.warmBusy = false ∧ t.boot = { s.boot with romReady := true } ∧
      t.pwr.pins.perstN = true ∧ t.lark = s.lark ∧ t.mem = s.mem) ∧
  (∀ (s : State) (q : QRef) (p : Packet), Turn s q 0x0005 p →
    (bits (p.w 0) 0 2 = 0 → s.pwr.st ≠ .tripped → ∃ t, exec (.reset q) s = .next t ∧ t.hostMem = (finish q Done.ok s).hostMem ∧
      t.pwr.warmBusy = true ∧ t.pwr.warmFromPin = false ∧ t.host = HostSt.init ∧ t.fab = Fab.init ∧ t.lark.time = s.lark.time ∧ t.mtr = s.mtr) ∧
    (bits (p.w 0) 0 2 ≠ 0 → ∃ d, exec (.reset q) s = .next (finish q (Done.fail 0x0105 d) s)) ∧
    (bits (p.w 0) 0 2 = 0 → s.pwr.st = .tripped → ∃ d, exec (.reset q) s = .next (finish q (Done.fail 0x0409 d) s)))

/-- Point, cap and thermal settings take a value in range; outside it the write is discarded with 0x0109, the command refused. In a powered chip outside a warm reset: a write of PWR_PT_REQ with [2:0] from 1 to 5, of PWR_CAP with [10:0] from 400 to 1,150, and of PWR_THERM_CFG with WARN 70 to 95 and THROTTLE 80 to 100 stores the field values; a write with a field outside its range changes no field of the power block, sets GLB_ACCESS.RANGE and raises 0x0109 with the register offset. SET_POINT and SET_POWER_CAP with a value in range complete with status 0 having stored it, and outside it complete with 0x0105 and the parameter's offset, having changed nothing. -/
def Obligations.PowerSettingsTakeOnlyTheirRange : Prop :=
  (∀ (s : State) (v : BitVec 32), s.up →
    (1 ≤ bits v.toNat 0 3 ∧ bits v.toNat 0 3 ≤ 5 → ∃ t, exec (.pwrPtReqWrite v) s = .next t ∧ t.pwr.ptReq = bits v.toNat 0 3 ∧
      t.pwr.curPt = s.pwr.curPt ∧ t = { s with pwr := t.pwr }) ∧
    (bits v.toNat 0 3 < 1 ∨ 5 < bits v.toNat 0 3 → exec (.pwrPtReqWrite v) s =
      .next (raiseEv 0x0109 none 0xFFFF 0x10008 { s with glb := { s.glb with range := true } })) ∧
    (400 ≤ bits v.toNat 0 11 ∧ bits v.toNat 0 11 ≤ 1150 →
      exec (.pwrCapWrite v) s = .next { s with pwr := { s.pwr with cap := bits v.toNat 0 11 } }) ∧
    (bits v.toNat 0 11 < 400 ∨ 1150 < bits v.toNat 0 11 → exec (.pwrCapWrite v) s =
      .next (raiseEv 0x0109 none 0xFFFF 0x1000C { s with glb := { s.glb with range := true } })) ∧
    (70 ≤ bits v.toNat 0 8 ∧ bits v.toNat 0 8 ≤ 95 ∧ 80 ≤ bits v.toNat 8 8 ∧ bits v.toNat 8 8 ≤ 100 →
      ∃ t, exec (.pwrThermCfgWrite v) s = .next t ∧ t.pwr.warn = bits v.toNat 0 8 ∧ t.pwr.throttle = bits v.toNat 8 8 ∧
        t.pwr.phOut = v.getLsbD 16 ∧ t.pwr.ceilTherm = s.pwr.ceilTherm ∧ t = { s with pwr := t.pwr }) ∧
    (bits v.toNat 0 8 < 70 ∨ 95 < bits v.toNat 0 8 ∨ bits v.toNat 8 8 < 80 ∨ 100 < bits v.toNat 8 8 →
      exec (.pwrThermCfgWrite v) s = .next (raiseEv 0x0109 none 0xFFFF 0x10028 { s with glb := { s.glb with range := true } }))) ∧
  (∀ (s : State) (q : QRef) (p : Packet), Turn s q 0x0003 p →
    (1 ≤ bits (p.w 0) 0 3 ∧ bits (p.w 0) 0 3 ≤ 5 → ∃ u d, exec (.setPoint q) s = .next (finish q d u) ∧ d.status = 0 ∧
      u.pwr.ptReq = bits (p.w 0) 0 3 ∧ d.res0 = effPoint u.pwr + runPoint u.pwr * 8 ∧ u = { s with pwr := u.pwr }) ∧
    (bits (p.w 0) 0 3 < 1 ∨ 5 < bits (p.w 0) 0 3 → exec (.setPoint q) s = .next (finish q (Done.fail 0x0105 0x40) s))) ∧
  (∀ (s : State) (q : QRef) (p : Packet), Turn s q 0x0004 p →
    (400 ≤ bits (p.w 0) 0 11 ∧ bits (p.w 0) 0 11 ≤ 1150 → exec (.setPowerCap q) s =
      .next (finish q Done.ok { s with pwr := { s.pwr with cap := bits (p.w 0) 0 11 } })) ∧
    (bits (p.w 0) 0 11 < 400 ∨ 1150 < bits (p.w 0) 0 11 → exec (.setPowerCap q) s = .next (finish q (Done.fail 0x0105 0x40) s)))

/-- An offered image is accepted exactly when all eight checks of R69 hold; otherwise the boot halts with the code of the first. In a powered chip without a debug pause: (1) BOOT_MBX_GO in HOST_WAIT or a halted boot not left by FUSE_FAULT or RECORD_LOST, and FABRIC_BOOT_IMAGE in FABRIC_WAIT, accept the image if the eight checks hold (image, SVN and source recorded, identity derived, device roots delivered, ready for step 7) and otherwise halt, with CODE naming the failed check and MGMT_ALERT_N low; (2) imageFault answers none exactly when the eight checks hold; (3) FABRIC_BOOT_REQUEST in FABRIC_WAIT sends a request on each boot link port that is up; (4) FABRIC_BOOT_TIMEOUT 10 s after the wait began halts with 0x30. -/
def Obligations.BootAcceptsExactlyTheCheckedImages : Prop :=
  (∀ (b : Boot) (floor : Nat) (img : List Byte), imageFault b floor img = none ↔ ImageOk b floor img) ∧
  (∀ s : State, s.pwr.st ≠ .off → s.pwr.warmBusy = false → s.boot.hold = none → (s.boot.stage = 2 ∨ s.boot.stage = 4) →
    s.boot.code ≠ 0x10 → s.boot.code ≠ 0x24 →
    (ImageOk s.boot s.boot.floor (mailboxImage s.boot) →
      ∃ t, exec .bootMbxGo s = .next t ∧ Accepted (mailboxImage s.boot) 1 t) ∧
    (∀ n c, imageFault s.boot s.boot.floor (mailboxImage s.boot) = some (n, c) → s.boot.stage = 2 →
      ∃ t, exec .bootMbxGo s = .next t ∧ Halted c t)) ∧
  (∀ (s : State) (img : List Byte), s.pwr.st ≠ .off → s.boot.hold = none → s.boot.stage = 3 → s.boot.code ≠ 0x10 → s.boot.code ≠ 0x24 →
    (ImageOk s.boot s.boot.floor img → ∃ t, exec (.fabricBootImage img) s = .next t ∧ Accepted img 2 t) ∧
    (∀ n c, imageFault s.boot s.boot.floor img = some (n, c) → ∃ t, exec (.fabricBootImage img) s = .next t ∧ Halted c t)) ∧
  (∀ s : State, s.pwr.st ≠ .off → s.boot.stage = 3 →
    exec .fabricBootRequest s = .next { s with out := s.out ++
      ((bootPorts.filter fun n => (getSkn s n).bootMode && (getSkn s n).st = 4).map fun n => .bootReq n) }) ∧
  (∀ s : State, s.pwr.st ≠ .off → s.boot.stage = 3 → s.boot.fabricStart + 10000000000 ≤ s.lark.time →
    ∃ t, exec .fabricBootTimeout s = .next t ∧ Halted 0x30 t)

/-- The boot ROM may run with good fuses and an anti-rollback record; Tj allows it, and lifecycle is not RMA. -/
def RomReady (s : State) (i : Bool) : Prop :=
  romMayRun s = true ∧ -20 ≤ s.pwr.tj ∧ s.boot.fuses.lifecycle.getLsbD 4 = false ∧ fusesOk s.boot.fuses = true ∧
    s.boot.fuses.epoch = s.boot.fuses.epochMargin ∧ rollPick s.boot s.boot.fuses.epoch = some i

/-- The boot ROM checks fuses and record, takes the source STRAP_BOOT names, and RUNNING follows step 7. BOOT_SEQUENCE of a boot ROM that may run: (1) with a failed fuse check it halts with FUSE_FAULT; (2) with good fuses and no valid record copy it halts with RECORD_LOST; (3) with a valid copy it takes floor and counter of that copy, and with STRAP_BOOT 0b01 waits for the host, with 0b10 for a fabric manager; (4) with 0b00 and an active flash slot whose image passes the checks it accepts that image from that slot. (5) FIRMWARE_READY after step 6 sets STAGE RUNNING with STEP 7, makes context 0 Active and opens period 1 where none was open. -/
def Obligations.BootSequenceFollowsStrapsAndRecord : Prop :=
  (∀ s : State, romMayRun s = true → -20 ≤ s.pwr.tj → s.boot.fuses.lifecycle.getLsbD 4 = false →
    (fusesOk s.boot.fuses = false → ∃ t, exec .bootSequence s = .next t ∧ Halted 0x10 t) ∧
    (fusesOk s.boot.fuses = true → s.boot.fuses.epoch = s.boot.fuses.epochMargin → rollPick s.boot s.boot.fuses.epoch = none →
      ∃ t, exec .bootSequence s = .next t ∧ Halted 0x24 t)) ∧
  (∀ (s : State) (i : Bool), RomReady s i →
    (s.pwr.straps.boot = 1 → ∃ t, exec .bootSequence s = .next t ∧ t.boot.stage = 2 ∧ t.boot.step = 3 ∧
      t.boot.floor = (rollCopy s.boot i).floor ∧ t.boot.updCnt = (rollCopy s.boot i).counter) ∧
    (s.pwr.straps.boot = 2 → ∃ t, exec .bootSequence s = .next t ∧ t.boot.stage = 3 ∧ t.boot.step = 3 ∧
      t.boot.floor = (rollCopy s.boot i).floor ∧ t.boot.fabricStart = s.lark.time) ∧
    (∀ a, s.pwr.straps.boot = 0 → activeSlot s.boot.flash = some a →
      ImageOk s.boot (rollCopy s.boot i).floor (slotImage s.boot a) →
      ∃ t, exec .bootSequence s = .next t ∧ Accepted (slotImage s.boot a) 0 t ∧ t.boot.slot = a)) ∧
  (∀ s : State, s.pwr.st ≠ .off → s.boot.stage = 1 → s.boot.step = 6 →
    ∃ t, exec .firmwareReady s = .next t ∧ t.boot.stage = 8 ∧ t.boot.step = 7 ∧ (getCtx t 0).st = 1 ∧
      (∀ c, c ≠ 0 → getCtx t c = getCtx s c) ∧ (s.mtr.started = true → t.mtr = s.mtr) ∧
      (s.mtr.started = false → t.mtr.started = true ∧ t.mtr.cur = Period.init 1 s.lark.time))

/-- A debug pause presents a nonce; only a token for it, signed under an unrevoked root, unlocks; 10 s without one ends it. (1) DEBUG_HOLD before step 6 in lifecycle PRODUCTION, boot ROM started and none pending, begins a pause with a 32-byte nonce that ends 10 s later; (2) DEBUG_UNLOCK_TOKEN in a pause unlocks debug with the token's scope exactly when it names this device and the nonce and both signatures verify under an unrevoked root key pair of the fuses; otherwise debug stays as it was; the pause is over either way; without a pause nothing changes; (3) DEBUG_HOLD_TIMEOUT at its time ends the pause and changes nothing else. -/
def Obligations.DebugUnlocksOnlyByASignedToken : Prop :=
  (∀ s : State, s.pwr.st ≠ .off → s.boot.romReady = true → s.boot.stage ≠ 8 → s.boot.step < 6 → s.boot.hold = none →
    lifecycleCode s.boot.fuses.lifecycle = 0 →
    ∃ t h, exec .debugHold s = .next t ∧ t.boot.hold = some h ∧ h.nonce.length = 32 ∧
      t.boot.holdUntil = s.lark.time + 10000000000 ∧ t.boot.debugUnlocked = s.boot.debugUnlocked) ∧
  (∀ (s : State) (k : UnlockToken) (h : DebugPause), s.boot.hold = some h →
    ∃ t, exec (.debugUnlockToken k) s = .next t ∧ t.boot.hold = none ∧ t = { s with boot := t.boot } ∧
      (k.deviceId = deviceIdOf s.boot.fuses ∧ k.nonce = h.nonce ∧
        rootSigned s.boot.fuses k.rootIndex k.mldsaKey k.p384Key (tokenBytes k) k.mldsaSig k.p384Sig = true →
        t.boot.debugUnlocked = true ∧ t.boot.debugScope = k.scope) ∧
      (¬ (k.deviceId = deviceIdOf s.boot.fuses ∧ k.nonce = h.nonce ∧
        rootSigned s.boot.fuses k.rootIndex k.mldsaKey k.p384Key (tokenBytes k) k.mldsaSig k.p384Sig = true) →
        t.boot = { s.boot with hold := none })) ∧
  (∀ (s : State) (k : UnlockToken), s.boot.hold = none → exec (.debugUnlockToken k) s = .next s) ∧
  (∀ s : State, s.boot.hold.isSome = true → s.boot.holdUntil ≤ s.lark.time →
    exec .debugHoldTimeout s = .next { s with boot := { s.boot with hold := none } })

/-- A floor raise writes the other record copy and blows one epoch fuse; recovery writes both; an update writes the other slot. (1) RAISE_SVN_FLOOR of a value above the floor and at most the running SVN, with an epoch fuse left, completes with status 0: the floor is the value, the epoch count one higher, the copy in use the other one, valid for that epoch, the old copy and the flash slots as before; any other value completes with 0x0105 and changes nothing; with all 1,023 fuses blown it completes with 0x0614 and raises 0x0614. (2) RECOVERY_MESSAGE in a boot halted by RECORD_LOST that names this device and epoch and is signed writes its floor and counter into both copies at that epoch and lets the boot ROM run again. (3) FW_UPDATE of an accepted image writes it to the inactive slot, keeps the active slot's image, and makes that slot active. -/
def Obligations.AntiRollbackAdvancesOneEpoch : Prop :=
  (∀ (s : State) (q : QRef) (p : Packet), Turn s q 0x0006 p →
    (s.boot.floor < bits (p.w 0) 0 32 ∧ bits (p.w 0) 0 32 ≤ s.boot.svn ∧ s.boot.fuses.epoch < 1023 →
      ∃ d u, exec (.raiseSvnFloor q) s = .next (finish q d u) ∧ d.status = 0 ∧ d.res0 = s.boot.fuses.epoch + 1 ∧
        u.boot.floor = bits (p.w 0) 0 32 ∧ u.boot.fuses.epoch = s.boot.fuses.epoch + 1 ∧ u.boot.updCnt = s.boot.updCnt ∧
        u.boot.rollSel = !s.boot.rollSel ∧ rollCopy u.boot s.boot.rollSel = rollCopy s.boot s.boot.rollSel ∧
        rollValid u.boot.fuses.dus u.boot.fuses.epoch (rollCopy u.boot u.boot.rollSel) = true ∧
        (rollCopy u.boot u.boot.rollSel).seq = (rollCopy s.boot s.boot.rollSel).seq + 1 ∧
        u.boot.flash.slotA = s.boot.flash.slotA ∧ u.boot.flash.slotB = s.boot.flash.slotB ∧ u = { s with boot := u.boot }) ∧
    (s.boot.svn < bits (p.w 0) 0 32 ∨ bits (p.w 0) 0 32 ≤ s.boot.floor →
      exec (.raiseSvnFloor q) s = .next (finish q (Done.fail 0x0105 0x40) s)) ∧
    (s.boot.floor < bits (p.w 0) 0 32 ∧ bits (p.w 0) 0 32 ≤ s.boot.svn ∧ 1023 ≤ s.boot.fuses.epoch →
      exec (.raiseSvnFloor q) s = .next (finish q (Done.fail 0x0614 1023) (raisePlain 0x0614 none 0xFFFF s)))) ∧
  (∀ (s : State) (m : RecoveryMsg), s.pwr.st ≠ .off → s.boot.stage = 4 → s.boot.code = 0x24 →
    m.deviceId = deviceIdOf s.boot.fuses → m.epoch = s.boot.fuses.epoch →
    rootSigned s.boot.fuses m.rootIndex m.mldsaKey m.p384Key (recoveryBytes m) m.mldsaSig m.p384Sig = true →
    ∃ t, exec (.recoveryMessage m) s = .next t ∧ t.boot.stage = 1 ∧ t.boot.flash.roll0 = t.boot.flash.roll1 ∧
      t.boot.flash.roll0.floor = m.floor ∧ t.boot.flash.roll0.counter = m.counter ∧
      rollValid t.boot.fuses.dus t.boot.fuses.epoch t.boot.flash.roll0 = true ∧ t.boot.fuses = s.boot.fuses) ∧
  (∀ (s : State) (q : QRef) (p : Packet) (img : List Byte) (a : Bool), Turn s q 0x0007 p → s.boot.pldmUpd = false →
    0x2000 ≤ bits (p.w 1) 0 32 → bits (p.w 1) 0 32 ≤ 15728640 → dvaRead s p.ctx (p.w 0) (bits (p.w 1) 0 32) .read true = .ok img →
    ImageOk s.boot s.boot.floor img → activeSlot s.boot.flash = some a →
    ∃ d u, exec (.fwUpdate q) s = .next (finish q d u) ∧ d.status = 0 ∧ d.res0 = b2n (!a) ∧
      slotImage u.boot (!a) = img ∧ slotImage u.boot a = slotImage s.boot a ∧ activeSlot u.boot.flash = some (!a) ∧
      u = { s with boot := u.boot })

/-- A completed command's record goes to its ring slot, then the counter advances, then MSI-X is sent if IRQ is set. For every host queue with a current unsealed packet and no reset waiting, and every completion without result data: finish stores the 32-byte record (TAG, STATUS, PHASE 1 on even passes, DETAIL, RES0, RES1) at the status ring base + 32 x (records written mod 2^c), then the counter one higher as an aligned 8-byte little-endian write at its address, and sends MSI-X exactly if FLAGS.IRQ is set; the queue is Ready again (Error if it was in Error) with the entry appended to its duplicate window of 64; every other queue, context and object, chip memory and every other block are unchanged, and so is every host byte outside the record and the counter. -/
def Obligations.CompletionPostsRecordCounterInterrupt : Prop :=
  ∀ (s : State) (q : Nat) (p : Packet) (d : Done), (getQ s q).cur = some p → (getQ s q).resetBy = none → p.isSealed = false →
    d.data = [] →
    ∀ r : StatusRec, r = { tag := p.tag, status := d.status, dup := false, sealed := false, phase := false, detail := d.detail, rlen := 0, res0 := d.res0, res1 := d.res1 } →
    ∃ t, finish (.host q) d s = t ∧
      getQ t q = (getQ s q).completed { tag := p.tag, digest := p.digest, rec_ := r, sealedOut := [] } ∧
      (∀ j, j ≠ q → getQ t j = getQ s j) ∧
      t.hostMem = memWrite (memWrite s.hostMem ((getQ s q).cq + 32 * ((getQ s q).written.toNat % 2 ^ (getQ s q).c))
          (recBytes { r with phase := (getQ s q).written.toNat / 2 ^ (getQ s q).c % 2 == 0 }))
        (getQ s q).cntAddr (natLE 4 ((getQ s q).cnt + 1).toNat ++ zeros 4) ∧
      t.out = s.out ++ (if bitOf p.flags 3 then [Out.msix (ctxFn s (getQ s q).ctx) (getQ s q).vec] else []) ∧
      t = { s with host := { s.host with queues := t.host.queues }, hostMem := t.hostMem, out := t.out } ∧
      ∀ a, (a < (getQ s q).cq + 32 * ((getQ s q).written.toNat % 2 ^ (getQ s q).c) ∨
          (getQ s q).cq + 32 * ((getQ s q).written.toNat % 2 ^ (getQ s q).c) + 32 ≤ a) →
        (a < (getQ s q).cntAddr ∨ (getQ s q).cntAddr + 8 ≤ a) → memGet t.hostMem a = memGet s.hostMem a

/-- A queue is fetched from only while its status ring has a free record, and no unreleased record is overwritten. A status ring has a free record exactly while the number of records written minus DNK_KQ_CQH is less than 2^c (serial arithmetic). While it has none, KCP_FETCH at that queue, and DMA_COPY, DMA_FILL, DMA_MARKER, LAUNCH and LAUNCH_MARKER at one that holds no descriptor yet, change nothing at all, so nothing is fetched and no packet is dropped; and a record written while one is free lands in a slot that holds no record still unreleased. -/
def Obligations.FullStatusRingStopsFetching : Prop :=
  (∀ v : Queue, ringRoom v = true ↔ (v.written - v.released).toNat < 2 ^ v.c) ∧
  (∀ (s : State) (q : Nat), ringRoom (getQ s q) = false → exec (.kcpFetch q) s = .next s ∧
    ((getQ s q).desc = none → exec (.dmaCopy q) s = .next s ∧ exec (.dmaFill q) s = .next s ∧ exec (.dmaMarker q) s = .next s ∧
      exec (.launch q) s = .next s ∧ exec (.launchMarker q) s = .next s)) ∧
  (∀ (v : Queue) (k : BitVec 32), v.c ≤ 15 → ringRoom v = true → (k - v.released).toNat < (v.written - v.released).toNat →
    k.toNat % 2 ^ v.c ≠ v.written.toNat % 2 ^ v.c)

/-- DOORBELL sets the producer index or raises 0x0107; STATUS_RELEASE frees records; DNK_ADMQ_CTL enables with its configuration. With registers open and a live queue q that function f may reach: (1) DOORBELL of v at most 2^s slots ahead of the fetch index sets the producer index of a KCP, DMA or launch queue to v and changes no other register of it nor any other queue; the present value again changes nothing; (2) v further ahead, or behind, only raises 0x0107 with v in [31:0] and q in [47:32]; (3) STATUS_RELEASE sets the released count alone; (4) an access by a function that may not reach the queue leaves every queue as it was and raises 0x0208 with FOREIGN set; (5) ADMQ_CTL_WRITE by the physical function that raises EN with s and c in range takes the configuration: queue 0 is Ready at indexes zero with the configured rings and vector, its counter and duplicate window kept and the counter written to its address; (6) one with EN kept at 1 that changes another field is discarded with 0x0109; (7) EN falling with nothing running leaves queue 0 Absent, counter and window kept. -/
def Obligations.DoorbellsReleasesAndAdminEnable : Prop :=
  (∀ (s : State) (f : Fn) (q : Nat) (v : BitVec 32), s.up → queueLive s q = true → mayReach f (queueFn s q) = true →
    (∃ t, exec (.statusRelease f q v) s = .next t ∧ getQ t q = { getQ s q with released := v } ∧
      (∀ j, j ≠ q → getQ t j = getQ s j) ∧ t = { s with host := { s.host with queues := t.host.queues } }) ∧
    ((getQ s q).typ ≠ 3 → (v - (getQ s q).fetch).toNat ≤ 2 ^ (getQ s q).s →
      (v = (getQ s q).prod → exec (.doorbell f q v) s = .next s) ∧
      (v ≠ (getQ s q).prod → ∃ t, exec (.doorbell f q v) s = .next t ∧ getQ t q = { getQ s q with prod := v, db := (getQ t q).db } ∧
        (∀ j, j ≠ q → getQ t j = getQ s j) ∧
        t = { s with host := { s.host with queues := t.host.queues, dbSerial := s.host.dbSerial + 1 } })) ∧
    (2 ^ (getQ s q).s < (v - (getQ s q).fetch).toNat →
      exec (.doorbell f q v) s = .next (raiseEv 0x0107 none 0xFFFF (v.toNat + q * 2 ^ 32) s))) ∧
  (∀ (s : State) (f : Fn) (q : Nat) (v : BitVec 32), s.up → mayReach f (queueFn s q) = false →
    exec (.doorbell f q v) s = .next (raiseEv 0x0208 none 0xFFFF (requesterId f) { s with glb := { s.glb with foreign := true } }) ∧
    exec (.statusRelease f q v) s = .next (raiseEv 0x0208 none 0xFFFF (requesterId f) { s with glb := { s.glb with foreign := true } })) ∧
  (∀ (s : State) (v : BitVec 32), s.up → s.host.admq.q = 0 → s.host.admq.en = false → v.getLsbD 0 = true →
    6 ≤ bits v.toNat 12 4 → 6 ≤ bits v.toNat 16 4 → (getQ s 0).cur = none →
    ∃ t, exec (.admqCtlWrite .pf v) s = .next t ∧ t.host.admq.en = true ∧
      getQ t 0 = { Queue.init with st := .ready, typ := 0, s := bits v.toNat 12 4, c := bits v.toNat 16 4, vec := bits v.toNat 1 11, sq := s.host.admq.sq.toNat, cq := s.host.admq.cq.toNat, cntAddr := s.host.admq.cnt.toNat, cnt := (getQ s 0).cnt, dup := (getQ s 0).dup, mirror := (getQ s 0).mirror, mirrorRecv := (getQ s 0).mirrorRecv } ∧
      (∀ j, j ≠ 0 → getQ t j = getQ s j) ∧
      t.hostMem = memWrite s.hostMem s.host.admq.cnt.toNat (natLE 4 (getQ s 0).cnt.toNat ++ zeros 4) ∧ t.mem = s.mem) ∧
  (∀ (s : State) (v : BitVec 32), s.up → s.host.admq.en = true → v.getLsbD 0 = true →
    6 ≤ bits v.toNat 12 4 → 6 ≤ bits v.toNat 16 4 →
    (bits v.toNat 1 11, bits v.toNat 12 4, bits v.toNat 16 4) ≠ (s.host.admq.vec, s.host.admq.s, s.host.admq.c) →
    exec (.admqCtlWrite .pf v) s = .next (raiseEv 0x0109 none 0xFFFF 0x30000 { s with glb := { s.glb with range := true } })) ∧
  (∀ (s : State) (v : BitVec 32), s.up → s.host.admq.q = 0 → s.host.admq.en = true → v.getLsbD 0 = false →
    6 ≤ bits v.toNat 12 4 → 6 ≤ bits v.toNat 16 4 → (getQ s 0).cur = none → (getQ s 0).typ = 0 →
    ∃ t, exec (.admqCtlWrite .pf v) s = .next t ∧ t.host.admq.en = false ∧ (getQ t 0).st = .absent ∧ (getQ t 0).fetch = 0 ∧
      (getQ t 0).cnt = (getQ s 0).cnt ∧ (getQ t 0).dup = (getQ s 0).dup)

/-- A packet lies at the fetch index of queue `q`, whole and covered by the producer index: its header is `hdr`, its slots `n`. -/
def Fetchable (s : State) (q : Nat) (hdr : List Byte) (n : Nat) : Prop :=
  canFetch s q 0 = true ∧ (getQ s q).resetBy = none ∧ hdr = ringSlots s (getQ s q) 1 ∧ n = (64 + 8 * (field hdr 0xC 2 % 512) + 63) / 64 ∧
    field hdr 0 2 = 0x4B01 ∧ field hdr 0xC 2 % 512 ≤ 504 ∧ n ≤ 2 ^ (getQ s q).s ∧ n ≤ ((getQ s q).prod - (getQ s q).fetch).toNat

/-- KCP_FETCH takes a covered packet, stops a queue at one it cannot locate, and answers a repeated tag from the window. At a queue that can fetch: (1) a covered, unsealed packet without WAIT whose tag is not in the window and which passes the checks becomes the queue's running packet with its opcode, tag and parameters, and the fetch index moves past its slots; (2) a wrong VERSION, or PLEN over 504 or beyond the ring, completes with 0x0101 or 0x0103 and leaves the queue in Error with the fetch index at it; (3) a packet not covered stays: nothing changes; (4) a covered packet with RETRY set whose tag and digest equal the newest window entry of that tag gets the cached record with DUP set: the counter advances, the window stays and nothing runs; (5) any other repeated tag gets a record with 0x0411, the window stays and nothing runs. (6) START_TIMEOUT completes a packet that has not started TIMEOUT microseconds after its fetch with 0x0705, and none earlier. (7) MCTP_KCP of a located, unsealed packet of a fresh tag without WAIT that passes the checks of context 0 over MCTP is held by the management pseudo-queue. -/
def Obligations.FetchLocatesChecksAndRetries : Prop :=
  (∀ (s : State) (q : Nat) (hdr : List Byte) (n : Nat), Fetchable s q hdr n → bitOf (field hdr 4 2) 2 = false →
    (∀ e ∈ (getQ s q).dup, e.tag ≠ field hdr 8 4) → bitOf (field hdr 4 2) 1 = false →
    ∀ p : Packet, p = parsePacket hdr (sub (ringSlots s (getQ s q) n) 64 (8 * (field hdr 0xC 2 % 512))) s.lark.time p.fence →
    checkPacket false (getQ s q).ctx hdr p s = none →
    ∃ t p', exec (.kcpFetch q) s = .next t ∧ p' = { p with fence := p'.fence } ∧
      getQ t q = { getQ s q with fetch := (getQ s q).fetch + BitVec.ofNat 32 n, cur := some p', st := .running, db := (getQ t q).db } ∧
      (∀ j, j ≠ q → getQ t j = getQ s j) ∧ t = { s with host := { s.host with queues := t.host.queues } }) ∧
  (∀ (s : State) (q : Nat) (hdr : List Byte), canFetch s q 0 = true → (getQ s q).resetBy = none → hdr = ringSlots s (getQ s q) 1 →
    (getQ s q).prod ≠ (getQ s q).fetch →
    (field hdr 0 2 ≠ 0x4B01 → ∃ t, exec (.kcpFetch q) s = .next t ∧ (getQ t q).st = .error ∧ (getQ t q).errStatus = 0x0101 ∧
      (getQ t q).fetch = (getQ s q).fetch ∧ (getQ t q).cnt = (getQ s q).cnt + 1) ∧
    (field hdr 0 2 = 0x4B01 → 504 < field hdr 0xC 2 % 512 ∨ 2 ^ (getQ s q).s < (64 + 8 * (field hdr 0xC 2 % 512) + 63) / 64 →
      ∃ t, exec (.kcpFetch q) s = .next t ∧ (getQ t q).st = .error ∧ (getQ t q).errStatus = 0x0103 ∧
        (getQ t q).fetch = (getQ s q).fetch ∧ (getQ t q).cnt = (getQ s q).cnt + 1) ∧
    (field hdr 0 2 = 0x4B01 → field hdr 0xC 2 % 512 ≤ 504 → (64 + 8 * (field hdr 0xC 2 % 512) + 63) / 64 ≤ 2 ^ (getQ s q).s →
      ((getQ s q).prod - (getQ s q).fetch).toNat < (64 + 8 * (field hdr 0xC 2 % 512) + 63) / 64 →
      exec (.kcpFetch q) s = .next s)) ∧
  (∀ (s : State) (q : Nat) (hdr : List Byte) (n : Nat) (e : DupEntry), Fetchable s q hdr n → bitOf (field hdr 4 2) 2 = false →
    ((getQ s q).dup.filter fun x => x.tag == field hdr 8 4).getLast? = some e →
    ∃ t, exec (.kcpFetch q) s = .next t ∧ (getQ t q).dup = (getQ s q).dup ∧ (getQ t q).cur = none ∧ (getQ t q).st = .ready ∧
      (getQ t q).cnt = (getQ s q).cnt + 1 ∧ t.mem = (if e.sealedOut.isEmpty then s.mem else t.mem) ∧
      (e.sealedOut = [] → bitOf (field hdr 4 2) 4 = true →
        e.digest = packetDigest hdr (sub (ringSlots s (getQ s q) n) 64 (8 * (field hdr 0xC 2 % 512))) →
        t.hostMem = memWrite (memWrite s.hostMem ((getQ s q).cq + 32 * ((getQ s q).written.toNat % 2 ^ (getQ s q).c))
            (recBytes { e.rec_ with dup := true, phase := (getQ s q).written.toNat / 2 ^ (getQ s q).c % 2 == 0 }))
          (getQ s q).cntAddr (natLE 4 ((getQ s q).cnt + 1).toNat ++ zeros 4)) ∧
      (bitOf (field hdr 4 2) 4 = false ∨
        e.digest ≠ packetDigest hdr (sub (ringSlots s (getQ s q) n) 64 (8 * (field hdr 0xC 2 % 512))) →
        field (recBytes { tag := field hdr 8 4, status := 0x0411, dup := false, sealed := false, phase := (getQ s q).written.toNat / 2 ^ (getQ s q).c % 2 == 0, detail := Config.statusDetail 0x0411, rlen := 0, res0 := 0, res1 := 0 }) 4 2 = 0x0411 ∧
        t.hostMem = memWrite (memWrite s.hostMem ((getQ s q).cq + 32 * ((getQ s q).written.toNat % 2 ^ (getQ s q).c))
            (recBytes { tag := field hdr 8 4, status := 0x0411, dup := false, sealed := false, phase := (getQ s q).written.toNat / 2 ^ (getQ s q).c % 2 == 0, detail := Config.statusDetail 0x0411, rlen := 0, res0 := 0, res1 := 0 }))
          (getQ s q).cntAddr (natLE 4 ((getQ s q).cnt + 1).toNat ++ zeros 4))) ∧
  (∀ (s : State) (q : Nat) (p : Packet), (getQ s q).typ = 0 → (getQ s q).cur = some p → p.started = false → p.timeout ≠ 0 →
    serves s (.host q) = true →
    (p.at_ + p.timeout * 1000 ≤ s.lark.time → ∃ u, exec (.startTimeout (.host q)) s =
      .next (finish (.host q) (Done.fail 0x0705 (s.lark.time / 2 ^ 32)) u) ∧ getQ u q = { getQ s q with st := .running, edge := none }) ∧
    (s.lark.time < p.at_ + p.timeout * 1000 → exec (.startTimeout (.host q)) s = .next s)) ∧
  (∀ (s : State) (pkt : List Byte), serves s .mgmt = true → s.host.mgmt = none → field (sub pkt 0 64) 0 2 = 0x4B01 →
    field (sub pkt 0 64) 0xC 2 % 512 ≤ 504 → bitOf (field (sub pkt 0 64) 4 2) 2 = false → bitOf (field (sub pkt 0 64) 4 2) 1 = false →
    (∀ e ∈ s.host.mgmtDup, e.tag ≠ field (sub pkt 0 64) 8 4) →
    ∀ p : Packet, p = parsePacket (sub pkt 0 64) (sub pkt 64 (8 * (field (sub pkt 0 64) 0xC 2 % 512))) s.lark.time p.fence →
    checkPacket true 0 (sub pkt 0 64) p s = none →
    ∃ p', exec (.mctpKcp pkt) s = .next { s with host := { s.host with mgmt := some p' } } ∧ p' = { p with fence := p'.fence })

/-- NOP, GET_INFO, TIME_READ, SNAPSHOT, COUNTER_SELECT and ECHO complete with their results. At its turn: (1) NOP completes with status 0 and no result; (2) GET_INFO with part code, chip number, running SVN and the first 8 identifier bytes; (3) TIME_READ with fabric time, STATE and the 32-bit LRK_OFFSET; each of these changes nothing else. (4) SNAPSHOT freezes the counter slots and returns the new LRK_SNAP_SEQ. (5) COUNTER_SELECT of a listed event, slot and instance stores the event and the selecting context in that slot and in no other; an unlisted block, slot, instance or event completes with 0x0105. (6) ECHO returns a copy of its parameters when the result buffer can take them, and completes with 0x0106 and the length needed when RBUF_LEN is smaller. -/
def Obligations.QueriesAndEchoChangeNothing : Prop :=
  (∀ (s : State) (q : QRef) (p : Packet), Turn s q 0x0000 p → exec (.nop q) s = .next (finish q (Done.res 0 0) s)) ∧
  (∀ (s : State) (q : QRef) (p : Packet), Turn s q 0x0001 p → ∃ r0, exec (.getInfo q) s =
      .next (finish q (Done.res r0 (leNat (s.boot.deviceId.take 8))) s) ∧ bits r0 0 4 = s.boot.fuses.part.toNat % 16 ∧
      bits r0 4 17 = s.pwr.straps.pos.toNat ∧ r0 / 2 ^ 32 = s.boot.svn % 2 ^ 32) ∧
  (∀ (s : State) (q : QRef) (p : Packet), Turn s q 0x0A00 p → exec (.timeRead q) s =
      .next (finish q (Done.res s.lark.time (s.lark.state.toNat + wrap 32 s.lark.offset * 2 ^ 32)) s)) ∧
  (∀ (s : State) (q : QRef) (p : Packet), Turn s q 0x0F02 p → ∃ u, exec (.snapshot q) s =
      .next (finish q (Done.res (s.lark.snapSeq + 1).toNat 0) u) ∧ u.lark.snapSeq = s.lark.snapSeq + 1 ∧
      u.lark.snapTime = (larkEdge s.lark).time ∧ u.host = s.host ∧
      (tabWf Slot.init s.hsc = true → ∀ k, tabGet Slot.init u.hsc k = { tabGet Slot.init s.hsc k with snap := (tabGet Slot.init s.hsc k).cnt })) ∧
  (∀ (s : State) (q : QRef) (p : Packet), Turn s q 0x0F01 p →
    ∀ blk slot ev inst, blk = bits (p.w 0) 0 8 → slot = bits (p.w 0) 8 8 → ev = bits (p.w 0) 16 16 → inst = bits (p.w 0) 32 16 →
    (slot < slotCount blk → inst < slotInsts s blk → ev = 0 ∨ ev ∈ slotEvents blk → s.host.shared = false ∨ p.ctx = 0 →
      ∃ u, exec (.counterSelect q) s = .next (finish q Done.ok u) ∧ u = { s with hsc := u.hsc } ∧
        tabGet Slot.init u.hsc (slotKey blk inst slot) = { tabGet Slot.init s.hsc (slotKey blk inst slot) with sel := ev, by_ := p.ctx } ∧
        ∀ k, k ≠ slotKey blk inst slot → tabGet Slot.init u.hsc k = tabGet Slot.init s.hsc k) ∧
    (slotCount blk ≤ slot ∨ slotInsts s blk ≤ inst ∨ ev ≠ 0 ∧ ev ∉ slotEvents blk →
      ∃ det, exec (.counterSelect q) s = .next (finish q (Done.fail 0x0105 det) s))) ∧
  (∀ (s : State) (q : QRef) (p : Packet), Turn s q 0x0F05 p →
    (bufErr s q p p.params.length = none → exec (.echo q) s = .next (finish q { Done.ok with data := p.params } s)) ∧
    (∀ n, q = .host n → p.isSealed = false → p.rbufLen < p.params.length →
      exec (.echo q) s = .next (finish q (Done.fail 0x0106 p.params.length) s)))

/-- TIME_CONFIG, BEAT_ARM, BEAT_DISARM, SET_TENANCY and SET_HOST_MODE set what they name and nothing else, or refuse with a status. At its turn: (1) TIME_CONFIG of source 0 or 1 and a slew of 1 to 500 sets source, PTP port, HOLDOVER_EN and slew; a slew outside that range completes with 0x0105 and changes nothing; (2) BEAT_ARM with k from 10 to 30 arms the lowest generator that is free, with k, count zero and the issuing context as owner, and returns its number; in Sole tenancy with all sixteen enabled it completes with 0x0310; k outside completes with 0x0105; (3) BEAT_DISARM of an enabled generator of the context, or from context 0, disables it and keeps its count; (4) SET_TENANCY of 1 to 8 partitions on a KL5-A without other contexts or VF Enable, and (5) SET_HOST_MODE without other contexts, record the new mode and extend accumulator 6 and the measurement log by one entry; with a context other than 0 both complete with 0x0409 and change nothing. -/
def Obligations.TimeBeatAndTenancyCommands : Prop :=
  (∀ (s : State) (q : QRef) (p : Packet), Turn s q 0x0A01 p →
    (bits (p.w 0) 0 2 = 0 ∨ bits (p.w 0) 0 2 = 1 → 1 ≤ bits (p.w 1) 0 16 → bits (p.w 1) 0 16 ≤ 500 →
      exec (.timeConfig q) s = .next (finish q Done.ok { s with lark := { s.lark with
        src := BitVec.ofNat 2 (bits (p.w 0) 0 2), ptpPort := BitVec.ofNat 2 (bits (p.w 0) 2 2), holdoverEn := bitOf (p.w 0) 4, slew := bits (p.w 1) 0 16 } })) ∧
    (bits (p.w 0) 0 2 ≠ 3 → bits (p.w 1) 0 16 < 1 ∨ 500 < bits (p.w 1) 0 16 →
      exec (.timeConfig q) s = .next (finish q (Done.fail 0x0105 0x48) s))) ∧
  (∀ (s : State) (q : QRef) (p : Packet), Turn s q 0x0A02 p → s.host.shared = false →
    (∀ n, 10 ≤ bits (p.w 0) 0 5 → bits (p.w 0) 0 5 ≤ 30 → n < 16 → (getBeat s n).en = false → (∀ m, m < n → (getBeat s m).en = true) →
      ∃ u, exec (.beatArm q) s = .next (finish q (Done.res n 0) u) ∧ u = { s with lark := u.lark } ∧
        getBeat u n = { k := bits (p.w 0) 0 5, en := true, owner := p.ctx, cnt := 0, base := s.lark.time } ∧
        (∀ m, m ≠ n → getBeat u m = getBeat s m) ∧ u.lark = { s.lark with beats := u.lark.beats }) ∧
    (10 ≤ bits (p.w 0) 0 5 → bits (p.w 0) 0 5 ≤ 30 → (∀ n, n < 16 → (getBeat s n).en = true) →
      exec (.beatArm q) s = .next (finish q (Done.fail 0x0310 16) s)) ∧
    (bits (p.w 0) 0 5 < 10 ∨ 30 < bits (p.w 0) 0 5 → exec (.beatArm q) s = .next (finish q (Done.fail 0x0105 0x40) s))) ∧
  (∀ (s : State) (q : QRef) (p : Packet) (n : Nat), Turn s q 0x0A03 p → n = bits (p.w 0) 0 4 → (getBeat s n).en = true →
    p.ctx = 0 ∨ (getBeat s n).owner = p.ctx → s.lark.stepWait = none →
    ∃ u, exec (.beatDisarm q) s = .next (finish q Done.ok u) ∧ u = { s with lark := u.lark } ∧
      getBeat u n = { getBeat s n with en := false } ∧ ∀ m, m ≠ n → getBeat u m = getBeat s m) ∧
  (∀ (s : State) (q : QRef) (p : Packet) (n : Nat), Turn s q 0x0008 p → bitOf (p.w 0) 0 = true → n = bits (p.w 0) 8 4 →
    s.boot.measLog.length < 256 → s.host.vfEnable = false → s.boot.fuses.part ≠ 2 →
    (anyTenant s = false → 1 ≤ n → n ≤ 8 → ∃ u, exec (.setTenancy q) s = .next (finish q Done.ok u) ∧ u.host.shared = true ∧
      u.host.parts = n ∧ u.host.ctxs = s.host.ctxs ∧ u.boot.measLog.length = s.boot.measLog.length + 1 ∧
      (∀ i, i ≠ 6 → u.boot.accs.getD i [] = s.boot.accs.getD i []) ∧ u.mem = s.mem) ∧
    (anyTenant s = true → exec (.setTenancy q) s = .next (finish q (Done.fail 0x0409 (4 * 2 ^ 24 + tenancyWord s.host % 2 ^ 24)) s))) ∧
  (∀ (s : State) (q : QRef) (p : Packet), Turn s q 0x0009 p → s.boot.measLog.length < 256 →
    (anyTenant s = false → ∃ u, exec (.setHostMode q) s = .next (finish q Done.ok u) ∧
      u.host = { s.host with confidential := bitOf (p.w 0) 0 } ∧ u.boot.measLog.length = s.boot.measLog.length + 1 ∧
      u = { s with host := u.host, boot := u.boot }) ∧
    (anyTenant s = true → exec (.setHostMode q) s = .next (finish q (Done.fail 0x0409 (4 * 2 ^ 24 + tenancyWord s.host % 2 ^ 24)) s)))

/-- Reports, log and certificates go to the result buffer; SPDM and PLDM answer over MCTP and change nothing else. At its turn, with a result buffer that takes the data: (1) REPORT_PLATFORM returns 3,928 bytes, body then signatures; (2) REPORT_CONTEXT of a context in scope with at most 2,048 entries returns its report; (3) MEAS_LOG_READ returns the entries from the first one on, 64 bytes each, and a count of 0 or over 256 completes with 0x0105; (4) CERT_READ returns the identity chain or the alias certificate; each changes nothing else. (5) The SPDM requests that need no key answer one message each in a powered chip; (6) those that sign answer one message each once the alias keys exist (the message bodies are the model's, log 45) and only draw free values; (7) the PLDM base and sensor rows answer one message each; (8) a PLDM update request is accepted when none runs and refused with 0x81 while one runs, and an image that passes the checks goes to the inactive slot as FW_UPDATE writes it. -/
def Obligations.AttestationAnswersOverKcpAndMctp : Prop :=
  (∀ (s : State) (q : QRef) (p : Packet), Turn s q 0x0400 p → bufErr s q p 3928 = none →
    ∃ bs, exec (.reportPlatform q) s = .next (finish q { Done.ok with data := bs } s) ∧ bs.length = 3928 ∧
      field bs 0 4 = 0x4B4C5250 ∧ sub bs 16 32 = sub p.params 0 32 ∧ field bs 48 8 = s.lark.time % 2 ^ 64) ∧
  (∀ (s : State) (q : QRef) (p : Packet), Turn s q 0x0401 p → (getCtx s (p.w 0)).st ≠ 0 → mayName s p.ctx (p.w 0) = true →
    ∀ n, n = (reportEntries s (p.w 0)).length → n ≤ 2048 → bufErr s q p (1848 + 64 * n + 3408) = none →
    ∃ bs, exec (.reportContext q) s = .next (finish q { Done.ok with data := bs } s) ∧ bs.length = 1848 + 64 * n + 3408 ∧
      field bs 6 2 = 2 ∧ sub bs 16 32 = sub p.params 8 32) ∧
  (∀ (s : State) (q : QRef) (p : Packet), Turn s q 0x0402 p →
    (∀ bs, 1 ≤ bits (p.w 0) 8 9 → bits (p.w 0) 8 9 ≤ 256 →
      bs = ((s.boot.measLog.drop (bits (p.w 0) 0 8)).take (bits (p.w 0) 8 9)).flatMap measBytes → bufErr s q p bs.length = none →
      exec (.measLogRead q) s = .next (finish q { Done.ok with data := bs } s)) ∧
    (bits (p.w 0) 8 9 = 0 ∨ 256 < bits (p.w 0) 8 9 → exec (.measLogRead q) s = .next (finish q (Done.fail 0x0105 0x41) s))) ∧
  (∀ (s : State) (q : QRef) (p : Packet) (bs : List Byte), Turn s q 0x0403 p →
    bs = (if bitOf (p.w 0) 0 then s.boot.aliasCert else s.boot.flash.certs) → bufErr s q p bs.length = none →
      exec (.certRead q) s = .next (finish q { Done.ok with data := bs } s)) ∧
  (∀ s : State, s.up →
    (∀ c ∈ [Instr.getVersion, .getCapabilities, .negotiateAlgorithms], ∃ k b, exec c s = .next { s with out := s.out ++ [Out.spdm k b] }) ∧
    (s.boot.aliasSeed ≠ [] → ∀ off len,
      exec .getDigests s = .next { s with out := s.out ++ [Out.spdm 0x01 (sha384 (s.boot.flash.certs ++ s.boot.aliasCert))] } ∧
      ∃ b, exec (.getCertificate off len) s = .next { s with out := s.out ++ [Out.spdm 0x02 b] } ∧
        b.drop 4 = ((s.boot.flash.certs ++ s.boot.aliasCert).drop off).take len) ∧
    (s.boot.aliasSeed ≠ [] → ∀ nonce, ∃ b, exec (.challenge nonce) s = .next { s with free := s.free + 1, out := s.out ++ [Out.spdm 0x03 b] }) ∧
    (s.boot.aliasSeed ≠ [] → ∀ nonce,
      exec (.getMeasurements 0xF0 nonce) s = .next { s with out := s.out ++ [Out.spdm 0x60 (platformReport s nonce)] } ∧
      ∀ i, 1 ≤ i → i ≤ 8 → ∃ b, exec (.getMeasurements i nonce) s = .next { s with free := s.free + 1, out := s.out ++ [Out.spdm 0x60 b] } ∧
        sub b 1 48 = sub (s.boot.accs.getD (i - 1) []) 0 48) ∧
    exec .pldmBaseDiscovery s = .next { s with out := s.out ++ [Out.pldm 0 [0, 2, 5]] } ∧
    exec (.pldmSensorRead .vin) s = .next { s with out := s.out ++ [Out.pldm 2 [0, s.pwr.vin]] } ∧
    (∀ k, sensorKnown k = true → exec (.pldmSensorRead k) s = .next { s with out := s.out ++ [Out.pldm 2 [0, sensorValue s k]] })) ∧
  (∀ s : State, s.up → s.boot.stage = 8 →
    (s.boot.pldmUpd = false → exec (.pldmFwUpdate .request) s =
      .next { s with boot := { s.boot with pldmUpd := true }, out := s.out ++ [Out.pldm 5 [0]] }) ∧
    (s.boot.pldmUpd = true → exec (.pldmFwUpdate .request) s = .next { s with out := s.out ++ [Out.pldm 5 [0x81]] }) ∧
    (∀ img a, s.boot.pldmUpd = true → ImageOk s.boot s.boot.floor img → activeSlot s.boot.flash = some a →
      ∃ t, exec (.pldmFwUpdate (.image img)) s = .next t ∧ t.boot.pldmUpd = false ∧ slotImage t.boot (!a) = img ∧
        slotImage t.boot a = slotImage s.boot a ∧ activeSlot t.boot.flash = some (!a) ∧ t.out = s.out ++ [Out.pldm 5 [0]]))

/-- MEM_ALLOC gives zeroed, mapped storage; MEM_MAP and MEM_UNMAP change mappings alone; MEM_FREE and the releases drop objects. At its turn: (1) MEM_ALLOC of a listed kind, page and size that fits returns a handle and a DVA: the object is live, mapped there whole with read, write and accumulate, its device storage reads zero, and no other byte of chip memory and no other context's mapping changes; (2) MEM_MAP of an aligned range clear of live mappings, in the half its kind requires, adds that mapping with the rights given and keeps every other; (3) MEM_UNMAP of page-aligned ends removes exactly the range: no address in it is mapped, every other address translates as before; (4) MEM_FREE of an unpinned object unmaps it everywhere, revokes its windows, removes it and zeroes its device storage; pinned memory completes with 0x0401 and changes nothing; (5) OBJ_RELEASE, PROG_UNLOAD and MODEL_UNLOAD drop the host reference: with device references left the object stays, Doomed, and OBJ_RELEASE returns their number; with none it is removed; (6) a handle that names no object completes with 0x0403. -/
def Obligations.MemoryObjectsAllocateMapAndFree : Prop :=
  (∀ (s : State) (q : QRef) (p : Packet) (k : MemKind) (page : Nat) (a : Nat × Nat), Turn s q 0x0200 p →
    memKindOf (bits (p.w 1) 0 2) = some k → page = pageOf k (bits (p.w 1) 4 2) → page ≠ 0 → p.w 0 ≠ 0 → p.w 0 % page = 0 →
    (k = .host → (getCtx s p.ctx).root = 0) → s.host.objs.length < 1048576 → placeMem s p.ctx k (p.w 0) page false = some a →
    (∀ m : Mapping, m.dva = a.2 → m.len = p.w 0 → m.page = page →
      tablesUsed (addMap p.ctx m s) (getCtx s p.ctx).part ≤ tableLimit) →
    ∃ h u, exec (.memAlloc q) s = .next (finish q (Done.res h a.2) u) ∧
      (∃ o, (h, o) ∈ u.host.objs ∧ o.ctx = p.ctx ∧ o.host = true ∧ o.refs = 0 ∧ o.kind = .mem k a.1 (p.w 0) page) ∧
      (∃ m ∈ (getCtx u p.ctx).maps, m = { dva := a.2, len := p.w 0, page := page, obj := h, off := 0, r := true, w := true, acc := true }) ∧
      (∀ c, c ≠ p.ctx → getCtx u c = getCtx s c) ∧
      (k ≠ .host → u.hostMem = s.hostMem ∧ ∀ x, memGet u.mem x = if a.1 ≤ x ∧ x < a.1 + p.w 0 then 0 else memGet s.mem x) ∧
      (k = .host → u.mem = s.mem) ∧ u = { s with host := u.host, mem := u.mem, hostMem := u.hostMem }) ∧
  (∀ (s : State) (q : QRef) (p : Packet) (o : Obj) (k : MemKind) (base size page : Nat), Turn s q 0x0202 p →
    useObj s p.ctx (p.w 0) 1 = .ok o → o.kind = .mem k base size page → p.w 1 % page = 0 → p.w 2 ≠ 0 → p.w 2 % page = 0 → p.w 2 ≤ size →
    (k = .host → p.w 1 + p.w 2 ≤ 0x800000000000) → (k ≠ .host → 0x800000000000 ≤ p.w 1 ∧ p.w 1 + p.w 2 ≤ 0x1000000000000) →
    (∀ m ∈ (getCtx s o.ctx).maps, p.w 1 + p.w 2 ≤ m.dva ∨ m.dva + m.len ≤ p.w 1) →
    (∀ m : Mapping, m.dva = p.w 1 → m.len = p.w 2 → m.page = page → tablesUsed (addMap o.ctx m s) (getCtx s o.ctx).part ≤ tableLimit) →
    ∃ u m, exec (.memMap q) s = .next (finish q Done.ok u) ∧
      m = { dva := p.w 1, len := p.w 2, page := page, obj := p.w 0, off := 0, r := bitOf (p.w 3) 0, w := bitOf (p.w 3) 1, acc := bitOf (p.w 3) 2 } ∧
      (∀ x, x ∈ (getCtx u o.ctx).maps ↔ x = m ∨ x ∈ (getCtx s o.ctx).maps) ∧
      (∀ c, c ≠ o.ctx → getCtx u c = getCtx s c) ∧ u = { s with host := { s.host with ctxs := u.host.ctxs } }) ∧
  (∀ (s : State) (q : QRef) (p : Packet), Turn s q 0x0203 p → p.w 0 % 4096 = 0 → p.w 1 % 4096 = 0 →
    (∀ m ∈ (getCtx s p.ctx).maps, m.dva < p.w 0 + p.w 1 → p.w 0 < m.dva + m.len →
      (p.w 0 ≤ m.dva ∨ (p.w 0 - m.dva) % m.page = 0) ∧ (m.dva + m.len ≤ p.w 0 + p.w 1 ∨ p.w 0 + p.w 1 ≤ m.dva ∨ (p.w 0 + p.w 1 - m.dva) % m.page = 0) ∧
      ∀ o, getObj? s m.obj = some o → o.refs = 0) →
    ∃ u, exec (.memUnmap q) s = .next (finish q Done.ok u) ∧
      (∀ x, p.w 0 ≤ x → x < p.w 0 + p.w 1 → findMap (getCtx u p.ctx) x = none) ∧
      (∀ x, x < p.w 0 ∨ p.w 0 + p.w 1 ≤ x →
        (findMap (getCtx u p.ctx) x).map (fun m => (m.obj, m.off + (x - m.dva), m.r, m.w, m.acc)) =
          (findMap (getCtx s p.ctx) x).map (fun m => (m.obj, m.off + (x - m.dva), m.r, m.w, m.acc))) ∧
      ∀ c, c ≠ p.ctx → getCtx u c = getCtx s c) ∧
  (∀ (s : State) (q : QRef) (p : Packet) (o : Obj), Turn s q 0x0201 p → useObj s p.ctx (p.w 0) 1 = .ok o →
    (o.refs = 0 → ∃ u, exec (.memFree q) s = .next (finish q Done.ok u) ∧ getObj? u (p.w 0) = none ∧
      (∀ c, ∀ m ∈ (getCtx u c).maps, m.obj ≠ p.w 0) ∧ (∀ e ∈ u.host.wins, e.2.obj = p.w 0 → e.2.live = false) ∧
      ∀ r ∈ objRanges o, ∀ x, r.1 ≤ x → x < r.1 + r.2 → memGet u.mem x = 0) ∧
    (o.refs ≠ 0 → ∃ det, exec (.memFree q) s = .next (finish q (Done.fail 0x0401 det) s))) ∧
  (∀ (s : State) (q : QRef) (p : Packet) (o : Obj) (c : Instr) (k : Nat),
    (c = .objRelease q ∧ k = bits (p.w 0) 12 4 ∧ Turn s q 0x0107 p ∨ c = .progUnload q ∧ k = 2 ∧ Turn s q 0x0501 p ∨
      c = .modelUnload q ∧ k = 3 ∧ Turn s q 0x0504 p) → useObj s p.ctx (p.w 0) k = .ok o →
    ∃ d u, exec c s = .next (finish q d u) ∧ d.status = 0 ∧ (c = .objRelease q → d.res0 = deviceRefs s (p.w 0)) ∧
      (deviceRefs s (p.w 0) ≠ 0 → getObj? u (p.w 0) = some { o with host := false } ∧ u = { s with host := { s.host with objs := u.host.objs } }) ∧
      (deviceRefs s (p.w 0) = 0 → getObj? u (p.w 0) = none)) ∧
  (∀ (s : State) (q : QRef) (p : Packet), getObj? s (p.w 0) = none →
    (Turn s q 0x0201 p → exec (.memFree q) s = .next (finish q (Done.fail 0x0403 0) s)) ∧
    (Turn s q 0x0107 p → exec (.objRelease q) s = .next (finish q (Done.fail 0x0403 0) s)))

/-- WIN_OPEN opens a range under a fresh key, WIN_REVOKE ends it; CTX_QUERY, the pool length and ATS invalidation. At its turn: (1) WIN_OPEN of a non-empty range within a live memory object, with peer set 0, opens a window at an index that holds no live window and none revoked within the last second, with the rights given, and returns index and generation; a length of 0 or a range past the object completes with 0x0105; (2) WIN_REVOKE of a live key in scope makes it name no window, revoked at the present fabric time, and leaves every other window; a key that names none completes with 0x0403; (3) CTX_QUERY of a context in scope returns its state and last fault address and changes nothing. (4) DNK_HPOOL_LEN_WRITE stores a length up to 2^40 with its low 21 bits zero while no host-kind object exists, and otherwise only raises 0x0411 (its DETAIL is free, log 11); (5) ATS_INVALIDATION drops exactly the cached translations that touch the range. -/
def Obligations.WindowsQueriesAndPool : Prop :=
  (∀ (s : State) (q : QRef) (p : Packet) (o : Obj) (k : MemKind) (base size page : Nat), Turn s q 0x0204 p → bits (p.w 0) 12 4 = 1 →
    useObj s p.ctx (p.w 0) 1 = .ok o → o.kind = .mem k base size page →
    (p.w 2 ≠ 0 → p.w 1 + p.w 2 ≤ size → bits (p.w 3) 32 32 = 0 → s.host.wins.length < 1048576 →
      ∃ i g u, exec (.winOpen q) s = .next (finish q (Done.res (i + g * 2 ^ 20) 0) u) ∧ i < 1048576 ∧ g < 4096 ∧
        (∀ e ∈ s.host.wins, e.1 = i → e.2.live = false ∧ e.2.revokedAt + 1000000000 ≤ s.lark.time) ∧
        winOf u (i + g * 2 ^ 20) = some (i, { gen := g, live := true, obj := p.w 0, off := p.w 1, len := p.w 2, r := bitOf (p.w 3) 0, w := bitOf (p.w 3) 1, acc := bitOf (p.w 3) 2, peers := 0, ctx := o.ctx, revokedAt := 0 }) ∧
        (∀ e, e.1 ≠ i → (e ∈ u.host.wins ↔ e ∈ s.host.wins)) ∧ u = { s with host := { s.host with wins := u.host.wins } }) ∧
    (p.w 2 = 0 ∨ size < p.w 1 + p.w 2 → ∃ det, exec (.winOpen q) s = .next (finish q (Done.fail 0x0105 det) s))) ∧
  (∀ (s : State) (q : QRef) (p : Packet), Turn s q 0x0205 p →
    (∀ i w, winOf s (bits (p.w 0) 0 32) = some (i, w) → inScope s p.ctx w.ctx = true →
      ∃ u, exec (.winRevoke q) s = .next (finish q Done.ok u) ∧ (∀ e ∈ u.host.wins, e.1 = i → e.2.live = false ∧ e.2.revokedAt = s.lark.time) ∧
        winOf u (bits (p.w 0) 0 32) = none ∧ ∀ e, e.1 ≠ i → (e ∈ u.host.wins ↔ e ∈ s.host.wins)) ∧
    (winOf s (bits (p.w 0) 0 32) = none → exec (.winRevoke q) s = .next (finish q (Done.fail 0x0403 0) s))) ∧
  (∀ (s : State) (q : QRef) (p : Packet), Turn s q 0x0103 p → mayName s p.ctx (bits (p.w 0) 0 12) = true →
    exec (.ctxQuery q) s = .next (finish q (Done.res (getCtx s (bits (p.w 0) 0 12)).st (getCtx s (bits (p.w 0) 0 12)).lastFault) s)) ∧
  (∀ (s : State) (v : BitVec 64), s.up →
    (poolRanges s = [] → v.toNat < 2 ^ 40 + 2 ^ 21 → exec (.dnkHpoolLenWrite v) s =
      .next { s with host := { s.host with hpoolLen := BitVec.ofNat 64 (v.toNat / 2 ^ 21 * 2 ^ 21) } }) ∧
    (poolRanges s ≠ [] → ∃ det, exec (.dnkHpoolLenWrite v) s = .next (raiseEv 0x0411 none 0xFFFF det s))) ∧
  (∀ (s : State) (a n : Nat), ∃ t, exec (.atsInvalidation a n) s = .next t ∧ t = { s with host := { s.host with ats := t.host.ats } } ∧
    ∀ r, r ∈ t.host.ats ↔ r ∈ s.host.ats ∧ (r.1 + r.2 ≤ a ∨ a + n ≤ r.1))

/-- QUEUE_CREATE, QUEUE_RESET, QUEUE_DESTROY, FAULT_RESUME and WAIT_MET follow the queue states of Table 6.7. At its turn: (1) QUEUE_CREATE with parameters in range in a context of fewer than 64 queues creates a Ready queue of that type, rings and vector with every index at zero, and writes the counter 0 to its address; with 64 queues it completes with 0x0302 and DETAIL 64; (2) QUEUE_RESET of another KCP or DMA queue on which no command runs leaves it Ready with its ring indexes at zero and its counter and duplicate window as they were, and returns how many packets it discarded; while a command runs there it waits for it; (3) of its own queue it writes its record first; (4) QUEUE_DESTROY of another such queue that nothing waits on removes it, and of the admin queue completes with 0x0201; (5) FAULT_RESUME on a DMA or launch queue with a pending fault clears it: with w1 [0] 1 the entry completes with 0x0204, with 0 it stays; without a fault it completes with 0x0401, in a context that is not Active with 0x0403; (6) WAIT_MET starts a waiting queue once the target counter has reached the value, and leaves it otherwise; (7) the check of a wait of context c on queue b for value v, made by the recognised arming queue: an absent target gives 0x0403; one of another context 0x0202; with d = (v - counter) mod 2^32 it is met for d = 0 or d above 2^31, refused with 0x0603 and the value for d = 2^31, and for d from 1 to 2^31 - 1 refused with 0x0406 when the target is the arming queue itself, and armed when the target holds no edge and is not the arming queue. -/
def Obligations.QueuesAreCreatedResetAndDestroyed : Prop :=
  (∀ (s : State) (q : QRef) (p : Packet), Turn s q 0x0104 p → queueParams s p = none →
    ((ctxQueues s p.ctx).length < 64 → ∀ n, freeQueue s p.ctx = some n →
      ∃ u, exec (.queueCreate q) s = .next (finish q (Done.res n 0) u) ∧ (getQ u n).st = .ready ∧ (getQ u n).typ = bits (p.w 0) 0 8 ∧
        (getQ u n).ctx = p.ctx ∧ (getQ u n).vec = bits (p.w 0) 16 11 ∧ (getQ u n).fetch = 0 ∧ (getQ u n).written = 0 ∧ (getQ u n).cnt = 0 ∧
        (bits (p.w 0) 0 8 ≠ 3 → (getQ u n).s = bits (p.w 0) 8 4 ∧ (getQ u n).c = bits (p.w 0) 12 4 ∧ (getQ u n).sq = p.w 1 ∧
          (getQ u n).cq = p.w 2 ∧ (getQ u n).cntAddr = p.w 3 ∧ u.hostMem = memWrite s.hostMem (p.w 3) (zeros 8)) ∧
        (bits (p.w 0) 0 8 = 3 → (getQ u n).mirror = bits (p.w 1) 0 24 ∧ (getQ u n).mirrorRecv = bitOf (p.w 2) 0 ∧ u.hostMem = s.hostMem) ∧
        (∀ j, j ≠ n → getQ u j = getQ s j) ∧ u = { s with host := u.host, hostMem := u.hostMem }) ∧
    (64 ≤ (ctxQueues s p.ctx).length → exec (.queueCreate q) s = .next (finish q (Done.fail 0x0302 64) s))) ∧
  (∀ (s : State) (q : QRef) (p : Packet) (n : Nat), n = bits (p.w 0) 0 16 → q ≠ .host n → (getQ s n).st ≠ .absent → (getQ s n).typ < 2 →
    inScope s p.ctx (getQ s n).ctx = true →
    (Turn s q 0x0106 p → (∀ r, (getQ s n).cur = some r → r.started = false) →
      ∃ u, exec (.queueReset q) s = .next (finish q (Done.res (discarded s (getQ s n)) 0) u) ∧ (getQ u n).st = .ready ∧ (getQ u n).fetch = 0 ∧
        (getQ u n).prod = 0 ∧ (getQ u n).written = 0 ∧ (getQ u n).released = 0 ∧ (getQ u n).cur = none ∧ (getQ u n).desc = none ∧
        (getQ u n).cnt = (getQ s n).cnt ∧ (getQ u n).dup = (getQ s n).dup ∧ u.hostMem = s.hostMem ∧ u.mem = s.mem) ∧
    (∀ r, Turn s q 0x0106 p → (getQ s n).cur = some r → r.started = true → (getQ s n).resetBy = none →
      ∃ t, exec (.queueReset q) s = .next t ∧ getQ t n = { getQ s n with resetBy := some (0, some q) }) ∧
    (Turn s q 0x0105 p → isAdminQueue s n = false → (∀ r, (getQ s n).cur = some r → r.started = false) →
      (∀ j, (getQ s j).edge.map Prod.fst ≠ some n) → (∀ e ∈ s.lnt.qps, e.2.edge.map Prod.fst ≠ some n ∧ e.2.failed = 0) →
      ∃ u, exec (.queueDestroy q) s = .next (finish q Done.ok u) ∧ getQ u n = Queue.init ∧
        (∀ j, j ≠ n → getQ u j = { getQ s j with cur := (getQ u j).cur }) ∧ u.hostMem = s.hostMem ∧ u.mem = s.mem) ∧
    (Turn s q 0x0105 p → isAdminQueue s n = true → exec (.queueDestroy q) s = .next (finish q (Done.fail 0x0201 0) s))) ∧
  (∀ (s : State) (n : Nat) (p : Packet), Turn s (.host n) 0x0106 p → bits (p.w 0) 0 16 = n → inScope s p.ctx (getQ s n).ctx = true →
    (getQ s n).resetBy = none → p.isSealed = false →
    ∃ t, exec (.queueReset (.host n)) s = .next t ∧ (getQ t n).st = .ready ∧ (getQ t n).fetch = 0 ∧ (getQ t n).written = 0 ∧ (getQ t n).cur = none ∧
      (getQ t n).cnt = (getQ s n).cnt + 1) ∧
  (∀ (s : State) (q : QRef) (p : Packet) (n : Nat), Turn s q 0x0108 p → n = bits (p.w 0) 0 16 → (getQ s n).st ≠ .absent → (getQ s n).typ ≠ 3 →
    inScope s p.ctx (getQ s n).ctx = true →
    (queueLive s n = false → exec (.faultResume q) s = .next (finish q (Done.fail 0x0403 0) s)) ∧
    (queueLive s n = true →
    (∀ f b, (getQ s n).fault = some f → (getQ s n).desc = some b →
      ∃ u, exec (.faultResume q) s = .next (finish q Done.ok u) ∧ (getQ u n).fault = none ∧
        (bitOf (p.w 1) 0 = false → getQ u n = { getQ s n with fault := none }) ∧
        (bitOf (p.w 1) 0 = true → (getQ u n).desc = none ∧ (getQ u n).cnt = (getQ s n).cnt + 1)) ∧
    ((getQ s n).fault = none → exec (.faultResume q) s = .next (finish q (Done.fail 0x0401 (getQ s n).st.code) s)))) ∧
  (∀ (s : State) (q w : Nat) (v : BitVec 32), (getQ s q).st = .waiting → (getQ s q).edge = some (w, v) →
    ((counterOf s w - v).toNat < 2 ^ 31 → ∃ t, exec (.waitMet (.queue q)) s = .next t ∧ getQ t q = { getQ s q with st := .running, edge := none } ∧
      (∀ j, j ≠ q → getQ t j = getQ s j) ∧ t = { s with host := { s.host with queues := t.host.queues } }) ∧
    (2 ^ 31 ≤ (counterOf s w - v).toNat → exec (.waitMet (.queue q)) s = .next s)) ∧
  (∀ (s : State) (c a b : Nat) (v : BitVec 32),
    ((getQ s b).st = .absent → waitCheck s c (· == a) b v = .error (0x0403, 0)) ∧
    ((getQ s b).st ≠ .absent → (getQ s b).ctx ≠ c → waitCheck s c (· == a) b v = .error (0x0202, 0)) ∧
    ((getQ s b).st ≠ .absent → (getQ s b).ctx = c →
      ((v - counterOf s b).toNat = 0 ∨ 2 ^ 31 < (v - counterOf s b).toNat → waitCheck s c (· == a) b v = .ok true) ∧
      ((v - counterOf s b).toNat = 2 ^ 31 → waitCheck s c (· == a) b v = .error (0x0603, v.toNat)) ∧
      (1 ≤ (v - counterOf s b).toNat → (v - counterOf s b).toNat < 2 ^ 31 → b = a → ∃ det, waitCheck s c (· == a) b v = .error (0x0406, det)) ∧
      (1 ≤ (v - counterOf s b).toNat → (v - counterOf s b).toNat < 2 ^ 31 → b ≠ a → nextEdge s b = none → waitCheck s c (· == a) b v = .ok false)))

/-- DMA and MEM copies and fills store what they say and nothing else; faults stall or fail; malformed descriptors complete with 0x01xx. With Dunnock not in Quarantine and Open host mode: (1) a held copy descriptor of non-zero length whose ranges do not overlap and may be read and written stores the source bytes at the destination and completes with 0; a fill stores byte j of the pattern wherever address mod 8 is j; a marker, and a length of 0, touches no memory; each keeps every device byte to which no byte of the destination translates, and every other part of State but meters and its queue's completion; (2) NOT_PRESENT stalls the queue at the descriptor with event 0x0210, and another cause completes it with 0x0204; overlapping ranges complete with 0x0105; (3) a descriptor with an unknown OP, fetched, completes with 0x0102 and the queue goes on; (4) MEM_COPY and MEM_FILL store the same, with RES0 the byte count of a copy; (5) a completed descriptor leaves its queue Ready, its counter one higher. -/
def Obligations.DmaCopiesFillsAndMarks : Prop :=
  (∀ (s : State) (q : Nat) (b bs : List Byte) (s' : State), runnable s q 1 = some b → quarantined s (unitId 8 0) = false → s.host.confidential = false →
    field b 0x20 8 ≠ 0 →
    (descOp b = 1 ∧ copyOverlaps (field b 0x10 8) (field b 0x18 8) (field b 0x20 8) = false ∧
        dvaRead s (getQ s q).ctx (field b 0x10 8) (field b 0x20 8) .read false = .ok bs ∨
      descOp b = 2 ∧ bs = patBytes (field b 0x28 8) (field b 0x18 8) (field b 0x20 8)) →
    dvaWrite s (getQ s q).ctx (field b 0x18 8) bs .write false = .ok s' →
    ∃ u, (descOp b = 1 → exec (.dmaCopy q) s = .next (finishDesc q 0 0 0 0 u)) ∧ (descOp b = 2 → exec (.dmaFill q) s = .next (finishDesc q 0 0 0 0 u)) ∧
      u = { s with mem := s'.mem, hostMem := s'.hostMem, mtr := u.mtr } ∧
      ∀ x, (∀ i, i < field b 0x20 8 → translate s (getQ s q).ctx (field b 0x18 8 + i) .write false ≠ .ok (.dev x)) → memGet u.mem x = memGet s.mem x) ∧
  (∀ pat dst len i, i < len → (patBytes pat dst len).getD i 0 = BitVec.ofNat 8 (pat / 2 ^ (8 * ((dst + i) % 8)))) ∧
  (∀ (s : State) (q : Nat) (b : List Byte), runnable s q 1 = some b → quarantined s (unitId 8 0) = false →
    (descOp b = 3 → exec (.dmaMarker q) s = .next (finishDesc q 0 0 0 0 s)) ∧
    (descOp b = 1 → field b 0x20 8 = 0 → exec (.dmaCopy q) s = .next (finishDesc q 0 0 0 0 s)) ∧
    (descOp b = 2 → field b 0x20 8 = 0 → exec (.dmaFill q) s = .next (finishDesc q 0 0 0 0 s)) ∧
    (descOp b = 1 → field b 0x20 8 ≠ 0 → copyOverlaps (field b 0x10 8) (field b 0x18 8) (field b 0x20 8) = true →
      exec (.dmaCopy q) s = .next (finishDesc q 0x0105 0x10 0 0 s)) ∧
    (descOp b = 1 → field b 0x20 8 ≠ 0 → copyOverlaps (field b 0x10 8) (field b 0x18 8) (field b 0x20 8) = false → s.host.confidential = false →
      ∀ n x, dvaRead s (getQ s q).ctx (field b 0x10 8) (field b 0x20 8) .read false = .error (.cause n x) →
        (n = 1 → ∃ u, exec (.dmaCopy q) s = .next (raiseEv 0x0210 (some (getQ s q).ctx) 0xFFFF (q * 2 ^ 48 + x) u) ∧
          getQ u q = { getQ s q with fault := some { cause := 1, access := 1, dva := x } } ∧ (∀ j, j ≠ q → getQ u j = getQ s j) ∧ u.mem = s.mem) ∧
        (n ≠ 1 → exec (.dmaCopy q) s = .next (finishDesc q 0x0204 1 0 0 s)))) ∧
  (∀ (s : State) (q : Nat) (b : List Byte), canFetch s q 1 = true → (getQ s q).prod ≠ (getQ s q).fetch → b = ringSlots s (getQ s q) 1 →
    descOp b < 1 ∨ 3 < descOp b →
    ∃ t, exec (.dmaCopy q) s = .next t ∧ (getQ t q).fetch = (getQ s q).fetch + 1 ∧ (getQ t q).cnt = (getQ s q).cnt + 1 ∧ (getQ t q).desc = none ∧
      (getQ t q).st = .ready ∧ t.mem = s.mem) ∧
  (∀ (s : State) (q : QRef) (p : Packet) (bs : List Byte) (s' : State), quarantined s (unitId 8 0) = false → s.host.confidential = false →
    (Turn s q 0x0206 p → p.w 2 ≠ 0 → copyOverlaps (p.w 0) (p.w 1) (p.w 2) = false → dvaRead s p.ctx (p.w 0) (p.w 2) .read false = .ok bs →
      dvaWrite s p.ctx (p.w 1) bs .write false = .ok s' → ∃ u, exec (.memCopy q) s = .next (finish q (Done.res (p.w 2) 0) u) ∧
        u = { s with mem := s'.mem, hostMem := s'.hostMem, mtr := u.mtr }) ∧
    (Turn s q 0x0206 p → p.w 2 ≠ 0 → copyOverlaps (p.w 0) (p.w 1) (p.w 2) = true →
      exec (.memCopy q) s = .next (finish q (Done.fail 0x0105 0x40) s)) ∧
    (Turn s q 0x0207 p → p.w 1 ≠ 0 → dvaWrite s p.ctx (p.w 0) (patBytes (p.w 2) (p.w 0) (p.w 1)) .write false = .ok s' →
      ∃ u, exec (.memFill q) s = .next (finish q (Done.res 0 0) u) ∧ u = { s with mem := s'.mem, hostMem := s'.hostMem, mtr := u.mtr })) ∧
  (∀ (s : State) (q st d : Nat) (b : List Byte), (getQ s q).desc = some b →
    (getQ (finishDesc q st d 0 0 s) q) = { getQ s q with st := if (getQ s q).st = .error then .error else .ready, desc := none, edge := none, fault := none, written := (getQ s q).written + 1, cnt := (getQ s q).cnt + 1 } ∧
    (finishDesc q st d 0 0 s).mem = s.mem)

/-- Contexts are created, and reset or destroyed once every engine has acknowledged; function resets, scrubs and CAR_PWR_EN. At its turn CTX_CREATE in range makes the lowest free number Active in its partition; CTX_RESET and CTX_DESTROY of an Active context in scope make it Resetting or Destroying with all fourteen engines to acknowledge, and refuse context 0 with 0x0201 and an Absent one with 0x0403. ENGINE_ACK of one of several engines leaves the rest to acknowledge; of the last, for a reset by no command, the context is Active with no mapping, or after a destroy Absent. ENGINE_ACK_TIMEOUT before 1 ms changes nothing, and after it counts as that engine's acknowledgement with a unit to report. CONTEXT_SCRUB_DONE ends the context's scrubs; PARTITION_SCRUB_DONE leaves a Scrubbing partition Vacant and unowned, its scrub sequence one higher. A function reset of the physical function resets its admin registers and every Active tenant context. VF Enable is set only in Shared tenancy. A time-share slot starts the next descriptor of the partition's DMA queue. CAR_PWR_EN low takes Idle or Run to Standby, and in Standby changes the pin and ends a SET_POWER_STATE under way with 0x0704 (the model's choice, log 53). -/
def Obligations.ContextsResetOnlyThroughTheirEngines : Prop :=
  (∀ (s : State) (q : QRef) (p : Packet) (c : Nat), Turn s q 0x0100 p → ctxCreateFault s p = none → (getPart s (ctxPart s p)).st ≠ 2 →
    c = lowestFree (ctxNumbers s) →
    ∃ u, exec (.ctxCreate q) s = .next (finish q (Done.res c 0) u) ∧ (getCtx u c).st = 1 ∧ (getCtx u c).part = ctxPart s p ∧
      (getCtx u c).creator = p.ctx ∧ (getCtx u c).root = p.w 0 ∧ (getCtx u c).notReady = bitOf (p.w 1) 8 ∧ (getCtx u c).maps = [] ∧
      (∀ j, j ≠ c → getCtx u j = getCtx s j) ∧ u.mem = s.mem ∧ u.hostMem = s.hostMem) ∧
  (∀ (s : State) (q : QRef) (p : Packet) (c : Nat) (destroy : Bool) (i : Instr), c = bits (p.w 0) 0 12 →
    (destroy = true ∧ i = .ctxDestroy q ∧ Turn s q 0x0101 p ∨ destroy = false ∧ i = .ctxReset q ∧ Turn s q 0x0102 p) →
    (c = 0 → exec i s = .next (finish q (Done.fail 0x0201 0) s)) ∧
    (c ≠ 0 → (getCtx s c).st = 0 ∨ (getCtx s c).st = 3 → exec i s = .next (finish q (Done.fail 0x0403 0) s)) ∧
    (c ≠ 0 → (getCtx s c).st = 1 → mayName s p.ctx c = true → ∃ u, exec i s = .next (markStarted q u) ∧
      (getCtx u c).st = (if destroy then 3 else 2) ∧
      (getCtx u c).wait = some { destroy := destroy, acks := engines, by_ := some q, since := s.lark.time, quar := none })) ∧
  (engines.length = 14 ∧ engines.Nodup) ∧
  (∀ (s : State) (c : Nat) (e : Engine) (w : ResetWait), s.up → (getCtx s c).wait = some w → e ∈ w.acks →
    ((∃ x ∈ w.acks, x ≠ e) → ∃ t, exec (.engineAck c e) s = .next t ∧ (getCtx t c).wait = some { w with acks := w.acks.filter (· != e) }) ∧
    (w.acks = [e] → w.by_ = none → ∃ t, exec (.engineAck c e) s = .next t ∧
      (w.destroy = true → getCtx t c = Ctx.init) ∧
      (w.destroy = false → (getCtx t c).st = 1 ∧ (getCtx t c).maps = [] ∧ (getCtx t c).wait = none)) ∧
    (s.lark.time < w.since + 1000000 → exec (.engineAckTimeout c e) s = .next s) ∧
    (w.since + 1000000 ≤ s.lark.time → (∃ x ∈ w.acks, x ≠ e) → ∃ t n, exec (.engineAckTimeout c e) s = .next t ∧
      (getCtx t c).wait = some { w with acks := w.acks.filter (· != e), quar := some n })) ∧
  (∀ (s : State) (c p : Nat), s.pwr.st ≠ .off →
    exec (.contextScrubDone c) s = .next { s with host := { s.host with scrubs := s.host.scrubs.filter fun r => r.ctx != c } } ∧
    ((getPart s p).st = 2 → s.host.vfEnable = false → ∃ t, exec (.partitionScrubDone p) s = .next t ∧ (getPart t p).st = 0 ∧
      (getPart t p).owner = none ∧ (getPart t p).scrubSeq = (getPart s p).scrubSeq + 1)) ∧
  (∀ s : State, s.up → ∃ t, exec (.functionLevelReset .pf) s = .next t ∧ t.host.admq = Admq.init ∧
    ∀ c, c ≠ 0 → (getCtx s c).st = 1 → (getCtx t c).st = 2) ∧
  (∀ (s : State) (n : Nat), s.up →
    (s.host.shared = true → s.host.vfEnable = false → ∃ t, exec (.vfEnableWrite true n) s = .next t ∧ t.host.vfEnable = true ∧ t.host.vfNum = n) ∧
    (s.host.shared = false → s.host.vfEnable = false → ∃ det, exec (.vfEnableWrite true n) s = .next (raiseEv 0x0201 none 0xFFFF det s)) ∧
    (s.host.vfEnable = false → exec (.vfEnableWrite false n) s = .next { s with host := { s.host with vfNum := 0 } })) ∧
  (∀ (s : State) (q : Nat) (v : Queue), s.up → s.host.shared = true → 1 < s.host.parts →
    (exec (.timeShareSlot .warbler) s = .next s) ∧
    ((s.host.queues.filter fun e => e.2.typ == 1 && (getCtx s e.2.ctx).part == s.lark.time / 1000 % s.host.parts) = [(q, v)] →
      descOp ((getQ s q).desc.getD (ringSlots s (getQ s q) 1)) = 1 → exec (.timeShareSlot .dunnock) s = exec (.dmaCopy q) s)) ∧
  (∀ (s : State) (held : Bool),
    (s.pwr.st = .idle ∨ s.pwr.st = .run → ∃ t, exec (.carPwrEnLow held) s = .next t ∧ t.pwr.st = .standby ∧ t.pwr.target = none) ∧
    (s.pwr.st = .standby → s.pwr.target = none → s.pwr.req = none → exec (.carPwrEnLow held) s = .next { s with pwr := { s.pwr with pins := { s.pwr.pins with carPwrEn := !held } } }) ∧
    (∀ q, s.pwr.st = .standby → s.pwr.req = some q → ∃ u, exec (.carPwrEnLow held) s = .next (finish q (Done.fail 0x0704 (abortDetail s)) u) ∧
      u = { s with pwr := { s.pwr with target := none, req := none, pins := { s.pwr.pins with carPwrEn := !held } } }))

/-- A sealed packet runs only if its tag verifies under the open channel and was not accepted before. At a queue that can fetch a covered packet with SEALED set in Confidential host mode, its context's channel Open and its TAG not in the duplicate window: (1) if the AES-256-GCM tag over header bytes 0x00 to 0x2F (RETRY read as 0) verifies under k_cmd, the tag was not accepted before and is less than 4,096 below the highest, fewer than 2^31 packets were accepted and the opened packet passes the checks, KCP_FETCH makes it the queue's packet with the plaintext as parameters and records the tag, so the same tag counts as replayed from then on; (2) if the tag does not verify it completes with 0x0502, counted, with no other effect; (3) if it verifies but the tag counts as replayed it completes with 0x0504, counted, with no other effect. Neither changes any context or chip memory. -/
def Obligations.SealedPacketsOpenOnceUnderTheChannel : Prop :=
  ∀ (s : State) (q : Nat) (hdr : List Byte) (n c : Nat) (params : List Byte), Fetchable s q hdr n → c = (getQ s q).ctx → s.host.confidential = true →
    bitOf (field hdr 4 2) 2 = true → bitOf (field hdr 4 2) 1 = false → (getCtx s c).chan.st = 2 → (∀ e ∈ (getQ s q).dup, e.tag ≠ field hdr 8 4) →
    params = sub (ringSlots s (getQ s q) n) 64 (8 * (field hdr 0xC 2 % 512)) →
    (∀ (text : List Byte) (p : Packet), gcmOpen (getCtx s c).chan.kCmd (natLE 8 1 ++ natLE 4 (field hdr 8 4))
        ((hdr.set 4 ((hdr.getD 4 0) &&& 0xEF)).take 0x30) params (sub hdr 0x30 16) = some text →
      (getCtx s c).chan.sealedCnt < 2 ^ 31 → tagReplayed (getCtx s c).chan (field hdr 8 4) = false →
      p = { parsePacket hdr params s.lark.time p.fence with params := text, accepted := true, kRes := (getCtx s c).chan.kRes, ctx := c } →
      checkPacket false c hdr p s = none →
      ∃ t p', exec (.kcpFetch q) s = .next t ∧ (getQ t q).cur = some p' ∧ p' = { p with fence := p'.fence } ∧ (getQ t q).st = .running ∧
        (getCtx t c).chan.sealedCnt = (getCtx s c).chan.sealedCnt + 1 ∧ tagReplayed (getCtx t c).chan (field hdr 8 4) = true ∧
        (∀ j, j ≠ c → getCtx t j = getCtx s j) ∧ t.mem = s.mem ∧ t.hostMem = s.hostMem) ∧
    (gcmOpen (getCtx s c).chan.kCmd (natLE 8 1 ++ natLE 4 (field hdr 8 4))
        ((hdr.set 4 ((hdr.getD 4 0) &&& 0xEF)).take 0x30) params (sub hdr 0x30 16) = none →
      ∃ t, exec (.kcpFetch q) s = .next t ∧ (getQ t q).cur = none ∧ (getQ t q).cnt = (getQ s q).cnt + 1 ∧ (getQ t q).st = .ready ∧
        t.host.authFail = incSat s.host.authFail ∧ t.host.ctxs = s.host.ctxs ∧ t.mem = s.mem) ∧
    (∀ text, gcmOpen (getCtx s c).chan.kCmd (natLE 8 1 ++ natLE 4 (field hdr 8 4))
        ((hdr.set 4 ((hdr.getD 4 0) &&& 0xEF)).take 0x30) params (sub hdr 0x30 16) = some text →
      (getCtx s c).chan.sealedCnt < 2 ^ 31 → tagReplayed (getCtx s c).chan (field hdr 8 4) = true →
      ∃ t, exec (.kcpFetch q) s = .next t ∧ (getQ t q).cur = none ∧ (getQ t q).cnt = (getQ s q).cnt + 1 ∧ (getQ t q).st = .ready ∧
        t.host.replayCnt = incSat s.host.replayCnt ∧ t.host.ctxs = s.host.ctxs ∧ t.mem = s.mem)

/-- KEY_LOAD fills the lowest Empty slot; KEY_STAGE, KEY_COMMIT, KEY_OLD_RELEASED and KEY_EVICT follow Table 8.5; others stay. At its turn with Nuthatch not in Quarantine: (1) KEY_LOAD of a blob that passes the checks, whose key the context does not hold, fills the lowest Empty slot of the context's partition; a blob that fails a check completes with that check's status and leaves every slot as it was; an accepted blob's version is not below the floor of its key identifier; (2) KEY_STAGE on a Live slot of a blob with the same identifier and attributes and a greater version makes it Staged, its key kept; a version not greater completes with 0x0504, another identifier or attributes with 0x0203; (3) KEY_COMMIT on a Staged slot switches to the staged key and keeps the old one, or with w0[8] drops the staged key; on any other it completes with 0x0401; (4) KEY_OLD_RELEASED makes a Switching slot Live without the old key and completes the commit; (5) KEY_EVICT empties a Live or Staged slot; root slots refuse KEY_EVICT and KEY_STAGE with 0x0201; (6) KEY_QUERY returns attributes and state and changes nothing. -/
def Obligations.KeySlotsLoadStageCommitAndEvict : Prop :=
  (∀ (s : State) (q : QRef) (p : Packet) (b : List Byte), Turn s q 0x0300 p → quarantined s (unitId 7 0) = false → s.nut.policyLost = false →
    dvaRead s p.ctx (p.w 0) (bits (p.w 1) 0 16) .read false = .ok b → field b 0 4 ≠ 0x4B4C434F →
    (∀ k n, openBlob s p.ctx (bits (p.w 1) 0 16) b = .ok k → holdsKey s p.ctx k.id = false → freeSlot s p.ctx = some n →
      ∃ u, exec (.keyLoad q) s = .next (finish q (Done.res n 0) u) ∧ getSlotK u n = { KSlot.init with st := 1, ctx := p.ctx, key := k } ∧
        (getSlotK s n).st = 0 ∧ isRootSlot s n = false ∧
        (∀ m ∈ partSlots s (getCtx s p.ctx).part, m < n → (getSlotK s m).st ≠ 0 ∨ isRootSlot s m = true) ∧ OnlySlot n s u ∧
        floorOf s.nut k.id ≤ k.version ∧ k.id = sub b 0x10 16 ∧ k.version = field b 0x30 4) ∧
    (∀ e, openBlob s p.ctx (bits (p.w 1) 0 16) b = .error e → ∃ u, exec (.keyLoad q) s = .next (finish q (Done.fail e.1 e.2) u) ∧
      u.nut = s.nut ∧ u = { s with host := { s.host with authFail := u.host.authFail, replayCnt := u.host.replayCnt } })) ∧
  (∀ (s : State) (q : QRef) (p : Packet) (n : Nat) (v : KSlot) (b : List Byte) (k : Key), Turn s q 0x0304 p → quarantined s (unitId 7 0) = false →
    n = bits (p.w 0) 0 8 → nameSlot s p.ctx n = .ok v → v = getSlotK s n → v.root = false → v.st = 1 → s.nut.policyLost = false →
    dvaRead s p.ctx (p.w 1) (bits (p.w 2) 0 16) .read false = .ok b → openBlob s p.ctx (bits (p.w 2) 0 16) b = .ok k →
    (k.id = v.key.id → k.attr = v.key.attr → v.key.version < k.version → ∃ u, exec (.keyStage q) s = .next (finish q Done.ok u) ∧
      getSlotK u n = { v with st := 2, staged := some k } ∧ OnlySlot n s u) ∧
    (k.id = v.key.id → k.attr = v.key.attr → k.version ≤ v.key.version → ∃ u, exec (.keyStage q) s = .next (finish q (Done.fail 0x0504 6) u) ∧
      u = { s with host := { s.host with replayCnt := incSat s.host.replayCnt } }) ∧
    (k.id ≠ v.key.id ∨ k.attr ≠ v.key.attr → ∃ d, exec (.keyStage q) s = .next (finish q (Done.fail 0x0203 d) s))) ∧
  (∀ (s : State) (q : QRef) (p : Packet) (n : Nat) (v : KSlot), Turn s q 0x0305 p → quarantined s (unitId 7 0) = false → n = bits (p.w 0) 0 8 →
    nameSlot s p.ctx n = .ok v → v = getSlotK s n →
    (v.st = 2 → bitOf (p.w 0) 8 = true → ∃ u, exec (.keyCommit q) s = .next (finish q Done.ok u) ∧ getSlotK u n = { v with st := 1, staged := none } ∧
      OnlySlot n s u) ∧
    (∀ k, v.st = 2 → bitOf (p.w 0) 8 = false → v.staged = some k → ∃ u, exec (.keyCommit q) s = .next (markStarted q u) ∧
      getSlotK u n = { v with st := 3, key := k, staged := none, old := some v.key, by_ := some q } ∧ OnlySlot n s u) ∧
    (v.st ≠ 2 → v.evicted = false → exec (.keyCommit q) s = .next (finish q (Done.fail 0x0401 v.st) s))) ∧
  (∀ (s : State) (n : Nat), (getSlotK s n).st = 3 → ∃ u, getSlotK u n = { getSlotK s n with st := 1, old := none, by_ := none } ∧ OnlySlot n s u ∧
    (∀ q, (getSlotK s n).by_ = some q → exec (.keyOldReleased n) s = .next (finish q Done.ok u)) ∧
    ((getSlotK s n).by_ = none → exec (.keyOldReleased n) s = .next u)) ∧
  (∀ (s : State) (q : QRef) (p : Packet) (n : Nat) (v : KSlot), quarantined s (unitId 7 0) = false → n = bits (p.w 0) 0 8 →
    nameSlot s p.ctx n = .ok v → v = getSlotK s n →
    (Turn s q 0x0301 p → v.root = false → v.st = 1 ∨ v.st = 2 → ∃ u, exec (.keyEvict q) s = .next (finish q Done.ok u) ∧
      getSlotK u n = { KSlot.init with evicted := true } ∧ OnlySlot n s u) ∧
    (v.root = true → (Turn s q 0x0301 p → exec (.keyEvict q) s = .next (finish q (Done.fail 0x0201 0) s)) ∧
      (Turn s q 0x0304 p → exec (.keyStage q) s = .next (finish q (Done.fail 0x0201 0) s))) ∧
    (Turn s q 0x0307 p → exec (.keyQuery q) s = .next (finish q (Done.res v.key.attr.toNat v.st) s)))

/-- KEY_DERIVE makes the child of R158 in the lowest Empty slot; KEY_WRAP returns a blob that opens to the same key. At its turn with Nuthatch not in Quarantine: (1) KEY_DERIVE from a live parent that allows the attributes fills the lowest Empty slot with the key whose material and identifier are the HKDF outputs of R158 over salt, parent, attributes and label, version 0, MEASURED if w0[8] or the parent has it; with missing bits it completes with 0x0203 and their bitmap; no other slot changes; (2) KEY_WRAP of an EXPORTABLE key under a WRAP slot returns 144 bytes more than the material, under a nonce of 12 free bytes, and changes nothing but the count of free draws; without EXPORTABLE or WRAP it completes with 0x0203; (3) the blob made of two keys with 16-byte identifiers carries the wrapped key's identifier, attributes and version and opens, under the wrapper, to its material. -/
def Obligations.KeysDeriveAndWrapAsStated : Prop :=
  (∀ (s : State) (q : QRef) (p : Packet) (v : KSlot), Turn s q 0x0302 p → quarantined s (unitId 7 0) = false →
    nameSlot s p.ctx (bits (p.w 0) 0 8) = .ok v → rsvdWord 1 attrMask (p.w 1) = none → v.st ≠ 0 →
    (∀ n prk, deriveMissing v.key.attr.toNat (p.w 1) = 0 → freeSlot s p.ctx = some n →
      prk = hkdfExtract (if bitOf (p.w 0) 8 then s.nut.msKey else ascii "KL5-STABLE-V1") v.key.material →
      ∃ u, exec (.keyDerive q) s = .next (finish q (Done.res n 0) u) ∧ OnlySlot n s u ∧ (getSlotK u n).st = 1 ∧ (getSlotK u n).ctx = p.ctx ∧
        (getSlotK u n).key.version = 0 ∧
        (getSlotK u n).key.material = hkdfExpand prk (ascii "KL5-DERIVE-V1" ++ sub p.params 8 8 ++ sub p.params 16 64) 32 ∧
        (getSlotK u n).key.id = hkdfExpand prk (ascii "KL5-KEYID-V1" ++ sub p.params 8 8 ++ sub p.params 16 64) 16 ∧
        (getSlotK u n).key.attr.getLsbD 17 = (bitOf (p.w 0) 8 || v.key.attr.getLsbD 17)) ∧
    (deriveMissing v.key.attr.toNat (p.w 1) ≠ 0 →
      exec (.keyDerive q) s = .next (finish q (Done.fail 0x0203 (deriveMissing v.key.attr.toNat (p.w 1))) s))) ∧
  (∀ (s : State) (q : QRef) (p : Packet) (v w : KSlot), Turn s q 0x0303 p → quarantined s (unitId 7 0) = false →
    nameSlot s p.ctx (bits (p.w 0) 0 8) = .ok v → nameSlot s p.ctx (bits (p.w 0) 8 8) = .ok w → v.root = false → v.st ≠ 0 → w.st ≠ 0 →
    (w.key.attr.getLsbD 13 = true → v.key.attr.getLsbD 16 = true → bufErr s q p (144 + v.key.material.length) = none →
      ∃ nonce, nonce.length = 12 ∧
        exec (.keyWrap q) s = .next (finish q { Done.ok with data := wrapBlob v.key w.key nonce } { s with free := s.free + 1 })) ∧
    (w.key.attr.getLsbD 13 = false ∨ v.key.attr.getLsbD 16 = false → ∃ d, exec (.keyWrap q) s = .next (finish q (Done.fail 0x0203 d) s))) ∧
  (∀ (k w : Key) (nonce b : List Byte), k.id.length = 16 → w.id.length = 16 → nonce.length = 12 → b = wrapBlob k w nonce →
    b.length = 144 + k.material.length ∧ field b 0 4 = 0x4B4C4B42 ∧ field b 6 1 = 1 ∧ sub b 8 8 = natLE 8 k.attr.toNat ∧ sub b 0x10 16 = k.id ∧
      sub b 0x20 16 = w.id ∧ field b 0x30 4 = k.version % 2 ^ 32 ∧
      gcmOpen (wrapKey w.material) (sub b 0x38 12) (sub b 0 0x80) (sub b 0x80 k.material.length) (sub b (0x80 + k.material.length) 16) =
        some k.material)

/-- KEY_UPDATE passes only signed, newer messages for this chip; it advances one epoch and applies floors to every slot. At its turn: (1) with no update authority a context other than 0 gets 0x0201 and nothing changes; (2) a well-formed message that passes steps 2 to 6 of R163, with an epoch and a log entry left and the policy not lost, completes with its counter and the new epoch count: counter, floors and epoch are the new ones, accumulator 7 and the log are extended; a live non-root slot with no staged key whose version is below its floor is emptied, one whose staged key of the same identifier meets the floor switches to it, and one that meets its floor, or is a root, keeps its key and state; (3) the checks pass only if the device identifier is this chip's, both signatures verify and the counter is greater than the stored one; (4) one that fails a check completes with its status and changes no slot and no floor. -/
def Obligations.KeyUpdateRaisesFloorsAndEvictsStaleKeys : Prop :=
  (∀ (s : State) (q : QRef) (p : Packet), Turn s q 0x0306 p → s.nut.authority = [] → p.ctx ≠ 0 →
    exec (.keyUpdate q) s = .next (finish q (Done.fail 0x0201 0) s)) ∧
  (∀ (s : State) (q : QRef) (p : Packet) (m : List Byte), Turn s q 0x0306 p → s.nut.authority ≠ [] ∨ p.ctx = 0 → s.nut.policyLost = false →
    dvaRead s p.ctx (p.w 0) (bits (p.w 1) 0 16) .read false = .ok m → updateForm (bits (p.w 1) 0 16) m = none →
    (updateFault s m = none → s.boot.fuses.epoch < 1023 → s.boot.measLog.length < 256 →
      ∃ u, exec (.keyUpdate q) s = .next (finish q (Done.res (field m 0x18 4) (s.boot.fuses.epoch + 1)) u) ∧ u.nut.updCnt = field m 0x18 4 ∧
        u.nut.floors = newFloors s.nut m ∧ u.boot.fuses.epoch = s.boot.fuses.epoch + 1 ∧ u.boot.measLog.length = s.boot.measLog.length + 1 ∧
        u.boot.floor = s.boot.floor ∧
        ∀ n v, v = getSlotK s n → v.st ≠ 0 →
          (v.root = false → v.staged = none → v.key.version < floorOf u.nut v.key.id → (getSlotK u n).st = 0) ∧
          (∀ k, v.root = false → v.staged = some k → k.id = v.key.id → v.key.version < floorOf u.nut v.key.id → floorOf u.nut v.key.id ≤ k.version →
            (getSlotK u n).key = k) ∧
          (v.root = true ∨ floorOf u.nut v.key.id ≤ v.key.version → getSlotK u n = v)) ∧
    (updateFault s m = none → sub m 8 16 = s.boot.deviceId ∧ s.nut.updCnt < field m 0x18 4 ∧
      Config.mldsaOk (sub m 0x50 1952) (ctxMsg "KL5-UPDATE" (sub m 0 (0x860 + 24 * field m 6 2))) (sub m (0x860 + 24 * field m 6 2) 3309) = true ∧
      Config.p384Ok (sub m 0x7F0 97) (sub m 0 (0x860 + 24 * field m 6 2)) (sub m (0x860 + 24 * field m 6 2 + 3312) 96) = true) ∧
    (∀ e, updateFault s m = some e → ∃ u, exec (.keyUpdate q) s = .next (finish q (Done.fail e.1 e.2) u) ∧ u.nut = s.nut ∧ u.boot = s.boot))

/-- A Wren's command runs only the instruction it stands at, PRED can skip it, and scalar instructions write DST and retire. (1) For every Wren row, a command for a Wren that runs nothing, or stands at another class or operation, changes nothing; at its own instruction with PRED set and SR[PREG] zero it retires without any effect. (2) ADD, SUB, AND, OR, XOR, MUL give 64-bit results; CMPEQ, CMPLTU, CMPLTS give 1 or 0, the last on two's complement values; MOV gives its B operand (the model's reading, log 31); SHL and SHR by less than 64 shift, by more they write a free value (log 31); RDARG gives argument word A + B, or 0 beyond ARGLEN; RDTIME gives fabric time. Each writes DST alone (nothing for SR[0]) and retires: the Wren moves past the instruction, through loop ends, its run counts one more, and no other Wren, no memory and nothing else changes but counter slots with their wrap events. -/
def Obligations.ScalarInstructionsWriteTheirResult : Prop :=
  (∀ (c : Nat → Instr) (cls op : Nat) (s : State) (w : Nat), WrenRow c cls op →
    (siteOf s w = none → exec (c w) s = .next s) ∧
    (∀ x, siteOf s w = some x → insClass x.insn ≠ cls ∨ insOp x.insn ≠ op → exec (c w) s = .next s) ∧
    (∀ x, siteOf s w = some x → insClass x.insn = cls → insOp x.insn = op → bitOf x.insn 12 = true →
      getSr s w (bits x.insn 13 5) = 0 → ∃ t, exec (c w) s = .next t ∧ Passed x s t)) ∧
  ScalarRule .add 1 (fun x s => opA x s + opB x s) ∧
  ScalarRule .sub 2 (fun x s => (BitVec.ofNat 64 (opA x s) - BitVec.ofNat 64 (opB x s)).toNat) ∧
  ScalarRule .and 3 (fun x s => opA x s &&& opB x s) ∧ ScalarRule .or 4 (fun x s => opA x s ||| opB x s) ∧
  ScalarRule .xor 5 (fun x s => opA x s ^^^ opB x s) ∧ ScalarRule .mul 8 (fun x s => opA x s * opB x s) ∧
  ScalarRule .cmpeq 9 (fun x s => if opA x s = opB x s then 1 else 0) ∧ ScalarRule .cmpltu 0xA (fun x s => if opA x s < opB x s then 1 else 0) ∧
  ScalarRule .cmplts 0xB (fun x s => if (BitVec.ofNat 64 (opA x s)).slt (BitVec.ofNat 64 (opB x s)) then 1 else 0) ∧
  ScalarRule .mov 0xC opB ∧ ShiftRule .shl 6 (fun a b => a * 2 ^ b) ∧ ShiftRule .shr 7 (fun a b => a / 2 ^ b) ∧
  ScalarRule .rdarg 0xD (fun x s => if (opA x s + opB x s) % 2 ^ 64 < x.run.argLen / 8 then word x.run.args ((opA x s + opB x s) % 2 ^ 64) else 0) ∧
  ScalarRule .rdtime 0xE (fun _ s => s.lark.time)

/-- NOP, END, BR, LOOP and FENCE; semaphores, barriers, event waits and reservations release, block or fault as stated. Where a Wren stands at it: NOP retires; BR goes to its target; LOOP opens its body SR[CNT] times or, with 0, passes END_IX; FENCE, SEMSIG, BAR and END wait (code 7) while asynchronous work is unfinished. END ends the Wren with its exit word; the last one completes the launch with status 0 and run Wren 0's exit word, and frees the Wrens. SEMWAIT lowers the semaphore by its amount or blocks; SEMSIG raises it up to 0xFFFF_FFFF; a thicket outside the run faults with 0x0202. BAR blocks until every Wren of the run that has not ended is at it, then all pass. CWAIT passes at once on a counter at or past its value, blocks on one less than 2^31 behind, faults at exactly 2^31 with 0x0603 and on the run's own launch queue with 0x0406. BWAIT blocks, and passes after a firing since then; ARRWAIT takes its amount from an arrival counter or blocks; a passed wait writes 0 to DST, a limit that has passed 1. RSV takes a free instance of the partition, passes on one it holds, blocks on one held, and faults with 0x0202 on one of another partition; RLS of a held instance frees it. -/
def Obligations.ControlAndSynchronisationOrderWrens : Prop :=
  (∀ (s : State) (w : Nat) (x : Site), Stands s w 0 0 x → ∃ t, exec (.wrenNop w) s = .next t ∧ Passed x s t) ∧
  (∀ (s : State) (w : Nat) (x : Site), Stands s w 0 2 x →
    ∃ t, exec (.br w) s = .next t ∧ Retires x (bits x.insn 20 14) (getWren s w).loops s t) ∧
  (∀ (s : State) (w : Nat) (x : Site), Stands s w 0 3 x →
    (getSr s w (bits x.insn 20 5) ≠ 0 → ∃ t, exec (.loop w) s = .next t ∧ Retires x ((getWren s w).ix + 1)
      ({ first := (getWren s w).ix + 1, last := bits x.insn 25 14, left := getSr s w (bits x.insn 20 5) } :: (getWren s w).loops) s t) ∧
    (getSr s w (bits x.insn 20 5) = 0 → ∃ t, exec (.loop w) s = .next t ∧
      Retires x (nextIx (bits x.insn 25 14) (getWren s w).loops).1 (nextIx (bits x.insn 25 14) (getWren s w).loops).2 s t)) ∧
  (∀ (s : State) (w : Nat) (x : Site), Stands s w 0 1 x → (getWren s w).async = [] →
    ((∃ v ∈ x.run.wrens, v ≠ w ∧ (getWren s v).ended = false) → (∀ v ∈ x.run.wrens, (getWren s v).block = 0) →
      ∃ t, exec (.endRun w) s = .next t ∧ (getWren t w).ended = true ∧ (getWren t w).exitWord.toNat = getSr s w (bits x.insn 20 5) ∧
        ∃ r ∈ t.fab.runs, r.id = x.run.id ∧ r.st = 1) ∧
    ((∀ v ∈ x.run.wrens, v ≠ w → (getWren s v).ended = true) →
      ∃ u, exec (.endRun w) s = .next (completeRun x.run 0 0
          (if x.run.wrens.headD 0 = w then getSr s w (bits x.insn 20 5) else (getWren s (x.run.wrens.headD 0)).exitWord.toNat) 0 u) ∧
        (∀ r ∈ u.fab.runs, r.id ≠ x.run.id) ∧
        ∀ v ∈ x.run.wrens, (getWren u v).run = none ∧ (quarantined s (unitId 1 v) = false → (getWren u v).st = 0))) ∧
  (∀ (s : State) (w : Nat) (x : Site) (c : Instr), (c = .fence w ∧ Stands s w 6 9 x ∨ c = .semsig w ∧ Stands s w 6 2 x ∧ semOf x ≠ none ∨
      c = .bar w ∧ Stands s w 6 3 x ∨ c = .endRun w ∧ Stands s w 0 1 x) → (getWren s w).async ≠ [] →
    ∃ t, exec c s = .next t ∧ Blocks x 7 s t) ∧
  (∀ (s : State) (w : Nat) (x : Site), Stands s w 6 9 x → (getWren s w).async = [] → ∃ t, exec (.fence w) s = .next t ∧ Passed x s t) ∧
  (∀ (s : State) (w t i n : Nat) (x : Site), x.run.thks[bits x.insn 36 6]? = some t → i = bits x.insn 30 6 → n = getSr s w (bits x.insn 20 5) →
    (Stands s w 6 1 x → n ≤ semVal s t i → ∃ u v, exec (.semwait w) s = .next v ∧ Passed x u v ∧
      u = { s with fab := { s.fab with thks := u.fab.thks } } ∧ ∀ j k, semVal u j k = if j = t ∧ k = i then semVal s t i - n else semVal s j k) ∧
    (Stands s w 6 1 x → semVal s t i < n → ∃ v, exec (.semwait w) s = .next v ∧ Blocks x 1 s v) ∧
    (Stands s w 6 2 x → (getWren s w).async = [] → ∃ u v, exec (.semsig w) s = .next v ∧ Passed x u v ∧
      u = { s with fab := { s.fab with thks := u.fab.thks } } ∧
      (∀ j k, semVal u j k = if j = t ∧ k = i then min (semVal s t i + n) 0xFFFFFFFF else semVal s j k) ∧
      (0xFFFFFFFF < semVal s t i + n → (getThk u t).semSat = true))) ∧
  (∀ (s : State) (w : Nat) (x : Site), x.run.thks[bits x.insn 36 6]? = none →
    (Stands s w 6 1 x → ∃ t, exec (.semwait w) s = .next t ∧ Faulted x 0x0202 s t) ∧
    (Stands s w 6 2 x → ∃ t, exec (.semsig w) s = .next t ∧ Faulted x 0x0202 s t)) ∧
  (∀ (s : State) (w : Nat) (x : Site), Stands s w 6 3 x → (getWren s w).async = [] →
    ((∃ v ∈ x.run.wrens, v ≠ w ∧ (getWren s v).ended = false ∧ atBar s v ≠ some (bits x.insn 30 6)) →
      ∃ t, exec (.bar w) s = .next t ∧ Blocks x 2 s t) ∧
    (w ∈ x.run.wrens → x.run.thks.Nodup →
      (∀ v ∈ x.run.wrens, v ≠ w → (getWren s v).ended = false → atBar s v = some (bits x.insn 30 6)) →
      ∃ t, exec (.bar w) s = .next t ∧ ∀ v ∈ x.run.wrens, (getWren s v).ended = false →
        (getWren t v).ix = (nextIx (getWren s v).ix (getWren s v).loops).1 ∧ (getWren t v).block = 0)) ∧
  (∀ (s : State) (w q : Nat) (x : Site) (d : BitVec 32), Stands s w 6 4 x → q = getSr s w (bits x.insn 20 5) % 65536 → (getQ s q).st ≠ .absent →
    (getQ s q).ctx = x.run.ctx → d = BitVec.ofNat 32 (getSr s w (bits x.insn 25 5)) - counterOf s q →
    (d = 0 ∨ 2 ^ 31 < d.toNat → ∃ u t, exec (.cwait w) s = .next t ∧ SrWritten w (bits x.insn 47 5) 0 s u ∧ Passed x u t) ∧
    (0 < d.toNat → d.toNat < 2 ^ 31 → x.run.src ≠ .launch q → ∃ t, exec (.cwait w) s = .next t ∧ Blocks x 4 s t) ∧
    (0 < d.toNat → d.toNat < 2 ^ 31 → x.run.src = .launch q → ∃ t, exec (.cwait w) s = .next t ∧ Faulted x 0x0406 s t) ∧
    (d.toNat = 2 ^ 31 → ∃ t, exec (.cwait w) s = .next t ∧ Faulted x 0x0603 s t)) ∧
  (∀ (s : State) (w n : Nat) (x : Site), Stands s w 6 5 x → n = bits x.insn 30 6 →
    (n < 16 → (getBeat s n).en = true → (getBeat s n).owner = x.run.ctx →
      ((getWren s w).block ≠ 5 → ∃ t, exec (.bwait w) s = .next t ∧ Blocks x 5 s t) ∧
      (∀ since, (getWren s w).block = 5 → (getWren s w).blockedAt = some since →
        since / 2 ^ (getBeat s n).k < (getBeat s n).base / 2 ^ (getBeat s n).k →
        ∃ u t, exec (.bwait w) s = .next t ∧ SrWritten w (bits x.insn 47 5) 0 s u ∧ Passed x u t)) ∧
    ((getBeat s n).en = false ∨ (getBeat s n).owner ≠ x.run.ctx → ∃ t, exec (.bwait w) s = .next t ∧ Faulted x 0x0202 s t)) ∧
  (∀ (s : State) (w i n a : Nat) (x : Site), Stands s w 6 6 x → i = bits x.insn 30 6 → i < 16 → n = getSr s w (bits x.insn 20 5) →
    a = tabGet 0 (getWren s w).arr i →
    (n ≤ a → ∃ t, exec (.arrwait w) s = .next t ∧ tabGet 0 (getWren t w).arr i = a - n ∧ (bits x.insn 47 5 ≠ 0 → getSr t w (bits x.insn 47 5) = 0) ∧
      (getWren t w).ix = (nextIx (getWren s w).ix (getWren s w).loops).1 ∧ t.mem = s.mem) ∧
    (a < n → ∃ t, exec (.arrwait w) s = .next t ∧ Blocks x 6 s t)) ∧
  (∀ (s : State) (w lim since : Nat) (x : Site), siteOf s w = some x → insClass x.insn = 6 → lim = getSr s w (bits x.insn 42 5) → lim ≠ 0 →
    (getWren s w).block = 4 ∨ (getWren s w).block = 5 ∨ (getWren s w).block = 6 → (getWren s w).blockedAt = some since →
    (since + 1000 * lim ≤ s.lark.time → ∃ u t, exec (.eventWaitTimeout w) s = .next t ∧ SrWritten w (bits x.insn 47 5) 1 s u ∧ Passed x u t) ∧
    (s.lark.time < since + 1000 * lim → exec (.eventWaitTimeout w) s = .next s)) ∧
  (∀ (s : State) (w kind i : Nat) (x : Site), kind = bits x.insn 30 6 → kind ≤ 1 → i = getSr s w (bits x.insn 20 5) →
    (Stands s w 6 7 x → instOwned s x.run.ctx kind i = true →
      ((getInst s kind i).holder = none → (getInst s kind i).fw = false → quarantined s (instUnit kind i) = false →
        ∃ u t, exec (.rsv w) s = .next t ∧ Passed x u t ∧ getInst u kind i = { getInst s kind i with holder := some x.run.id } ∧
          (∀ k j, k ≤ 1 → (k, j) ≠ (kind, i) → getInst u k j = getInst s k j) ∧ u = { s with fab := { s.fab with chf := u.fab.chf, gcr := u.fab.gcr } }) ∧
      ((getInst s kind i).holder = some x.run.id → (getInst s kind i).fw = false → ∃ t, exec (.rsv w) s = .next t ∧ Passed x s t) ∧
      (∀ r, (getInst s kind i).holder = some r → r ≠ x.run.id → ∃ t, exec (.rsv w) s = .next t ∧ Blocks x 3 s t)) ∧
    (Stands s w 6 7 x → instOwned s x.run.ctx kind i = false → ∃ t, exec (.rsv w) s = .next t ∧ Faulted x 0x0202 s t) ∧
    (Stands s w 6 8 x → (getInst s kind i).holder = some x.run.id → (getInst s kind i).fw = false →
      ∃ u t, exec (.rls w) s = .next t ∧ Passed x u t ∧ getInst u kind i = { getInst s kind i with holder := none, busy := false, count := 0 } ∧
        ∀ k j, k ≤ 1 → (k, j) ≠ (kind, i) → getInst u k j = getInst s k j) ∧
    (Stands s w 6 8 x → (getInst s kind i).holder ≠ some x.run.id → ∃ t, exec (.rls w) s = .next t ∧ Passed x s t))

/-- PROG_LOAD places a checked program; launches queue runs; a run starts with its arguments; stalled runs are found and faulted. (1) At its turn PROG_LOAD of an image that passes the checks of Table 9.10 returns the handle of a program object with the image's code, in the instruction store of every thicket of its mask, bound to the context; a wrong length completes with 0x0103 and the length needed, a failed check with its status; an image that passes has defined instructions alone and a thicket count within its limits. (2) PROG_RUN, and a held launch descriptor whose queue has no run, queue one run with program, arguments and thickets; a marker completes at once; a refused launch completes with its status, one of a board program that serves a board model with 0x0703 while the chip is in Quarantine or a port S0 to S2 carries nothing. (3) RUN_START of a queued run that may start, in Run, with readable arguments and pinned objects that exist, makes it active with every Wren Running at instruction 0, SR1 to SR4 giving its place, and the objects referenced; in Idle it only asks for Run; a run that may not start stays. (4) RUN_STALLED marks an active run whose Wrens are all blocked in SEMWAIT, BAR or RSV for 10 ms; STALL_EXAMINATION of one stalled run with no other run faults it with 0x0708 and the event; at another time it does nothing. -/
def Obligations.ProgramsLoadLaunchAndStart : Prop :=
  (∀ (s : State) (q : QRef) (p : Packet) (h img : List Byte) (g : Prog) (need : Nat), Turn s q 0x0500 p → dvaRead s p.ctx (p.w 0) 64 .fetch false = .ok h →
    jkpFault h = none → need = 0x40 + 16 * field h 8 4 + field h 0x14 4 →
    (p.w 1 ≠ need → exec (.progLoad q) s = .next (finish q (Done.fail 0x0103 need) s)) ∧
    (p.w 1 = need → dvaRead s p.ctx (p.w 0) need .fetch false = .ok img → g = progFrom img (BitVec.ofNat 64 (p.w 2)) →
      (progFault s p.ctx g = none → ∃ o st u hd, exec (.progLoad q) s = .next (finish q (Done.res hd 0) u) ∧ (hd, o) ∈ u.host.objs ∧
        o.kind = .prog { g with static_ := st } ∧ o.ctx = p.ctx ∧ o.host = true ∧ o.refs = 0 ∧ o.sha = sha384 img ∧
        g.code.length = field img 8 4 ∧ (∀ t ∈ maskThks g.mask, (hd, g.code.length) ∈ (getThk u t).istore ∧ (getThk u t).bound = some p.ctx) ∧
        (∀ t, t ∉ maskThks g.mask → getThk u t = getThk s t) ∧ ∀ w, getWren u w = getWren s w) ∧
      (∀ e, progFault s p.ctx g = some e → exec (.progLoad q) s = .next (finish q (Done.fail e.1 e.2) s)))) ∧
  (∀ (s : State) (c : Nat) (g : Prog), progFault s c g = none → (∀ i ∈ g.code, insOk i.toNat = true) ∧ 1 ≤ (maskThks g.mask).length ∧
    g.minT ≤ (maskThks g.mask).length ∧ (maskThks g.mask).length ≤ g.maxT ∧ ∀ t ∈ maskThks g.mask, t < thkCount s ∧ boundElse s c t = none) ∧
  (∀ (s : State) (q : QRef) (p : Packet) (l : Launch), Turn s q 0x0502 p →
    l = { prog := p.w 0, arg := p.w 1, argLen := if p.w 1 = 0 then 0 else 4096, thks := 0, board := false, boardId := 0 } →
    (launchFault s p.ctx l = none → ∃ (u : State) (r : Run), exec (.progRun q) s = .next (markStarted q u) ∧ u.fab.runs = s.fab.runs ++ [r] ∧ r.id = s.fab.nextRun ∧
      r.st = 0 ∧ r.ctx = p.ctx ∧ r.prog = p.w 0 ∧ r.argAddr = p.w 1 ∧ r.src = .prog q ∧
      u = { s with fab := { s.fab with runs := u.fab.runs, nextRun := s.fab.nextRun + 1 } }) ∧
    (∀ e, launchFault s p.ctx l = some e → ∃ d, exec (.progRun q) s = .next (finish q (Done.fail e.1 d) s))) ∧
  (∀ (s : State) (q : Nat) (b : List Byte), runnable s q 2 = some b →
    (descOp b = 1 → noRun s q = true → launchFault s (getQ s q).ctx (launchOf b) = none → ∃ (t : State) (r : Run), exec (.launch q) s = .next t ∧
      t.fab.runs = s.fab.runs ++ [r] ∧ r.id = s.fab.nextRun ∧ r.st = 0 ∧ r.ctx = (getQ s q).ctx ∧ r.prog = field b 0x10 8 ∧
      r.argAddr = field b 0x18 8 ∧ r.argLen = field b 0x20 4 ∧ r.src = .launch q ∧
      (field b 0x28 8 ≠ 0 → r.thks = maskThks (BitVec.ofNat 64 (field b 0x28 8))) ∧
      t = { s with fab := { s.fab with runs := t.fab.runs, nextRun := s.fab.nextRun + 1 } }) ∧
    (∀ e, descOp b = 1 → noRun s q = true → launchFault s (getQ s q).ctx (launchOf b) = some e →
      exec (.launch q) s = .next (finishDesc q e.1 e.2 0 0 s)) ∧
    (∀ o g set, descOp b = 1 → noRun s q = true → useObj s (getQ s q).ctx (field b 0x10 8) 2 = .ok o → o.kind = .prog g → o.ctx = (getQ s q).ctx →
      set = (if field b 0x28 8 = 0 then g.mask else BitVec.ofNat 64 (field b 0x28 8)) → set &&& ~~~g.mask = 0 →
      g.minT ≤ (maskThks set).length → (maskThks set).length ≤ g.maxT → bitOf (field b 2 2) 4 = true → g.board = true →
      (∃ m ∈ modelsOf s (getQ s q).ctx, m.board = true ∧ ∃ i ∈ maskThks set, m.mask.getLsbD i = true) →
      (s.qtd.st = 3 ∨ ∃ n, n < 3 ∧ usable (getSkn s n) = false) → exec (.launch q) s = .next (finishDesc q 0x0703 (s.lark.time / 2 ^ 32) 0 0 s)) ∧
    (descOp b = 3 → exec (.launchMarker q) s = .next (finishDesc q 0 0 0 0 s))) ∧
  (∀ (s : State) (id : Nat) (r : Run), getRun? s id = some r →
    (mayStart s r = false → exec (.runStart id) s = .next s) ∧
    (mayStart s r = true → s.pwr.st = .idle → s.pwr.target = none →
      exec (.runStart id) s = .next { s with pwr := { s.pwr with target := some .run } }) ∧
    (∀ o args pins, mayStart s r = true → s.pwr.st = .run → useObj s r.ctx r.prog 2 = .ok o →
      dvaRead s r.ctx r.argAddr r.argLen .read false = .ok args → pinsOf s r.ctx args = .ok pins → r.thks.Nodup → r.thks.length ≤ 64 →
      ∃ t, exec (.runStart id) s = .next t ∧ (∃ r' ∈ t.fab.runs, r'.id = id ∧ r'.st = 1 ∧ r'.args = args ∧ r'.pins = pins) ∧
        (∀ i j, r.thks[i]? = some j → ∀ k, k < 24 → (getWren t (24 * j + k)).st = 1 ∧ (getWren t (24 * j + k)).run = some id ∧
          (getWren t (24 * j + k)).ix = 0 ∧ getSr t (24 * j + k) 1 = 24 * i + k ∧ getSr t (24 * j + k) 2 = i ∧
          getSr t (24 * j + k) 3 = k ∧ getSr t (24 * j + k) 4 = boardSlot s ∧ ∀ n, n ≠ 1 → n ≠ 2 → n ≠ 3 → n ≠ 4 → getSr t (24 * j + k) n = 0) ∧
        (∀ w, w ∉ r.wrens → getWren t w = getWren s w) ∧ t.mem = s.mem)) ∧
  (∀ (s : State) (id : Nat) (r : Run), getRun? s id = some r →
    ((r.st ≠ 1 ∨ ∃ w ∈ r.wrens, (getWren s w).ended = false ∧ longBlocked s w = false) → exec (.runStalled id) s = .next s) ∧
    (r.st = 1 → (∀ w ∈ r.wrens, (getWren s w).ended = false → longBlocked s w = true) → ∃ t, exec (.runStalled id) s = .next t ∧
      (∃ r' ∈ t.fab.runs, r' = { r with stalled := true }) ∧ t = { s with fab := { s.fab with runs := t.fab.runs } })) ∧
  (∀ (s : State) (r : Run), s.pwr.st = .run → s.fab.runs = [r] →
    (7 ≤ s.lark.time % 1000000 → exec .stallExamination s = .next s) ∧
    (r.stalled = true → s.lark.time % 1000000 < 7 → (∀ w, (getWren s w).block ≠ 3) → ∃ u w, exec .stallExamination s =
      .next (raisePlain 0x0708 (some r.ctx) 0xFFFF (completeRun r 0x0708 (s.lark.time / 2 ^ 32) 0 (r.widx w + (getWren s w).ix * 2 ^ 16) u)) ∧
      u.fab.runs = []))

/-- MOVE, FILL and PEER are issued in order and complete with their bytes transferred; faults name the side; PEER needs a partner. Where a Wren stands at it: (1) MOVE, FILL or PEER of a length that is no multiple of 64 or over 16 MiB faults with 0x0105; (2) with accessible sides, a length not 0 and no unfinished operation that touches its local ranges, it is added to the Wren's asynchronous operations and retires, and with one it blocks (code 7); MOVE and FILL of length 0 retire; (3) a thicket side that is not owned, or a local range outside the working area, faults with 0x0204 or 0x0105, a PEER of a serving run on a board that is down with 0x0703. (4) WREN_ASYNC_COMPLETE of a local MOVE copies the bytes, of a local FILL stores byte j of the pattern where address mod 8 is j, to its own destination and nowhere else, and the operation is gone. (5) PEER_PLACED of a counter with a noted arrival raises that counter by one; with none it changes nothing. (6) PEER_TIMEOUT faults with 0x0801 only once a PEER has waited 100 µs. -/
def Obligations.MovesAndPeersTransferBytes : Prop :=
  (∀ (s : State) (w len : Nat) (x : Site) (c : Instr), (c = .move w ∧ Stands s w 2 1 x ∨ c = .fill w ∧ Stands s w 2 3 x ∨ c = .peer w ∧ Stands s w 2 2 x) →
    len = getSr s w (bits x.insn 30 5) →
    (len % 64 ≠ 0 ∨ 16777216 < len → ∃ t, exec c s = .next t ∧ Faulted x 0x0105 s t) ∧
    (len = 0 → c ≠ .peer w → ∃ t, exec c s = .next t ∧ Passed x s t)) ∧
  (∀ (s : State) (w mode dst src len : Nat) (x : Site), Stands s w 2 1 x → mode = bits x.insn 35 4 → dst = getSr s w (bits x.insn 20 5) →
    src = getSr s w (bits x.insn 25 5) → len = getSr s w (bits x.insn 30 5) → len % 64 = 0 → len ≤ 16777216 → len ≠ 0 →
    (sideFault s x (srcSide mode) src len .read = none → sideFault s x (dstSide mode) dst len .write = none →
      (interlocked (getWren s w) (asyncReads (.move mode dst src len)) (asyncWrites (.move mode dst src len)) = false →
        ∃ u t, exec (.move w) s = .next t ∧ Passed x u t ∧ getWren u w = { getWren s w with async := (getWren s w).async ++ [.move mode dst src len] } ∧
          (∀ v, v ≠ w → getWren u v = getWren s v) ∧ u = { s with fab := { s.fab with wrens := u.fab.wrens } }) ∧
      (interlocked (getWren s w) (asyncReads (.move mode dst src len)) (asyncWrites (.move mode dst src len)) = true →
        ∃ t, exec (.move w) s = .next t ∧ Blocks x 7 s t)) ∧
    (srcSide mode = 1 → thkRange s x src len = none → ∃ t, exec (.move w) s = .next t ∧ Faulted x 0x0204 s t) ∧
    (srcSide mode = 0 → x.prog.wsize < src + len → ∃ t, exec (.move w) s = .next t ∧ Faulted x 0x0105 s t)) ∧
  (∀ (s : State) (w side dst len : Nat) (x : Site) (a : AsyncOp), Stands s w 2 3 x → side = dstSide (bits x.insn 35 4) → dst = getSr s w (bits x.insn 20 5) →
    len = getSr s w (bits x.insn 30 5) → len % 64 = 0 → len ≤ 16777216 → len ≠ 0 → a = .fill side dst len (BitVec.ofNat 64 (getSr s w (bits x.insn 25 5))) →
    sideFault s x side dst len .write = none → interlocked (getWren s w) [] (asyncWrites a) = false →
    ∃ u t, exec (.fill w) s = .next t ∧ Passed x u t ∧ getWren u w = { getWren s w with async := (getWren s w).async ++ [a] } ∧
      (∀ v, v ≠ w → getWren u v = getWren s v) ∧ u = { s with fab := { s.fab with wrens := u.fab.wrens } }) ∧
  (∀ (s : State) (w dst src len : Nat) (x : Site) (a : AsyncOp), Stands s w 2 2 x → dst = getSr s w (bits x.insn 20 5) →
    src = getSr s w (bits x.insn 25 5) → len = getSr s w (bits x.insn 30 5) → len % 64 = 0 → len ≤ 16777216 →
    a = .peer (bits x.insn 39 3) dst src len (bits x.insn 42 4) (bitOf x.insn 46) s.lark.time →
    (len = 0 ∨ src + len ≤ x.prog.wsize ∧ dst + len ≤ x.prog.wsize → boardDown s x.run.ctx x.run.thks x.run.board = true →
      ∃ t, exec (.peer w) s = .next t ∧ Faulted x 0x0703 s t) ∧
    (len = 0 ∨ src + len ≤ x.prog.wsize ∧ dst + len ≤ x.prog.wsize → boardDown s x.run.ctx x.run.thks x.run.board = false → interlocked (getWren s w) [(src, len)] [] = false →
      ∃ u t, exec (.peer w) s = .next t ∧ Passed x u t ∧ getWren u w = { getWren s w with async := (getWren s w).async ++ [a] } ∧
        (∀ v, v ≠ w → getWren u v = getWren s v) ∧ u = { s with fab := { s.fab with wrens := u.fab.wrens } }) ∧
    (len ≠ 0 → x.prog.wsize < src + len ∨ x.prog.wsize < dst + len → ∃ t, exec (.peer w) s = .next t ∧ Faulted x 0x0105 s t)) ∧
  (∀ (s : State) (w i dst len : Nat) (x : Site) (bs : List Byte), asyncSite s w = some x → x.run.st = 1 → s.pwr.st = .run → len ≠ 0 →
    dst + len ≤ x.prog.wsize →
    ((∃ src, (getWren s w).async[i]? = some (.move 0 dst src len) ∧ src + len ≤ x.prog.wsize ∧ bs = memRead s.mem (wrenBase w + src) len) ∨
      (∃ pat, (getWren s w).async[i]? = some (.fill 0 dst len pat) ∧ bs = patBytes pat.toNat dst len)) →
    ∃ t, exec (.wrenAsyncComplete w i) s = .next t ∧ memRead t.mem (wrenBase w + dst) len = bs ∧
      (∀ a, a < wrenBase w + dst ∨ wrenBase w + dst + len ≤ a → memGet t.mem a = memGet s.mem a) ∧
      getWren t w = { getWren s w with async := (getWren s w).async.eraseIdx i } ∧ (∀ v, v ≠ w → getWren t v = getWren s v) ∧ t.hostMem = s.hostMem) ∧
  (∀ (s : State) (w k : Nat),
    ((∃ e ∈ (getWren s w).pushed, e.1 = k) → ∃ t, exec (.peerPlaced w k) s = .next t ∧
      tabGet 0 (getWren t w).arr k = (tabGet 0 (getWren s w).arr k + 1) % 2 ^ 32 ∧ (∀ j, j ≠ k → tabGet 0 (getWren t w).arr j = tabGet 0 (getWren s w).arr j) ∧
      (∀ v, v ≠ w → getWren t v = getWren s v) ∧ t = { s with fab := { s.fab with wrens := t.fab.wrens } }) ∧
    ((∀ e ∈ (getWren s w).pushed, e.1 ≠ k) → exec (.peerPlaced w k) s = .next s)) ∧
  (∀ (s : State) (w : Nat) (x : Site), asyncSite s w = some x → x.run.st = 1 →
    ((∀ a ∈ (getWren s w).async, ∀ slot dst src len arr nt since, a = .peer slot dst src len arr nt since → s.lark.time < since + 100000) →
      exec (.peerTimeout w) s = .next s) ∧
    (∀ slot dst src len arr nt since rest, (getWren s w).async = .peer slot dst src len arr nt since :: rest → since + 100000 ≤ s.lark.time →
      ∃ t, exec (.peerTimeout w) s = .next t ∧ Faulted x 0x0801 s t))

/-- WLD fills the shadow tile, WSWAP exchanges tiles, and MMA adds each row's exact column sums into its roost tile as one term. Where a Wren stands at it: (1) WLD of a range of the working area makes the shadow tile these bytes in INFMT; the active tile and memory stay; (2) WSWAP exchanges active and shadow tile; (3) MMA within its limits, outside groups or in an open group added in sequence, adds for each of its rows the 64 column sums of the activation row with the active tile as one term to that row's tile: the tile holds the sums in its format and its status word counts the term; a row that would pass the X704 limit, or that I64S cannot take, leaves its tile and marks it; memory outside the tiles (unless LAST completes blocks left in others), other Wrens and every other part stay; (4) with FIRST on a closed group the group opens over the tiles and each sum starts from the identity; with LAST the group is closed after it; (5) an INFMT other than the active tile's, or a tile out of range, faults with 0x0105; (6) for INT8 a column sum is the exact sum of the 256 products. -/
def Obligations.SystolicArrayMultipliesAndAdds : Prop :=
  (∀ (s : State) (w src infmt : Nat) (x : Site), Stands s w 3 1 x → src = getSr s w (bits x.insn 20 5) → infmt = bits x.insn 55 2 →
    src + weightBytes infmt ≤ x.prog.wsize → interlocked (getWren s w) [(src, weightBytes infmt)] [] = false →
    ∃ t, exec (.wld w) s = .next t ∧ WrenWork w s t ∧ t.mem = s.mem ∧ (getWren t w).active = (getWren s w).active ∧
      (getWren t w).shadow = some { infmt := infmt, bytes := memRead s.mem (wrenBase w + src) (weightBytes infmt) }) ∧
  (∀ (s : State) (w : Nat) (x : Site), Stands s w 3 2 x →
    ∃ t, exec (.wswap w) s = .next t ∧ WrenWork w s t ∧ t.mem = s.mem ∧ (getWren t w).active = (getWren s w).shadow ∧
      (getWren t w).shadow = (getWren s w).active) ∧
  (∀ (s : State) (w a tile m grp : Nat) (x : Site) (f : AccFmt) (t : WTile), MmaAt s w x f t a tile m → grp = bits x.insn 57 3 →
    (bitOf x.insn 60 = false → groupOk s w grp f (bits x.insn 53 2) tile m = true →
      ((getGroup s w grp).opn = true → ordered f = true → (getGroup s w grp).order = 0) →
      ∃ u, exec (.mma w) s = .next u ∧ WrenWork w s u ∧
        (bitOf x.insn 61 = false ∨ (getWren s w).pend = [] → MemOutside (x.roost.at_ tile) (m * tileBytes f) s u) ∧
        (bitOf x.insn 61 = false → TermsAdded x.roost f (passK t.infmt) tile m
          (fun i => mmaRow f t (memRead s.mem (wrenBase w + (a + i * actBytes t.infmt)) (actBytes t.infmt))) s u) ∧
        (bitOf x.insn 61 = true → (getGroup u w grp).opn = false)) ∧
    (bitOf x.insn 60 = true → mayOpen s w grp f (bits x.insn 53 2) m = true →
      ∃ u, exec (.mma w) s = .next u ∧ WrenWork w s u ∧ MemOutside (x.roost.at_ tile) (m * tileBytes f) s u ∧
        (bitOf x.insn 61 = false → getGroup u w grp = { opn := true, fmt := f, order := if ordered f then bits x.insn 53 2 else 0, tile := tile, n := m } ∧
          (f ≠ .i64s → ordered f = false ∨ bits x.insn 53 2 = 0 → ∀ i, i < m → TileIs x.roost f (tile + i * granules f)
            (List.zipWith (fun e v => addTerm (passK t.infmt) e v (f == .p255)) (decRow f (encRow f (List.replicate 64 (identElem f))))
              (mmaRow f t (memRead s.mem (wrenBase w + (a + i * actBytes t.infmt)) (actBytes t.infmt)))) u)) ∧
        (bitOf x.insn 61 = true → (getGroup u w grp).opn = false))) ∧
  (∀ (s : State) (w : Nat) (x : Site) (f : AccFmt) (t : WTile), Stands s w 3 3 x → fmtOf (bits x.insn 49 4) = some f → (getWren s w).active = some t →
    t.infmt ≠ bits x.insn 55 2 ∨ (bitOf x.insn 43 = false ∧ x.roost.fits f (bits x.insn 31 12) (bits x.insn 25 6 + 1) = false) →
    ∃ u, exec (.mma w) s = .next u ∧ Faulted x 0x0105 s u) ∧
  (∀ (t : WTile) (row : List Byte) (n : Nat), t.infmt = 3 → columnSum t row n =
    Fl.of (((List.range 256).map fun k => signed 8 (field row k 1) * signed 8 (field t.bytes (4 * (64 * (k / 4) + n) + k % 4) 1)).sum * flOne))

/-- A Wren stands at a Starling instruction with these fields, in range (09 Table 9.7, R188, 10 R206). -/
structure StlAt (s : State) (w op : Nat) (x : Site) (a : StlIns) : Prop where
  stands : Stands s w 4 op x
  fields : stlFields x s = some a
  fits : x.roost.fits a.f a.tile a.n = true
  open_ : a.f = .i64s → x.prog.secret = false
  apart : x.prog.wsize + x.roost.size ≤ 1048576

/-- VADD, PRELOAD, COMBINE and ingress rows add to tiles in order; TREAD, TWRITE, TOPK, MAXI and MINI move and rank elements. Where a Wren stands at it, in range, with nothing unfinished on its ranges: (1) VADD adds each source row (negated or multiplied as EPI says) as one term to its tile, under the tree order of an open group as leaves: a leaf is kept until the block is full, which then adds its balanced tree sum; (2) PRELOAD opens its group and sets each tile to the identity plus its row; (3) TREAD writes the rows in OUTFMT, raw bytes for 0, then the status words with STATUS, and changes no tile; (4) TWRITE sets tiles to the raw rows, no longer EMPTY, terms 0; (5) TOPK writes the positions of the k largest elements, larger first, equal ones by position, then 0xFFFF_FFFF; MAXI and MINI the position of the extreme element and its raw bytes, NaN losing and the lowest of equal positions; (6) COMBINE adds each raw row with its status word to its tile. (7) INGRESS_ROW_ADD adds an accepted row to the tile; a refused one changes no tile. Memory elsewhere (unless a FLUSH completes blocks of other tiles) and other Wrens stay. -/
def Obligations.StarlingAccumulatesReadsAndRanks : Prop :=
  (∀ (s : State) (w len : Nat) (x : Site) (a : StlIns), StlAt s w 1 x a → (bitOf a.epi 1 = true → valued a.f = true) →
    groupOk s w a.grp a.f a.order a.tile a.n = true → len = a.n * srcRowBytes a.f * (if bitOf a.epi 1 then 2 else 1) → a.loc + len ≤ x.prog.wsize →
    interlocked (getWren s w) [(a.loc, len)] [a.range x] = false →
    ∃ u, exec (.vadd w) s = .next u ∧ WrenWork w s u ∧
      (bitOf a.epi 2 = false ∨ (getWren s w).pend = [] → MemOutside (x.roost.at_ a.tile) (a.n * tileBytes a.f) s u) ∧
      (bitOf a.epi 2 = true → (getGroup u w a.grp).opn = false) ∧
      (((getGroup s w a.grp).opn = true → ordered a.f = true → (getGroup s w a.grp).order = 0) → bitOf a.epi 2 = false →
        TermsAdded x.roost a.f 1 a.tile a.n (vaddRow x a s) s u) ∧
      (∀ rows, (getGroup s w a.grp).opn = true → ordered a.f = true → a.order ≠ 0 → a.n = 1 → bitOf a.epi 2 = false →
        rows = tabGet [] (getWren s w).pend (tswKey x.roost a.tile) ++ [encRow a.f (leafOf a.f (vaddRow x a s 0))] →
        (rows.length < 2 ^ (a.order + 1) → tabGet [] (getWren u w).pend (tswKey x.roost a.tile) = rows ∧ u.mem = s.mem) ∧
        (rows.length = 2 ^ (a.order + 1) → tabGet [] (getWren u w).pend (tswKey x.roost a.tile) = [] ∧ TileIs x.roost a.f a.tile
          (List.zipWith (addElem false) (getTile x.roost a.f a.tile s) (treeSum 5 (rows.map (decRow a.f)))) u))) ∧
  (∀ r, srcRow .f32 r = (List.range 64).map fun i => .fl (decF32 (field r (4 * i) 4))) ∧
  (∀ (x : Site) (a : StlIns) (s : State) (i : Nat), bitOf a.epi 0 = false → bitOf a.epi 1 = false →
    vaddRow x a s i = srcRow a.f (memRead s.mem (wrenBase x.w + (a.loc + i * srcRowBytes a.f)) (srcRowBytes a.f))) ∧
  (∀ (s : State) (w rb : Nat) (x : Site) (a : StlIns), StlAt s w 2 x a → mayOpen s w a.grp a.f a.order a.n = true → (a.f = .i64s → a.sigma ≤ 62) →
    rb = srcRowBytes a.f → a.n ≠ 0 → a.loc + a.n * rb ≤ x.prog.wsize → interlocked (getWren s w) [(a.loc, a.n * rb)] [a.range x] = false →
    ∃ u, exec (.preload w) s = .next u ∧ WrenWork w s u ∧ MemOutside (x.roost.at_ a.tile) (a.n * tileBytes a.f) s u ∧
      getGroup u w a.grp = { opn := true, fmt := a.f, order := if ordered a.f then a.order else 0, tile := a.tile, n := a.n } ∧
      (a.f ≠ .i64s → ∀ i, i < a.n → TileIs x.roost a.f (a.tile + i * granules a.f)
        (List.zipWith (fun e v => addTerm 1 e v (a.f == .p255)) (decRow a.f (encRow a.f (List.replicate 64 (identElem a.f))))
          (srcRow a.f (memRead s.mem (wrenBase w + (a.loc + i * rb)) rb))) u)) ∧
  (∀ (s : State) (w len : Nat) (x : Site) (a : StlIns), StlAt s w 3 x a → a.outfmt ≤ 5 → (a.outfmt ≠ 0 → valued a.f = true) →
    inOpenRange s w a.f a.tile a.n = false → len = a.n * (outBytes a.f a.outfmt + (if bitOf a.epi 3 then 8 else 0)) → a.loc + len ≤ x.prog.wsize →
    interlocked (getWren s w) [a.range x] [(a.loc, len)] = false →
    ∃ u, exec (.tread w) s = .next u ∧ WrenWork w s u ∧ MemOutside (wrenBase w + a.loc) len s u ∧ (getWren u w).tsw = (getWren s w).tsw ∧
      memRead u.mem (wrenBase w + a.loc) len = (a.tiles.flatMap fun t => readTile x a s t.2) ++
        (if bitOf a.epi 3 then a.tiles.flatMap fun t => natLE 8 (tswWord (getTsw x.roost t.2 s)) else [])) ∧
  (∀ (x : Site) (a : StlIns) (s : State) (t : Nat), a.outfmt = 0 → readTile x a s t = memRead s.mem (x.roost.at_ t) (tileBytes a.f)) ∧
  (∀ (s : State) (w rb : Nat) (x : Site) (a : StlIns), StlAt s w 4 x a → inOpenRange s w a.f a.tile a.n = false → (a.f = .i64s → a.sigma ≤ 62) →
    rb = tileBytes a.f → a.loc + a.n * rb ≤ x.prog.wsize → interlocked (getWren s w) [(a.loc, a.n * rb)] [a.range x] = false →
    (∀ i, i < a.n → (decRow a.f (memRead s.mem (wrenBase w + (a.loc + i * rb)) rb)).any (badRaw a.f) = false) →
    ∃ u, exec (.twrite w) s = .next u ∧ WrenWork w s u ∧ MemOutside (x.roost.at_ a.tile) (a.n * rb) s u ∧
      ∀ i t, i < a.n → t = a.tile + i * granules a.f → memRead u.mem (x.roost.at_ t) rb = memRead s.mem (wrenBase w + (a.loc + i * rb)) rb ∧
        (getTsw x.roost t u).empty = false ∧ (getTsw x.roost t u).terms = 0 ∧ (getTsw x.roost t u).exhausted = false ∧
        (getTsw x.roost t u).fmt = fmtCode a.f ∧ (a.f = .i64s → (getTsw x.roost t u).scale = a.sigma)) ∧
  (∀ (s : State) (w k : Nat) (x : Site) (a : StlIns), StlAt s w 5 x a → valued a.f = true → inOpenRange s w a.f a.tile a.n = false → k = a.k1 + 1 →
    a.loc + 4 * k ≤ x.prog.wsize → interlocked (getWren s w) [a.range x] [(a.loc, 4 * k)] = false →
    ∃ u, exec (.topk w) s = .next u ∧ WrenWork w s u ∧ MemOutside (wrenBase w + a.loc) (4 * k) s u ∧ memRead u.mem (wrenBase w + a.loc) (4 * k) =
      ((ranked (vector x a s) ++ List.replicate k 0xFFFFFFFF).take k).flatMap fun p => natLE 4 p) ∧
  (∀ vs : List Fl, (ranked vs).Perm (List.range vs.length) ∧ (ranked vs).Pairwise fun i j =>
    flLt (vs.getD j .nan) (vs.getD i .nan) = true ∨ (flLt (vs.getD i .nan) (vs.getD j .nan) = false ∧ i < j)) ∧
  (∀ (s : State) (w op b : Nat) (x : Site) (a : StlIns) (c : Instr) (least : Bool), StlAt s w op x a →
    (c = .maxi w ∧ op = 6 ∧ least = false ∨ c = .mini w ∧ op = 7 ∧ least = true) → valued a.f = true → inOpenRange s w a.f a.tile a.n = false →
    b = elemBytes a.f → a.loc + (4 + b) ≤ x.prog.wsize → interlocked (getWren s w) [a.range x] [(a.loc, 4 + b)] = false → a.n ≠ 0 →
    ∃ u p, exec c s = .next u ∧ WrenWork w s u ∧ MemOutside (wrenBase w + a.loc) (4 + b) s u ∧
      memRead u.mem (wrenBase w + a.loc) (4 + b) =
        natLE 4 p ++ memRead s.mem (x.roost.at_ (a.tile + p / 64 * granules a.f) + p % 64 * b) b ∧ p < 64 * a.n ∧
      ∀ j v best, j < 64 * a.n → v = (vector x a s).getD j .nan → best = (vector x a s).getD p .nan → v ≠ .nan →
        best ≠ .nan ∧ (if least then flLt v best else flLt best v) = false ∧
          (j < p → (if least then flLt best v else flLt v best) = true)) ∧
  (∀ (s : State) (w rb len : Nat) (x : Site) (a : StlIns), StlAt s w 8 x a → groupOk s w a.grp a.f a.order a.tile a.n = true → rb = tileBytes a.f →
    len = a.n * (rb + 8) → a.loc + len ≤ x.prog.wsize → a.f ≠ .i64s → interlocked (getWren s w) [(a.loc, len)] [a.range x] = false →
    ∃ u, exec (.combine w) s = .next u ∧ WrenWork w s u ∧
      (bitOf a.epi 2 = false ∨ (getWren s w).pend = [] → MemOutside (x.roost.at_ a.tile) (a.n * tileBytes a.f) s u) ∧
      (((getGroup s w a.grp).opn = true → ordered a.f = true → (getGroup s w a.grp).order = 0) → bitOf a.epi 2 = false →
        ∀ i t row o new, i < a.n → t = a.tile + i * granules a.f → row = decRow a.f (memRead s.mem (wrenBase w + (a.loc + i * rb)) rb) →
          o = tswOf (leNat (memRead s.mem (wrenBase w + (a.loc + a.n * rb + 8 * i)) 8)) →
          new = List.zipWith (fun e v => if bitOf a.epi 0 then addElem (a.f == .p255) v e else addElem (a.f == .p255) e v) (getTile x.roost a.f t s) row →
          overLimit new = false → TileIs x.roost a.f t new u ∧ getTsw x.roost t u = tswEnter a.f (some o) (getTsw x.roost t s))) ∧
  (∀ (s : State) (w tile : Nat) (f : AccFmt) (row : List Byte) (r : Roost), powered s = true →
    r = { w := w, size := wrenRoost s w, ctx := wrenCtx s w, ingress := true } →
    (w < wrenCount s → quarantined s (unitId 3 0) = false → ingressFault s r f tile row.length = none →
      ∀ new, new = List.zipWith (addElem (f == .p255)) (getTile r f tile s) ((decRow f row).map (ingressElem f)) → overLimit new = false →
      ∃ t, exec (.ingressRowAdd w tile f row) s = .next t ∧ TileIs r f tile new t ∧ getTsw r tile t = tswEnter f none (getTsw r tile s) ∧
        MemOutside (r.at_ tile) (tileBytes f) s t ∧ ∀ v, v ≠ w → getWren t v = getWren s v) ∧
    (ingressFault s r f tile row.length ≠ none → ∃ t, exec (.ingressRowAdd w tile f row) s = .next t ∧ t.mem = s.mem ∧ t.fab = s.fab))

/-- Every Thrush operation writes residues of its effect modulo the limb's prime to D alone, in range, or faults with 0x0105. Where a Wren stands at it with aligned operands in its working area, apart or identical, and nothing unfinished on them: MADD, MSUB, MMUL, MMAC, MSCAL and PLIFT write (A + B), (A − B), A·B, D + A·B, A·SR[B] and D + Δ·(A mod t) modulo the prime of each element's limb; NTT and INTT write the transform of each limb (its root is the model's opaque constant, log 36); SAMPLE writes free values below 2^k and draws once; MODSW of one polynomial writes the rounded quotient's residues in the limbs left, EXTRACT the LWE records of its coefficients (layouts of log 36); KSW of the thicket's only Wren that has not ended writes the key-switched residues (opaque, log 36) and counts one pass, with another such Wren that has not issued it waits (code 7), and a handle that names nothing faults with 0x0403; PDEC writes c0 + c1·s + e with |e| at most 2^σ. Memory elsewhere and other Wrens stay. A reserved PSET faults with 0x0105. The primes of every set are below 2^55 and 1 modulo 2^17. -/
def Obligations.ThrushComputesModuloItsPrimes : Prop :=
  ThrRule .madd 1 true false (fun _ => True) (fun _ q a b _ => (a + b) % q) ∧
  ThrRule .msub 2 true false (fun _ => True) (fun _ q a b _ => (((a : Int) - b) % q).toNat) ∧
  ThrRule .mmul 3 true false (fun _ => True) (fun _ q a b _ => a * b % q) ∧
  ThrRule .mmac 4 true true (fun _ => True) (fun _ q a b d => (d + a * b) % q) ∧
  ThrRule .mscal 5 false false (fun _ => True) (fun i q a _ _ => a * i.b % q) ∧
  ThrRule .plift 8 false true (fun i => i.b % 64 = 32 ∨ i.b % 64 = 48)
    (fun i q a _ d => (d + ((List.range i.t.l).map (thrPrime i.p)).prod / 2 ^ (i.b % 64) * (a % q % 2 ^ (i.b % 64))) % q) ∧
  (∀ (s : State) (w op : Nat) (x : Site) (i : ThrIns) (c : Instr) (inv : Bool), ThrAt s w op x i →
    (c = .ntt w ∧ op = 6 ∧ inv = false ∨ c = .intt w ∧ op = 7 ∧ inv = true) → i.len % (i.t.n / 256) = 0 → opOk x i.a i.len = true →
    opOk x i.d i.len = true → opsApart (wordRange i.a i.len) (wordRange i.d i.len) = true →
    interlocked (getWren s w) [wordRange i.a i.len] [wordRange i.d i.len] = false →
    ∃ t, exec c s = .next t ∧ WrenWork w s t ∧ MemOutside (wrenBase w + i.d) (2048 * i.len) s t ∧
      ∀ l j cs q, l < i.len / (i.t.n / 256) → j < i.t.n → cs = (List.range i.t.n).map (fun k => elemAt s w i.a (l * i.t.n + k)) →
        q = thrPrime i.p (l % (i.t.l + i.t.k)) → elemAt t w i.d (l * i.t.n + j) =
          if inv then inttAt i.t q (Config.thrRoot i.p (l % (i.t.l + i.t.k))) cs j else nttAt i.t q (Config.thrRoot i.p (l % (i.t.l + i.t.k))) cs j) ∧
  (∀ (s : State) (w : Nat) (x : Site) (i : ThrIns), ThrAt s w 9 x i → i.b % 64 ≤ 48 → opOk x i.d i.len = true →
    interlocked (getWren s w) [] [wordRange i.d i.len] = false →
    ∃ t u, exec (.sample w) s = .next t ∧ u = { t with free := s.free } ∧ t.free = s.free + 1 ∧ WrenWork w s u ∧
      MemOutside (wrenBase w + i.d) (2048 * i.len) s t ∧ ∀ e, e < 256 * i.len → elemAt t w i.d e < 2 ^ (i.b % 64)) ∧
  (∀ (s : State) (w m d : Nat) (x : Site) (i : ThrIns), ThrAt s w 0xA x i → m = i.len / (i.t.n / 256) → d = i.b % 32 → i.len = m * (i.t.n / 256) →
    d < m → m ≤ i.t.l + i.t.k → opOk x i.a i.len = true → opOk x i.d ((m - d) * (i.t.n / 256)) = true →
    opsApart (wordRange i.a i.len) (wordRange i.d ((m - d) * (i.t.n / 256))) = true →
    interlocked (getWren s w) [wordRange i.a i.len] [wordRange i.d ((m - d) * (i.t.n / 256))] = false →
    ∃ t, exec (.modsw w) s = .next t ∧ WrenWork w s t ∧ MemOutside (wrenBase w + i.d) (2048 * ((m - d) * (i.t.n / 256))) s t ∧
      ∀ l c, l < m - d → c < i.t.n → elemAt t w i.d (l * i.t.n + c) =
        (dropLimbs i.p m d ((List.range m).map fun j => elemAt s w i.a (j * i.t.n + c))).getD l 0) ∧
  (∀ (s : State) (w cnt first : Nat) (x : Site) (i : ThrIns), ThrAt s w 0xC x i → first = i.b % 65536 → cnt = i.b / 65536 % 65536 → cnt ≠ 0 →
    first + cnt ≤ i.t.n → i.len = 2 * (i.t.n / 256) → opOk x i.a i.len = true → i.d % 2048 = 0 → i.d + cnt * (i.t.n + 1) * 8 ≤ x.prog.wsize →
    overlaps (wordRange i.a i.len) (i.d, cnt * (i.t.n + 1) * 8) = false →
    interlocked (getWren s w) [wordRange i.a i.len] [(i.d, cnt * (i.t.n + 1) * 8)] = false →
    ∃ t, exec (.extract w) s = .next t ∧ WrenWork w s t ∧ MemOutside (wrenBase w + i.d) (cnt * (i.t.n + 1) * 8) s t ∧
      ∀ k e, k < cnt → e ≤ i.t.n → elemAt t w i.d (k * (i.t.n + 1) + e) = (lweOf i.t.n (thrPrime i.p 0)
        ((List.range i.t.n).map fun j => elemAt s w i.a j) ((List.range i.t.n).map fun j => elemAt s w i.a (i.t.n + j)) (first + k)).getD e 0) ∧
  (∀ (s : State) (w lw ls : Nat) (x : Site) (i : ThrIns), ThrAt s w 0xB x i → i.p ≠ 0 → 1 ≤ i.len → i.len ≤ 64 → i.a % 2048 = 0 → i.d % 2048 = 0 →
    lw = i.t.n / 256 → ls = i.len * i.t.l * lw → i.a + 2048 * ls ≤ x.prog.wsize → i.d + 2048 * (2 * ls) ≤ x.prog.wsize →
    overlaps (wordRange i.a ls) (wordRange i.d (2 * ls)) = false →
    interlocked (getWren s w) [wordRange i.a ls] [wordRange i.d (2 * ls)] = false →
    (getObj? s i.b = none → ∃ t, exec (.ksw w) s = .next t ∧ Faulted x 0x0403 s t) ∧
    (∀ base, kswKey s x i = .ok base → w ∈ x.run.wrens → x.run.thks.Nodup →
      ((∃ v ∈ x.run.wrens, v ≠ w ∧ v / 24 = w / 24 ∧ (getWren s v).ended = false) →
        (∀ v ∈ x.run.wrens, v ≠ w → v / 24 = w / 24 → (getWren s v).block ≠ 7) → ∃ t, exec (.ksw w) s = .next t ∧ Blocks x 7 s t) ∧
      ((∀ v ∈ x.run.wrens, v ≠ w → v / 24 = w / 24 → (getWren s v).ended = true) →
        ∃ t, exec (.ksw w) s = .next t ∧ (getWren t w).ix = (nextIx (getWren s w).ix (getWren s w).loops).1 ∧
          (getThk t (w / 24)).passes = (getThk s (w / 24)).passes + 1 ∧ MemOutside (wrenBase w + i.d) (2048 * (2 * ls)) s t ∧
          ∀ b poly l e, b < i.len → poly < 2 → l < i.t.l → e < i.t.n → elemAt t w i.d (((2 * b + poly) * i.t.l + l) * i.t.n + e) =
            Config.kswResidue i.p (memRead s.mem base (kswKeyBytes i.t)) (memRead s.mem (wrenBase w + (i.a + 2048 * (b * i.t.l * lw))) (2048 * i.t.l * lw))
              poly l e % thrPrime i.p l))) ∧
  (∀ (s : State) (w sig : Nat) (x : Site) (i : ThrIns) (v : KSlot) (key : Key), ThrAt s w 0xD x i → i.len % (i.t.n / 256) = 0 →
    sig = i.b / 256 % 256 → 20 ≤ sig → sig ≤ 60 → opOk x i.a (2 * i.len) = true → opOk x i.d i.len = true →
    opsApart (wordRange i.a i.len) (wordRange i.d i.len) = true → opsApart (wordRange (i.a + 2048 * i.len) i.len) (wordRange i.d i.len) = true →
    nameSlot s x.run.ctx (i.b % 256) = .ok v → v.bound = false → keyUse v none 0x208 [7] = .ok key →
    interlocked (getWren s w) [wordRange i.a i.len, wordRange (i.a + 2048 * i.len) i.len] [wordRange i.d i.len] = false →
    ∃ t es u, exec (.pdec w) s = .next t ∧ u = { t with free := s.free } ∧ t.free = s.free + 1 ∧ WrenWork w s u ∧
      MemOutside (wrenBase w + i.d) (2048 * i.len) s t ∧ es.length = i.t.n ∧ (∀ e ∈ es, -(2 : Int) ^ sig ≤ e ∧ e < (2 : Int) ^ sig) ∧
      ∀ l k, l < i.len / (i.t.n / 256) → k < i.t.n → elemAt t w i.d (l * i.t.n + k) = (pdecLimb i.t.n (thrPrime i.p (l % (i.t.l + i.t.k)))
        ((List.range i.t.n).map fun j => elemAt s w (i.a + 2048 * i.len) (l * i.t.n + j)) ((List.range i.t.n).map fun j => elemAt s w i.a (l * i.t.n + j))
        key.material es).getD k 0) ∧
  (∀ (s : State) (w op : Nat) (x : Site) (c : Nat → Instr), WrenRow c 5 op → Stands s w 5 op x → thrSet (bits x.insn 35 4) = none →
    ∃ t, exec (c w) s = .next t ∧ Faulted x 0x0105 s t) ∧
  (∀ p t l, thrSet p = some t → l < t.l + t.k → thrPrime p l % 2 ^ 17 = 1 ∧ thrPrime p l < 2 ^ (if p = 3 then 55 else 54) ∧ 2 ^ 53 < thrPrime p l) ∧
  (∀ p t l m, thrSet p = some t → m < l → l < t.l + t.k → thrPrime p l < thrPrime p m)

/-- ENG submits a Goldcrest or Chaffinch descriptor to a held instance; its completion writes COUNT output records at once. (1) Where a Wren stands at ENG of kind 1 with a held, working instance and a well-formed descriptor of a gate, the row of that gate adds the operation, makes the instance Busy and retires; every other gate row and the ENG row leave it to that row and change nothing; (2) an instance the run does not hold faults with 0x0401, a malformed descriptor of any operation, at the ENG row, with 0x0105; (3) ENG of kind 0 with a held instance and a descriptor in the working area submits it; kind 3 faults with 0x0105. (4) WREN_ASYNC_COMPLETE of a gate operation that may write its outputs stores one 3,080-byte record for each gate (w for SWITCH_BITS) at OUT and removes the operation; (5) NOT gives the negated words with 2^30 added to the last, modulo 2^32, COPY the input's words; a refreshed bit is the model's opaque function of key and inputs (log 37); (6) a form is accepted only for the operations of Table 11.6, COUNT up to 256 and w of 1 to 15 for SWITCH_BITS and 0 otherwise. -/
def Obligations.GoldcrestGatesRunAsDescribed : Prop :=
  (∀ (s : State) (w op : Nat) (x : Site) (g : Gate) (c : Nat → Instr), Stands s w 7 1 x → bits x.insn 30 2 = 1 → gateSite x s = .ok g →
    (op = 1 ∧ c = .gateAnd ∨ op = 2 ∧ c = .gateOr ∨ op = 3 ∧ c = .gateNand ∨ op = 4 ∧ c = .gateNor ∨ op = 5 ∧ c = .gateXor ∨ op = 6 ∧ c = .gateXnor ∨
      op = 7 ∧ c = .andny ∨ op = 8 ∧ c = .orny ∨ op = 9 ∧ c = .gateMux ∨ op = 0x10 ∧ c = .gateNot ∨ op = 0x11 ∧ c = .gateCopy ∨
      op = 0x20 ∧ c = .switchBits) →
    (g.op = op → interlocked (getWren s w) [(getSr s w (bits x.insn 20 5), 64)] [] = false →
      ∃ t inst, inst = getSr s w (bits x.insn 25 5) ∧ exec (c w) s = .next t ∧
        (getWren t w).async = (getWren s w).async ++ [.gate inst g.op g.count g.w g.inA g.inB g.inC g.out g.key] ∧
        (getWren t w).ix = (nextIx (getWren s w).ix (getWren s w).loops).1 ∧ getInst t 1 inst = { getInst s 1 inst with busy := true, count := g.count } ∧
        (∀ v, v ≠ w → getWren t v = getWren s v) ∧ t.mem = s.mem) ∧
    (g.op ≠ op → exec (c w) s = .next s) ∧ exec (.eng w) s = .next s) ∧
  (∀ (s : State) (w i : Nat) (x : Site), Stands s w 7 1 x → i = getSr s w (bits x.insn 25 5) →
    ((bits x.insn 30 2 = 0 ∨ bits x.insn 30 2 = 1) → (getInst s (bits x.insn 30 2) i).holder ≠ some x.run.id →
      ∃ t, exec (.eng w) s = .next t ∧ Faulted x 0x0401 s t) ∧
    (bits x.insn 30 2 = 1 → instErr x 1 s = none → gateForm (readLocal s w (getSr s w (bits x.insn 20 5)) 64) = false →
      ∃ t, exec (.eng w) s = .next t ∧ Faulted x 0x0105 s t) ∧
    (bits x.insn 30 2 = 3 → ∃ t, exec (.eng w) s = .next t ∧ Faulted x 0x0105 s t) ∧
    (bits x.insn 30 2 = 0 → instErr x 0 s = none → getSr s w (bits x.insn 20 5) + 64 ≤ x.prog.wsize →
      interlocked (getWren s w) [(getSr s w (bits x.insn 20 5), 64)] [] = false →
      ∃ t, exec (.eng w) s = .next t ∧ (getWren t w).async = (getWren s w).async ++ [.chaf i (getSr s w (bits x.insn 20 5))] ∧
        (getWren t w).ix = (nextIx (getWren s w).ix (getWren s w).loops).1 ∧ getInst t 0 i = { getInst s 0 i with busy := true } ∧ t.mem = s.mem)) ∧
  (∀ (s s' : State) (w i inst : Nat) (x : Site) (g : Gate) (bs : List Byte), asyncSite s w = some x → x.run.st = 1 → s.pwr.st = .run →
    (getWren s w).async[i]? = some (.gate inst g.op g.count g.w g.inA g.inB g.inC g.out g.key) → gateErr s x.run.ctx g = none →
    bs = (List.range g.count).flatMap (gateOut s x.run.ctx g) → dvaWrite s x.run.ctx g.out bs .write false = .ok s' →
    ∃ u, exec (.wrenAsyncComplete w i) s =
        .next (retireAsync w i (.gate inst g.op g.count g.w g.inA g.inB g.inC g.out g.key) u) ∧ u.mem = s'.mem ∧ u.hostMem = s'.hostMem ∧
      (∀ v, getWren u v = getWren s v) ∧ u.host = s.host) ∧
  (∀ (s : State) (c : Nat) (g : Gate) (j : Nat), 1 ≤ g.w → g.w ≤ 15 → (gateOut s c g j).length = if g.op = 0x20 then g.w * 3080 else 3080) ∧
  (∀ (ws : List Nat) (i : Nat), ws.length = 769 → (∀ v ∈ ws, v < 2 ^ 32) → i < 769 →
    ((notWords ws).getD i 0 + ws.getD i 0) % 2 ^ 32 = if i = 768 then 2 ^ 30 else 0) ∧
  (∀ (s : State) (c : Nat) (g : Gate) (j : Nat) (b : List Byte), b = (List.range 3080).map (fun i => dvaGet s c (g.inA + 3080 * j + i) .read false) →
    (g.op = 0x11 → gateOut s c g j = sub b 0 3076 ++ zeros 4) ∧
    (g.op = 0x10 → ∀ i, i < 769 → field (gateOut s c g j) (4 * i) 4 = (notWords ((List.range 769).map fun i => field b (4 * i) 4)).getD i 0)) ∧
  (∀ (b : List Byte), gateForm b = true → (field b 0 2 ∈ [1, 2, 3, 4, 5, 6, 7, 8, 9, 0x10, 0x11, 0x20]) ∧ field b 4 2 ≤ 256 ∧ field b 6 2 = 0 ∧
    (field b 0 2 = 0x20 → 1 ≤ field b 2 2 ∧ field b 2 2 ≤ 15) ∧ (field b 0 2 ≠ 0x20 → field b 2 2 = 0))

/-- Listeners, S_HELLO, S_DATA and S_CLOSE, cold fetch and idle timeout, queries and evictions, and what a port answers itself. (1) SESSION_LISTEN makes the lowest free listener with a fresh key pair, the 65th completes with 0x0305; LISTEN_CLOSE frees its sessions. (2) S_HELLO at a listener that passes the checks opens a session at the free index under the keys of R231, S_READY answered; one of a live session's identifier and random gets the same S_READY, identifier alone S_CLOSE DUPLICATE, with nothing changed; one for no listener is dropped; with no free session S_CLOSE NO_SESSION and event 0x0305. (3) S_DATA of a hot Open session is dropped when its tag fails; in order it delivers the plaintext, moves the return path and is acknowledged; beyond the window it gets NAK 1, already received S_ACK; memory is never touched. An authentic S_CLOSE closes; data of a Closed session gets S_CLOSE again; a cold session's packet waits in the miss buffer until COLD_SESSION_FETCH. (4) The idle timeout closes after IDLE seconds, not before. (5) SESSION_QUERY returns the state; SESSION_EVICT frees it, its generation one higher. (6) PORT_CONFIG, Echo, Neighbour Solicitation and Router Advertisement. -/
def Obligations.SessionsOpenDeliverAndClose : Prop :=
  (∀ (s : State) (q : QRef) (p : Packet) (n : Nat), Turn s q 0x0700 p → quarantined s (unitId 9 (bits (p.w 0) 0 2)) = false →
    (s.lnt.listeners.length < 64 → n = lowestFree (s.lnt.listeners.map Prod.fst) → ∃ u l, exec (.sessionListen q) s = .next (finish q (Done.res n 0) u) ∧
      l = getLst u n ∧ l.live = true ∧ l.port = bits (p.w 0) 0 2 ∧ l.udp = (if p.w 3 = 0 then 0x4B35 else p.w 3) ∧ l.rnd = p.w 4 ∧ l.ctx = p.ctx ∧
      l.xPriv.length = 32 ∧ l.dk.length = 64 ∧ l.xPub = x25519Pub l.xPriv ∧ l.ek = mlkemEk l.dk ∧ (∀ m, m ≠ n → getLst u m = getLst s m) ∧
      u = { s with lnt := { s.lnt with listeners := u.lnt.listeners }, free := s.free + 2 }) ∧
    (64 ≤ s.lnt.listeners.length → exec (.sessionListen q) s = .next (finish q (Done.fail 0x0305 64) s))) ∧
  (∀ (s : State) (q : QRef) (p : Packet), Turn s q 0x0701 p → (getLst s (p.w 0)).live = true → inScope s p.ctx (getLst s (p.w 0)).ctx = true →
    ∃ u, exec (.listenClose q) s = .next (finish q Done.ok u) ∧ getLst u (p.w 0) = Listener.init ∧
      (∀ i, (getSess s i).st ≠ 0 → (getSess s i).lst = p.w 0 → getSess u i = { Sess.init with gen := ((getSess s i).gen + 1) % 2 ^ 14 }) ∧
      (∀ m, m ≠ p.w 0 → getLst u m = getLst s m) ∧ u = { s with lnt := u.lnt }) ∧
  (∀ (s : State) (p : LntPkt) (n : Nat), Arrives s p 0x20 → helloLst s p = some n → helloOk p.payload = true →
    ((∀ j ∈ sessOfLst s n, (getSess s j).ident ≠ sub p.payload 0x460 16) →
      (∀ i, nextNumber (sessRange s (getCtx s (getLst s n).ctx).part).1 (sessRange s (getCtx s (getLst s n).ctx).part).2
          ((s.lnt.sess.filter fun e => e.2.st != 0).map Prod.fst) s.lnt.freed = some i →
        ∃ t v pkt, exec (.sHello p) s = .next t ∧ v = getSess t i ∧ v.st = 1 ∧ v.gen = (getSess s i).gen ∧ v.lst = n ∧
          v.ident = sub p.payload 0x460 16 ∧ v.random = sub p.payload 0x478 16 ∧ v.granted = min (field p.payload 0x488 2) 8192 ∧
          (v.kIn, v.kOut, v.kFin) = sessKeys s (getLst s n) p.payload ∧ v.rx = 0 ∧ v.tx = 0 ∧ v.addr = p.srcAddr ∧ v.port = p.srcPort ∧
          t.out = s.out ++ [Out.lnt p.engine p.srcAddr pkt] ∧ pkt.typ = 0x21 ∧ pkt.dest = sessHandle i v ∧
          pkt.payload = readyPayload v.kFin p.payload (i + v.gen * 2 ^ 18) v.granted ∧ LntOnly s t ∧
          ∀ j, j ≠ i → getSess t j = { getSess s j with hot := (getSess t j).hot }) ∧
      (nextNumber (sessRange s (getCtx s (getLst s n).ctx).part).1 (sessRange s (getCtx s (getLst s n).ctx).part).2
          ((s.lnt.sess.filter fun e => e.2.st != 0).map Prod.fst) s.lnt.freed = none →
        ∃ pkt, exec (.sHello p) s = .next (raisePlain 0x0305 (some (getLst s n).ctx) (unitId 9 p.engine) { s with out := s.out ++ [Out.lnt p.engine p.srcAddr pkt] }) ∧
          pkt.typ = 0x24 ∧ pkt.imm = 1)) ∧
    (∀ i, (sessOfLst s n).find? (fun j => (getSess s j).ident == sub p.payload 0x460 16) = some i →
      ∃ pkt, exec (.sHello p) s = .next { s with out := s.out ++ [Out.lnt p.engine p.srcAddr pkt] } ∧
        ((getSess s i).st = 1 → (getSess s i).random = sub p.payload 0x478 16 → pkt.typ = 0x21 ∧ pkt.payload = (getSess s i).ready) ∧
        ((getSess s i).st ≠ 1 ∨ (getSess s i).random ≠ sub p.payload 0x478 16 → pkt.typ = 0x24 ∧ pkt.imm = 2))) ∧
  (∀ (s : State) (p : LntPkt), Arrives s p 0x20 → helloLst s p = none ∨ helloOk p.payload = false → exec (.sHello p) s = .next s) ∧
  (∀ (s : State) (p : LntPkt) (i : Nat) (v : Sess), Arrives s p 0x22 → sessOf s p.dest = some i → v = getSess s i → (getLst s v.lst).port = p.engine →
    (v.hot = true → v.st = 1 → ∃ t, exec (.sData p) s = .next t ∧ LntOnly s t ∧
      (openData v.kIn 7 (psnExt v.rx p.psn) p = none → t.out = s.out ∧ (getSess t i).rx = v.rx ∧ (getSess t i).inbox = v.inbox ∧
        (getSess t i).addr = v.addr ∧ (getSess t i).reorder = v.reorder) ∧
      (∀ text, openData v.kIn 7 (psnExt v.rx p.psn) p = some text →
        (p.psn = v.rx % 2 ^ 32 → v.reorder = [] → p.flags.getLsbD 0 = true → p.flags.getLsbD 1 = true → ∃ pkt,
          (getSess t i).rx = v.rx + 1 ∧ (getSess t i).inbox = v.inbox ++ [text] ∧ (getSess t i).addr = p.srcAddr ∧ (getSess t i).port = p.srcPort ∧
          (getSess t i).lastAt = s.lark.time ∧ t.out = s.out ++ [Out.lnt p.engine p.srcAddr pkt] ∧ pkt.typ = 0x23 ∧ pkt.ts = p.ts) ∧
        (1 ≤ psnDist v.rx p.psn → psnDist v.rx p.psn < 1024 → v.reorder = [] → (getSess t i).rx = v.rx ∧ (getSess t i).inbox = v.inbox ∧
          (getSess t i).reorder = [{ p with psn := v.rx + psnDist v.rx p.psn, payload := text, tag := [] }]) ∧
        (1024 ≤ psnDist v.rx p.psn → ∃ pkt, (getSess t i).rx = v.rx ∧ (getSess t i).inbox = v.inbox ∧ (getSess t i).reorder = v.reorder ∧
          t.out = s.out ++ [Out.lnt p.engine v.addr pkt] ∧ (psnDist v.rx p.psn < 2 ^ 31 → pkt.typ = 0x09 ∧ pkt.imm = 1) ∧
          (2 ^ 31 ≤ psnDist v.rx p.psn → pkt.typ = 0x23)))) ∧
    (v.hot = true → v.st = 2 → ∃ t pkt, exec (.sData p) s = .next t ∧ LntOnly s t ∧ t.out = s.out ++ [Out.lnt p.engine v.addr pkt] ∧ pkt.typ = 0x24 ∧
      pkt.imm = v.reason ∧ (getSess t i).inbox = v.inbox ∧ (getSess t i).st = 2) ∧
    (v.hot = false → missBytes s p.engine + 48 + p.payload.length + p.tag.length ≤ 4194304 →
      exec (.sData p) s = .next { s with lnt := { s.lnt with missBuf := s.lnt.missBuf ++ [(i, p)] } })) ∧
  (∀ (s : State) (p : LntPkt), Arrives s p 0x22 ∨ Arrives s p 0x24 → sessOf s p.dest = none →
    exec (if p.typ = 0x22 then .sData p else .sClose p) s = .next (dropLnt p.engine s) ∧ (dropLnt p.engine s).out = s.out) ∧
  (∀ (s : State) (p : LntPkt) (i c : Nat) (v : Sess), Arrives s p 0x24 → sessOf s p.dest = some i → v = getSess s i → (getLst s v.lst).port = p.engine →
    v.hot = true → ctlSeq v.kIn 7 v.ctlRx p = some c →
    ∃ t, exec (.sClose p) s = .next t ∧ LntOnly s t ∧ (getSess t i).st = 2 ∧ (getSess t i).ctlRx = c + 1 ∧ (v.st = 1 → (getSess t i).reason = 0) ∧
      (getSess t i).inbox = v.inbox ∧ t.out = s.out) ∧
  (∀ (s : State) (i : Nat), (getSess s i).st ≠ 0 → (getSess s i).hot = false → (∀ e ∈ s.lnt.missBuf, e.1 ≠ i) →
    (hotPeers s i).length < hotLimit s → ∃ t, exec (.coldSessionFetch i) s = .next t ∧ (getSess t i).hot = true ∧
      getSess t i = { getSess s i with hot := true, used := (getSess t i).used } ∧ (∀ j, j ≠ i → getSess t j = getSess s j) ∧ t.out = s.out) ∧
  (∀ (s : State) (i : Nat), (getSess s i).st = 1 →
    ((getSess s i).lastAt + s.lnt.idle * 1000000000 ≤ s.lark.time → ∃ t, exec (.sessionIdleTimeout i) s = .next t ∧
      getSess t i = { getSess s i with st := 2, reason := 0 } ∧ (∀ j, j ≠ i → getSess t j = getSess s j) ∧ t = { s with lnt := { s.lnt with sess := t.lnt.sess } }) ∧
    (s.lark.time < (getSess s i).lastAt + s.lnt.idle * 1000000000 → exec (.sessionIdleTimeout i) s = .next s)) ∧
  (∀ (s : State) (q : QRef) (p : Packet) (i : Nat), sessOf s (p.w 0) = some i → inScope s p.ctx (sessCtx s (getSess s i)) = true →
    (Turn s q 0x0702 p → exec (.sessionQuery q) s = .next (finish q (Done.res (getSess s i).st 0) s)) ∧
    (Turn s q 0x0703 p → ∃ u, exec (.sessionEvict q) s = .next (finish q Done.ok u) ∧
      getSess u i = { Sess.init with gen := ((getSess s i).gen + 1) % 2 ^ 14 } ∧ (∀ j, j ≠ i → getSess u j = getSess s j) ∧
      u.lnt.freed = s.lnt.freed ++ [i] ∧ u = { s with lnt := u.lnt })) ∧
  (∀ (s : State) (q : QRef) (p : Packet), sessOf s (p.w 0) = none →
    (Turn s q 0x0702 p → exec (.sessionQuery q) s = .next (finish q (Done.fail 0x0403 0) s)) ∧
    (Turn s q 0x0703 p → exec (.sessionEvict q) s = .next (finish q (Done.fail 0x0403 0) s))) ∧
  (∀ (s : State) (q : QRef) (p : Packet) (e : Nat), Turn s q 0x0707 p → e = bits (p.w 0) 0 2 → quarantined s (unitId 9 e) = false →
    (p.w 1 ≤ 500 → ∃ u, exec (.portConfig q) s = .next (finish q Done.ok u) ∧
      getEth u e = { getEth s e with hold := p.w 1, addr := BitVec.ofNat 128 (p.w 2 + p.w 3 * 2 ^ 64) } ∧ (∀ j, j ≠ e → getEth u j = getEth s j) ∧
      u = { s with lnt := { s.lnt with ports := u.lnt.ports } }) ∧
    (500 < p.w 1 → ∃ d, exec (.portConfig q) s = .next (finish q (Done.fail 0x0105 d) s))) ∧
  (∀ (s : State) (e : Nat) (src dst : BitVec 128) (body : List Byte), e < 4 → linkUp s e = true →
    (dst = (getEth s e).addr → exec (.icmpv6Echo e src dst body) s = .next { s with out := s.out ++ [Out.icmp e 129 src body] } ∧
      ∃ b, exec (.neighbourSolicitation e src dst) s = .next { s with out := s.out ++ [Out.icmp e 136 src b] }) ∧
    (dst ≠ (getEth s e).addr → exec (.icmpv6Echo e src dst body) s = .next s ∧ exec (.neighbourSolicitation e src dst) s = .next s) ∧
    ∃ t, exec (.routerAdvertisement e dst) s = .next t ∧ getEth t e = { getEth s e with router := some dst } ∧ ∀ j, j ≠ e → getEth t j = getEth s j)

/-- Queue pair `n` has entered Error with a status (12 R251): every descriptor that had not completed has a record with it, nothing is
left to send or place, and no other queue pair has changed. -/
def QpEnded (n status : Nat) (s t : State) : Prop :=
  (getQp t n).st = 5 ∧ (getQp t n).errStatus = status ∧ (getQp t n).sq = [] ∧ (getQp t n).txq = [] ∧ (getQp t n).unacked = [] ∧
    (getQp t n).reorder = [] ∧ (∃ rs, (getQp t n).cq = (getQp s n).cq ++ rs ∧ rs.map (fun r => (r.tag, r.status)) = (getQp s n).sq.map fun d => (d.tag, status)) ∧
    (getQp t n).sendCnt = (getQp s n).sendCnt + BitVec.ofNat 32 (getQp s n).sq.length ∧ (∀ m, m ≠ n → getQp t m = getQp s m) ∧
    t.mem = s.mem ∧ t.hostMem = s.hostMem

/-- TERMINATE with a status is among what a queue pair's end sends to a bound peer through an engine that can send. -/
def TellsPeer (n status : Nat) (s t : State) : Prop :=
  ∀ peer, (getQp s n).peerQp = some peer → (getQp s n).engine < 4 → linkUp s (getQp s n).engine = true →
    ∃ pkt, Out.lnt (getQp s n).engine (getQp s n).peer pkt ∈ t.out ∧ pkt.typ = 0x0F ∧ pkt.imm = status ∧ pkt.dest = peer ∧ pkt.src = n

/-- Queue pairs are created, connect in three steps under the link key, end with one status, and are held while their port is down. (1) QP_CREATE in range makes the next number's queue pair in Init; ring sizes outside 4 to 12 complete with 0x0105. (2) QP_MODIFY: from Init to Connecting on an Ethernet engine with a fresh nonce and CONNECT sent, protected if the context has a link key, 0x0203 without one in Confidential host mode; from Connected to Error with 0x0401; from Error to Init; other targets complete with 0x0401. QP_DESTROY removes it. CC_CONFIG stores a block in range. (3) CONNECT binds the lowest queue pair that qualifies and gets ACCEPT with a fresh nonce, or REJECT; a verified ACCEPT connects the initiator and sends CONFIRM, a verified CONFIRM the responder; a wrong tag is dropped; CONNECT is sent again until 100 ms, then Error 0x0801; an unconfirmed binding is dropped after 1 ms; REJECT changes nothing; a verified TERMINATE ends the queue pair with its status. (4) A link loss holds the port and its Connected queue pairs, a return within the hold connects them with cwnd at its initial value, and the hold's expiry (or a hold of 0) ends them with 0x0702 and event 0x0702. -/
def Obligations.QueuePairsConnectAndEnd : Prop :=
  (∀ (s : State) (q : QRef) (p : Packet) (e sl rl n base : Nat), Turn s q 0x0704 p → e = bits (p.w 0) 0 3 → sl = bits (p.w 3) 0 4 → rl = bits (p.w 3) 4 4 →
    e ≤ 4 → quarantined s (unitId 9 e) = false →
    (4 ≤ sl → sl ≤ 12 → 4 ≤ rl → rl ≤ 12 → (e = 4 → p.w 1 < 2 ^ 17 ∧ p.w 2 = 0) →
      nextNumber (qpRange s (getCtx s p.ctx).part).1 (qpRange s (getCtx s p.ctx).part).2 ((s.lnt.qps.filter fun x => x.2.st != 0).map Prod.fst) s.lnt.freedQp = some n →
      firstFit (hbmWindow s (getCtx s p.ctx).part).1 (hbmWindow s (getCtx s p.ctx).part).2 4096 (ringBytes sl rl) (usedRanges s ++ scrubRanges s) = some base →
      ∃ u, exec (.qpCreate q) s = .next (finish q (Done.res n 0) u) ∧ getQp u n = { Qp.init with
          st := 1, ctx := p.ctx, engine := e, notReady := bitOf (p.w 0) 8, peer := p.w 1 + p.w 2 * 2 ^ 64, s := sl, r := rl, base := base, cc := ccFor s p.ctx e } ∧
        (∀ m, m ≠ n → getQp u m = getQp s m) ∧ u = { s with lnt := u.lnt }) ∧
    (sl < 4 ∨ 12 < sl ∨ rl < 4 ∨ 12 < rl → ∃ d, exec (.qpCreate q) s = .next (finish q (Done.fail 0x0105 d) s))) ∧
  (∀ (s : State) (q : QRef) (p : Packet) (n tgt : Nat) (v : Qp), Turn s q 0x0705 p → n = bits (p.w 0) 0 24 → tgt = bits (p.w 1) 0 4 → v = getQp s n →
    v.st ≠ 0 → inScope s p.ctx v.ctx = true →
    (tgt = 2 → v.st = 1 → v.engine < 4 →
      (linkKeyOf s v.ctx = none → s.host.confidential = true → ∃ d, exec (.qpModify q) s = .next (finish q (Done.fail 0x0203 d) s)) ∧
      (linkKeyOf s v.ctx ≠ none ∨ s.host.confidential = false → ∃ u, exec (.qpModify q) s = .next (finish q Done.ok u) ∧ (getQp u n).st = 2 ∧
        (getQp u n).prot = (linkKeyOf s v.ctx).isSome ∧ (getQp u n).connSince = s.lark.time ∧ (getQp u n).nonceI.length = 16 ∧
        (∀ m, m ≠ n → getQp u m = getQp s m) ∧
        (linkUp s v.engine = true → ∃ pkt, u.out = s.out ++ [Out.lnt v.engine v.peer pkt] ∧ pkt.typ = 0x0B ∧ pkt.src = n ∧
          pkt.payload = (getQp u n).linkId ++ (getQp u n).nonceI))) ∧
    (tgt = 5 → v.st = 3 → ∃ u, exec (.qpModify q) s = .next (finish q Done.ok u) ∧ QpEnded n 0x0401 s u ∧ TellsPeer n 0x0401 s u) ∧
    (tgt = 1 → v.st = 5 → ∃ u, exec (.qpModify q) s = .next (finish q Done.ok u) ∧ (getQp u n).st = 1 ∧ (getQp u n).sq = [] ∧ (getQp u n).txPsn = 0 ∧
      (getQp u n).rxPsn = 0 ∧ (getQp u n).peerQp = none ∧ (getQp u n).kTx = [] ∧ (getQp u n).sendCnt = v.sendCnt ∧ u = { s with lnt := { s.lnt with qps := u.lnt.qps } }) ∧
    (tgt = 0 ∨ 5 < tgt ∨ tgt = 3 ∨ tgt = 4 ∨ tgt = 2 ∧ v.st ≠ 1 ∨ tgt = 1 ∧ v.st ≠ 5 → exec (.qpModify q) s = .next (finish q (Done.fail 0x0401 v.st) s))) ∧
  (∀ (s : State) (q : QRef) (p : Packet) (n : Nat), n = bits (p.w 0) 0 24 → (getQp s n).st ≠ 0 → inScope s p.ctx (getQp s n).ctx = true →
    (Turn s q 0x0706 p → ∃ u, exec (.qpDestroy q) s = .next (finish q Done.ok u) ∧ getQp u n = Qp.init ∧ (∀ m, m ≠ n → getQp u m = getQp s m) ∧
      n ∈ u.lnt.freedQp ∧ TellsPeer n 0x0403 s u ∧ u.mem = s.mem) ∧
    (Turn s q 0x0708 p → n ≠ 0xFFFFFF → rsvdWord 2 (0xFFFF + (2 ^ 64 - 2 ^ 32)) (p.w 2) = none → rsvdWord 4 (2 ^ 36 - 1 + 7 * 2 ^ 60) (p.w 4) = none →
      (ccFault p = none → ∃ u, exec (.ccConfig q) s = .next (finish q Done.ok u) ∧ getQp u n = { getQp s n with cc := ccOf p } ∧
        (∀ m, m ≠ n → getQp u m = getQp s m) ∧ u = { s with lnt := { s.lnt with qps := u.lnt.qps } } ∧ 1000 ≤ (ccOf p).target ∧ 8192 ≤ (ccOf p).cwndMin ∧
        (ccOf p).cwndMin ≤ (ccOf p).cwndInit ∧ (ccOf p).cwndInit ≤ (ccOf p).cwndMax ∧ (ccOf p).cwndMax ≤ 16777216 ∧ 1 ≤ (ccOf p).retry) ∧
      (ccFault p ≠ none → ∃ d, exec (.ccConfig q) s = .next (finish q (Done.fail 0x0105 d) s)))) ∧
  (∀ (s : State) (p : LntPkt), Arrives s p 0x0B → tabFind (fun _ v => rebinds p v) s.lnt.qps = none →
    (∀ n v, tabFind (fun _ v => accepts s p v) s.lnt.qps = some (n, v) → v = getQp s n → ∃ t pkt, exec (.connect p) s = .next t ∧
      (getQp t n).prov = some (p.src % 2 ^ 24, s.lark.time) ∧ (getQp t n).nonceI = sub p.payload 16 16 ∧ (getQp t n).nonceR.length = 16 ∧
      (getQp t n).st = v.st ∧ (∀ m, m ≠ n → getQp t m = getQp s m) ∧ t.out = s.out ++ [Out.lnt p.engine p.srcAddr pkt] ∧ pkt.typ = 0x0C ∧
      pkt.dest = p.src % 2 ^ 24 ∧ pkt.src = n ∧ pkt.payload = (getQp t n).nonceR) ∧
    (tabFind (fun _ v => accepts s p v) s.lnt.qps = none → ∃ pkt, exec (.connect p) s = .next { s with out := s.out ++ [Out.lnt p.engine p.srcAddr pkt] } ∧
      pkt.typ = 0x0E ∧ pkt.dest = p.src % 2 ^ 24)) ∧
  (∀ (s : State) (p : LntPkt) (n : Nat) (v : Qp) (ks : List Byte × List Byte), n = p.dest % 2 ^ 24 → v = getQp s n → v.engine = p.engine → v.peer = p.srcAddr →
    ctxActive s v.ctx = true →
    (Arrives s p 0x0C → v.st = 2 → ks = linkKeys v.link v.nonceI (sub p.payload 0 16) n (p.src % 2 ^ 24) →
      (v.prot = true → handTag ks.2 6 v.linkId v.nonceI (sub p.payload 0 16) ≠ p.tag → exec (.accept p) s = .next (dropLnt p.engine s)) ∧
      ((v.prot = true → handTag ks.2 6 v.linkId v.nonceI (sub p.payload 0 16) = p.tag) → v.sq = [] → v.txq = [] → ∃ t pkt, exec (.accept p) s = .next t ∧
        (getQp t n).st = 3 ∧ (getQp t n).peerQp = some (p.src % 2 ^ 24) ∧ (getQp t n).initiator = true ∧ (getQp t n).kTx = ks.1 ∧ (getQp t n).kRx = ks.2 ∧
        (getQp t n).cwnd = v.cc.cwndInit ∧ t.out = s.out ++ [Out.lnt p.engine p.srcAddr pkt] ∧ pkt.typ = 0x0D ∧ (∀ m, m ≠ n → getQp t m = getQp s m))) ∧
    (Arrives s p 0x0D → v.st = 1 ∨ v.st = 2 → (∃ at_, v.prov = some (p.src % 2 ^ 24, at_)) →
      (v.prot = true → handTag v.kRx 5 v.linkId v.nonceI v.nonceR ≠ p.tag → exec (.confirm p) s = .next (dropLnt p.engine s)) ∧
      ((v.prot = true → handTag v.kRx 5 v.linkId v.nonceI v.nonceR = p.tag) → v.sq = [] → v.txq = [] → ∃ t, exec (.confirm p) s = .next t ∧
        (getQp t n).st = 3 ∧ (getQp t n).peerQp = some (p.src % 2 ^ 24) ∧ (getQp t n).prov = none ∧ (getQp t n).cwnd = v.cc.cwndInit ∧
        (∀ m, m ≠ n → getQp t m = getQp s m) ∧ t = { s with lnt := { s.lnt with qps := t.lnt.qps } }))) ∧
  (∀ (s : State) (n : Nat), (getQp s n).st = 2 → (getQp s n).engine < 4 →
    ((getQp s n).connSince + 100000000 ≤ s.lark.time → ∃ t, exec (.connectRetry n) s = .next t ∧ QpEnded n 0x0801 s t) ∧
    (s.lark.time < (getQp s n).connSince + 100000000 → linkUp s (getQp s n).engine = true → ∃ pkt,
      exec (.connectRetry n) s = .next { s with out := s.out ++ [Out.lnt (getQp s n).engine (getQp s n).peer pkt] } ∧ pkt.typ = 0x0B ∧
        pkt.payload = (getQp s n).linkId ++ (getQp s n).nonceI)) ∧
  (∀ (s : State) (n peer at_ : Nat), (getQp s n).prov = some (peer, at_) →
    (at_ + 1000000 ≤ s.lark.time → ∃ t, exec (.provisionalBindTimeout n) s = .next t ∧ getQp t n = { getQp s n with prov := none } ∧
      (∀ m, m ≠ n → getQp t m = getQp s m) ∧ t = { s with lnt := { s.lnt with qps := t.lnt.qps } }) ∧
    (s.lark.time < at_ + 1000000 → exec (.provisionalBindTimeout n) s = .next s)) ∧
  (∀ (s : State) (p : LntPkt), Arrives s p 0x0E → exec (.reject p) s = .next s) ∧
  (∀ (s : State) (p : LntPkt) (n : Nat) (v : Qp), Arrives s p 0x0F → n = p.dest % 2 ^ 24 → v = getQp s n → v.st = 3 ∨ v.st = 4 →
    v.peerQp = some (p.src % 2 ^ 24) → ctxActive s v.ctx = true →
    (v.prot = true → ctlSeq v.kRx (rxDir v) v.ctlRx p = none → exec (.terminate p) s = .next (dropLnt p.engine s)) ∧
    ((∃ c, v.prot = true ∧ ctlSeq v.kRx (rxDir v) v.ctlRx p = some c) ∨ v.prot = false ∧ p.engine = v.engine ∧ p.srcAddr = v.peer →
      ∃ t, exec (.terminate p) s = .next t ∧ QpEnded n (p.imm % 2 ^ 16) s t)) ∧
  (∀ (s : State) (e : Nat), e < 4 → powered s = true → tabWf Qp.init s.lnt.qps = true →
    ((getEth s e).st ≠ 1 → exec (.ethLinkDown e) s = .next s) ∧
    ((getEth s e).st = 1 → (getEth s e).hold ≠ 0 → ∃ t, exec (.ethLinkDown e) s = .next t ∧
      getEth t e = { getEth s e with st := 2, downAt := s.lark.time, losses := (getEth s e).losses + 1 } ∧ (∀ j, j ≠ e → getEth t j = getEth s j) ∧
      (∀ n, getQp t n = if (getQp s n).engine = e ∧ (getQp s n).st = 3 then { getQp s n with st := 4 } else getQp s n) ∧ t = { s with lnt := t.lnt }) ∧
    ((getEth s e).st = 1 ∧ (getEth s e).hold = 0 ∨ (getEth s e).st = 2 ∧ (getEth s e).downAt + (getEth s e).hold * 100000 ≤ s.lark.time →
      ∃ t, exec (if (getEth s e).st = 1 then .ethLinkDown e else .ethHoldExpiry e) s = .next (raisePlain 0x0702 none (unitId 9 e) t) ∧
        (getEth t e).st = 0 ∧ (getEth t e).expired = true ∧ (∀ j, j ≠ e → getEth t j = getEth s j) ∧
        (∀ n, (getQp s n).engine = e → 2 ≤ (getQp s n).st → (getQp s n).st ≤ 4 → (getQp t n).st = 5 ∧ (getQp t n).errStatus = 0x0702 ∧ (getQp t n).sq = []) ∧
        ∀ n, (getQp s n).engine ≠ e → getQp t n = getQp s n) ∧
    ((getEth s e).st = 2 → s.lark.time < (getEth s e).downAt + (getEth s e).hold * 100000 → exec (.ethHoldExpiry e) s = .next s) ∧
    ((getEth s e).st ≠ 1 → s.pwr.warmBusy = false → s.pwr.st = .idle ∨ s.pwr.st = .run → s.pwr.removing = false → ∃ t, exec (.ethLinkUp e) s = .next t ∧
      (getEth t e).st = 1 ∧ ∀ n, (getQp s n).engine = e → (getQp s n).st = 4 → (getQp t n).st = 3 ∧ (getQp t n).cwnd = (getQp s n).cc.cwndInit))

/-- A queue pair that can send at once: Connected on an Ethernet engine that is up, nothing queued, waiting or unacknowledged. -/
def QpReady (s : State) (n : Nat) : Prop :=
  (getQp s n).st = 3 ∧ (getQp s n).engine < 4 ∧ linkUp s (getQp s n).engine = true ∧ (getQp s n).sq = [] ∧ (getQp s n).txq = [] ∧
    (getQp s n).unacked = [] ∧ 0 < (getQp s n).cwnd ∧ (getQp s n).rfull = none ∧ (getQp s n).nr = none ∧ (getQp s n).sfault = none ∧
    (getQp s n).edge = none ∧ (getQp s n).failed = 0

/-- The row that posts a descriptor with an OP of 12 Table 12.6. -/
def PostCmd (op : Nat) (f : Fn) (n : Nat) (b : List Byte) (c : Instr) : Prop :=
  op = 1 ∧ c = .postWrite f n b ∨ op = 2 ∧ c = .postWriteImm f n b ∨ op = 3 ∧ c = .postRead f n b ∨ op = 4 ∧ c = .postFlush f n b ∨
    op = 5 ∧ c = .postAccWrite f n b

/-- A function writes 64 bytes that make a descriptor of an OP, in form, to the page of a queue pair that it reaches. -/
def PostOk (s : State) (f : Fn) (n : Nat) (b : List Byte) (op : Nat) : Prop :=
  regsOpen s = true ∧ (s.pwr.st = .idle ∨ s.pwr.st = .run) ∧ qpReach f n s = true ∧ b.length = 64 ∧ 1 ≤ op ∧ op ≤ 5 ∧ field b 0 2 = op ∧
    sendMalformed b = none

/-- The descriptor in the 64 bytes has completed with a status and a length: its record stands last, the counter is one higher. -/
def SendDone (n : Nat) (b : List Byte) (status len : Nat) (s t : State) : Prop :=
  (getQp t n).sendCnt = (getQp s n).sendCnt + 1 ∧ ∃ r : StatusRec, (getQp t n).cq = (getQp s n).cq ++ [r] ∧ r.tag = field b 8 4 ∧ r.status = status ∧ r.rlen = len

/-- Only queue pair `n` differs, and neither memory does. -/
def OnlyQp (n : Nat) (s t : State) : Prop := (∀ m, m ≠ n → getQp t m = getQp s m) ∧ t.mem = s.mem ∧ t.hostMem = s.hostMem

/-- A control packet of a type reaches queue pair `n`, and verifies where the queue pair is protected. -/
def CtlArrives (s : State) (p : LntPkt) (typ n : Nat) : Prop :=
  Arrives s p typ ∧ rxQp p s = some n ∧ ((getQp s n).prot = true → ∃ c, ctlSeq (getQp s n).kRx (rxDir (getQp s n)) (getQp s n).ctlRx p = some c)

/-- The packets of a list of sent packets as they go out again: RETX set, the ciphertext as it was. -/
def resent (s : State) (v : Qp) (es : List Sent) : List Out := es.map fun e => .lnt v.engine v.peer (resendPkt s v e.pkt)

/-- Posted operations leave as packets and complete; acknowledgements, NAKs and timers move the sender; records are read from the rings. (1) On a queue pair that can send, a WRITE, WRITE_IMM or ACC_WRITE of at most 8,192 readable bytes leaves as one packet of its type with OFFSET, window key and the bytes (protected under the PSN where the queue pair is), and completes with 0; READ and FLUSH send their request and wait, a READ of length 0 completes at once. (2) A full ring only sets OVERRUN; in Error a descriptor completes with 0x0401; in Init or Connecting it waits. (3) A control packet that fails its tag is dropped. ACK frees packets by APSN, moves cwnd by rtt against its target, and completes a FLUSH; NAK SEQUENCE sends again from APSN; ACCESS, GROUP and MEMORY_ERROR end the queue pair with 0x0204, 0x0401 and 0x0C03; STALLED resets the retries; RECEIVE_FULL and NOT_READY set their waits (backoff 500 us, doubled up to 8 ms). (4) Each timer acts at its time and not before: the NOT_READY resend (0x0204 after 1 s), STALLED from a stalled target, the retransmission (0x0801 after the retries), the resend after RECEIVE_FULL. (5) A 32-byte read of LNT_QP_CQ or LNT_QP_RQ returns and removes the next record, zero where none; another width removes nothing. -/
def Obligations.QueuePairsSendAndRetransmit : Prop :=
  (∀ (s : State) (f : Fn) (n : Nat) (b : List Byte) (op len : Nat) (v : Qp) (c : Instr), QpReady s n → PostOk s f n b op → PostCmd op f n b c → v = getQp s n → len = field b 0x20 8 →
    bitOf (field b 2 2) 1 = false →
    (∀ bs, op = 1 ∨ op = 2 ∨ op = 5 → len ≤ 8192 → dvaRead s v.ctx (field b 0x10 8) len .read false = .ok bs → ∃ t pkt irqs,
      exec c s = .next t ∧ t.out = s.out ++ [Out.lnt v.engine v.peer (wirePkt v pkt)] ++ irqs ∧ (bitOf (field b 2 2) 3 = false → irqs = []) ∧
        pkt.typ = opTyp op ∧ pkt.dest = v.peerQp.getD 0 ∧ pkt.src = n ∧ pkt.psn = v.txPsn ∧ pkt.payload = bs ∧ pkt.offset = field b 0x18 8 ∧
        pkt.wkey = field b 0x28 4 ∧ (op = 2 → pkt.imm = field b 0x2C 4) ∧ (op = 5 → pkt.imm = field b 6 1) ∧ pkt.flags = 11 ∧ SendDone n b 0 len s t ∧
        (getQp t n).sq = [] ∧ (getQp t n).txPsn = v.txPsn + 1 ∧ (getQp t n).msn = v.msn + 1 ∧ (getQp t n).unacked.map Sent.psn = [v.txPsn] ∧ OnlyQp n s t) ∧
    (op = 3 → len = 0 → ∃ t, exec c s = .next t ∧ SendDone n b 0 0 s t ∧ (getQp t n).sq = [] ∧ (getQp t n).txPsn = v.txPsn ∧ OnlyQp n s t) ∧
    (op = 3 ∧ len ≠ 0 ∨ op = 4 → ∃ t pkt, exec c s = .next t ∧
      t.out = s.out ++ [Out.lnt v.engine v.peer (wirePkt v pkt)] ∧ pkt.typ = (if op = 3 then 3 else 5) ∧ pkt.dest = v.peerQp.getD 0 ∧ pkt.psn = v.txPsn ∧
      (op = 3 → pkt.offset = field b 0x18 8 ∧ pkt.wkey = field b 0x28 4 ∧ pkt.payload = natLE 8 len) ∧ (op = 4 → pkt.payload = []) ∧
      (getQp t n).cq = v.cq ∧ (getQp t n).sendCnt = v.sendCnt ∧ (∃ d, (getQp t n).sq = [d] ∧ d.started = true ∧ d.msn = v.msn ∧ d.tag = field b 8 4) ∧
      (getQp t n).txPsn = v.txPsn + 1 ∧ (getQp t n).unacked.map Sent.psn = [v.txPsn] ∧ OnlyQp n s t)) ∧
  (∀ (s : State) (f : Fn) (n : Nat) (b : List Byte) (op : Nat) (v : Qp) (c : Instr), PostOk s f n b op → PostCmd op f n b c → v = getQp s n →
    (2 ^ v.s ≤ v.sq.length → ∃ t, exec c s = .next t ∧ getQp t n = { v with overrun := true } ∧ t = { s with lnt := t.lnt } ∧ OnlyQp n s t) ∧
    (v.st = 5 → v.sq = [] → ∃ t, exec c s = .next t ∧ SendDone n b 0x0401 0 s t ∧ (getQp t n).sq = [] ∧ OnlyQp n s t) ∧
    (v.sq.length < 2 ^ v.s → v.st = 1 ∨ v.st = 2 → ∃ t, exec c s = .next t ∧ getQp t n = { v with sq := v.sq ++ [parseSend b] } ∧
      t = { s with lnt := t.lnt } ∧ OnlyQp n s t)) ∧
  (∀ (s : State) (p : LntPkt) (n : Nat), Arrives s p 0x08 → rxQp p s = some n → (getQp s n).prot = true →
    ctlSeq (getQp s n).kRx (rxDir (getQp s n)) (getQp s n).ctlRx p = none → exec (.ack p) s = .next (dropLnt p.engine s)) ∧
  (∀ (s : State) (p : LntPkt) (n : Nat) (v : Qp), CtlArrives s p 0x08 n → v = getQp s n → v.txq = [] →
    v.sq = [] ∨ (∃ d, v.sq = [d] ∧ d.started = true ∧ d.op = 4 ∧ bitOf d.flags 3 = false) → ∃ t, exec (.ack p) s = .next t ∧ OnlyQp n s t ∧ t.out = s.out ∧
      (ackedTo v p.apsn = none → (getQp t n).unacked = v.unacked) ∧
      (∀ a, ackedTo v p.apsn = some a → (getQp t n).unacked = v.unacked.filter fun e => decide (a < e.psn)) ∧
      (s.lark.time - p.ts ≤ v.cc.target → (getQp t n).cwnd =
        min v.cc.cwndMax (v.cwnd + v.cc.ai * (unackedBytes v - unackedBytes (getQp t n)) / v.cwnd)) ∧
      (v.cc.target < s.lark.time - p.ts → s.lark.time < v.lastCut + (s.lark.time - p.ts) → (getQp t n).cwnd = v.cwnd) ∧
      (v.cc.target < s.lark.time - p.ts → v.lastCut + (s.lark.time - p.ts) ≤ s.lark.time → v.cc.cwndMin ≤ (getQp t n).cwnd ∧ (getQp t n).lastCut = s.lark.time ∧
        (v.cc.cwndMin ≤ v.cwnd → (getQp t n).cwnd ≤ v.cwnd)) ∧
      (∀ d, v.sq = [d] → (p.imm % 2 = 1 → d.msn % 2 ^ 32 = p.msn → (getQp t n).sq = [] ∧ (getQp t n).sendCnt = v.sendCnt + 1 ∧
          ∃ r : StatusRec, (getQp t n).cq = v.cq ++ [r] ∧ r.tag = d.tag ∧ r.status = 0) ∧
        (p.imm % 2 = 0 → (getQp t n).sq = [d] ∧ (getQp t n).cq = v.cq))) ∧
  (∀ (s : State) (p : LntPkt) (n : Nat) (v : Qp), CtlArrives s p 0x09 n → v = getQp s n → v.engine < 4 →
    (∀ a, p.imm % 256 = 1 → ackedTo v p.apsn = some a → ∃ t, exec (.nakSequence p) s = .next t ∧ OnlyQp n s t ∧
      t.out = s.out ++ resent s v (v.unacked.filter fun e => decide (a < e.psn)) ∧
      (getQp t n).unacked.map Sent.psn = (v.unacked.filter fun e => decide (a < e.psn)).map Sent.psn) ∧
    (p.imm % 256 = 2 → ∃ t, exec (.nakAccess p) s = .next t ∧ QpEnded n 0x0204 s t ∧ TellsPeer n 0x0204 s t) ∧
    (p.imm % 256 = 3 → ∃ t, exec (.nakStalled p) s = .next t ∧ OnlyQp n s t ∧ t.out = s.out ∧ (getQp t n).retries = 0 ∧
      (getQp t n).unacked = v.unacked.map fun e => { e with at_ := s.lark.time }) ∧
    (p.imm % 256 = 4 → ∃ t, exec (.nakReceiveFull p) s = .next t ∧ OnlyQp n s t ∧ t.out = s.out ∧ (getQp t n).rfull = some (sentPsn v p.psn, s.lark.time)) ∧
    (p.imm % 256 = 6 → ∃ t, exec (.nakGroup p) s = .next t ∧ QpEnded n 0x0401 s t ∧ TellsPeer n 0x0401 s t) ∧
    (p.imm % 256 = 0x0C → ∃ t, exec (.nakMemoryError p) s = .next t ∧ QpEnded n 0x0C03 s t ∧ TellsPeer n 0x0C03 s t)) ∧
  (∀ (s : State) (p : LntPkt) (n : Nat) (v : Qp) (psn : Nat), CtlArrives s p 0x0A n → v = getQp s n → psn = sentPsn v p.psn →
    ∃ t, exec (.notReady p) s = .next t ∧ OnlyQp n s t ∧ t.out = s.out ∧
      (v.nr = none → (getQp t n).nr = some { psn := psn, since := s.lark.time, backoff := 500000, due := s.lark.time + 500000, waiting := true }) ∧
      (∀ r, v.nr = some r → r.psn = psn → (getQp t n).nr = some { r with
        backoff := min (2 * r.backoff) 8000000, due := s.lark.time + min (2 * r.backoff) 8000000, waiting := true })) ∧
  (∀ (s : State) (n : Nat) (v : Qp), v = getQp s n → qpLive s n = true → v.engine < 4 →
    (∀ r, v.nr = some r → r.waiting = true →
      (s.lark.time < r.due → exec (.notReadyResend n) s = .next s) ∧
      (r.due ≤ s.lark.time → r.since + 1000000000 ≤ s.lark.time → ∃ t, exec (.notReadyResend n) s = .next t ∧ QpEnded n 0x0204 s t) ∧
      (r.due ≤ s.lark.time → s.lark.time < r.since + 1000000000 → v.txq = [] → v.sq = [] → ∃ t, exec (.notReadyResend n) s = .next t ∧ OnlyQp n s t ∧
        t.out = s.out ++ resent s v (v.unacked.filter fun e => decide (r.psn ≤ e.psn)) ∧ (getQp t n).nr = some { r with waiting := false })) ∧
    (∀ psn fl, v.stall = some (psn, fl) → ∃ t pkt, exec (.stallNakTimer n) s = .next t ∧ OnlyQp n s t ∧ t.out = s.out ++ [Out.lnt v.engine v.peer pkt] ∧
      pkt.typ = 0x09 ∧ pkt.imm = 3 ∧ pkt.psn = psn % 2 ^ 32) ∧
    (v.stall = none → exec (.stallNakTimer n) s = .next s) ∧
    (∀ e es, v.unacked = e :: es → v.rfull = none → v.nr = none →
      (s.lark.time < e.at_ + rtoOf v → exec (.retransmitTimeout n) s = .next s) ∧
      (e.at_ + rtoOf v ≤ s.lark.time → v.retries < v.cc.retry → ∃ t, exec (.retransmitTimeout n) s = .next t ∧ OnlyQp n s t ∧
        t.out = s.out ++ resent s v [e] ∧ (getQp t n).retries = v.retries + 1 ∧ (getQp t n).unacked = { e with at_ := s.lark.time } :: es) ∧
      (e.at_ + rtoOf v ≤ s.lark.time → v.cc.retry ≤ v.retries → ∃ t, exec (.retransmitTimeout n) s = .next t ∧ QpEnded n 0x0801 s t)) ∧
    (∀ psn at_, v.rfull = some (psn, at_) → (s.lark.time < at_ + 100000 → exec (.receiveFullResend n) s = .next s) ∧
      (at_ + 100000 ≤ s.lark.time → v.txq = [] → v.sq = [] → ∃ t, exec (.receiveFullResend n) s = .next t ∧ OnlyQp n s t ∧ (getQp t n).rfull = none ∧
        t.out = s.out ++ resent s v (v.unacked.filter fun e => decide (psn ≤ e.psn))))) ∧
  (∀ (s : State) (f : Fn) (n width : Nat) (v : Qp), v = getQp s n → regsOpen s = true → s.pwr.st = .idle ∨ s.pwr.st = .run → qpReach f n s = true →
    (∀ r rs, width = 32 → v.cq = r :: rs → ∃ t, exec (.lntQpCqRead f n width) s = .next t ∧ t.lastRead = leNat (recBytes r) ∧ getQp t n = { v with cq := rs } ∧
      OnlyQp n s t) ∧
    (∀ r rs, width = 32 → v.rq = r :: rs → ∃ t, exec (.lntQpRqRead f n width) s = .next t ∧ t.lastRead = leNat (recBytes r) ∧ getQp t n = { v with rq := rs } ∧
      OnlyQp n s t) ∧
    (width = 32 → v.cq = [] → exec (.lntQpCqRead f n width) s = .next { s with lastRead := 0 }) ∧
    (width = 32 → v.rq = [] → exec (.lntQpRqRead f n width) s = .next { s with lastRead := 0 }) ∧
    (width ≠ 32 → ∃ t, exec (.lntQpCqRead f n width) s = .next t ∧ t.lastRead = 0 ∧ t.glb.width = true ∧ getQp t n = v) ∧
    (width ≠ 32 → ∃ t, exec (.lntQpRqRead f n width) s = .next t ∧ t.lastRead = 0 ∧ t.glb.width = true ∧ getQp t n = v))

/-- The row under which a data packet of a type arrives (12 Table 12.2). -/
def DataCmd (typ : Nat) (p : LntPkt) (c : Instr) : Prop :=
  typ = 1 ∧ c = .rxWrite p ∨ typ = 2 ∧ c = .writeImm p ∨ typ = 3 ∧ c = .readReq p ∨ typ = 4 ∧ c = .readResp p ∨ typ = 5 ∧ c = .flush p ∨
    typ = 6 ∧ c = .accWrite p

/-- A data packet of a type reaches queue pair `n`, which is not stalled, has an empty reorder buffer and nothing of its own to send. -/
def DataArrives (s : State) (p : LntPkt) (typ n : Nat) : Prop :=
  Arrives s p typ ∧ rxQp p s = some n ∧ (getQp s n).stall = none ∧ (getQp s n).reorder = [] ∧ (getQp s n).txq = []

/-- The data packet is the next in PSN order, and this is its plaintext (12 R228, R229). -/
def InOrder (s : State) (p : LntPkt) (n : Nat) (text : List Byte) : Prop :=
  psnDist (getQp s n).rxPsn p.psn = 0 ∧
    if (getQp s n).prot then openData (getQp s n).kRx (rxDir (getQp s n)) (getQp s n).rxPsn p = some text else text = p.payload

/-- The packet was taken: the next PSN is expected, and the last thing sent is an ACK that echoes TS. -/
def Taken (n : Nat) (p : LntPkt) (s t : State) : Prop :=
  (getQp t n).rxPsn = (getQp s n).rxPsn + 1 ∧ (getQp t n).st = 3 ∧ (∀ m, m ≠ n → getQp t m = getQp s m) ∧
    ∃ o pkt, t.out = s.out ++ o ++ [Out.lnt (getQp s n).engine (getQp s n).peer pkt] ∧ pkt.typ = 0x08 ∧ pkt.imm = 0 ∧ pkt.ts = p.ts ∧
      pkt.apsn = (getQp s n).rxPsn % 2 ^ 32

/-- The object of a window is of the memory kind. -/
def WinMem (s : State) (w : Win) : Prop := ∃ k b z g, (getObj? s w.obj).map Obj.kind = some (.mem k b z g)

/-- A target places each data packet once and in PSN order, through a checked window, and answers it. For a data packet at a Connected, unstalled queue pair with nothing else at hand: (1) one that fails its tag is dropped; one beyond the window gets NAK 1 and one received before an ACK, with memory and the expected PSN as they were. (2) In order and admitted by its window, WRITE and WRITE_IMM store the bytes at the window's offset, WRITE_IMM's last packet queues a receive record with IMM, length and OFFSET and counts it (NAK 4 and nothing stored while the receive ring is full); READ_REQ is acknowledged and answered with the window's bytes in READ_RESP; READ_RESP stores at the descriptor's local address and completes the READ; FLUSH is answered with an ACK whose IMM is 1; ACC_WRITE adds the rows of a whole message and holds the packets before. Each is acknowledged, echoing TS. (3) An operation that its window does not admit ends the queue pair with 0x0204 and NAK 2, nothing stored. -/
def Obligations.TargetsPlaceInOrderOnce : Prop :=
  (∀ (s : State) (p : LntPkt) (typ n : Nat) (v : Qp) (c : Instr), DataArrives s p typ n → DataCmd typ p c → v = getQp s n →
    (v.prot = true → openData v.kRx (rxDir v) (psnExt v.rxPsn p.psn) p = none → exec c s = .next (dropLnt p.engine s)) ∧
    ((v.prot = true → openData v.kRx (rxDir v) (psnExt v.rxPsn p.psn) p ≠ none) → 1024 ≤ psnDist v.rxPsn p.psn → ∃ t pkt, exec c s = .next t ∧
      t.out = s.out ++ [Out.lnt v.engine v.peer pkt] ∧ (psnDist v.rxPsn p.psn < 2 ^ 31 → pkt.typ = 0x09 ∧ pkt.imm = 1) ∧
      (2 ^ 31 ≤ psnDist v.rxPsn p.psn → pkt.typ = 0x08) ∧ (getQp t n).rxPsn = v.rxPsn ∧ (getQp t n).reorder = [] ∧ OnlyQp n s t)) ∧
  (∀ (s : State) (p : LntPkt) (typ n : Nat) (text : List Byte) (w : Win) (c : Instr), DataArrives s p typ n → InOrder s p n text → DataCmd typ p c →
    typ = 1 ∨ typ = 2 → (getQp s n).sq = [] → (getQp s n).held = [] → p.len ≠ 0 → p.flags.getLsbD 1 = true →
    winCheck s n p.offset p.len p.wkey .write = some w → WinMem s w → winErr s w p.offset p.len .write = none →
    (typ = 1 ∨ (getQp s n).rq.length < 2 ^ (getQp s n).r → ∃ t, exec c s = .next t ∧ Taken n p s t ∧ t.mem = (winStore w .write p.offset text s).mem ∧
      t.hostMem = (winStore w .write p.offset text s).hostMem ∧ (getQp t n).cq = (getQp s n).cq ∧
      (typ = 1 → (getQp t n).rq = (getQp s n).rq ∧ (getQp t n).recvCnt = (getQp s n).recvCnt) ∧
      (typ = 2 → (getQp t n).recvCnt = (getQp s n).recvCnt + 1 ∧ ∃ r : StatusRec, (getQp t n).rq = (getQp s n).rq ++ [r] ∧ r.tag = p.imm ∧ r.status = 0 ∧
        r.rlen = p.len ∧ r.detail = p.src % 2 ^ 24 ∧ r.res0 = p.msn ∧ r.res1 = p.offset)) ∧
    (typ = 2 → 2 ^ (getQp s n).r ≤ (getQp s n).rq.length → ∃ t pkt ack, exec c s = .next t ∧ OnlyQp n s t ∧
      t.out = s.out ++ [Out.lnt (getQp s n).engine (getQp s n).peer pkt, Out.lnt (getQp s n).engine (getQp s n).peer ack] ∧ pkt.typ = 0x09 ∧ pkt.imm = 4 ∧
      ack.typ = 0x08 ∧ (getQp t n).rxPsn = (getQp s n).rxPsn ∧ (getQp t n).rq = (getQp s n).rq)) ∧
  (∀ (s : State) (p : LntPkt) (typ n : Nat) (text : List Byte) (c : Instr), DataArrives s p typ n → InOrder s p n text → DataCmd typ p c →
    typ = 1 ∧ p.len ≠ 0 ∧ winCheck s n p.offset p.len p.wkey .write = none ∨
      typ = 3 ∧ field text 0 8 ≠ 0 ∧ winCheck s n p.offset (field text 0 8) p.wkey .read = none ∨
      typ = 6 ∧ p.len ≠ 0 ∧ winCheck s n p.offset p.len p.wkey .accum = none →
    ∃ t pkt, exec c s = .next t ∧ QpEnded n 0x0204 s t ∧ Out.lnt (getQp s n).engine (getQp s n).peer pkt ∈ t.out ∧ pkt.typ = 0x09 ∧ pkt.imm = 2) ∧
  (∀ (s : State) (p : LntPkt) (n : Nat) (text : List Byte) (w : Win), DataArrives s p 3 n → InOrder s p n text → QpReady s n → 0 < field text 0 8 →
    field text 0 8 ≤ 8192 → winCheck s n p.offset (field text 0 8) p.wkey .read = some w → WinMem s w → winErr s w p.offset (field text 0 8) .read = none →
    ∃ t ack pkt, exec (.readReq p) s = .next t ∧ OnlyQp n s t ∧ (getQp t n).rxPsn = (getQp s n).rxPsn + 1 ∧
      t.out = s.out ++ [Out.lnt (getQp s n).engine (getQp s n).peer ack, Out.lnt (getQp s n).engine (getQp s n).peer (wirePkt (getQp s n) pkt)] ∧
      ack.typ = 0x08 ∧ pkt.typ = 4 ∧ pkt.psn = (getQp s n).txPsn ∧ pkt.offset = p.offset ∧ pkt.msn = p.msn % 2 ^ 32 ∧
      pkt.payload = (List.range (field text 0 8)).map fun i => winGet s w .read (p.offset + i)) ∧
  (∀ (s u : State) (p : LntPkt) (n : Nat) (text : List Byte) (d : SendDesc), DataArrives s p 4 n → InOrder s p n text → (getQp s n).sq = [d] →
    d.started = true → d.op = 3 → d.msn % 2 ^ 32 = p.msn → d.moved = 0 → text.length = d.length → bitOf d.flags 3 = false → p.offset = d.remote →
    dvaWrite s (getQp s n).ctx d.loc text .write false = .ok u →
    ∃ t, exec (.readResp p) s = .next t ∧ Taken n p s t ∧ t.mem = u.mem ∧ t.hostMem = u.hostMem ∧ (getQp t n).sq = [] ∧
      (getQp t n).sendCnt = (getQp s n).sendCnt + 1 ∧ ∃ r : StatusRec, (getQp t n).cq = (getQp s n).cq ++ [r] ∧ r.tag = d.tag ∧ r.status = 0 ∧ r.rlen = d.length) ∧
  (∀ (s : State) (p : LntPkt) (n : Nat) (text : List Byte), DataArrives s p 5 n → InOrder s p n text → (getQp s n).sq = [] →
    ∃ t ack pkt, exec (.flush p) s = .next t ∧ OnlyQp n s t ∧ (getQp t n).rxPsn = (getQp s n).rxPsn + 1 ∧
      t.out = s.out ++ [Out.lnt (getQp s n).engine (getQp s n).peer pkt, Out.lnt (getQp s n).engine (getQp s n).peer ack] ∧ pkt.typ = 0x08 ∧ pkt.imm = 1 ∧
      pkt.msn = p.msn % 2 ^ 32 ∧ pkt.ts = p.ts ∧ ack.typ = 0x08 ∧ ack.imm = 0) ∧
  (∀ (s : State) (p : LntPkt) (n : Nat) (text : List Byte) (w : Win), DataArrives s p 6 n → InOrder s p n text → (getQp s n).sq = [] →
    (getQp s n).held = [] → p.len ≠ 0 → text ≠ [] → winCheck s n p.offset p.len p.wkey .accum = some w → text.length = p.len →
    (p.flags.getLsbD 1 = false → ∃ t, exec (.accWrite p) s = .next t ∧ Taken n p s t ∧ t.mem = s.mem ∧ t.hostMem = s.hostMem ∧
      (getQp t n).held.map LntPkt.payload = [text]) ∧
    (∀ u, p.flags.getLsbD 1 = true → addRows w (p.imm % 8) p.offset text s = .ok u → ∃ t, exec (.accWrite p) s = .next t ∧ Taken n p s t ∧
      t.mem = u.mem ∧ t.hostMem = u.hostMem ∧ (getQp t n).held = [])) ∧
  (∀ (s u : State) (w : Win) (code off : Nat) (f : AccFmt) (bs : List Byte), WinMem s w → fmtOf code = some f → ingressFmt f = true →
    bs.length % tileBytes f = 0 → (w.off + off) % 256 = 0 → winErr s w off bs.length .accum = none →
    u = (rowsOf f bs).foldl (fun s e => addMemRow w f (off + e.1 * tileBytes f) e.2 s) s → addRows w code off bs s = .ok u)

/-- Ports train or say why not, deliver frames in order once, replay on NAK and timeout, and hold or drop what they carry at a link loss. (1) LINK_CONFIG writes HOLD and ROOST_EN of one port; a HOLD above 500 completes with 0x0105. (2) A training that may start and finds enough lanes, the right role class and the right partner makes the port ACTIVE at the widths of R257 with FSEQ 0, or with FSEQ and frames kept within the hold; too few lanes leave it in DETECT, a wrong class MISWIRED with event 0x0825, a wrong partner in EXCHANGE with event 0x0826, a partner outside the fabric in DETECT; one that may not start changes nothing; DETECT_RETRY trains a port in DETECT. (3) A frame that R254 admits advances the expected FSEQ and frees what its ASEQ acknowledges; any other is discarded with a NAK at most every 2 us. A NAK, or 10 us without progress, sends every unacknowledged frame again; after 16 resends the port loses its link. Control messages that await an answer are sent again; STATUS records the partner's Lark state and answers with this end's; returned credits are freed. (4) A loss holds the port with its frames, its expiry (at once with HOLD 0 or LINK_DOWN, and not before its time) takes the link down with event 0x0823; on S0 to S2 every serving run ends. -/
def Obligations.LinksTrainReplayAndHold : Prop :=
  (∀ (s : State) (q : QRef) (p : Packet) (n : Nat), Turn s q 0x0803 p → n = bits (p.w 0) 0 5 → n < 24 → quarantined s (portUnit n) = false →
    (p.w 1 ≤ 500 → 14 ≤ (getSkn s n).roostK → (getSkn s n).roostK ≤ 30 → ∃ u, exec (.linkConfig q) s = .next (finish q Done.ok u) ∧
      getSkn u n = { getSkn s n with hold := p.w 1, roostEn := bitOf (p.w 0) 8 } ∧ OnlyPort n s u ∧ u = { s with skn := u.skn }) ∧
    (500 < p.w 1 → ∃ d, exec (.linkConfig q) s = .next (finish q (Done.fail 0x0105 d) s))) ∧
  (∀ (s : State) (n : Nat) (r : TrainReport) (v : Skn), v = getSkn s n →
    (v.st = 0 → exec (.detectRetry n r) s = exec (.linkTraining n r) s) ∧ (v.st ≠ 0 → exec (.detectRetry n r) s = .next s) ∧
    (mayTrain s n = false ∨ v.st = 4 ∨ v.st = 6 → exec (.linkTraining n r) s = .next s) ∧
    (mayTrain s n = true → v.st ≠ 4 → v.st ≠ 5 → v.st ≠ 6 →
      (laneCount r.txLanes < 4 ∨ laneCount (rxUsable v r) < 4 → ∃ t, exec (.linkTraining n r) s = .next t ∧ getSkn t n = { v with st := 0 } ∧ OnlyPort n s t) ∧
      (4 ≤ laneCount r.txLanes → 4 ≤ laneCount (rxUsable v r) →
        (r.roleClass ≠ roleOf n → ∃ u, exec (.linkTraining n r) s = .next (raisePlain 0x0825 none (portUnit n) u) ∧ (getSkn u n).st = 7 ∧ OnlyPort n s u) ∧
        (r.roleClass = roleOf n → partnerCheck s n r = 2 → ∃ u, exec (.linkTraining n r) s = .next (raisePlain 0x0826 none (portUnit n) u) ∧
          (getSkn u n).st = 3 ∧ (getSkn u n).check = 2 ∧ (getSkn u n).peerChip = r.chip ∧ OnlyPort n s u) ∧
        (r.roleClass = roleOf n → partnerCheck s n r = 3 → ∃ t, exec (.linkTraining n r) s = .next t ∧ (getSkn t n).st = 0 ∧ (getSkn t n).check = 3 ∧ OnlyPort n s t)) ∧
      (GoodTraining s n r → v.queued = [] → ∃ t, exec (.linkTraining n r) s = .next t ∧ OnlyPort n s t ∧ (getSkn t n).st = 4 ∧ (getSkn t n).check = 1 ∧
        (getSkn t n).txWidth = widthFor (laneCount r.txLanes) ∧ (getSkn t n).rxWidth = widthFor (laneCount (rxUsable v r)) ∧
        (getSkn t n).dropped = ~~~(rxUsable v r) ∧ (getSkn t n).txSeq = 0 ∧ (getSkn t n).rxSeq = 0 ∧ (getSkn t n).unacked = [] ∧
        (getSkn t n).peerChip = r.chip ∧ (getSkn t n).peerPort = r.port ∧ (getSkn t n).peerRoost = r.roost ∧ (getSkn t n).delay = r.delay ∧
        (getSkn t n).optical = r.optical)) ∧
    (mayTrain s n = true → v.st = 5 → s.lark.time < v.downAt + v.hold * 100000 →
      (GoodTraining s n r → v.queued = [] → ∃ t, exec (.linkTraining n r) s = .next t ∧ OnlyPort n s t ∧ (getSkn t n).st = 4 ∧ (getSkn t n).txSeq = v.txSeq ∧
        (getSkn t n).rxSeq = v.rxSeq ∧ (getSkn t n).unacked = v.unacked) ∧
      (laneCount r.txLanes < 4 ∨ laneCount (rxUsable v r) < 4 → exec (.linkTraining n r) s = .next s))) ∧
  (∀ (s : State) (n : Nat) (f : Frame) (v : Skn), v = getSkn s n → sknOn s n = true → v.st = 4 → v.queued = [] → v.resends < 16 → s.glb.evEn = false →
    (∀ keep, f.rsOk = true → f.crcOk = true → f.fseq = v.rxSeq → v.lost = false ∨ f.aligned = true →
      keep = v.unacked.filter (fun x => decide ((x.1 + 4096 - f.aseq) % 4096 < 2048)) →
      ∃ t, exec (.dataFrame n f) s = .next t ∧ OnlyPort n s t ∧ (getSkn t n).rxSeq = (v.rxSeq + 1) % 4096 ∧ (getSkn t n).unacked = keep ∧ (getSkn t n).st = 4 ∧
        (getSkn t n).reqSent = false ∧ t.out = s.out ++ (if f.nak then framesAgain n v.rxSeq keep else [])) ∧
    (f.rsOk = false ∨ f.crcOk = false ∨ f.fseq ≠ v.rxSeq ∨ v.lost = true ∧ f.aligned = false → f.nak = false →
      ∃ t, exec (.dataFrame n f) s = .next t ∧ OnlyPort n s t ∧ (getSkn t n).rxSeq = v.rxSeq ∧
        ((v.nakAt = none ∨ ∃ a, v.nakAt = some a ∧ a + 2000 ≤ s.lark.time) → t.out = s.out ++ [Out.frame n 0 v.rxSeq true []]) ∧
        (∀ a, v.nakAt = some a → s.lark.time < a + 2000 → t.out = s.out))) ∧
  (∀ (s : State) (n : Nat) (v : Skn), v = getSkn s n → sknOn s n = true → v.st = 4 →
    (v.unacked = [] ∨ s.lark.time < v.lastAseqAt + 10000 → exec (.replayTimeout n) s = .next s) ∧
    (v.unacked ≠ [] → v.lastAseqAt + 10000 ≤ s.lark.time → v.resends < 16 → s.glb.evEn = false → ∃ t, exec (.replayTimeout n) s = .next t ∧ OnlyPort n s t ∧
      t.out = s.out ++ framesAgain n v.rxSeq v.unacked ∧ (getSkn t n).resends = v.resends + 1 ∧ (getSkn t n).unacked = v.unacked) ∧
    (v.unacked ≠ [] → v.lastAseqAt + 10000 ≤ s.lark.time → 16 ≤ v.resends → v.hold ≠ 0 → ∃ t, exec (.replayTimeout n) s = .next t ∧ OnlyPort n s t ∧
      t.out = s.out ∧ (getSkn t n).st = 5 ∧ (getSkn t n).unacked = v.unacked) ∧
    exec (.controlMessageRepeat n) s = .next { s with out := s.out ++ v.await.map fun a => Out.ctl n (a / 256) (a % 256) } ∧
    (∀ lark : BitVec 2, ∃ t, exec (.status n lark) s = .next t ∧ getSkn t n = { v with peerLark := lark } ∧ OnlyPort n s t ∧
      t.out = s.out ++ [Out.ctl n 7 s.lark.state.toNat]) ∧
    (∀ cls vc reserve shared, cls < 4 → vc < 2 → v.queued = [] → ∃ t, exec (.creditReturn n cls vc reserve shared) s = .next t ∧ OnlyPort n s t ∧ t.out = s.out ∧
      tabGet (0, 0) (getSkn t n).credits (2 * cls + vc) =
        ((tabGet (0, 0) v.credits (2 * cls + vc)).1 - reserve, (tabGet (0, 0) v.credits (2 * cls + vc)).2 - shared) ∧
      ∀ ch, ch ≠ 2 * cls + vc → tabGet (0, 0) (getSkn t n).credits ch = tabGet (0, 0) v.credits ch)) ∧
  (∀ (s : State) (n : Nat) (v : Skn), v = getSkn s n → sknOn s n = true →
    (v.st = 4 ∨ v.st = 6 → v.hold ≠ 0 → ∃ t, exec (.siskinLinkLoss n) s = .next t ∧ OnlyPort n s t ∧ t = { s with skn := t.skn } ∧
      (getSkn t n).st = 5 ∧ (getSkn t n).losses = v.losses + 1 ∧ (getSkn t n).downAt = s.lark.time ∧ (getSkn t n).unacked = v.unacked ∧
      (getSkn t n).queued = v.queued ∧ (getSkn t n).txSeq = v.txSeq ∧ (getSkn t n).rxSeq = v.rxSeq ∧ (getSkn t n).credits = v.credits) ∧
    (v.st ≠ 4 → v.st ≠ 6 → exec (.siskinLinkLoss n) s = .next s) ∧
    (v.unacked = [] → v.queued = [] →
      (v.hold = 0 → v.st = 4 ∨ v.st = 6 → ∃ u, exec (.siskinLinkLoss n) s = .next (raisePlain 0x0823 none (portUnit n) u) ∧ (getSkn u n).st = 0 ∧
        (getSkn u n).losses = v.losses + 1 ∧ (getSkn u n).quar = v.quar ∧ PortGone n s u) ∧
      (v.st = 5 → v.downAt + v.hold * 100000 ≤ s.lark.time → ∃ u, exec (.siskinHoldExpiry n) s = .next (raisePlain 0x0823 none (portUnit n) u) ∧
        (getSkn u n).st = 0 ∧ (getSkn u n).losses = v.losses ∧ (getSkn u n).flooded = v.flooded ∧ PortGone n s u) ∧
      (v.st = 4 ∨ v.st = 5 ∨ v.st = 6 → ∃ u, exec (.linkDown n) s = .next (raisePlain 0x0823 none (portUnit n) u) ∧ (getSkn u n).st = 0 ∧ PortGone n s u)) ∧
    (v.st ≠ 5 ∨ s.lark.time < v.downAt + v.hold * 100000 → exec (.siskinHoldExpiry n) s = .next s) ∧
    (v.st ≠ 4 → v.st ≠ 5 → v.st ≠ 6 → exec (.linkDown n) s = .next s))

/-- A lane is dropped for a flood, a lock loss or its error rate, quarantined after 5 s, released and re-admitted; the partner's drops and adds follow. On an ACTIVE port: (1) a lock loss or error rate on a lane in use at width 8 drops it: width 7, codewords lost until an alignment codeword, LANE_DROP sent and awaited, event 0x0821; below 8 the port loses its link (a fast retrain); a lane already dropped changes nothing. (2) Either flood test in optical mode marks the lane flooded and drops it so; in copper mode nothing happens. (3) A flood of 5 s quarantines the lane, its unit and its wake-lane use, with event 0x0C13, and not before. (4) A lane that read clear for 100 ms is no longer flooded, and unless it is quarantined it is used again and LANE_ADD sent. (5) LANE_RELEASE clears the Quarantine of the lanes named and restarts their 5 s; a lane not quarantined gives 0x0401, an empty mask does nothing, a port above 23 0x0105. (6) LANE_DROP from the partner at width 8 gives an alignment codeword at width 7 and a resend, below 8 a link loss; LANE_ADD widens the transmit direction. -/
def Obligations.LanesDropFloodAndReturn : Prop :=
  (∀ (s : State) (n lane : Nat) (v : Skn) (c : Instr), v = getSkn s n → sknOn s n = true → lane < 8 →
    c = .laneLockLoss n lane ∨ c = .laneErrorRate n lane ∨ v.optical = true ∧ (c = .floodDcTrip n lane ∨ c = .floodEnvelopeTrip n lane) →
    (v.st = 4 → v.dropped.getLsbD lane = false → v.rxWidth = 8 → ∃ t, exec c s = .next t ∧ OnlyPort n s t ∧ (getSkn t n).st = 4 ∧
      (getSkn t n).dropped = v.dropped ||| laneBit lane ∧ (getSkn t n).rxWidth = 7 ∧ (getSkn t n).lost = true ∧ (getSkn t n).txWidth = v.txWidth ∧
      (getSkn t n).rxSeq = v.rxSeq ∧ (getSkn t n).txDropped = v.txDropped ∧ 2 * 256 + lane ∈ (getSkn t n).await ∧ Out.ctl n 2 lane ∈ t.out ∧
      (v.nakAt = none → Out.frame n 0 v.rxSeq true [] ∈ t.out)) ∧
    (v.st = 4 → v.dropped.getLsbD lane = false → v.rxWidth ≠ 8 → v.hold ≠ 0 → ∃ t, exec c s = .next t ∧ OnlyPort n s t ∧ (getSkn t n).st = 5 ∧
      (getSkn t n).losses = v.losses + 1 ∧ (getSkn t n).dropped = v.dropped ||| laneBit lane ∧ (getSkn t n).unacked = v.unacked) ∧
    (v.st = 6 → v.dropped.getLsbD lane = false → ∃ t, exec c s = .next t ∧ OnlyPort n s t ∧ (getSkn t n).st = 6 ∧
      (getSkn t n).dropped = v.dropped ||| laneBit lane ∧ (getSkn t n).rxWidth = v.rxWidth) ∧
    (v.dropped.getLsbD lane = true → c = .laneLockLoss n lane ∨ c = .laneErrorRate n lane → exec c s = .next s)) ∧
  (∀ (s : State) (n lane : Nat), lane < 8 → sknOn s n = true →
    ((getSkn s n).optical = false → exec (.floodDcTrip n lane) s = .next s ∧ exec (.floodEnvelopeTrip n lane) s = .next s) ∧
    ((getSkn s n).optical = true → (getSkn s n).hold ≠ 0 → ∀ c, c = .floodDcTrip n lane ∨ c = .floodEnvelopeTrip n lane → ∃ t, exec c s = .next t ∧ OnlyPort n s t ∧
      (getSkn t n).flooded = (getSkn s n).flooded ||| laneBit lane ∧
      ((getSkn s n).flooded.getLsbD lane = false → tabGet 0 (getSkn t n).floodAt lane = s.lark.time))) ∧
  (∀ (s : State) (n lane : Nat) (v : Skn), v = getSkn s n → sknOn s n = true → lane < 8 →
    (v.flooded.getLsbD lane = true → v.quar.getLsbD lane = false → tabGet 0 v.floodAt lane + 5000000000 ≤ s.lark.time →
      ∃ u, exec (.floodQuarantine n lane) s = .next (raisePlain 0x0C13 none (laneUnit n lane) u) ∧ (getSkn u n).quar = v.quar ||| laneBit lane ∧
        (getSkn u n).wakeLane = wakeLaneOf { v with quar := v.quar ||| laneBit lane } ∧ (getUnit u (laneUnit n lane)).quar = true ∧
        (∀ x, x ≠ laneUnit n lane → getUnit u x = getUnit s x) ∧ OnlyPort n s u) ∧
    (v.flooded.getLsbD lane = false ∨ v.quar.getLsbD lane = true ∨ s.lark.time < tabGet 0 v.floodAt lane + 5000000000 →
      exec (.floodQuarantine n lane) s = .next s) ∧
    (∃ t, exec (.laneClearReadmit n lane) s = .next t ∧ OnlyPort n s t ∧ (getSkn t n).flooded = v.flooded &&& ~~~laneBit lane ∧
      (v.st = 4 → v.dropped.getLsbD lane = true → v.quar.getLsbD lane = false → (getSkn t n).dropped = v.dropped &&& ~~~laneBit lane ∧
        (getSkn t n).rxWidth = widthFor (8 - laneCount (v.dropped &&& ~~~laneBit lane)) ∧ t.out = s.out ++ [Out.ctl n 3 lane]) ∧
      (v.st ≠ 4 ∨ v.dropped.getLsbD lane = false ∨ v.quar.getLsbD lane = true → (getSkn t n).dropped = v.dropped ∧ (getSkn t n).rxWidth = v.rxWidth ∧
        t.out = s.out))) ∧
  (∀ (s : State) (q : QRef) (p : Packet) (mask : BitVec 8), Turn s q 0x0804 p → mask = BitVec.ofNat 8 (p.w 1) →
    (24 ≤ p.w 0 → ∃ d, exec (.laneRelease q) s = .next (finish q (Done.fail 0x0105 d) s)) ∧
    (p.w 0 < 24 → mask = 0 → exec (.laneRelease q) s = .next (finish q Done.ok s)) ∧
    (p.w 0 < 24 → mask &&& ~~~(getSkn s (p.w 0)).quar ≠ 0 → ∃ d, exec (.laneRelease q) s = .next (finish q (Done.fail 0x0401 d) s)) ∧
    (p.w 0 < 24 → mask ≠ 0 → mask &&& ~~~(getSkn s (p.w 0)).quar = 0 → ∃ u, exec (.laneRelease q) s = .next (finish q Done.ok u) ∧ OnlyPort (p.w 0) s u ∧
      (getSkn u (p.w 0)).quar = (getSkn s (p.w 0)).quar &&& ~~~mask ∧ (getSkn u (p.w 0)).dropped = (getSkn s (p.w 0)).dropped ∧
      (∀ l, l < 8 → mask.getLsbD l = true → getUnit u (laneUnit (p.w 0) l) = UnitSt.init) ∧
      (∀ x, (∀ l, l < 8 → mask.getLsbD l = true → x ≠ laneUnit (p.w 0) l) → getUnit u x = getUnit s x) ∧
      (∀ l, mask.getLsbD l = true → tabGet 0 (getSkn s (p.w 0)).floodAt l ≠ 0 → tabGet 0 (getSkn u (p.w 0)).floodAt l = s.lark.time))) ∧
  (∀ (s : State) (n lane : Nat) (v : Skn), v = getSkn s n → sknOn s n = true → v.st = 4 → lane < 8 →
    (v.txDropped.getLsbD lane = true → exec (.laneDrop n lane) s = .next s) ∧
    (v.txDropped.getLsbD lane = false → v.txWidth = 8 → v.resends < 16 → s.glb.evEn = false → ∃ t, exec (.laneDrop n lane) s = .next t ∧ OnlyPort n s t ∧ (getSkn t n).st = 4 ∧
      (getSkn t n).txDropped = v.txDropped ||| laneBit lane ∧ (getSkn t n).txWidth = 7 ∧ (getSkn t n).rxWidth = v.rxWidth ∧
      t.out = s.out ++ [Out.ctl n 12 7] ++ framesAgain n v.rxSeq v.unacked) ∧
    (v.txDropped.getLsbD lane = false → v.txWidth ≠ 8 → v.hold ≠ 0 → ∃ t, exec (.laneDrop n lane) s = .next t ∧ OnlyPort n s t ∧ (getSkn t n).st = 5 ∧
      (getSkn t n).unacked = v.unacked) ∧
    (v.txDropped.getLsbD lane = true → ∃ t, exec (.laneAdd n lane) s = .next t ∧ OnlyPort n s t ∧
      (getSkn t n).txDropped = v.txDropped &&& ~~~laneBit lane ∧ (getSkn t n).txWidth = widthFor (8 - laneCount (v.txDropped &&& ~~~laneBit lane)) ∧
      t.out = s.out ++ [Out.ctl n 12 (getSkn t n).txWidth]) ∧
    (v.txDropped.getLsbD lane = false → exec (.laneAdd n lane) s = .next s))

/-- Roost is entered by a handshake on an idle port; wakes come at multiples of 2^k, on demand or by the dawn chorus; 20 ms unanswered lose the link. (1) A port that has been idle for 10 us and meets R266 sends ROOST_REQ with its ROOST_K and answers the partner's (k from 14 to 30) with ROOST_ACK, the lower partner's value becoming k; another port does neither. After ROOST_ACK with both requests seen the end sends its final idle codeword and roosts until the next multiple of 2^k. (2) At that time it sends its burst; a partner's burst within 2 us of t + d counts a wake, records DRIFT, and moves the next wake by 2^k, the higher partner's also by the offset, and WAKE is sent; before its time nothing happens. WAKE returns the port to ACTIVE if either end is busy or R266 no longer holds; else it stays. (3) With DEMAND set and a frame queued, the pattern is sent at once and the port is ACTIVE; a pattern, burst or chorus heard is answered with a burst and the port is ACTIVE. (4) No burst within the guard gives the dawn chorus and event 0x0824; 20 ms of chorus unanswered take the link down with event 0x0823. -/
def Obligations.PortsRoostAndWake : Prop :=
  (∀ (s : State) (n : Nat) (v : Skn), v = getSkn s n → sknOn s n = true →
    (roostReady s v = false → exec (.roostIdle n) s = .next s) ∧
    (roostReady s v = true → v.reqSent = false → ∃ t, exec (.roostIdle n) s = .next t ∧ OnlyPort n s t ∧ (getSkn t n).reqSent = true ∧ (getSkn t n).st = 4 ∧
      t.out = s.out ++ [Out.ctl n 4 v.roostK] ∧ 4 * 256 + v.roostK ∈ (getSkn t n).await) ∧
    (roostReady s v = true → v.reqSent = true → exec (.roostIdle n) s = .next s) ∧
    (∀ k, (roostReady s v = false ∨ k < 14 ∨ 30 < k → exec (.roostReq n k) s = .next s) ∧
      (roostReady s v = true → 14 ≤ k → k ≤ 30 → ∃ t, exec (.roostReq n k) s = .next t ∧ OnlyPort n s t ∧ (getSkn t n).reqSeen = true ∧
        (getSkn t n).reqSent = true ∧ (getSkn t n).k = (if chipNo s < v.peerChip then v.roostK else k) ∧
        t.out = s.out ++ (if v.reqSent then [] else [Out.ctl n 4 v.roostK]) ++ [Out.ctl n 5 0])) ∧
    (v.st = 4 → v.reqSent = true → v.reqSeen = true → ∃ t, exec (.roostAck n) s = .next t ∧ OnlyPort n s t ∧ (getSkn t n).st = 6 ∧
      t.out = s.out ++ [Out.frame n 0 v.rxSeq false []] ∧ (getSkn t n).nextWake % 2 ^ v.k = 0 ∧ s.lark.time < (getSkn t n).nextWake ∧
      (getSkn t n).nextWake ≤ s.lark.time + 2 ^ v.k) ∧
    (v.st ≠ 4 ∨ v.reqSent = false ∨ v.reqSeen = false → exec (.roostAck n) s = .next s)) ∧
  (∀ (s : State) (n : Nat) (v : Skn), v = getSkn s n → sknOn s n = true → v.st = 6 →
    (∀ seen, s.lark.time < v.nextWake → exec (.roostWake n seen) s = .next s) ∧
    (v.nextWake ≤ s.lark.time → v.chorusAt = none →
      (∀ d : Int, d.natAbs ≤ 2000 → s.glb.evEn = false → ∃ t kind, exec (.roostWake n (some d)) s = .next t ∧ OnlyPort n s t ∧ (getSkn t n).wakes = v.wakes + 1 ∧
        (getSkn t n).drift = d ∧ (getSkn t n).st = 6 ∧
        (getSkn t n).nextWake = ((v.nextWake : Int) + 2 ^ v.k + (if chipNo s < v.peerChip then 0 else d)).toNat ∧
        t.out = s.out ++ [Out.ctl n 9 v.txWakeLane, Out.ctl n 6 kind] ∧ kind % 2 = b2n (!roostFit s v)) ∧
      exec (.roostWake n none) s = .next { s with out := s.out ++ [Out.ctl n 9 v.txWakeLane] } ∧
      (∀ d : Int, 2000 < d.natAbs → exec (.roostWake n (some d)) s = .next { s with out := s.out ++ [Out.ctl n 9 v.txWakeLane] })) ∧
    (∀ busy lane, lane < 8 →
      (busy = false → roostFit s v = true → ∃ t, exec (.wake n busy lane) s = .next t ∧ getSkn t n = { v with txWakeLane := lane } ∧ OnlyPort n s t ∧ t.out = s.out) ∧
      (busy = true ∨ roostFit s v = false → v.queued = [] → ∃ t, exec (.wake n busy lane) s = .next t ∧ (getSkn t n).st = 4 ∧ (getSkn t n).txWakeLane = lane ∧
        OnlyPort n s t ∧ t.out = s.out)) ∧
    (v.demand = false ∨ v.queued = [] → exec (.demandWake n) s = .next s) ∧
    (v.demand = true → v.queued ≠ [] → ∃ t o, exec (.demandWake n) s = .next t ∧ (getSkn t n).st = 4 ∧ OnlyPort n s t ∧ t.out = s.out ++ [Out.ctl n 11 v.txWakeLane] ++ o) ∧
    (∀ off : Int, v.queued = [] → ∃ t, exec (.wakePatternHeard n off) s = .next t ∧ (getSkn t n).st = 4 ∧ (getSkn t n).drift = off ∧
      (getSkn t n).nextWake = (if chipNo s < v.peerChip then v.nextWake else ((v.nextWake : Int) + off).toNat) ∧ (getSkn t n).chorusAt = none ∧
      OnlyPort n s t ∧ t.out = s.out ++ [Out.ctl n 9 v.txWakeLane]) ∧
    (s.lark.time < v.nextWake + v.delay * 4 / 5 + 2000 ∨ v.chorusAt ≠ none → exec (.dawnChorus n) s = .next s) ∧
    (v.nextWake + v.delay * 4 / 5 + 2000 ≤ s.lark.time → v.chorusAt = none → ∃ u, exec (.dawnChorus n) s = .next (raisePlain 0x0824 none (portUnit n) u) ∧
      getSkn u n = { v with chorusAt := some s.lark.time } ∧ OnlyPort n s u ∧ u.out = s.out ++ [Out.ctl n 10 v.txWakeLane]) ∧
    (∀ a, v.chorusAt = some a → (s.lark.time < a + 20000000 → exec (.chorusTimeout n) s = .next s) ∧
      (a + 20000000 ≤ s.lark.time → v.unacked = [] → v.queued = [] → ∃ u, exec (.chorusTimeout n) s = .next (raisePlain 0x0823 none (portUnit n) u) ∧
        (getSkn u n).st = 0 ∧ (getSkn u n).losses = v.losses + 1 ∧ PortGone n s u)))

/-- Packets are discarded, fenced, forwarded, or consumed at their destination: writes, reads, adds, PEER, Linnet and notices. For a chip that takes part in the fabric and is not Quarantined, and a packet on a port that carries traffic: (1) at the destination a Rsvd bit, a LEN above 8,256 or more than 15 hops discard and count it; a slice that is not this chip's for the partition discards it at the fence with event 0x0828; its credits go back. (2) MEM_WR writes exactly its bytes at the address's offset, or nothing where refused; MEM_RD_REQ sends the bytes read as a class 1 response under the same FLOW; this chip's own request first reserves the response's space and is sent, MEM_RD_RESP fills it; ACC adds its rows into memory or the tiles of a round's Wren; PEER places its bytes at the partner Wren; a NOTICE of a read gives its space back and one of a PEER faults its run (0x0703 where it serves a board model); LINNET hands its payload to engine 4. (3) In transit a packet goes to the next hop of R277 on its VC, one hop more counted; it is discarded where its hops would pass 15 and at the fence where the next chip is no member of its slice. (4) A boot request from a partner in boot link mode gets the running image while BOOT_SERVE is 1. -/
def Obligations.PacketsTransitArriveAndFence : Prop :=
  (∀ (s : State) (p : QtdPkt) (typ : Nat) (c : Instr), Reaches s p typ → QtdCmd typ p c →
    (badPkt p 0 = true → exec c s = .next { s with qtd := { s.qtd with drop := incSat s.qtd.drop }, out := s.out ++ [creditOf p] }) ∧
    (badPkt p 0 = false → p.cls ≠ 3 → sliceOf s p.part p.slice = none → ∃ u, exec c s = .next { u with out := u.out ++ [creditOf p] } ∧
      u = raisePlain 0x0828 none qtdUnit { s with qtd := { s.qtd with fenceDrop := incSat s.qtd.fenceDrop } }) ∧
    (Admitted s p → ∃ t o, exec c s = .next t ∧ t.out = o ++ [creditOf p])) ∧
  (∀ (s : State) (p : QtdPkt), Reaches s p 2 → Admitted s p →
    (accessRefusal s p p.payload.length = none → ∃ t, exec (.memWr p) s = .next t ∧ t.mem = memWrite s.mem (addrOff p.addr) p.payload ∧
      MemOutside (addrOff p.addr) p.payload.length s t ∧ t.hostMem = s.hostMem ∧ t.skn = s.skn ∧ t.lnt = s.lnt) ∧
    (∀ st u, accessRefusal s p p.payload.length = some st → p.src ≠ chipNo s → originate (noticePkt s p st) s = .ok u →
      ∃ t, exec (.memWr p) s = .next t ∧ t.mem = s.mem ∧ t.hostMem = s.hostMem ∧ t.skn = u.skn)) ∧
  (∀ (s u : State) (p : QtdPkt), Reaches s p 3 → Admitted s p → accessRefusal s p (readLen p) = none → readLen p ≤ 8256 → p.src ≠ chipNo s →
    originate { ownPkt s 4 1 p.src (memRead s.mem (addrOff p.addr) (readLen p)) with slice := p.slice, part := p.part, flow := p.flow } s = .ok u →
    ∃ t, exec (.memRdReq p) s = .next t ∧ t.mem = s.mem ∧ t.hostMem = s.hostMem ∧ t.skn = u.skn) ∧
  (∀ (s u : State) (p : QtdPkt), qtdOn s = true → p.typ = 3 → p.inPort = 24 → p.dest ≠ chipNo s →
    originate p { s with qtd := { s.qtd with reads := s.qtd.reads ++ [{ flow := p.flow, dest := p.dest, len := field p.payload 0 8, data := none }] } } = .ok u →
    exec (.memRdReq p) s = .next u ∧ ∃ r, r ∈ u.qtd.reads ∧ r.flow = p.flow ∧ r.len = field p.payload 0 8 ∧ r.data = none) ∧
  (∀ (s : State) (p : QtdPkt), Reaches s p 4 → Admitted s p → ∃ t, exec (.memRdResp p) s = .next t ∧ t.mem = s.mem ∧ t.hostMem = s.hostMem ∧ t.skn = s.skn ∧
    t.qtd = { s.qtd with reads := s.qtd.reads.map fun r =>
      if r.flow = p.flow ∧ r.dest = p.src ∧ r.len = p.payload.length then { r with data := some p.payload } else r }) ∧
  (∀ (s : State) (p : QtdPkt) (f : AccFmt), Reaches s p 5 → Admitted s p → fmtOf (p.flow % 8) = some f → ingressFmt f = true →
    p.payload.length % tileBytes f = 0 →
    (addrOff p.addr < wrenBase 0 → addrOff p.addr % 256 = 0 → accessRefusal s p p.payload.length = none → ∃ t, exec (.acc p) s = .next t ∧
      t.mem = ((rowsOf f p.payload).foldl (fun s e => accRow f (addrOff p.addr + e.1 * tileBytes f) e.2 s) s).mem ∧ t.hostMem = s.hostMem ∧ t.skn = s.skn ∧
      MemOutside (addrOff p.addr) p.payload.length s t) ∧
    (∀ w t0, AccTiles s w t0 f p → ∃ t, exec (.acc p) s = .next t ∧ t.hostMem = s.hostMem ∧ t.skn = s.skn ∧
      t.mem = ((rowsOf f p.payload).foldl (fun s e =>
        ingressAdd { w := w, size := 1048576, ctx := wrenCtx s w, ingress := true } f (t0 + e.1 * granules f) e.2 s) s).mem)) ∧
  (∀ (s : State) (p : QtdPkt) (r : Run) (w : Nat) (g : Prog), Reaches s p 6 → Admitted s p → 16 ≤ p.payload.length →
    partnerWren s (field p.payload 0 4) (field p.payload 4 2) = some (r, w) → progOf s r.prog = some g → addrChip p.src p.addr = some (chipNo s) →
    addrOff p.addr / 2 ^ 20 = wrenBase (field p.payload 4 2) / 2 ^ 20 → inWork g (addrOff p.addr % 2 ^ 20) (p.payload.length - 16) = true →
    ∃ t, exec (.qtdPeer p) s = .next t ∧ t.hostMem = s.hostMem ∧ t.skn = s.skn ∧
      t.mem = (writeLocal w (addrOff p.addr % 2 ^ 20) (p.payload.drop 16) s).mem ∧
      (bitOf (field p.payload 7 1) 0 = true → bitOf (field p.payload 7 1) 1 = true →
        (getWren t w).pushed = (getWren s w).pushed ++ [(field p.payload 6 1, 1)])) ∧
  (∀ (s : State) (p : QtdPkt), Reaches s p 8 → Admitted s p →
    (field p.payload 6 1 = 3 → ∃ t, exec (.notice p) s = .next t ∧ t.mem = s.mem ∧
      t.qtd = { s.qtd with reads := s.qtd.reads.filter fun r => r.flow != field p.payload 4 2 }) ∧
    (field p.payload 6 1 ≠ 3 → field p.payload 6 1 ≠ 6 → ∃ t, exec (.notice p) s = .next t ∧ t.mem = s.mem ∧ t.qtd = s.qtd ∧ t.fab = s.fab) ∧
    (∀ x, field p.payload 6 1 = 6 → field p.payload 8 2 = 0x0801 → asyncSite s (field p.payload 4 2) = some x → ∃ t, exec (.notice p) s = .next t ∧
      (serving s x.run = true → ∃ d, t.fab = (faultRun x.run (field p.payload 4 2) (getWren s (field p.payload 4 2)).ix 0x0703 d none s).fab) ∧
      (serving s x.run = false → t.fab = (faultRun x.run (field p.payload 4 2) (getWren s (field p.payload 4 2)).ix 0x0801 (field p.payload 0 4) none s).fab))) ∧
  (∀ (s u : State) (p : QtdPkt) (c : Instr) (typ : Nat), Reaches s p 1 → Admitted s p →
    (48 ≤ p.payload.length → DataCmd typ (lntParse p.src p.payload) c → (lntParse p.src p.payload).typ = typ → exec c s = .next u →
      ∃ t, exec (.qtdLinnet p) s = .next t ∧ t.lnt = u.lnt ∧ t.mem = u.mem ∧ t.hostMem = u.hostMem) ∧
    (p.payload.length < 48 → ∃ t, exec (.qtdLinnet p) s = .next t ∧ t.lnt = { s.lnt with drop4 := incSat s.lnt.drop4 } ∧ t.mem = s.mem)) ∧
  (∀ (s : State) (p : QtdPkt), qtdOn s = true → fromPort s p = true → p.dest ≠ chipNo s → s.qtd.st ≠ 3 →
    (badPkt p 1 = true → exec (.qtdForward p) s = .next { s with qtd := { s.qtd with drop := incSat s.qtd.drop }, out := s.out ++ [creditOf p] }) ∧
    (∀ n vc nx q, badPkt p 1 = false → nextHop s (chipNo s) p = .out n vc nx q →
      (fenceAdmits s p nx = false → ∃ u, exec (.qtdForward p) s = .next { u with out := u.out ++ [creditOf p] } ∧
        u = raisePlain 0x0828 none qtdUnit { s with qtd := { s.qtd with fenceDrop := incSat s.qtd.fenceDrop } }) ∧
      (fenceAdmits s p nx = true → usable (getSkn s n) = true → ∃ t, exec (.qtdForward p) s = .next t ∧ t.mem = s.mem ∧ t.qtd = s.qtd ∧
        t.skn = (queueOn n { q with vc := vc, hops := p.hops + 1 } s).skn ∧ (∀ m, m ≠ n → getSkn t m = getSkn s m) ∧
        ((getSkn s n).queued = [] → maySendOn s n { q with vc := vc, hops := p.hops + 1 } = true →
          Out.qtd n vc { q with vc := vc, hops := p.hops + 1 } ∈ t.out ∧ (getSkn t n).queued = []) ∧
        ((getSkn s n).queued = [] → maySendOn s n { q with vc := vc, hops := p.hops + 1 } = false →
          (getSkn t n).queued = [{ q with vc := vc, hops := p.hops + 1 }])))) ∧
  (∀ (s : State) (n : Nat),
    (qtdOn s = true → n < 24 → s.boot.stage = 8 → s.qtd.bootServe = true → (getSkn s n).st = 4 → (getSkn s n).bootMode = true →
      exec (.boot n) s = .next { s with out := s.out ++ [Out.bootImage n s.boot.image] }) ∧
    (s.qtd.bootServe = false ∨ (getSkn s n).bootMode = false → exec (.boot n) s = .next s))

/-- Only the fabric engine's elections, roles and time differ, beside what an event writes. -/
def QtdOnly (s t : State) : Prop := t = { s with qtd := t.qtd, out := t.out, hsc := t.hsc, evlog := t.evlog, glb := t.glb, pwr := t.pwr } ∧ t.pwr = { s.pwr with pins := t.pwr.pins }

/-- A chip that takes part in elections, at a level that it has. -/
def AtLevel (s : State) (lvl : Level) : Prop := electOn s = true ∧ levelOn s lvl = true

/-- Managers are elected by claims and beacons, routes follow reports, slices are the fabric manager's, and fabric time follows the manager. (1) FABRIC_STATUS reports the chip number, roles, rack manager and trained ports. (2) Only the fabric manager creates (0x0803 elsewhere) a slice that meets none of the partition, numbering it, its members taking its registers, and destroys one with no live context. (3) FABRIC_DRAIN yields every role, ends MGR_ELIG, sets DRAINED and leaves no session. (4) A chip claims when its wait is over and no manager is known, and not otherwise; it takes the role 200 us after its claim and not before, and beacons. A stronger beacon or claim makes a manager yield and follow, a stronger claim makes a claimant lose silently and any other wait again; weaker ones change nothing; a twin of its number puts it in Quarantine with every role off and every serving run ended. (5) Its own report is sent; a rack manager records its rack's reports and installs routes, marking a number that two nonces claim unreachable; a link change is recorded. (6) A chip behind its manager steps forward, stays UNSYNC with the step waiting while a beat generator is on, slews when ahead by at most 1 ms, and beyond that stays UNSYNC for good; the periodic measurement stores the skew, with event 0x0814 above SKEW_LIM. -/
def Obligations.ManagersSlicesDrainAndTime : Prop :=
  (∀ (s : State) (q : QRef) (p : Packet), Turn s q 0x0800 p → chipNo s < 2 ^ 17 → ∃ w t, exec (.fabricStatus q) s = .next (finish q (Done.res w t) s) ∧
    w % 2 ^ 17 = chipNo s ∧ bitOf w 17 = (getElect s .rack).role ∧ bitOf w 18 = (List.range 8).any (fun i => (getElect s (.slice i)).role) ∧
    w / 2 ^ 36 = managerChip s .rack ∧ ∀ n, n < 24 → bitOf t n = decide ((getSkn s n).st = 4 ∨ (getSkn s n).st = 6)) ∧
  (∀ (s : State) (q : QRef) (p : Packet) (r : SliceRec), Turn s q 0x0801 p → r = newSlice s p →
    ((getElect s .fabric).role = false → exec (.sliceCreate q) s = .next (finish q (Done.fail 0x0803 (managerChip s .fabric)) s)) ∧
    ((getElect s .fabric).role = true → bits (p.w 1) 9 4 = 0 → r.id ≤ 4095 →
      (r.origin &&& (spanMask r.span - 7) = 0 → r.part < 8 → sliceMember r.origin r.span (chipNo s) = false ∨ r.part < s.host.parts →
        (s.qtd.slices.any (slicesMeet r) = true → ∃ d, exec (.sliceCreate q) s = .next (finish q (Done.fail 0x0401 d) s)) ∧
        (s.qtd.slices.any (slicesMeet r) = false → ∃ u, exec (.sliceCreate q) s = .next (finish q (Done.res r.id 0) u) ∧ 1 ≤ r.id ∧
          (∀ x ∈ s.qtd.slices, x.id ≠ r.id) ∧ r.origin = p.w 0 ∧ r.span = p.w 1 % 512 ∧ r.part = p.w 2 ∧ u.qtd.slices = s.qtd.slices ++ [r] ∧
          u = { s with qtd := u.qtd, host := u.host } ∧ (∀ i, i ≠ r.part → getPart u i = getPart s i) ∧
          getPart u r.part = (if sliceMember r.origin r.span (chipNo s) then
            { getPart s r.part with slice := r.id, sliceOrigin := r.origin, sliceSpan := r.span } else getPart s r.part))) ∧
      (r.origin &&& (spanMask r.span - 7) ≠ 0 → ∃ d, exec (.sliceCreate q) s = .next (finish q (Done.fail 0x0105 d) s)))) ∧
  (∀ (s : State) (q : QRef) (p : Packet), Turn s q 0x0802 p →
    ((getElect s .fabric).role = false → exec (.sliceDestroy q) s = .next (finish q (Done.fail 0x0803 (managerChip s .fabric)) s)) ∧
    (∀ r, (getElect s .fabric).role = true → s.qtd.slices.find? (fun r => r.id == p.w 0) = some r →
      (sliceLives s r = true → ∃ d, exec (.sliceDestroy q) s = .next (finish q (Done.fail 0x0401 d) s)) ∧
      (sliceLives s r = false → ∃ u, exec (.sliceDestroy q) s = .next (finish q Done.ok u) ∧ u.qtd.slices = (s.qtd.slices.filter fun x => x.id != r.id) ∧
        ((getPart s r.part).slice = r.id → (getPart u r.part).slice = 0 ∧ (getElect u (.slice r.part)).role = false)))) ∧
  (∀ (s : State) (q : QRef) (p : Packet), Turn s q 0x0805 p → ∃ u, exec (.fabricDrain q) s = .next (finish q (Done.res (movable s) 0) u) ∧
    u.qtd.mgrElig = false ∧ u.qtd.drained = true ∧ (∀ lvl, (getElect u lvl).role = false ∧ (getElect u lvl).claimAt = none) ∧
    (∀ i, (getSess u i).st = 0) ∧ u.mem = s.mem ∧ u.hostMem = s.hostMem) ∧
  (∀ (s : State) (lvl : Level) (e : Elect), AtLevel s lvl → e = getElect s lvl →
    (eligible s lvl = true → e.role = false → e.mgr = none → e.claimAt = none → waitOver s lvl e = true → s.glb.evEn = false → ∃ t,
      exec (.claimWaitExpiry lvl) s = .next t ∧ QtdOnly s t ∧ getElect t lvl = { e with claimAt := some s.lark.time } ∧ t.out = s.out ++ [Out.mgmt lvl 1 (ownBid s)] ∧
      ∀ l, l ≠ lvl → getElect t l = getElect s l) ∧
    (eligible s lvl = false ∨ e.role = true ∨ e.mgr ≠ none ∨ e.claimAt ≠ none ∨ waitOver s lvl e = false → exec (.claimWaitExpiry lvl) s = .next s) ∧
    (∀ a, e.claimAt = some a →
      (s.lark.time < a + 200000 → exec (.claimWindowEnd lvl) s = .next s) ∧
      (a + 200000 ≤ s.lark.time → ∃ t b, exec (.claimWindowEnd lvl) s = .next t ∧ QtdOnly s t ∧ (getElect t lvl).role = true ∧ (getElect t lvl).claimAt = none ∧
        ((getElect t lvl).mgr.map Bid.chip) = some (chipNo s) ∧ t.out = s.out ++ [Out.mgmt lvl 0 b] ∧ b.chip = chipNo s ∧ b.nonce = s.qtd.nonce ∧
        (lvl = .rack → t.qtd.st = 2))) ∧
    (e.role = true → exec (.beaconSend lvl) s = .next { s with out := s.out ++ [Out.mgmt lvl 0 (ownBid s)] }) ∧
    (e.role = false → exec (.beaconSend lvl) s = .next s) ∧
    (∀ b : Bid, b.chip ≠ chipNo s →
      (e.role = true → stronger lvl b (ownBid s) = true → ∀ c, c = .beacon lvl b ∨ c = .claim lvl b → ∃ t, exec c s = .next t ∧ QtdOnly s t ∧
        (getElect t lvl).role = false ∧ (getElect t lvl).mgr = some b ∧ (lvl = .rack → t.qtd.reports = [])) ∧
      (e.role = true → stronger lvl b (ownBid s) = false → exec (.beacon lvl b) s = .next s) ∧
      (stronger lvl b (ownBid s) = false → exec (.claim lvl b) s = .next s) ∧
      (e.role = false → e.mgr = none → e.claimAt = none ∨ stronger lvl b (ownBid s) = true → ∃ t, exec (.beacon lvl b) s = .next t ∧ QtdOnly s t ∧
        (getElect t lvl).mgr = some b ∧ (getElect t lvl).lastBeacon = s.lark.time ∧ (getElect t lvl).claimAt = none ∧ t.out = s.out) ∧
      (e.role = false → stronger lvl b (ownBid s) = true → ∃ t, exec (.claim lvl b) s = .next t ∧ QtdOnly s t ∧ (getElect t lvl).claimAt = none ∧
        (getElect t lvl).waitFrom = some s.lark.time ∧ t.out = s.out)) ∧
    (∀ b : Bid, b.chip = chipNo s → b.nonce ≠ s.qtd.nonce → ∀ c, c = .beacon lvl b ∨ c = .claim lvl b → ∃ t, exec c s = .next t ∧ (NoServing s → QtdOnly s t) ∧ ServingEnded s t ∧
      t.qtd.st = 3 ∧ t.qtd.dupChip = true ∧ ∀ l, (getElect t l).role = false)) ∧
  (∀ (s : State) (r : JoinReport), electOn s = true →
    (r.chip = chipNo s → r.nonce = s.qtd.nonce → ∃ t, exec (.joinReport r) s = .next t ∧ QtdOnly s t ∧ Out.join (ownReport s) ∈ t.out ∧
      ((getElect s .rack).mgr ≠ none → t.qtd.installed = t.qtd.links ∧ t.qtd.routeGen = s.qtd.routeGen + 1)) ∧
    (r.chip ≠ chipNo s → (getElect s .rack).role = true → rackOf r.chip = rackOf (chipNo s) →
      ((∀ x ∈ s.qtd.reports, x.chip = r.chip → x.nonce = r.nonce) → ∃ t, exec (.joinReport r) s = .next t ∧ QtdOnly s t ∧ r ∈ t.qtd.reports ∧
        t.qtd.links = (s.qtd.links.filter fun l => l.1 != r.chip) ++ reportLinks r ∧ t.qtd.installed = t.qtd.links) ∧
      ((∃ x, x ∈ s.qtd.reports ∧ x.chip = r.chip ∧ x.nonce ≠ r.nonce) → ∃ t, exec (.joinReport r) s = .next t ∧ (NoServing s → QtdOnly s t) ∧
        (r.chip / 8 = chipNo s / 8 → ServingEnded s t) ∧ r.chip ∈ t.qtd.unreachable ∧
        ∀ x ∈ t.qtd.reports, x.chip ≠ r.chip)) ∧
    (r.chip ≠ chipNo s → (getElect s .rack).role = false → exec (.joinReport r) s = .next s)) ∧
  (∀ (s : State) (a : LinkAdv), electOn s = true → ∃ t, exec (.linkStateAdvertisement a) s = .next t ∧ t = { s with qtd := t.qtd } ∧
    (a.up = true ↔ (a.chip, a.link) ∈ t.qtd.links) ∧ (∀ x, x ≠ (a.chip, a.link) → (x ∈ t.qtd.links ↔ x ∈ s.qtd.links)) ∧
    ((getElect s .rack).role = true → t.qtd.installed = t.qtd.links) ∧ ((getElect s .rack).role = false → t.qtd.installed = s.qtd.installed)) ∧
  (∀ (s : State) (m : TimeSyncMsg) (off : Int), electOn s = true → (timeMaster s).isSome = true → off = syncOffset m →
    (s.lark.aheadStuck = false →
      (off < 0 → (∀ i, i < 16 → (getBeat s i).en = false) → exec (.timeSync m) s =
        .next { s with lark := { s.lark with time := s.lark.time + off.natAbs, remaining := 0, stepWait := none } }) ∧
      (off < 0 → (∃ i, i < 16 ∧ (getBeat s i).en = true) → ∃ t, exec (.timeSync m) s = .next t ∧
        t.lark = { s.lark with stepWait := some off.natAbs, state := 3 } ∧ t.mem = s.mem) ∧
      (1000000 < off → ∃ t, exec (.timeSync m) s = .next t ∧ t.lark = { s.lark with aheadStuck := true, stepWait := none, state := 3 } ∧ t.mem = s.mem) ∧
      (0 < off → off ≤ 1000000 → exec (.timeSync m) s = .next { s with lark := { s.lark.measured off with stepWait := none } }) ∧
      (off = 0 → exec (.timeSync m) s = .next { s with lark := { s.lark with stepWait := none } })) ∧
    (s.lark.aheadStuck = true → exec (.timeSync m) s = .next s) ∧
    (off.natAbs ≤ s.qtd.skewLim → exec (.timeSyncPeriod m) s = .next { s with qtd := { s.qtd with skew := off } }) ∧
    (s.qtd.skewLim < off.natAbs → exec (.timeSyncPeriod m) s = .next (raisePlain 0x0814 none qtdUnit { s with qtd := { s.qtd with skew := off } })))

/-- Round commands: creation on the slice manager, joining, start with the guard lists, status, result, abort and the owner's floor. (1) ROUND_CREATE completes with 0x0803 on a chip that does not manage the slice, 0x0408 with debug unlocked, 0x0409 when UNSYNC; a Masked block in form makes the next round in Created with its fields in the ranges of R297 and R298 and the owner's floor, its number in RES0. (2) ROUND_JOIN naming another job manager completes with 0x0803, and outside Created with 0x0401; else the chip is a worker of the round with a 32-byte k_round. (3) ROUND_START on the job manager starts a round in Created at a beat not before its start time, freezing workers (in increasing order) and listeners and clearing the tiles; without a listener it completes with 0x0401. (4) ROUND_ABORT ends a live round as Aborted with 0x0707, and completes with 0x0401 after. (5) ROUND_STATUS reports phase, survivors and dropouts. (6) ROUND_RESULT writes the announcement up to SHARE, later the publication if there is one, else completes with 0x0401. (7) SET_FLOOR below 64 completes with 0x0105, else sets the floor of the owner alone. -/
def Obligations.RoundsAreCreatedJoinedStartedAndRead : Prop :=
  (∀ (s : State) (q : QRef) (p : Packet) (part : Nat), Turn s q 0x0600 p → part = (getCtx s p.ctx).part →
    (managesSlice s part = false → exec (.roundCreate q) s = .next (finish q (Done.fail 0x0803 (managerChip s (.slice part))) s)) ∧
    (managesSlice s part = true → s.boot.debugUnlocked = true → ∃ d, exec (.roundCreate q) s = .next (finish q (Done.fail 0x0408 d) s)) ∧
    (managesSlice s part = true → s.boot.debugUnlocked = false → s.lark.state = 3 → ∃ d, exec (.roundCreate q) s = .next (finish q (Done.fail 0x0409 d) s)) ∧
    (∀ b r, managesSlice s part = true → s.boot.debugUnlocked = false → s.lark.state ≠ 3 → bitOf (p.w 0) 0 = false → createWords p = none →
      dvaRead s p.ctx (p.w 4) 0x80 .read false = .ok b → createFault s p b = none → r = newRound s p b →
      ∃ u, exec (.roundCreate q) s = .next (finish q (Done.res s.rnd.next 0) u) ∧ u = { s with rnd := u.rnd, host := u.host } ∧
        u.rnd = { s.rnd with rounds := s.rnd.rounds ++ [r], next := s.rnd.next + 1 } ∧ r.num = s.rnd.next ∧ r.phase = 0 ∧ r.started = false ∧
        r.manager = true ∧ r.worker = false ∧ r.owner = ownerDigest s part ∧ r.kmin = kminOf s r.owner ∧ r.limit = p.w 1 ∧ 1 ≤ r.limit ∧
        r.limit ≤ 2 ^ 22 ∧ r.m = p.w 2 ∧ 1 ≤ r.m ∧ r.m ≤ 2 ^ 26 ∧ 10 ≤ r.k ∧ r.k ≤ 30 ∧ r.d % 2 = 0 ∧ 16 ≤ r.d ∧ r.d ≤ 1024 ∧ r.d < 2 * r.t ∧ r.t ≤ r.d ∧
        r.norm ≤ 1 ∧ (∀ w ∈ r.windows, w ≠ 0) ∧ 64 ≤ r.staging ∧ r.staging ≤ 32768 ∧ r.mask ≠ 0 ∧ r.committee = [])) ∧
  (∀ (s : State) (q : QRef) (p : Packet) (part : Nat), Turn s q 0x0601 p → part = (getCtx s p.ctx).part → managesSlice s part = true →
    (p.w 1 ≠ chipNo s → exec (.roundJoin q) s = .next (finish q (Done.fail 0x0803 (chipNo s)) s)) ∧
    (p.w 1 = chipNo s → getRnd? s (p.w 0) = none → exec (.roundJoin q) s = .next (finish q (Done.fail 0x0403 0) s)) ∧
    (∀ r, p.w 1 = chipNo s → getRnd? s (p.w 0) = some r →
      (r.phase ≠ 0 ∨ r.started = true ∨ r.worker = true → exec (.roundJoin q) s = .next (finish q (Done.fail 0x0401 r.phase) s)) ∧
      (r.phase = 0 → r.started = false → r.worker = false → r.manager = true → r.owner = ownerDigest s part → r.part = part →
        joinMaskOk s p.ctx r.mask = true → chipBarred s = none → ∃ u r', exec (.roundJoin q) s = .next (finish q Done.ok u) ∧
          getRnd? u r.num = some r' ∧ r' = { r with worker := true, wctx := p.ctx, member := r'.member, workers := r.workers ++ [chipNo s], kRound := r'.kRound } ∧
          (r.kRound = [] → r'.kRound.length = 32) ∧ (r.kRound ≠ [] → r'.kRound = r.kRound) ∧ (∀ m, m ≠ r.num → getRnd? u m = getRnd? s m) ∧
          ∀ t ∈ maskThks r.mask, (getThk u t).bound = some p.ctx))) ∧
  (∀ (s : State) (q : QRef) (p : Packet) (r : Round), RoundTurn s q 0x0602 p r → r.manager = true →
    (r.phase ≠ 0 ∨ r.started = true → exec (.roundStart q) s = .next (finish q (Done.fail 0x0401 r.phase) s)) ∧
    (r.phase = 0 → r.started = false → chipBarred s = none →
      ((s.lnt.listeners.all fun e => !(e.2.live && e.2.rnd == r.num)) = true → exec (.roundStart q) s = .next (finish q (Done.fail 0x0401 0) s)) ∧
      (startFault s r = none → ∃ u r', exec (.roundStart q) s = .next (finish q Done.ok u) ∧ getRnd? u r.num = some r' ∧ r'.started = true ∧ r'.phase = 0 ∧
        r'.workers = r.workers.mergeSort (· ≤ ·) ∧ s.lark.time < r'.phaseStart * 2 ^ r.k ∧ r.startAt ≤ r'.phaseStart * 2 ^ r.k ∧
        (∀ l ∈ r'.listeners, ∃ v, (l, v) ∈ s.lnt.listeners ∧ v.live = true ∧ v.rnd = r.num) ∧ r'.pRec = (guardOf s r.owner).bind GuardRec.p ∧
        (r.worker = true → ∀ e ∈ rowPlaces u r', memRead u.mem ((roundRoost r' e.2.2.1).at_ e.2.2.2) 512 = zeros 512) ∧ u.hostMem = s.hostMem))) ∧
  (∀ (s : State) (q : QRef) (p : Packet) (r : Round),
    (RoundTurn s q 0x0603 p r → r.live = true → ∃ u, exec (.roundAbort q) s = .next (finish q Done.ok u) ∧ RoundEnded r.num 9 0x0707 s u) ∧
    (RoundTurn s q 0x0603 p r → r.live = false → exec (.roundAbort q) s = .next (finish q (Done.fail 0x0401 r.phase) s)) ∧
    (RoundTurn s q 0x0604 p r → exec (.roundStatus q) s = .next (finish q (Done.res
      (r.phase + (if r.closed then r.survivors.length else r.contribs.countP Contrib.committed) % 2 ^ 23 * 16)
      ((if r.closed then r.nA - r.survivors.length else 0) % 2 ^ 23)) s)) ∧
    (RoundTurn s q 0x0605 p r → r.manager = true →
      (∀ b u, (r.phase < 3 ∧ b = announcement s r ∨ 3 ≤ r.phase ∧ r.publication ≠ [] ∧ b = r.publication) → deviceOnly s p.ctx (p.w 1) b.length = true →
        dvaWrite s p.ctx (p.w 1) b .write false = .ok u → exec (.roundResult q) s = .next (finish q (Done.res b.length 0) u)) ∧
      (3 ≤ r.phase → r.publication = [] → exec (.roundResult q) s = .next (finish q (Done.fail 0x0401 r.phase) s)))) ∧
  (∀ (s : State) (q : QRef) (p : Packet) (o : List Byte), Turn s q 0x0606 p → o = ownerDigest s (getCtx s p.ctx).part →
    (p.w 0 < 64 → ∃ d, exec (.setFloor q) s = .next (finish q (Done.fail 0x0105 d) s)) ∧
    (64 ≤ p.w 0 → ∃ u, exec (.setFloor q) s = .next (finish q Done.ok u) ∧ kminOf u o = p.w 0 ∧ (∀ x, x ≠ o → kminOf u x = kminOf s x) ∧
      u = { s with rnd := { s.rnd with floors := u.rnd.floors } }))

/-- The row of a message kind with the phase that uses it (15 Tables 15.3, 15.4). -/
def RoundMsgCmd (kind phase i : Nat) (m : RoundMsg) (c : Instr) : Prop :=
  kind = 1 ∧ phase = 1 ∧ c = .enrol i m ∨ kind = 3 ∧ phase = 2 ∧ c = .shares i m ∨ kind = 9 ∧ phase = 2 ∧ c = .norm i m ∨
    kind = 5 ∧ phase = 3 ∧ c = .vector i m ∨ kind = 6 ∧ phase = 3 ∧ c = .commit i m ∨ kind = 8 ∧ phase = 4 ∧ c = .response i m

/-- A message comes in an Open session of a round that this chip manages. -/
def InRound (s : State) (i : Nat) (r : Round) : Prop :=
  regsOpen s = true ∧ (getSess s i).st = 1 ∧ getRnd? s (getLst s (getSess s i).lst).rnd = some r ∧ r.manager = true ∧ r.started = true

/-- The enrolled contributor of the session, with its place, sends a message in the phase that uses it. -/
def FromContrib (s : State) (i : Nat) (r : Round) (m : RoundMsg) (phase idx : Nat) (c : Contrib) : Prop :=
  InRound s i r ∧ m.rsvd = 0 ∧ r.phase = phase ∧ contribOf s r i = some (idx, c)

/-- Contributor `idx` of round `n` is now `c`; every other contributor and every other round is as it was. -/
def ContribIs (n idx : Nat) (c : Contrib) (s t : State) : Prop :=
  ∃ r r', getRnd? s n = some r ∧ getRnd? t n = some r' ∧ r'.contribs = r.contribs.set idx c ∧ r'.phase = r.phase ∧ ∀ m, m ≠ n → getRnd? t m = getRnd? s m

/-- Messages act in their phases only; phases close at their beats under quorum and guard; a round publishes once or ends scrubbed. (1) A message out of its phase or with a Rsvd byte set closes its session and changes no round. (2) ENROL with a valid tag enrols once up to the limit; SHARES of one ciphertext per neighbour admits to A; NORM records a check whose result is free (log 46) and admits on success; VECTOR stages words inside the vector once, waits while staging is full, and else closes the session; a complete COMMIT adds the contribution, an incomplete one does nothing; a RESPONSE entry that the kind table names is recorded and the seed reconstructed where it can be, another is refused and counted. A missing member's PARTIAL_DECRYPTION is kept once. (3) A phase does not end before its beat; ENROL and SHARE fail the round with 0x0604 below quorum, COLLECT on the quorum or the guard (0x0605), writing Q on success, RECOVER on missing seeds or members. (4) UNMASK publishes nothing unless the gate passes; PUBLISH writes P, makes the phase Published and scrubs the round. (5) A lost worker without a live copy fails the round with 0x0805, and a lost job manager the rounds it managed. (6) Round traffic is delivered, joining workers and moving phases. -/
def Obligations.RoundsRunToPublication : Prop :=
  (∀ (s : State) (i kind phase : Nat) (m : RoundMsg) (c : Instr) (r : Round), InRound s i r → RoundMsgCmd kind phase i m c → m.rsvd ≠ 0 ∨ r.phase ≠ phase →
    ∃ t, exec c s = .next t ∧ (getSess t i).st = 2 ∧ t.rnd = s.rnd ∧ t.mem = s.mem ∧ ∀ j, j ≠ i → getSess t j = getSess s j) ∧
  (∀ (s : State) (i : Nat) (r : Round) (m : RoundMsg) (adm : List Byte), InRound s i r → m.rsvd = 0 → r.phase = 1 → contribOf s r i = none →
    m.payload.length = 128 → admission s r.ctx r.admKey = some adm →
    (hmac (hkdfExpand adm (ascii ("adm" ++ "it")) 48) (ascii "KL5-ADMIT-V1" ++ (getSess s i).ident) ≠ sub m.payload 32 48 →
      ∃ t, exec (.enrol i m) s = .next t ∧ (getSess t i).st = 2 ∧ t.rnd = s.rnd) ∧
    (hmac (hkdfExpand adm (ascii ("adm" ++ "it")) 48) (ascii "KL5-ADMIT-V1" ++ (getSess s i).ident) = sub m.payload 32 48 →
      (r.limit ≤ r.contribs.length → ∃ t, exec (.enrol i m) s = .next t ∧ (getSess t i).st = 2 ∧ (getSess t i).reason = 4 ∧ t.rnd = s.rnd) ∧
      (r.contribs.length < r.limit → ∃ t c, exec (.enrol i m) s = .next t ∧ (getSess t i).st = 1 ∧ getRnd? t r.num = some { r with contribs := r.contribs ++ [c] } ∧
        c.sess = sessHandle i (getSess s i) ∧ c.ident = leNat (getSess s i).ident ∧ c.pk = sub m.payload 0 32 ∧ c.commit = sub m.payload 80 48 ∧
        c.inA = false ∧ c.committed = false ∧ t.mem = s.mem))) ∧
  (∀ (s : State) (i idx : Nat) (r : Round) (m : RoundMsg) (c : Contrib),
    (FromContrib s i r m 2 idx c → r.sealed = false → r.norm = 0 → c.sent = false →
      (m.payload.length = 80 * (r.nbrs idx).length → ∃ t, exec (.shares i m) s = .next t ∧ t.mem = s.mem ∧ (getSess t i).st = 1 ∧ ContribIs r.num idx { c with
        sent := true, inA := true, shares := (List.range (r.nbrs idx).length).map fun j => sub m.payload (80 * j) 80 } s t) ∧
      (m.payload.length ≠ 80 * (r.nbrs idx).length → ∃ t, exec (.shares i m) s = .next t ∧ (getSess t i).st = 2 ∧ t.rnd = s.rnd)) ∧
    (FromContrib s i r m 2 idx c → r.norm ≠ 0 → c.norm = none → ∃ t ok, exec (.norm i m) s = .next t ∧ t.mem = s.mem ∧
      ContribIs r.num idx { c with norm := some ok, inA := (r.sealed || c.sent) && ok } s t) ∧
    (FromContrib s i r m 3 idx c → c.inA = true → c.committed = false →
      (m.payload ≠ [] → m.payload.length % 8 = 0 → m.offset + m.payload.length / 8 ≤ r.words →
        (∀ p ∈ c.staged, overlaps (p.1, p.2.length) (m.offset, m.payload.length / 8) = false) →
        (roundStaging s r + stagedRows s r (c.staged ++ [(m.offset, chunkWords m.payload)]) - stagedRows s r c.staged ≤ r.staging * 2048 →
          ∃ t, exec (.vector i m) s = .next t ∧ t.mem = s.mem ∧ (getSess t i).st = 1 ∧
            ContribIs r.num idx { c with staged := c.staged ++ [(m.offset, chunkWords m.payload)] } s t) ∧
        (r.staging * 2048 < roundStaging s r + stagedRows s r (c.staged ++ [(m.offset, chunkWords m.payload)]) - stagedRows s r c.staged →
          exec (.vector i m) s = .next s)) ∧
      (r.words < m.offset + m.payload.length / 8 ∨ m.payload.length % 8 ≠ 0 ∨ m.payload = [] ∨
          (∃ p, p ∈ c.staged ∧ overlaps (p.1, p.2.length) (m.offset, m.payload.length / 8) = true) →
        ∃ t, exec (.vector i m) s = .next t ∧ (getSess t i).st = 2 ∧ t.rnd = s.rnd) ∧
      (m.payload.length = 4 → leNat m.payload = r.words → c.staged.foldl (fun n p => n + p.2.length) 0 = r.words → ∃ t, exec (.commit i m) s = .next t ∧
        ContribIs r.num idx { c with committed := true } s t ∧ t.mem = (addContrib false r c s).mem) ∧
      (m.payload.length = 4 → leNat m.payload ≠ r.words ∨ c.staged.foldl (fun n p => n + p.2.length) 0 ≠ r.words → ∃ t, exec (.commit i m) s = .next t ∧
        t.rnd = s.rnd ∧ t.mem = s.mem ∧ (getSess t i).st = 1)) ∧
    (∀ w cw, FromContrib s i r m 4 idx c → r.sealed = false → m.payload.length = 40 → w = field m.payload 0 4 →
      (r.kinds.getD idx 0 = 1 → r.kinds.getD w 0 ≠ 0 → (r.nbrs idx).contains w = true → field m.payload 4 4 = idx + 1 → r.contribs[w]? = some cw →
        (∀ e ∈ cw.resp, e.1 ≠ idx + 1) → cw.seed = none → ∃ t c', exec (.response i m) s = .next t ∧ ContribIs r.num w c' s t ∧ t.mem = s.mem ∧ c' = { cw with
          resp := cw.resp ++ [(idx + 1, sub m.payload 8 32)]
          seed := (recoverSeed r.t (r.kinds.getD w 0) { cw with resp := cw.resp ++ [(idx + 1, sub m.payload 8 32)] }).map Prod.fst }) ∧
      (r.kinds.getD idx 0 ≠ 1 ∨ r.kinds.getD w 0 = 0 ∨ (r.nbrs idx).contains w = false → ∃ t r', exec (.response i m) s = .next t ∧ t.mem = s.mem ∧
        t.fab.kindRefused = incSat s.fab.kindRefused ∧ getRnd? t r.num = some r' ∧ r'.contribs = r.contribs))) ∧
  (∀ (s : State) (n member : Nat) (data : List Byte) (r : Round), regsOpen s = true → getRnd? s n = some r → r.manager = true → r.sealed = true →
    (r.phase = 4 → member < r.committee.length → (r.committee.getD member (0, [])).1 ≠ chipNo s → r.pds.any (fun e => e.1 == member) = false →
      data.length = 8 * (r.cts * r.set.l * r.set.n) → ∃ t r', exec (.partialDecryption n member data) s = .next t ∧ getRnd? t n = some r' ∧
        r'.pds = r.pds ++ [(member, data)] ∧ (r'.earlyAt = none → membersIn t r' ≠ r.committee.length) ∧ t.mem = s.mem) ∧
    (r.phase ≠ 4 ∨ r.committee.length ≤ member ∨ r.pds.any (fun e => e.1 == member) = true → exec (.partialDecryption n member data) s = .next s)) ∧
  (∀ (s : State) (n : Nat) (r : Round), regsOpen s = true → getRnd? s n = some r → r.manager = true → r.started = true → r.phase < 5 →
    (s.lark.time < r.endBeat * 2 ^ r.k → exec (.roundPhaseEnd n) s = .next s) ∧
    (r.endBeat * 2 ^ r.k ≤ s.lark.time →
      (r.phase = 0 → ∃ t r', exec (.roundPhaseEnd n) s = .next t ∧ getRnd? t n = some r' ∧ r' = { r with phase := 1, phaseStart := r.endBeat, earlyAt := none }) ∧
      (∀ es, r.phase = 1 → es = (r.contribs.filter fun c => decide (r.contribs.countP (fun x => x.ident == c.ident) ≤ 1)).mergeSort
          (fun a b => decide (a.ident ≤ b.ident)) →
        (es.length < max r.t r.kmin → ∃ t, exec (.roundPhaseEnd n) s = .next t ∧ RoundEnded n 8 0x0604 s t) ∧
        (max r.t r.kmin ≤ es.length → r.sealed = false → ∃ t r', exec (.roundPhaseEnd n) s = .next t ∧ getRnd? t n = some r' ∧ r'.phase = 2 ∧ r'.contribs = es ∧
          r'.nE = es.length ∧ r'.graphSeed.length = 32 ∧ r'.phaseStart = r.endBeat)) ∧
      (r.phase = 2 → (r.contribs.countP Contrib.inA < max r.t r.kmin → ∃ t, exec (.roundPhaseEnd n) s = .next t ∧ RoundEnded n 8 0x0604 s t) ∧
        (max r.t r.kmin ≤ r.contribs.countP Contrib.inA → ∃ t r', exec (.roundPhaseEnd n) s = .next t ∧ getRnd? t n = some r' ∧ r'.phase = 3 ∧
          r'.nA = r.contribs.countP Contrib.inA ∧ r'.contribs = r.contribs)) ∧
      (∀ ids, r.phase = 3 → (∀ c ∈ r.contribs, c.committed = true → sessOpen s c = true) → ids = (r.contribs.filter Contrib.committed).map Contrib.ident →
        (ids.length < max r.t r.kmin → ∃ t, exec (.roundPhaseEnd n) s = .next t ∧ RoundEnded n 8 0x0604 s t) ∧
        (max r.t r.kmin ≤ ids.length → (∃ p, (r.pSet = some p ∨ r.qSet = some p) ∧ symDiff ids p < r.kmin) →
          ∃ t, exec (.roundPhaseEnd n) s = .next t ∧ RoundEnded n 8 0x0605 s t) ∧
        (max r.t r.kmin ≤ ids.length → (∀ p, r.pSet = some p ∨ r.qSet = some p → r.kmin ≤ symDiff ids p) → ∃ t r', exec (.roundPhaseEnd n) s = .next t ∧
          getRnd? t n = some r' ∧ r'.phase = 4 ∧ r'.closed = true ∧ r'.survivors = ids ∧
          r'.kinds = r.contribs.map (fun c => if c.committed then 1 else if c.inA then 2 else 0) ∧ (∀ c ∈ r'.contribs, c.staged = []) ∧
          ((guardOf s r.owner).isSome = true ∨ s.boot.flash.guards.length < 4096 →
            (guardOf t r.owner).bind GuardRec.q = some (r.num, ids.length, sha384 (listBytes ids))))) ∧
      (r.phase = 4 → (r.sealed = true ∧ membersIn s r < r.t ∨ r.sealed = false ∧ r.allSeeds = false → ∃ t, exec (.roundPhaseEnd n) s = .next t ∧
          RoundEnded n 8 0x0604 s t) ∧
        (r.sealed = true ∧ r.t ≤ membersIn s r ∨ r.sealed = false ∧ r.allSeeds = true → ∃ t r', exec (.roundPhaseEnd n) s = .next t ∧ getRnd? t n = some r' ∧
          r' = { r with phase := 5, phaseStart := r.endBeat, earlyAt := none })))) ∧
  (∀ (s : State) (n : Nat) (r g : Round), regsOpen s = true → getRnd? s n = some r →
    (r.phase ≠ 5 → exec (.unmask n) s = .next s) ∧
    (r.phase = 5 → r.manager = true → r.sealed = false → getRnd? (gatherOwn r s) n = some g → g.gathered = true →
      (∀ e, gateFault r r.survivors = some e → ∃ t, exec (.unmask n) s = .next t ∧ RoundEnded n 8 e.1 s t) ∧
      (gateFault r r.survivors = none → ∃ t r', exec (.unmask n) s = .next t ∧ getRnd? t n = some r' ∧ r'.phase = 6 ∧
        r'.pieces = [(0, (List.range r.m).map g.sumWord)] ∧ (∀ c ∈ r'.contribs, c.seed = none))) ∧
    (r.manager = true → r.phase = 6 → ∃ t r', exec (.publish n) s = .next t ∧ RoundEnded n 7 0 s t ∧ getRnd? t n = some r' ∧
      r'.publication = publicationOf s r ∧ ((guardOf s r.owner).isSome = true ∨ s.boot.flash.guards.length < 4096 →
        (guardOf t r.owner).bind GuardRec.p = some (r.num, r.survivors.length, sha384 (listBytes r.survivors)) ∧ (guardOf t r.owner).bind GuardRec.q = none)) ∧
    (r.manager = false ∨ r.phase ≠ 6 → exec (.publish n) s = .next s)) ∧
  (∀ (s : State) (n chip : Nat) (r : Round), regsOpen s = true → getRnd? s n = some r → r.manager = true → r.live = true →
    (r.workers.contains chip = false ∨ r.lost.contains chip = true → exec (.workerLost n chip) s = .next s) ∧
    (r.workers.contains chip = true → r.lost.contains chip = false →
      (r.started = false → ∃ t r', exec (.workerLost n chip) s = .next t ∧ getRnd? t n = some r' ∧ r'.workers = r.workers.filter (· != chip)) ∧
      (r.started = true → rangesLive { r with lost := chip :: r.lost } = false → ∃ t, exec (.workerLost n chip) s = .next t ∧ RoundEnded n 8 0x0805 s t) ∧
      (r.started = true → rangesLive { r with lost := chip :: r.lost } = true → r.sealed = false → r.closed = false → chip ≠ chipNo s →
        ∃ t, exec (.workerLost n chip) s = .next t ∧ getRnd? t n = some { r with lost := chip :: r.lost }))) ∧
  (∀ (s : State) (lvl : Level), (managerSilent s lvl = false → exec (.managerLoss lvl) s = .next s) ∧
    (managerSilent s lvl = true → ∃ t, exec (.managerLoss lvl) s = .next t ∧ (getElect t lvl).mgr = none ∧
      (∀ part, lvl ≠ .slice part → t.rnd = s.rnd) ∧
      ∀ part r, lvl = .slice part → r ∈ s.rnd.rounds → getRnd? s r.num = some r → r.live = true → r.manager = false → r.worker = true → r.part = part →
        r.mgrChip = managerChip s lvl → ∃ r', getRnd? t r.num = some r' ∧ r'.phase = 8 ∧ r'.status = 0x0805)) ∧
  (∀ (s : State) (p : QtdPkt) (n kind : Nat) (r : Round), Reaches s p 7 → Admitted s p → n = field p.payload 0 8 → kind = field p.payload 8 1 →
    getRnd? s n = some r → ∃ t, exec (.fw p) s = .next t ∧ t.rnd.fw = s.rnd.fw ++ [(p.src, p.payload)] ∧
      (kind = 0 → r.manager = true → r.phase = 0 → r.started = false → r.workers.contains p.src = false →
        getRnd? t n = some { r with workers := r.workers ++ [p.src] }) ∧
      (kind = 2 → r.manager = false → r.live = true → p.src = r.mgrChip → field p.payload 9 1 < 7 →
        getRnd? t n = some { r with phase := field p.payload 9 1, started := true }) ∧
      (kind = 2 → r.manager = false → r.live = true → p.src = r.mgrChip → 7 ≤ field p.payload 9 1 →
        RoundEnded n (field p.payload 9 1) (field p.payload 10 2) s t))

/-- MODEL_LOAD places a checked plan or nothing; Warbler loads tables, opens and closes streams, normalizes, decides submissions and masks. At its turn: (1) MODEL_LOAD in Run of a readable package completes with the status of the first failed check of R166, Table 16.3 and R326 and changes nothing; a wrong digest or tag gives 0x0502; else a model object keeps the segments, resident plaintext and spilled ciphertext are in memory, and every Wren of the mask holds the key, its region, context and mode, its thicket bound; MODEL_QUERY gives SPILL and spilled bytes. With Warbler not in Quarantine: (2) WBL_TABLE_LOAD gives a failed check's status or stores the bytes under a new handle, and without room 0x0303 and the free bytes; UNLOAD drops the host reference and the table unless a stream uses it; (3) WBL_STREAM_OPEN gives 0x0306, 0x0403 or 0x0105 as R338, or makes the lowest free stream Drafting in the start configuration; CLOSE frees it; (4) WBL_NORMALIZE of 0 bytes changes nothing; else it writes the normalized text, the longest prefix of whole sequences within L_in; (5) a submission of a row's value at an ENG of kind 2 faults with 0x0403 on a stream that is free or another context's, with 0x0105 when its mask bit is clear, and else advances that stream alone: a byte as R340, END to Done, PAD not at all, RESTART to the start; (6) MASK of a 64-byte aligned row in the working area makes every masked-out logit -Inf and keeps the others, a stream of another context faults with 0x0403, a bad address with 0x0105, and it waits (code 7) for work on the row. -/
def Obligations.ModelsLoadAndStreamsConstrainOutput : Prop :=
  (∀ (s : State) (q : QRef) (p : Packet) (b : List Byte) (g : Package) (budget : Nat) (spill : Bool), Turn s q 0x0503 p → s.nut.policyLost = false →
    s.pwr.st = .run → dvaRead s p.ctx (p.w 0) (p.w 1) .fetch false = .ok b → g = packageOf b → budget = bits (p.w 2) 32 32 * 1048576 →
    spill = (bitOf (p.w 2) 0 && budget != 0) →
    (∀ e, packageHead g = some e ∨ packageHead g = none ∧ weightKey s p.ctx g = .error e →
      exec (.modelLoad q) s = .next (finish q (Done.fail e.1 e.2) (countAuth e.1 s))) ∧
    (∀ k, packageHead g = none → weightKey s p.ctx g = .ok k →
      (∀ e, planFault s p.ctx (p.w 1) g = some e ∨ planFault s p.ctx (p.w 1) g = none ∧ placePlan s p.ctx g spill budget (g.taken (chipNo s)) = .error e →
        exec (.modelLoad q) s = .next (finish q (Done.fail e.1 e.2) (countAuth e.1 s))) ∧
      (∀ r, planFault s p.ctx (p.w 1) g = none → placePlan s p.ctx g spill budget (g.taken (chipNo s)) = .ok r → quarDecryptor s g.mask = none →
        s.host.objs.length < objLimit →
        (sha384 g.body ≠ sub g.raw 0x20 48 ∨ (∃ v ∈ r.1 ++ r.2, openSeg g k v = none) →
          exec (.modelLoad q) s = .next (finish q (Done.fail 0x0502 4) (countAuth 0x0502 s))) ∧
        (∀ places, sha384 g.body = sub g.raw 0x20 48 → (∀ v ∈ r.1 ++ r.2, openSeg g k v ≠ none) →
          spillPlaces s (getCtx s p.ctx).part r.2 (usedRanges s ++ scrubRanges s) = some places →
          ∃ h size o m u, exec (.modelLoad q) s = .next (finish q (Done.res h size) u) ∧ (h, o) ∈ u.host.objs ∧ o.kind = .model m ∧ o.ctx = p.ctx ∧
            o.host = true ∧ o.sha = sha384 b ∧ m.mask = g.mask ∧ m.key = k ∧ m.spillMode = spill ∧ m.spilled = spilledBytes r.2 ∧
            m.segs = heldSegs r.1 r.2 places ∧ u.mem = (writeSegs g k r.1 r.2 places s).mem ∧ u.hostMem = s.hostMem ∧
            (∀ i, i < 24 * (maskThks g.mask).length → (getWren u (maskWren g.mask i)).keyHeld = true ∧ (getWren u (maskWren g.mask i)).regionCtx = p.ctx ∧
              (getWren u (maskWren g.mask i)).regionSpill = spill ∧ (getWren u (maskWren g.mask i)).region = regionOf g spill r.1 r.2 i) ∧
            (∀ t ∈ maskThks g.mask, (getThk u t).bound = some p.ctx))))) ∧
  (∀ (s : State) (q : QRef) (p : Packet) (o : Obj), Turn s q 0x0505 p → useObj s p.ctx (p.w 0) 3 = .ok o →
    ∀ m, o.kind = .model m → exec (.modelQuery q) s = .next (finish q (Done.res (b2n m.spillMode) m.spilled) s)) ∧
  (∀ (s : State) (q : QRef) (p : Packet) (b : List Byte), Turn s q 0x0900 p → quarantined s (unitId 0x0C 0) = false → p.w 1 ≤ 33554432 →
    (bitOf (p.w 2) 0 = true ∨ p.w 1 ≤ 4194304) → dvaRead s p.ctx (p.w 0) (p.w 1) .read false = .ok b →
    (∀ e, tableErr (bitOf (p.w 2) 0) b (p.w 1) = some e → exec (.wblTableLoad q) s = .next (finish q (Done.fail e.1 e.2) (countAuth e.1 s))) ∧
    (tableErr (bitOf (p.w 2) 0) b (p.w 1) = none →
      (tblRoom s p.ctx = false ∨ tblFree s p.ctx < b.length → exec (.wblTableLoad q) s = .next (finish q (Done.fail 0x0303 (tblFree s p.ctx)) s)) ∧
      (tblRoom s p.ctx = true → b.length ≤ tblFree s p.ctx → ∃ i u, exec (.wblTableLoad q) s = .next (finish q (Done.res (tblHandle i (getTbl s i).gen) 0) u) ∧
        (getTbl s i).live = false ∧ getTbl u i = { getTbl s i with ctx := p.ctx, live := true, host := true, norm := bitOf (p.w 2) 0, bytes := b } ∧
        (∀ j, j ≠ i → getTbl u j = getTbl s j) ∧ u = { s with wbl := { s.wbl with tables := u.wbl.tables } }))) ∧
  (∀ (s : State) (q : QRef) (p : Packet) (h : Nat), Turn s q 0x0901 p → quarantined s (unitId 0x0C 0) = false → h = bits (p.w 0) 0 16 →
    (tblOf s h = none → exec (.wblTableUnload q) s = .next (finish q (Done.fail 0x0403 0) s)) ∧
    (∀ i v, tblOf s h = some (i, v) → inScope s p.ctx v.ctx = true → v.host = true →
      ∃ u, exec (.wblTableUnload q) s = .next (finish q Done.ok u) ∧ (tblUsed s i = true → getTbl u i = { v with host := false }) ∧
        (tblUsed s i = false → getTbl u i = { WTable.init with gen := (v.gen + 1) % 128 }) ∧ (∀ j, j ≠ i → getTbl u j = getTbl s j) ∧
        u = { s with wbl := { s.wbl with tables := u.wbl.tables } })) ∧
  (∀ (s : State) (q : QRef) (p : Packet) (lin lout : Nat), Turn s q 0x0902 p → quarantined s (unitId 0x0C 0) = false → lin = bits (p.w 2) 0 16 →
    lout = bits (p.w 2) 16 16 →
    ((∀ i ∈ streamsFor s p.ctx, (getStream s i).st ≠ 0) →
      exec (.wblStreamOpen q) s = .next (finish q (Done.fail 0x0306 (streamsFor s p.ctx).length) s)) ∧
    (∀ i, (streamsFor s p.ctx).find? (fun j => (getStream s j).st == 0) = some i →
      (tblOf s (bits (p.w 0) 0 16) = none ∨ chainOf s p.ctx (p.w 1) 4 = none → exec (.wblStreamOpen q) s = .next (finish q (Done.fail 0x0403 0) s)) ∧
      (∀ g t chain, tblOf s (bits (p.w 0) 0 16) = some (g, t) → chainOf s p.ctx (p.w 1) 4 = some chain →
        (t.norm = true ∨ t.host = false ∨ t.ctx ≠ p.ctx → exec (.wblStreamOpen q) s = .next (finish q (Done.fail 0x0403 0) s)) ∧
        (t.norm = false → t.host = true → t.ctx = p.ctx → lin = 0 ∨ lout = 0 ∨ lout < dAcc t.bytes (gStart t.bytes) →
          ∃ d, exec (.wblStreamOpen q) s = .next (finish q (Done.fail 0x0105 d) s)) ∧
        (t.norm = false → t.host = true → t.ctx = p.ctx → lin ≠ 0 → lout ≠ 0 → dAcc t.bytes (gStart t.bytes) ≤ lout →
          ∃ u, exec (.wblStreamOpen q) s = .next (finish q (Done.res i 0) u) ∧ StreamOnly i s u ∧
            getStream u i = { st := 1, secret := bitOf (p.w 2) 32, ctx := p.ctx, gram := g, chain := chain, lin := lin, lout := lout
                              q := gStart t.bytes, frames := [], e := 0 })))) ∧
  (∀ (s : State) (q : QRef) (p : Packet) (i : Nat) (v : Stream), Turn s q 0x0903 p → quarantined s (unitId 0x0C 0) = false → i = bits (p.w 0) 0 6 →
    nameStream s p.ctx i = .ok v → ∃ u, exec (.wblStreamClose q) s = .next (finish q Done.ok u) ∧ getStream u i = Stream.init ∧
      (∀ j, j ≠ i → getStream u j = getStream s j) ∧ (∀ t, (getTbl s t).host = true ∨ tblUsed u t = true → getTbl u t = getTbl s t) ∧
      u = { s with wbl := u.wbl }) ∧
  (∀ (s : State) (q : QRef) (p : Packet) (v : Stream), Turn s q 0x0904 p → quarantined s (unitId 0x0C 0) = false →
    nameStream s p.ctx (bits (p.w 0) 0 6) = .ok v →
    (bits (p.w 2) 0 16 = 0 → exec (.wblNormalize q) s = .next (finish q (Done.res 0 0) s)) ∧
    (∀ bs cs kept out s', bits (p.w 2) 0 16 ≠ 0 → dvaRead s p.ctx (p.w 1) (bits (p.w 2) 0 16) .read false = .ok bs →
      cs = v.chain.foldl (fun cs i => applyTable (getTbl s i).bytes cs) (decodeUtf8 (bs.length + 1) (bs.map BitVec.toNat)).1 → kept = fitUtf8 v.lin cs →
      out = kept.flatMap encodeUtf8 → dvaWrite s p.ctx (p.w 3) out .write false = .ok s' →
      ∃ u, exec (.wblNormalize q) s = .next (finish q (Done.res out.length
          (b2n (decide (kept.length < cs.length)) + 2 * b2n (decodeUtf8 (bs.length + 1) (bs.map BitVec.toNat)).2)) u) ∧
        u.mem = s'.mem ∧ u.hostMem = s'.hostMem ∧ u.wbl = s.wbl)) ∧
  (∀ (l : Nat) (cs : List Nat), fitUtf8 l cs <+: cs ∧ ((fitUtf8 l cs).flatMap encodeUtf8).length ≤ l ∧
    (fitUtf8 l cs ≠ cs → l < ((cs.take ((fitUtf8 l cs).length + 1)).flatMap encodeUtf8).length)) ∧
  (∀ (s : State) (w v i : Nat) (x : Site) (c : Nat → Instr) (d : Stream), Stands s w 7 1 x → bits x.insn 30 2 = 2 →
    v = getSr s w (bits x.insn 25 5) % 1024 → SubmitRow c v → i = bits x.insn 32 6 → d = getStream s i → quarantined s (unitId 0x0C 0) = false →
    (d.st = 0 ∨ d.ctx ≠ x.run.ctx → ∃ t, exec (c w) s = .next t ∧ Faulted x 0x0403 s t) ∧
    (d.st ≠ 0 → d.ctx = x.run.ctx → v ≠ 0x102 → maskBit (gramOf s d) d v = false → ∃ t, exec (c w) s = .next t ∧ Faulted x 0x0105 s t) ∧
    (d.st ≠ 0 → d.ctx = x.run.ctx → v = 0x102 ∨ maskBit (gramOf s d) d v = true → ∃ u t, exec (c w) s = .next t ∧ Passed x u t ∧ StreamOnly i s u ∧
      (v < 0x100 → getStream u i = afterByte (gramOf s d) d v) ∧ (v = 0x100 → getStream u i = { d with st := 2 }) ∧
      (v = 0x101 → getStream u i = d) ∧ (v = 0x102 → getStream u i = { d with st := 1, q := gStart (gramOf s d), frames := [], e := 0 }))) ∧
  (∀ (s : State) (w a i : Nat) (x : Site) (d : Stream), Stands s w 7 2 x → quarantined s (unitId 0x0C 0) = false → a = getSr s w (bits x.insn 20 5) →
    i = bits x.insn 32 6 → d = getStream s i →
    (a % 64 ≠ 0 ∨ x.prog.wsize < a + 1032 → ∃ t, exec (.mask w) s = .next t ∧ Faulted x 0x0105 s t) ∧
    (a % 64 = 0 → a + 1032 ≤ x.prog.wsize → d.st = 0 ∨ d.ctx ≠ x.run.ctx → ∃ t, exec (.mask w) s = .next t ∧ Faulted x 0x0403 s t) ∧
    (a % 64 = 0 → a + 1032 ≤ x.prog.wsize → d.st ≠ 0 → d.ctx = x.run.ctx →
      (interlocked (getWren s w) [(a, 1032)] [(a, 1032)] = true → ∃ t, exec (.mask w) s = .next t ∧ Blocks x 7 s t) ∧
      (interlocked (getWren s w) [(a, 1032)] [(a, 1032)] = false → ∃ u t, exec (.mask w) s = .next t ∧ Passed x u t ∧ MemOutside (wrenBase w + a) 1032 s u ∧
        ∀ o, o < 258 → memRead u.mem (wrenBase w + a + 4 * o) 4 =
          if maskBit (gramOf s d) d o then memRead s.mem (wrenBase w + a + 4 * o) 4 else natLE 4 0xFF800000)))

/-- need of a stream's configuration (17 R340). -/
def streamNeed (b : List Byte) (v : Stream) : Nat := needAt b v.q v.frames.length (topCost v)

/-- Every frame holds an existing return state, and the tail cost that R340 gives a frame pushed over those below it. -/
def FramesOk (b : List Byte) : List WFrame → Prop
  | [] => True
  | f :: fs => f.ret < gStates b ∧ f.tail = needAt b f.ret fs.length (match fs with | g :: _ => g.tail | [] => 0) ∧ FramesOk b fs

/-- A Drafting stream in a configuration of its grammar whose need does not exceed the remaining budget (17 R341). -/
def WithinBudget (b : List Byte) (v : Stream) : Prop :=
  v.st = 1 ∧ v.q < gStates b ∧ v.frames.length ≤ 256 ∧ FramesOk b v.frames ∧ v.e ≤ v.lout ∧ streamNeed b v ≤ v.lout - v.e ∧ streamNeed b v < 0xFFFF

/-- Bytes that the mask allows one after another, and the stream after them. -/
def Drafts (b : List Byte) : Stream → List Nat → Stream → Prop
  | v, [], u => u = v
  | v, o :: os, u => o < 256 ∧ maskBit b v o = true ∧ Drafts b (afterByte b v o) os u

/-- In a grammar that WBL_TABLE_LOAD accepts, need stays within the budget, some outcome is always allowed, and END can be reached. For a grammar table that passes the checks of R337, with a 16-bit output limit: the start configuration that R338 admits has need within the budget and well-formed frames; from every such configuration, one that no run reaches included: every byte whose mask bit is set leads to another such one; END is allowed when need is 0; otherwise a byte is allowed whose need is one less; with nothing left of the budget END is the only outcome; and at most need further bytes, each allowed by the mask in turn, lead to a configuration where END is allowed, so that no configuration is one from which the grammar cannot be completed within L. -/
def Obligations.NoticesAlwaysCompleteWithinTheirLimit : Prop :=
  ∀ (b : List Byte) (v : Stream), gramCheck b b.length = none → v.lout < 0x10000 →
    (dAcc b (gStart b) ≤ v.lout → WithinBudget b (restart b v)) ∧
    (WithinBudget b v →
      (∀ o, o < 256 → maskBit b v o = true → WithinBudget b (afterByte b v o)) ∧
      (streamNeed b v = 0 → maskBit b v 256 = true) ∧
      (streamNeed b v ≠ 0 → ∃ o, o < 256 ∧ maskBit b v o = true ∧ streamNeed b (afterByte b v o) + 1 = streamNeed b v) ∧
      (v.e = v.lout → maskBit b v 256 = true ∧ ∀ o, o < 258 → maskBit b v o = true → o = 256) ∧
      (∃ os u, os.length ≤ streamNeed b v ∧ Drafts b v os u ∧ maskBit b u 256 = true))

/-- Events keep to their group's quota; WALL_OFFSET_SET, PERIOD_CLOSE, METER_READ, EVENT_LOG_READ; unit Quarantine, release and status. (1) A raised event changes its own group alone: an identical one within 1 ms raises REPEAT of the newest entry; any other takes the next sequence, and at quota replaces the group's oldest and raises its lost count; a 0x0Cxx entry pulls MGMT_ALERT_N low while ALERT is 1. At its turn: (2) WALL_OFFSET_SET stores its offset; a smaller one than that in force is a discontinuity with event 0x0413 and RES0 1; (3) PERIOD_CLOSE completes with 0x0409, 0x0407, 0x0412 as R351 orders, leaves a later close pending, or closes the period at the next edge with LATE, RES0 the period; a pending close takes effect once fabric time reaches it; (4) METER_READ gives 0x0105 for a period not open yet, 0x0403 for one no longer held, else its 160-byte records; (5) EVENT_LOG_READ returns entries of the reader's groups from w0 in time order, at most w1, with RES0 and RES1 as R347, for context 0 restarting the watermark; (6) UNIT_STATUS gives the two states (8 in Quarantine, 9 Releasing, 0 off the part), UNIT_RELEASE starts the release of a unit in Quarantine, and both refuse an unknown unit; (7) the check 100 ms after it admits the unit with 0x0C14 or returns it with 0x0C15; (8) a disagreement puts a unit in Quarantine with 0x0C02 and both states, a replica overrun with 0x0C05, its row marked, its Wren's run ended; both leave a unit in Quarantine, off the part, or unknown as it is. -/
def Obligations.LogsPeriodsAndUnitsRunForWeeks : Prop :=
  (∀ (s t : State) (code unit detail g : Nat) (ctx : Option Nat) (old new : EvGroup), t = raiseEv code ctx unit detail s → g = evGroup s ctx →
    old = tabGet EvGroup.init s.evlog g → new = tabGet EvGroup.init t.evlog g →
    (∀ h, h ≠ g → tabGet EvGroup.init t.evlog h = tabGet EvGroup.init s.evlog h) ∧
    (∀ (es : List Event) (e : Event), old.entries = es ++ [e] → e.code = code → e.ctx = ctx → e.unit = unit → e.detail = detail → s.lark.time ≤ e.time + 1000000 →
      new = { old with entries := es ++ [{ e with rep := min (e.rep + 1) 0xFFFF }] } ∧ t = { s with evlog := t.evlog }) ∧
    ((∀ (es : List Event) (e : Event), old.entries = es ++ [e] → ¬(e.code = code ∧ e.ctx = ctx ∧ e.unit = unit ∧ e.detail = detail ∧ s.lark.time ≤ e.time + 1000000)) →
      ∃ e : Event, e.seq = old.next ∧ e.time = s.lark.time ∧ e.code = code ∧ e.ctx = ctx ∧ e.unit = unit ∧ e.detail = detail ∧ e.rep = 0 ∧ new.next = old.next + 1 ∧
        (old.entries.length < evQuota s → new.entries = old.entries ++ [e] ∧ new.lost = old.lost) ∧
        (evQuota s ≤ old.entries.length → new.entries = old.entries.drop 1 ++ [e] ∧ new.lost = old.lost + 1) ∧
        t.glb.evSince = s.glb.evSince + 1 ∧ (code / 256 = 0x0C → s.glb.evAlert = true → t.pwr.pins.mgmtAlertN = false) ∧
        t = { s with evlog := t.evlog, glb := t.glb, pwr := { s.pwr with pins := t.pwr.pins }, out := t.out })) ∧
  (∀ (s : State) (q : QRef) (p : Packet) (o : Int), Turn s q 0x0A04 p → o = signed 64 (p.w 0) →
    (s.mtr.wallSet = false ∨ s.mtr.wall ≤ o →
      exec (.wallOffsetSet q) s = .next (finish q (Done.res 0 0) { s with mtr := { s.mtr with wall := o, wallSet := true } })) ∧
    (s.mtr.wallSet = true → o < s.mtr.wall → ∃ u, exec (.wallOffsetSet q) s = .next (finish q (Done.res 1 0) (raisePlain 0x0413 none 0xFFFF u)) ∧
      u = { s with mtr := { s.mtr with wall := o, cur := { s.mtr.cur with discont := min (s.mtr.cur.discont + 1) 0xFFFF, discTime := s.lark.time, discBefore := s.mtr.wall, discAfter := o } } })) ∧
  (∀ (s : State) (q : QRef) (p : Packet) (w : Int), Turn s q 0x0A05 p → w = (p.w 0 : Int) →
    (s.mtr.wallSet = false → exec (.periodClose q) s = .next (finish q (Done.fail 0x0409 0) s)) ∧
    (s.mtr.wallSet = true → ((∃ e, s.mtr.lastEnd = some e ∧ w ≤ e) ∨ ∃ f e, s.mtr.pend = some (f, e) ∧ w ≤ e) →
      ∃ d, exec (.periodClose q) s = .next (finish q (Done.fail 0x0407 d) s)) ∧
    (∀ f e, s.mtr.wallSet = true → (∀ d, s.mtr.lastEnd = some d → d < w) → s.mtr.pend = some (f, e) → e < w →
      ∃ d, exec (.periodClose q) s = .next (finish q (Done.fail 0x0412 d) s)) ∧
    (s.mtr.wallSet = true → (∀ d, s.mtr.lastEnd = some d → d < w) → s.mtr.pend = none →
      ((s.lark.time : Int) < w - s.mtr.wall → exec (.periodClose q) s =
        .next (finish q (Done.res s.mtr.cur.num 0) { s with mtr := { s.mtr with pend := some ((w - s.mtr.wall).toNat, w) } })) ∧
      (w - s.mtr.wall ≤ (s.lark.time : Int) → ∃ u, exec (.periodClose q) s = .next (finish q (Done.res s.mtr.cur.num 0) u) ∧
        PeriodClosed (larkTick s).mtr w true (larkTick s).lark.time u.mtr ∧ u = { larkTick s with mtr := u.mtr }))) ∧
  (∀ (s : State), (s.mtr.pend = none → exec .periodCloseTakesEffect s = .next s) ∧
    (∀ f w, s.mtr.pend = some (f, w) → (s.lark.time < f → exec .periodCloseTakesEffect s = .next s) ∧
      (powered s = true → f ≤ s.lark.time → ∃ t, exec .periodCloseTakesEffect s = .next t ∧
        PeriodClosed { s.mtr with pend := none } w false s.lark.time t.mtr ∧ t = { s with mtr := t.mtr }))) ∧
  (∀ (s : State) (q : QRef) (p : Packet) (n : Nat), Turn s q 0x0A06 p → n = p.w 0 →
    (s.mtr.cur.num < n → ∃ d, exec (.meterRead q) s = .next (finish q (Done.fail 0x0105 d) s)) ∧
    (n ≠ 0 → n < s.mtr.cur.num → (∀ c ∈ s.mtr.closed, c.num ≠ n) → exec (.meterRead q) s = .next (finish q (Done.fail 0x0403 0) s)) ∧
    (∀ per bs, (n = 0 ∨ n = s.mtr.cur.num) ∧ per = s.mtr.cur ∧ bs = meterRecords s p.ctx per true ∨
        n ≠ 0 ∧ n < s.mtr.cur.num ∧ s.mtr.closed.find? (fun c => c.num == n) = some per ∧ bs = meterRecords s p.ctx per false →
      bs.length = (if p.ctx = 0 then 160 * (1 + s.host.parts) else 160) ∧
      (bufErr s q p bs.length = none → exec (.meterRead q) s = .next (finish q { Done.ok with data := bs } s)))) ∧
  (∀ (s : State) (q : QRef) (p : Packet) (got : List (Nat × Event)), Turn s q 0x0F00 p → got = (readable s p.ctx (p.w 0)).take (bits (p.w 1) 0 13) →
    (∀ g e, (g, e) ∈ readable s p.ctx (p.w 0) ↔
      g ∈ groupsFor s p.ctx ∧ e ∈ (tabGet EvGroup.init s.evlog g).entries ∧ p.w 0 ≤ e.seq ∧ (p.ctx = 0 ∨ e.ctx = some p.ctx)) ∧
    got.Pairwise (fun a b => a.2.time ≤ b.2.time) ∧
    (bufErr s q p (got.flatMap fun e => eventBytes e.2).length = none →
      ∃ r0 r1 u, exec (.eventLogRead q) s = .next (finish q { Done.res r0 r1 with data := got.flatMap fun e => eventBytes e.2 } u) ∧
        (got = [] → r0 = p.w 0) ∧ (∀ (es : List (Nat × Event)) (e : Nat × Event), got = es ++ [e] → r0 = e.2.seq + 1) ∧
        (∀ g v, groupsFor s p.ctx = [g] → v = tabGet EvGroup.init s.evlog g → r1 = ((v.entries.head?).map Event.seq).getD v.next - p.w 0) ∧
        u.evlog = s.evlog ∧ (p.ctx = 0 → u.glb.evSince = 0) ∧ (p.ctx ≠ 0 → u.glb.evSince = s.glb.evSince) ∧ (q ≠ .mgmt → u.glb.alerts = s.glb.alerts) ∧
        (q = .mgmt → s.host.shared = false → u.glb.alerts = s.glb.alerts.filter fun a => decide (r0 ≤ a.2)))) ∧
  (∀ (s : State) (q : QRef) (p : Packet) (n : Nat), n = bits (p.w 0) 0 16 →
    (Turn s q 0x0F03 p → unitKnown n = false → ∃ d, exec (.unitStatus q) s = .next (finish q (Done.fail 0x0105 d) s)) ∧
    (Turn s q 0x0F03 p → unitKnown n = true → ∃ a b, exec (.unitStatus q) s = .next (finish q (Done.res a b) s) ∧
      (unitOnPart s n = false → a = 0 ∧ b = 0) ∧ (unitOnPart s n = true → (getUnit s n).quar = true → a = 8 ∧ b = 8) ∧
      (unitOnPart s n = true → (getUnit s n).quar = false → (getUnit s n).releasing = true → a = 9 ∧ b = 9)) ∧
    (Turn s q 0x0F04 p → unitKnown n = false → ∃ d, exec (.unitRelease q) s = .next (finish q (Done.fail 0x0105 d) s)) ∧
    (Turn s q 0x0F04 p → unitKnown n = true → n / 2048 ≠ 0x0B →
      ((getUnit s n).releasing = true → ∃ d, exec (.unitRelease q) s = .next (finish q (Done.fail 0x0412 d) s)) ∧
      ((getUnit s n).releasing = false → (getUnit s n).quar = false → ∃ d, exec (.unitRelease q) s = .next (finish q (Done.fail 0x0401 d) s)) ∧
      ((getUnit s n).releasing = false → (getUnit s n).quar = true → ∃ u, exec (.unitRelease q) s = .next (finish q Done.ok u) ∧
        getUnit u n = { quar := false, releasing := true, relAt := s.lark.time })) ∧
    (∀ d u, Turn s q 0x0F04 p → unitKnown n = true → n / 2048 = 0x0B → laneReleaseOf (n % 2048 / 8) (laneBit (n % 2048 % 8)) s = (.done d, u) →
      exec (.unitRelease q) s = .next (finish q d (countAuth d.status u)))) ∧
  (∀ (s : State) (unit : BitVec 16) (dp robin n : Nat), n = unit.toNat → powered s = true →
    ((getUnit s n).releasing = false ∨ s.lark.time < (getUnit s n).relAt + 100000000 → exec (.unitReleaseCheck unit dp robin) s = .next s) ∧
    ((getUnit s n).releasing = true → (getUnit s n).relAt + 100000000 ≤ s.lark.time →
      ((dp = 1 ∨ dp = 2) → robin = 1 → ∃ u, exec (.unitReleaseCheck unit dp robin) s = .next (raisePlain 0x0C14 none n u) ∧ getUnit u n = UnitSt.init) ∧
      ((dp ≠ 1 ∧ dp ≠ 2 ∨ robin ≠ 1) → ∃ u, exec (.unitReleaseCheck unit dp robin) s = .next (raisePlain 0x0C15 none n u) ∧ (getUnit u n).quar = true ∧
        (getUnit u n).releasing = false))) ∧
  (∀ (s : State) (unit : BitVec 16) (dp robin w n b : Nat), n = unit.toNat → powered s = true →
    (quarantined s n = true ∨ unitKnown n = false ∨ unitOnPart s n = false →
      exec (.unitDisagreement unit dp robin) s = .next s ∧ exec (.replicaOverrun unit w) s = .next s) ∧
    (¬(robin = 3 ∧ (dp = 1 ∨ dp = 2) ∨ robin = 1 ∧ dp = 4 ∨ robin = 2 ∧ dp = 1) → exec (.unitDisagreement unit dp robin) s = .next s) ∧
    (quarantined s n = false → unitKnown n = true → unitOnPart s n = true →
      (robin = 3 ∧ (dp = 1 ∨ dp = 2) ∨ robin = 1 ∧ dp = 4 ∨ robin = 2 ∧ dp = 1 →
        ∃ u, exec (.unitDisagreement unit dp robin) s = .next (raiseEv 0x0C02 none n (dp + 16 * robin) u) ∧ (getUnit u n).quar = true) ∧
      (forcedRow (n / 2048) = some b → ∃ u, exec (.replicaOverrun unit w) s = .next (raisePlain 0x0C05 none n u) ∧ (getUnit u n).quar = true ∧
        u.glb.ccOverrun = s.glb.ccOverrun ||| BitVec.ofNat 10 (2 ^ b) ∧
        ∀ r, runOf s w = some r → n / 2048 ≠ 1 ∧ n / 2048 ≠ 4 ∧ n / 2048 ≠ 0x0E ∨ n % 2048 = w → ∀ r' ∈ u.fab.runs, r'.id ≠ r.id)))

/-- Register reads, halves, latches, RC, W1C and RO, wrong widths, ranges, unmapped and dark offsets, foreign pages, VF windows. (1) Without power a read is zero and a write nothing; in a warm reset every read but RBN_BOOT_STATUS is zero and writes are discarded; an offset that no BAR maps, or that no register covers, reads zero and ignores writes; a block without power in Standby or Tripped does too and sets DARK. At a powered register outside the pages: (2) a whole read gives its value; an RC register then reads zero, any other read changes nothing; RO and RC registers ignore writes; (3) a width that is neither the register's nor a half of it has no effect, reads zero, sets WIDTH and raises 0x0108 with the offset; (4) a read of the low half of a 64-bit register of RO or W1C fields returns it and latches the high half for that function alone (HALF_READ_LATCH is that read); the next read of the high half returns the latched value and ends the latch, and without one the live half; (5) W1C bits of GLB_ACCESS and GLB_CC_OVERRUN clear only where 1 is written; LRK_SLEW and SKN_CTL take values in range, and one out of range is discarded whole with RANGE and 0x0109; a write of a half of DNK_HPOOL_BASE keeps the other; (6) an access to a doorbell page without a live owner, or by a function that may not reach it, only sets FOREIGN and raises 0x0208 with the Requester ID; (7) a virtual function's window at 0x8_0000 shows the doorbell pages of its partition, and nothing lies beyond. -/
def Obligations.RegistersObeyTheAccessRules : Prop :=
  (∀ (s : State) (f : Fn) (off w : Nat) (v : BitVec 64),
    (powered s = false → exec (.rcRead f off w) s = .next { s with lastRead := 0 } ∧ exec (.registerWrite f off w v) s = .next s) ∧
    (powered s = true → s.pwr.warmBusy = true → exec (.registerWrite f off w v) s = .next s ∧
      (f ≠ .pf ∨ off ≠ 0x20000 ∨ w ≠ 4 → exec (.rcRead f off w) s = .next { s with lastRead := 0 }) ∧
      exec (.rcRead .pf 0x20000 4) s = .next { s with lastRead := bootStatus s }) ∧
    (s.up → placeOf s f off = .none → exec (.rcRead f off w) s = .next { s with lastRead := 0 } ∧ exec (.registerWrite f off w v) s = .next s) ∧
    (∀ o, PlainReg s f off o → touched (regAt s) o w = none →
      exec (.rcRead f off w) s = .next { s with lastRead := 0 } ∧ exec (.registerWrite f off w v) s = .next s) ∧
    (∀ o, s.up → placeOf s f off = .reg o → darkBlock o = true → s.pwr.st = .standby ∨ s.pwr.st = .tripped →
      exec (.rcRead f off w) s = .next { s with lastRead := 0, glb := { s.glb with dark := true } } ∧
      exec (.registerWrite f off w v) s = .next { s with glb := { s.glb with dark := true } })) ∧
  (∀ (s : State) (f : Fn) (off o w : Nat) (v : BitVec 64) (r : Reg), PlainReg s f off o → o % 4 = 0 → regAt s o = some r →
    (w = r.bytes → (r.kind ≠ .rc → exec (.rcRead f off w) s = .next { s with lastRead := r.val }) ∧
      (r.kind = .rc → ∃ t, exec (.rcRead f off w) s = .next t ∧ t.lastRead = r.val ∧ regAt t o = some { r with val := 0 } ∧ t.mem = s.mem ∧
        t.evlog = s.evlog ∧ t.glb = s.glb ∧ t.out = s.out) ∧
      (r.kind = .ro ∨ r.kind = .rc → exec (.registerWrite f off w v) s = .next s)) ∧
    (w ≠ r.bytes → r.bytes ≠ 8 ∨ w ≠ 4 →
      exec (.rcRead f off w) s = .next { raiseEv 0x0108 none 0xFFFF o { s with glb := { s.glb with width := true } } with lastRead := 0 } ∧
      exec (.registerWrite f off w v) s = .next (raiseEv 0x0108 none 0xFFFF o { s with glb := { s.glb with width := true } })) ∧
    (r.bytes = 8 → r.kind = .ro ∨ r.kind = .w1c → ∃ t, exec (.rcRead f off 4) s = .next t ∧ exec (.halfReadLatch f off) s = .next t ∧
      t.lastRead = r.val % 2 ^ 32 ∧ latchedFor t f o = some (BitVec.ofNat 32 (r.val / 2 ^ 32)) ∧
      (∀ g b, g ≠ f ∨ b ≠ o → latchedFor t g b = latchedFor s g b) ∧
      t = { s with lastRead := t.lastRead, glb := { s.glb with latches := t.glb.latches } })) ∧
  (∀ (s : State) (f : Fn) (off o : Nat) (r : Reg), PlainReg s f off (o + 4) → o % 8 = 0 → regAt s o = some r → regAt s (o + 4) = none → r.bytes = 8 →
    (latchedFor s f o = none → exec (.rcRead f off 4) s = .next { s with lastRead := r.val / 2 ^ 32 }) ∧
    (∀ h, latchedFor s f o = some h → ∃ t, exec (.rcRead f off 4) s = .next t ∧ t.lastRead = h.toNat ∧ latchedFor t f o = none ∧
      t = { s with lastRead := t.lastRead, glb := { s.glb with latches := t.glb.latches } })) ∧
  (∀ (s : State) (f : Fn) (off : Nat) (v : BitVec 64),
    (PlainReg s f off 0x28 → exec (.registerWrite f off 4 v) s = .next { s with glb := { s.glb with dark := s.glb.dark && !v.getLsbD 0, width := s.glb.width && !v.getLsbD 1, foreign := s.glb.foreign && !v.getLsbD 2, range := s.glb.range && !v.getLsbD 3 } }) ∧
    (PlainReg s f off 0x104 → ∃ t, exec (.registerWrite f off 4 v) s = .next t ∧ t = { s with glb := { s.glb with ccOverrun := t.glb.ccOverrun } } ∧
      ∀ i, i < 10 → t.glb.ccOverrun.getLsbD i = (s.glb.ccOverrun.getLsbD i && !v.getLsbD i)) ∧
    (PlainReg s f off 0x1101C → (1 ≤ bits v.toNat 0 16 → bits v.toNat 0 16 ≤ 500 →
        exec (.registerWrite f off 4 v) s = .next { s with lark := { s.lark with slew := bits v.toNat 0 16 } }) ∧
      (bits v.toNat 0 16 = 0 ∨ 500 < bits v.toNat 0 16 → exec (.registerWrite f off 4 v) s =
        .next (raiseEv 0x0109 none 0xFFFF 0x1101C { s with glb := { s.glb with range := true } }))) ∧
    (∀ n, n < 24 → PlainReg s f off (0x60000 + 0x400 * n) →
      (bits v.toNat 3 9 ≤ 500 → 14 ≤ bits v.toNat 12 5 → bits v.toNat 12 5 ≤ 30 → ∃ t, exec (.registerWrite f off 4 v) s = .next t ∧
        getSkn t n = { getSkn s n with en := v.getLsbD 0, roostEn := v.getLsbD 1, demand := v.getLsbD 2, hold := bits v.toNat 3 9, roostK := bits v.toNat 12 5 } ∧
        ∀ m, m ≠ n → getSkn t m = getSkn s m) ∧
      (500 < bits v.toNat 3 9 ∨ bits v.toNat 12 5 < 14 ∨ 30 < bits v.toNat 12 5 → exec (.registerWrite f off 4 v) s =
        .next (raiseEv 0x0109 none 0xFFFF (0x60000 + 0x400 * n) { s with glb := { s.glb with range := true } }))) ∧
    (PlainReg s f off 0x30040 → exec (.registerWrite f off 4 v) s = .next { s with host := { s.host with hpoolBase := BitVec.ofNat 64 ((s.host.hpoolBase.toNat / 2 ^ 32 * 2 ^ 32 + v.toNat % 2 ^ 32) / 2 ^ 21 * 2 ^ 21) } }) ∧
    (PlainReg s f off 0x30044 → exec (.registerWrite f off 4 v) s = .next { s with host := { s.host with hpoolBase := BitVec.ofNat 64 ((s.host.hpoolBase.toNat % 2 ^ 32 + v.toNat % 2 ^ 32 * 2 ^ 32) / 2 ^ 21 * 2 ^ 21) } })) ∧
  (∀ (s : State) (f : Fn) (off o w q : Nat) (v : BitVec 64), s.up → placeOf s f off = .reg o → 0x400000 ≤ o → o < 0x800000 → q = (o - 0x400000) / 64 →
    queueLive s q = false ∨ mayReach f (queueFn s q) = false →
    exec (.rcRead f off w) s = .next { raiseEv 0x0208 none 0xFFFF (requesterId f) { s with glb := { s.glb with foreign := true } } with lastRead := 0 } ∧
    exec (.registerWrite f off w v) s = .next (raiseEv 0x0208 none 0xFFFF (requesterId f) { s with glb := { s.glb with foreign := true } })) ∧
  (∀ (s : State) (v : Nat), admqOf s (.vf v) ≠ none →
    (∀ j k, j < 8192 → k < 64 → placeOf s (.vf v) (0x80000 + 64 * j + k) = .reg (0x400000 + 64 * (8192 * vfPart s v + j) + k)) ∧
    (∀ o, 0x100000 ≤ o → o < 0x10000000 ∨ 0x12000000 ≤ o → placeOf s (.vf v) o = .none))
end

