-- ==== Sys2Proof/Laws/Tab.lean ====
section
/-! SUPPORT. Laws of sparse tables and of memory: a read after a write, other entries, and the canonical form. -/

namespace Sys2Proof.Machine

variable {α : Type}

/-- A removed entry reads as the default. -/
@[simp] theorem tabGet_del_same (d : α) (t : Tab α) (k : Nat) : tabGet d (tabDel t k) k = d := by
  induction t with
  | nil => rfl
  | cons e t ih => by_cases h : e.1 = k <;> simp [tabDel, tabGet, h, ih]

/-- Removing an entry leaves every other. -/
theorem tabGet_del_other (d : α) (t : Tab α) {j k : Nat} (h : j ≠ k) : tabGet d (tabDel t k) j = tabGet d t j := by
  induction t with
  | nil => rfl
  | cons e t ih =>
    by_cases hk : e.1 = k
    · have : e.1 ≠ j := fun e' => h (e'.symm.trans hk)
      simp [tabDel, tabGet, hk, ih]; intro e'; exact absurd e'.symm h
    · obtain ⟨i, v⟩ := e
      have hk' : i ≠ k := hk
      simp [tabDel, tabGet, hk', ih]

/-- An inserted entry that the table did not have reads back. -/
theorem tabGet_ins_same (d : α) (t : Tab α) (k : Nat) (v : α) (h : ∀ e ∈ t, e.1 ≠ k) : tabGet d (tabIns t k v) k = v := by
  induction t with
  | nil => simp [tabIns, tabGet]
  | cons e t ih =>
    have he : e.1 ≠ k := h e (by simp)
    by_cases hk : k < e.1
    · simp [tabIns, tabGet, hk]
    · simp [tabIns, tabGet, hk, he, ih fun x hx => h x (by simp [hx])]

/-- Inserting an entry leaves every other. -/
theorem tabGet_ins_other (d : α) (t : Tab α) {j k : Nat} (v : α) (h : j ≠ k) : tabGet d (tabIns t k v) j = tabGet d t j := by
  induction t with
  | nil => simp [tabIns, tabGet]; intro e; exact absurd e.symm h
  | cons e t ih =>
    by_cases hk : k < e.1
    · simp [tabIns, tabGet, hk]; intro e'; exact absurd e'.symm h
    · simp [tabIns, tabGet, hk, ih]

/-- No removed key is left. -/
theorem tabDel_keys (t : Tab α) (k : Nat) : ∀ e ∈ tabDel t k, e.1 ≠ k := by
  induction t with
  | nil => simp [tabDel]
  | cons e t ih =>
    by_cases h : e.1 = k
    · simpa [tabDel, h] using ih
    · intro x hx
      simp [tabDel, h] at hx
      rcases hx with rfl | hx
      · exact h
      · exact ih x hx

variable [DecidableEq α]

/-- A read after a write gives the value written. -/
@[simp] theorem tabGet_put_same (d : α) (t : Tab α) (k : Nat) (v : α) : tabGet d (tabPut d t k v) k = v := by
  by_cases h : v = d
  · simp [tabPut, h]
  · simp [tabPut, h, tabGet_ins_same _ _ _ _ (tabDel_keys t k)]

/-- A write leaves every other entry. -/
theorem tabGet_put_other (d : α) (t : Tab α) {j k : Nat} (v : α) (h : j ≠ k) : tabGet d (tabPut d t k v) j = tabGet d t j := by
  by_cases hv : v = d
  · simp [tabPut, hv, tabGet_del_other d t h]
  · simp [tabPut, hv, tabGet_ins_other d _ v h, tabGet_del_other d t h]

/-- Both cases of a read after a write. -/
theorem tabGet_put (d : α) (t : Tab α) (j k : Nat) (v : α) :
    tabGet d (tabPut d t k v) j = if j = k then v else tabGet d t j := by
  by_cases h : j = k
  · subst h; simp
  · simp [h, tabGet_put_other d t v h]

/-! The canonical form. -/

/-- The canonical form as a property of lists: rising keys, no default listed. -/
theorem tabWf_iff (d : α) (t : Tab α) : tabWf d t = true ↔ t.Pairwise (fun a b => a.1 < b.1) ∧ ∀ e ∈ t, e.2 ≠ d := by
  induction t with
  | nil => simp [tabWf]
  | cons e t ih =>
    obtain ⟨j, v⟩ := e
    cases t with
    | nil => simp [tabWf]
    | cons f t =>
      obtain ⟨k, u⟩ := f
      simp only [tabWf, Bool.and_eq_true, decide_eq_true_eq, ih]
      constructor
      · rintro ⟨⟨hjk, hv⟩, hp, hd⟩
        refine ⟨List.pairwise_cons.2 ⟨?_, hp⟩, ?_⟩
        · intro x hx
          rcases List.mem_cons.1 hx with rfl | hx
          · exact hjk
          · exact Nat.lt_trans hjk ((List.pairwise_cons.1 hp).1 x hx)
        · intro x hx
          rcases List.mem_cons.1 hx with rfl | hx
          · exact hv
          · exact hd x hx
      · rintro ⟨hp, hd⟩
        have hp' := List.pairwise_cons.1 hp
        exact ⟨⟨hp'.1 (k, u) (by simp), hd (j, v) (by simp)⟩, hp'.2, fun x hx => hd x (List.mem_cons_of_mem _ hx)⟩

omit [DecidableEq α] in
theorem tabDel_sublist (t : Tab α) (k : Nat) : (tabDel t k).Sublist t := by
  induction t with
  | nil => simp [tabDel]
  | cons e t ih =>
    by_cases h : e.1 = k
    · simp only [tabDel, h, if_true]; exact ih.cons _
    · simp only [tabDel, h, if_false]; exact ih.cons_cons _

/-- Any sublist of a canonical table is canonical. -/
theorem tabWf_sublist (d : α) {t u : Tab α} (h : tabWf d t = true) (hs : u.Sublist t) : tabWf d u = true := by
  rw [tabWf_iff] at h ⊢
  exact ⟨h.1.sublist hs, fun e he => h.2 e (hs.subset he)⟩

omit [DecidableEq α] in
theorem tabIns_mem (t : Tab α) (k : Nat) (v : α) (e : Nat × α) : e ∈ tabIns t k v ↔ e = (k, v) ∨ e ∈ t := by
  induction t with
  | nil => simp [tabIns]
  | cons f t ih =>
    by_cases h : k < f.1
    · simp [tabIns, h]
    · simp only [tabIns, h, if_false, List.mem_cons, ih]; exact or_left_comm

omit [DecidableEq α] in
theorem tabIns_sorted (t : Tab α) (k : Nat) (v : α) (hp : t.Pairwise (fun a b => a.1 < b.1)) (hk : ∀ e ∈ t, e.1 ≠ k) :
    (tabIns t k v).Pairwise (fun a b => a.1 < b.1) := by
  induction t with
  | nil => simp [tabIns]
  | cons f t ih =>
    have hp' := List.pairwise_cons.1 hp
    by_cases h : k < f.1
    · simp only [tabIns, h, if_true]
      refine List.pairwise_cons.2 ⟨?_, hp⟩
      intro x hx
      rcases List.mem_cons.1 hx with rfl | hx
      · exact h
      · exact Nat.lt_trans h (hp'.1 x hx)
    · simp only [tabIns, h, if_false]
      refine List.pairwise_cons.2 ⟨?_, ih hp'.2 fun e he => hk e (by simp [he])⟩
      intro x hx
      rcases (tabIns_mem t k v x).1 hx with rfl | hx
      · have := hk f (by simp); simp; omega
      · exact hp'.1 x hx

/-- A write keeps the canonical form. -/
theorem tabWf_put (d : α) (t : Tab α) (k : Nat) (v : α) (h : tabWf d t = true) : tabWf d (tabPut d t k v) = true := by
  have hd := tabWf_sublist d h (tabDel_sublist t k)
  by_cases hv : v = d
  · simpa [tabPut, hv] using hd
  · rw [tabWf_iff] at hd
    simp only [tabPut, hv, if_false]
    rw [tabWf_iff]
    refine ⟨tabIns_sorted _ _ _ hd.1 (tabDel_keys t k), ?_⟩
    intro e he
    rcases (tabIns_mem _ k v e).1 he with rfl | he
    · exact hv
    · exact hd.2 e he

/-! Memory. -/

/-- A byte stored reads back, and every other byte is unchanged. -/
theorem memGet_put (m : List Host.Cell) (a b : Nat) (v : Byte) : memGet (memPut m a v) b = if b = a then v else memGet m b :=
  tabGet_put 0 m b a v

/-- A stored byte keeps the canonical form. -/
theorem memWf_put (m : List Host.Cell) (a : Nat) (v : Byte) (h : Memory.wf m = true) : Memory.wf (memPut m a v) = true :=
  tabWf_put 0 m a v h

/-- Stored bytes keep the canonical form. -/
theorem memWf_write (bs : List Byte) (m : List Host.Cell) (a : Nat) (h : Memory.wf m = true) : Memory.wf (memWrite m a bs) = true := by
  induction bs generalizing m a with
  | nil => exact h
  | cons b bs ih => exact ih _ _ (memWf_put m a b h)

/-- Erased ranges keep the canonical form. -/
theorem memWf_filter (p : Host.Cell → Bool) (m : List Host.Cell) (h : Memory.wf m = true) : Memory.wf (m.filter p) = true :=
  tabWf_sublist 0 h List.filter_sublist

/-- A byte outside a stored run is unchanged. -/
theorem memGet_write_outside (bs : List Byte) (m : List Host.Cell) (a b : Nat) (h : b < a ∨ a + bs.length ≤ b) :
    memGet (memWrite m a bs) b = memGet m b := by
  induction bs generalizing m a with
  | nil => rfl
  | cons x bs ih =>
    simp only [List.length_cons] at h
    rw [memWrite, ih _ _ (by omega), memGet_put, if_neg (by omega)]

/-- A byte inside a stored run is the byte stored there. -/
theorem memGet_write_inside (bs : List Byte) (m : List Host.Cell) (a i : Nat) (h : i < bs.length) :
    memGet (memWrite m a bs) (a + i) = bs.getD i 0 := by
  induction bs generalizing m a i with
  | nil => simp at h
  | cons x bs ih =>
    cases i with
    | zero => rw [memWrite, memGet_write_outside _ _ _ _ (by omega), memGet_put]; simp
    | succ i =>
      have hi : i < bs.length := by simpa using h
      have := ih (memPut m a x) (a + 1) i hi
      rw [memWrite, show a + (i + 1) = a + 1 + i by omega, this]; simp

end Sys2Proof.Machine
end

