-- ==== Sys2Proof/Laws/State.lean ====
section
/-! SUPPORT. What each update of the state leaves in each field, and what each named table reads after one of its writes. -/

namespace Sys2Proof.Machine

/-! One block of the state. -/

@[simp] theorem onPwr_pwr (f : Pwr → Pwr) (s : State) : (onPwr f s).pwr = f s.pwr := rfl
@[simp] theorem onPwr_boot (f : Pwr → Pwr) (s : State) : (onPwr f s).boot = s.boot := rfl
@[simp] theorem onPwr_lark (f : Pwr → Pwr) (s : State) : (onPwr f s).lark = s.lark := rfl
@[simp] theorem onPwr_hsc (f : Pwr → Pwr) (s : State) : (onPwr f s).hsc = s.hsc := rfl
@[simp] theorem onPwr_glb (f : Pwr → Pwr) (s : State) : (onPwr f s).glb = s.glb := rfl
@[simp] theorem onPwr_evlog (f : Pwr → Pwr) (s : State) : (onPwr f s).evlog = s.evlog := rfl
@[simp] theorem onPwr_mtr (f : Pwr → Pwr) (s : State) : (onPwr f s).mtr = s.mtr := rfl
@[simp] theorem onPwr_host (f : Pwr → Pwr) (s : State) : (onPwr f s).host = s.host := rfl
@[simp] theorem onPwr_nut (f : Pwr → Pwr) (s : State) : (onPwr f s).nut = s.nut := rfl
@[simp] theorem onPwr_fab (f : Pwr → Pwr) (s : State) : (onPwr f s).fab = s.fab := rfl
@[simp] theorem onPwr_lnt (f : Pwr → Pwr) (s : State) : (onPwr f s).lnt = s.lnt := rfl
@[simp] theorem onPwr_skn (f : Pwr → Pwr) (s : State) : (onPwr f s).skn = s.skn := rfl
@[simp] theorem onPwr_floodDc (f : Pwr → Pwr) (s : State) : (onPwr f s).floodDc = s.floodDc := rfl
@[simp] theorem onPwr_floodEnv (f : Pwr → Pwr) (s : State) : (onPwr f s).floodEnv = s.floodEnv := rfl
@[simp] theorem onPwr_qtd (f : Pwr → Pwr) (s : State) : (onPwr f s).qtd = s.qtd := rfl
@[simp] theorem onPwr_rnd (f : Pwr → Pwr) (s : State) : (onPwr f s).rnd = s.rnd := rfl
@[simp] theorem onPwr_wbl (f : Pwr → Pwr) (s : State) : (onPwr f s).wbl = s.wbl := rfl
@[simp] theorem onPwr_units (f : Pwr → Pwr) (s : State) : (onPwr f s).units = s.units := rfl
@[simp] theorem onPwr_hbmPc (f : Pwr → Pwr) (s : State) : (onPwr f s).hbmPc = s.hbmPc := rfl
@[simp] theorem onPwr_mem (f : Pwr → Pwr) (s : State) : (onPwr f s).mem = s.mem := rfl
@[simp] theorem onPwr_hostMem (f : Pwr → Pwr) (s : State) : (onPwr f s).hostMem = s.hostMem := rfl
@[simp] theorem onPwr_hostDeny (f : Pwr → Pwr) (s : State) : (onPwr f s).hostDeny = s.hostDeny := rfl
@[simp] theorem onPwr_lastRead (f : Pwr → Pwr) (s : State) : (onPwr f s).lastRead = s.lastRead := rfl
@[simp] theorem onPwr_out (f : Pwr → Pwr) (s : State) : (onPwr f s).out = s.out := rfl
@[simp] theorem onPwr_free (f : Pwr → Pwr) (s : State) : (onPwr f s).free = s.free := rfl
@[simp] theorem onPwr_pending (f : Pwr → Pwr) (s : State) : (onPwr f s).pending = s.pending := rfl

@[simp] theorem onBoot_pwr (f : Boot → Boot) (s : State) : (onBoot f s).pwr = s.pwr := rfl
@[simp] theorem onBoot_boot (f : Boot → Boot) (s : State) : (onBoot f s).boot = f s.boot := rfl
@[simp] theorem onBoot_lark (f : Boot → Boot) (s : State) : (onBoot f s).lark = s.lark := rfl
@[simp] theorem onBoot_hsc (f : Boot → Boot) (s : State) : (onBoot f s).hsc = s.hsc := rfl
@[simp] theorem onBoot_glb (f : Boot → Boot) (s : State) : (onBoot f s).glb = s.glb := rfl
@[simp] theorem onBoot_evlog (f : Boot → Boot) (s : State) : (onBoot f s).evlog = s.evlog := rfl
@[simp] theorem onBoot_mtr (f : Boot → Boot) (s : State) : (onBoot f s).mtr = s.mtr := rfl
@[simp] theorem onBoot_host (f : Boot → Boot) (s : State) : (onBoot f s).host = s.host := rfl
@[simp] theorem onBoot_nut (f : Boot → Boot) (s : State) : (onBoot f s).nut = s.nut := rfl
@[simp] theorem onBoot_fab (f : Boot → Boot) (s : State) : (onBoot f s).fab = s.fab := rfl
@[simp] theorem onBoot_lnt (f : Boot → Boot) (s : State) : (onBoot f s).lnt = s.lnt := rfl
@[simp] theorem onBoot_skn (f : Boot → Boot) (s : State) : (onBoot f s).skn = s.skn := rfl
@[simp] theorem onBoot_floodDc (f : Boot → Boot) (s : State) : (onBoot f s).floodDc = s.floodDc := rfl
@[simp] theorem onBoot_floodEnv (f : Boot → Boot) (s : State) : (onBoot f s).floodEnv = s.floodEnv := rfl
@[simp] theorem onBoot_qtd (f : Boot → Boot) (s : State) : (onBoot f s).qtd = s.qtd := rfl
@[simp] theorem onBoot_rnd (f : Boot → Boot) (s : State) : (onBoot f s).rnd = s.rnd := rfl
@[simp] theorem onBoot_wbl (f : Boot → Boot) (s : State) : (onBoot f s).wbl = s.wbl := rfl
@[simp] theorem onBoot_units (f : Boot → Boot) (s : State) : (onBoot f s).units = s.units := rfl
@[simp] theorem onBoot_hbmPc (f : Boot → Boot) (s : State) : (onBoot f s).hbmPc = s.hbmPc := rfl
@[simp] theorem onBoot_mem (f : Boot → Boot) (s : State) : (onBoot f s).mem = s.mem := rfl
@[simp] theorem onBoot_hostMem (f : Boot → Boot) (s : State) : (onBoot f s).hostMem = s.hostMem := rfl
@[simp] theorem onBoot_hostDeny (f : Boot → Boot) (s : State) : (onBoot f s).hostDeny = s.hostDeny := rfl
@[simp] theorem onBoot_lastRead (f : Boot → Boot) (s : State) : (onBoot f s).lastRead = s.lastRead := rfl
@[simp] theorem onBoot_out (f : Boot → Boot) (s : State) : (onBoot f s).out = s.out := rfl
@[simp] theorem onBoot_free (f : Boot → Boot) (s : State) : (onBoot f s).free = s.free := rfl
@[simp] theorem onBoot_pending (f : Boot → Boot) (s : State) : (onBoot f s).pending = s.pending := rfl

@[simp] theorem onLark_pwr (f : Lark → Lark) (s : State) : (onLark f s).pwr = s.pwr := rfl
@[simp] theorem onLark_boot (f : Lark → Lark) (s : State) : (onLark f s).boot = s.boot := rfl
@[simp] theorem onLark_lark (f : Lark → Lark) (s : State) : (onLark f s).lark = f s.lark := rfl
@[simp] theorem onLark_hsc (f : Lark → Lark) (s : State) : (onLark f s).hsc = s.hsc := rfl
@[simp] theorem onLark_glb (f : Lark → Lark) (s : State) : (onLark f s).glb = s.glb := rfl
@[simp] theorem onLark_evlog (f : Lark → Lark) (s : State) : (onLark f s).evlog = s.evlog := rfl
@[simp] theorem onLark_mtr (f : Lark → Lark) (s : State) : (onLark f s).mtr = s.mtr := rfl
@[simp] theorem onLark_host (f : Lark → Lark) (s : State) : (onLark f s).host = s.host := rfl
@[simp] theorem onLark_nut (f : Lark → Lark) (s : State) : (onLark f s).nut = s.nut := rfl
@[simp] theorem onLark_fab (f : Lark → Lark) (s : State) : (onLark f s).fab = s.fab := rfl
@[simp] theorem onLark_lnt (f : Lark → Lark) (s : State) : (onLark f s).lnt = s.lnt := rfl
@[simp] theorem onLark_skn (f : Lark → Lark) (s : State) : (onLark f s).skn = s.skn := rfl
@[simp] theorem onLark_floodDc (f : Lark → Lark) (s : State) : (onLark f s).floodDc = s.floodDc := rfl
@[simp] theorem onLark_floodEnv (f : Lark → Lark) (s : State) : (onLark f s).floodEnv = s.floodEnv := rfl
@[simp] theorem onLark_qtd (f : Lark → Lark) (s : State) : (onLark f s).qtd = s.qtd := rfl
@[simp] theorem onLark_rnd (f : Lark → Lark) (s : State) : (onLark f s).rnd = s.rnd := rfl
@[simp] theorem onLark_wbl (f : Lark → Lark) (s : State) : (onLark f s).wbl = s.wbl := rfl
@[simp] theorem onLark_units (f : Lark → Lark) (s : State) : (onLark f s).units = s.units := rfl
@[simp] theorem onLark_hbmPc (f : Lark → Lark) (s : State) : (onLark f s).hbmPc = s.hbmPc := rfl
@[simp] theorem onLark_mem (f : Lark → Lark) (s : State) : (onLark f s).mem = s.mem := rfl
@[simp] theorem onLark_hostMem (f : Lark → Lark) (s : State) : (onLark f s).hostMem = s.hostMem := rfl
@[simp] theorem onLark_hostDeny (f : Lark → Lark) (s : State) : (onLark f s).hostDeny = s.hostDeny := rfl
@[simp] theorem onLark_lastRead (f : Lark → Lark) (s : State) : (onLark f s).lastRead = s.lastRead := rfl
@[simp] theorem onLark_out (f : Lark → Lark) (s : State) : (onLark f s).out = s.out := rfl
@[simp] theorem onLark_free (f : Lark → Lark) (s : State) : (onLark f s).free = s.free := rfl
@[simp] theorem onLark_pending (f : Lark → Lark) (s : State) : (onLark f s).pending = s.pending := rfl

@[simp] theorem onGlb_pwr (f : Glb → Glb) (s : State) : (onGlb f s).pwr = s.pwr := rfl
@[simp] theorem onGlb_boot (f : Glb → Glb) (s : State) : (onGlb f s).boot = s.boot := rfl
@[simp] theorem onGlb_lark (f : Glb → Glb) (s : State) : (onGlb f s).lark = s.lark := rfl
@[simp] theorem onGlb_hsc (f : Glb → Glb) (s : State) : (onGlb f s).hsc = s.hsc := rfl
@[simp] theorem onGlb_glb (f : Glb → Glb) (s : State) : (onGlb f s).glb = f s.glb := rfl
@[simp] theorem onGlb_evlog (f : Glb → Glb) (s : State) : (onGlb f s).evlog = s.evlog := rfl
@[simp] theorem onGlb_mtr (f : Glb → Glb) (s : State) : (onGlb f s).mtr = s.mtr := rfl
@[simp] theorem onGlb_host (f : Glb → Glb) (s : State) : (onGlb f s).host = s.host := rfl
@[simp] theorem onGlb_nut (f : Glb → Glb) (s : State) : (onGlb f s).nut = s.nut := rfl
@[simp] theorem onGlb_fab (f : Glb → Glb) (s : State) : (onGlb f s).fab = s.fab := rfl
@[simp] theorem onGlb_lnt (f : Glb → Glb) (s : State) : (onGlb f s).lnt = s.lnt := rfl
@[simp] theorem onGlb_skn (f : Glb → Glb) (s : State) : (onGlb f s).skn = s.skn := rfl
@[simp] theorem onGlb_floodDc (f : Glb → Glb) (s : State) : (onGlb f s).floodDc = s.floodDc := rfl
@[simp] theorem onGlb_floodEnv (f : Glb → Glb) (s : State) : (onGlb f s).floodEnv = s.floodEnv := rfl
@[simp] theorem onGlb_qtd (f : Glb → Glb) (s : State) : (onGlb f s).qtd = s.qtd := rfl
@[simp] theorem onGlb_rnd (f : Glb → Glb) (s : State) : (onGlb f s).rnd = s.rnd := rfl
@[simp] theorem onGlb_wbl (f : Glb → Glb) (s : State) : (onGlb f s).wbl = s.wbl := rfl
@[simp] theorem onGlb_units (f : Glb → Glb) (s : State) : (onGlb f s).units = s.units := rfl
@[simp] theorem onGlb_hbmPc (f : Glb → Glb) (s : State) : (onGlb f s).hbmPc = s.hbmPc := rfl
@[simp] theorem onGlb_mem (f : Glb → Glb) (s : State) : (onGlb f s).mem = s.mem := rfl
@[simp] theorem onGlb_hostMem (f : Glb → Glb) (s : State) : (onGlb f s).hostMem = s.hostMem := rfl
@[simp] theorem onGlb_hostDeny (f : Glb → Glb) (s : State) : (onGlb f s).hostDeny = s.hostDeny := rfl
@[simp] theorem onGlb_lastRead (f : Glb → Glb) (s : State) : (onGlb f s).lastRead = s.lastRead := rfl
@[simp] theorem onGlb_out (f : Glb → Glb) (s : State) : (onGlb f s).out = s.out := rfl
@[simp] theorem onGlb_free (f : Glb → Glb) (s : State) : (onGlb f s).free = s.free := rfl
@[simp] theorem onGlb_pending (f : Glb → Glb) (s : State) : (onGlb f s).pending = s.pending := rfl

@[simp] theorem onMtr_pwr (f : Metering → Metering) (s : State) : (onMtr f s).pwr = s.pwr := rfl
@[simp] theorem onMtr_boot (f : Metering → Metering) (s : State) : (onMtr f s).boot = s.boot := rfl
@[simp] theorem onMtr_lark (f : Metering → Metering) (s : State) : (onMtr f s).lark = s.lark := rfl
@[simp] theorem onMtr_hsc (f : Metering → Metering) (s : State) : (onMtr f s).hsc = s.hsc := rfl
@[simp] theorem onMtr_glb (f : Metering → Metering) (s : State) : (onMtr f s).glb = s.glb := rfl
@[simp] theorem onMtr_evlog (f : Metering → Metering) (s : State) : (onMtr f s).evlog = s.evlog := rfl
@[simp] theorem onMtr_mtr (f : Metering → Metering) (s : State) : (onMtr f s).mtr = f s.mtr := rfl
@[simp] theorem onMtr_host (f : Metering → Metering) (s : State) : (onMtr f s).host = s.host := rfl
@[simp] theorem onMtr_nut (f : Metering → Metering) (s : State) : (onMtr f s).nut = s.nut := rfl
@[simp] theorem onMtr_fab (f : Metering → Metering) (s : State) : (onMtr f s).fab = s.fab := rfl
@[simp] theorem onMtr_lnt (f : Metering → Metering) (s : State) : (onMtr f s).lnt = s.lnt := rfl
@[simp] theorem onMtr_skn (f : Metering → Metering) (s : State) : (onMtr f s).skn = s.skn := rfl
@[simp] theorem onMtr_floodDc (f : Metering → Metering) (s : State) : (onMtr f s).floodDc = s.floodDc := rfl
@[simp] theorem onMtr_floodEnv (f : Metering → Metering) (s : State) : (onMtr f s).floodEnv = s.floodEnv := rfl
@[simp] theorem onMtr_qtd (f : Metering → Metering) (s : State) : (onMtr f s).qtd = s.qtd := rfl
@[simp] theorem onMtr_rnd (f : Metering → Metering) (s : State) : (onMtr f s).rnd = s.rnd := rfl
@[simp] theorem onMtr_wbl (f : Metering → Metering) (s : State) : (onMtr f s).wbl = s.wbl := rfl
@[simp] theorem onMtr_units (f : Metering → Metering) (s : State) : (onMtr f s).units = s.units := rfl
@[simp] theorem onMtr_hbmPc (f : Metering → Metering) (s : State) : (onMtr f s).hbmPc = s.hbmPc := rfl
@[simp] theorem onMtr_mem (f : Metering → Metering) (s : State) : (onMtr f s).mem = s.mem := rfl
@[simp] theorem onMtr_hostMem (f : Metering → Metering) (s : State) : (onMtr f s).hostMem = s.hostMem := rfl
@[simp] theorem onMtr_hostDeny (f : Metering → Metering) (s : State) : (onMtr f s).hostDeny = s.hostDeny := rfl
@[simp] theorem onMtr_lastRead (f : Metering → Metering) (s : State) : (onMtr f s).lastRead = s.lastRead := rfl
@[simp] theorem onMtr_out (f : Metering → Metering) (s : State) : (onMtr f s).out = s.out := rfl
@[simp] theorem onMtr_free (f : Metering → Metering) (s : State) : (onMtr f s).free = s.free := rfl
@[simp] theorem onMtr_pending (f : Metering → Metering) (s : State) : (onMtr f s).pending = s.pending := rfl

@[simp] theorem onHost_pwr (f : HostSt → HostSt) (s : State) : (onHost f s).pwr = s.pwr := rfl
@[simp] theorem onHost_boot (f : HostSt → HostSt) (s : State) : (onHost f s).boot = s.boot := rfl
@[simp] theorem onHost_lark (f : HostSt → HostSt) (s : State) : (onHost f s).lark = s.lark := rfl
@[simp] theorem onHost_hsc (f : HostSt → HostSt) (s : State) : (onHost f s).hsc = s.hsc := rfl
@[simp] theorem onHost_glb (f : HostSt → HostSt) (s : State) : (onHost f s).glb = s.glb := rfl
@[simp] theorem onHost_evlog (f : HostSt → HostSt) (s : State) : (onHost f s).evlog = s.evlog := rfl
@[simp] theorem onHost_mtr (f : HostSt → HostSt) (s : State) : (onHost f s).mtr = s.mtr := rfl
@[simp] theorem onHost_host (f : HostSt → HostSt) (s : State) : (onHost f s).host = f s.host := rfl
@[simp] theorem onHost_nut (f : HostSt → HostSt) (s : State) : (onHost f s).nut = s.nut := rfl
@[simp] theorem onHost_fab (f : HostSt → HostSt) (s : State) : (onHost f s).fab = s.fab := rfl
@[simp] theorem onHost_lnt (f : HostSt → HostSt) (s : State) : (onHost f s).lnt = s.lnt := rfl
@[simp] theorem onHost_skn (f : HostSt → HostSt) (s : State) : (onHost f s).skn = s.skn := rfl
@[simp] theorem onHost_floodDc (f : HostSt → HostSt) (s : State) : (onHost f s).floodDc = s.floodDc := rfl
@[simp] theorem onHost_floodEnv (f : HostSt → HostSt) (s : State) : (onHost f s).floodEnv = s.floodEnv := rfl
@[simp] theorem onHost_qtd (f : HostSt → HostSt) (s : State) : (onHost f s).qtd = s.qtd := rfl
@[simp] theorem onHost_rnd (f : HostSt → HostSt) (s : State) : (onHost f s).rnd = s.rnd := rfl
@[simp] theorem onHost_wbl (f : HostSt → HostSt) (s : State) : (onHost f s).wbl = s.wbl := rfl
@[simp] theorem onHost_units (f : HostSt → HostSt) (s : State) : (onHost f s).units = s.units := rfl
@[simp] theorem onHost_hbmPc (f : HostSt → HostSt) (s : State) : (onHost f s).hbmPc = s.hbmPc := rfl
@[simp] theorem onHost_mem (f : HostSt → HostSt) (s : State) : (onHost f s).mem = s.mem := rfl
@[simp] theorem onHost_hostMem (f : HostSt → HostSt) (s : State) : (onHost f s).hostMem = s.hostMem := rfl
@[simp] theorem onHost_hostDeny (f : HostSt → HostSt) (s : State) : (onHost f s).hostDeny = s.hostDeny := rfl
@[simp] theorem onHost_lastRead (f : HostSt → HostSt) (s : State) : (onHost f s).lastRead = s.lastRead := rfl
@[simp] theorem onHost_out (f : HostSt → HostSt) (s : State) : (onHost f s).out = s.out := rfl
@[simp] theorem onHost_free (f : HostSt → HostSt) (s : State) : (onHost f s).free = s.free := rfl
@[simp] theorem onHost_pending (f : HostSt → HostSt) (s : State) : (onHost f s).pending = s.pending := rfl

@[simp] theorem onNut_pwr (f : Nut → Nut) (s : State) : (onNut f s).pwr = s.pwr := rfl
@[simp] theorem onNut_boot (f : Nut → Nut) (s : State) : (onNut f s).boot = s.boot := rfl
@[simp] theorem onNut_lark (f : Nut → Nut) (s : State) : (onNut f s).lark = s.lark := rfl
@[simp] theorem onNut_hsc (f : Nut → Nut) (s : State) : (onNut f s).hsc = s.hsc := rfl
@[simp] theorem onNut_glb (f : Nut → Nut) (s : State) : (onNut f s).glb = s.glb := rfl
@[simp] theorem onNut_evlog (f : Nut → Nut) (s : State) : (onNut f s).evlog = s.evlog := rfl
@[simp] theorem onNut_mtr (f : Nut → Nut) (s : State) : (onNut f s).mtr = s.mtr := rfl
@[simp] theorem onNut_host (f : Nut → Nut) (s : State) : (onNut f s).host = s.host := rfl
@[simp] theorem onNut_nut (f : Nut → Nut) (s : State) : (onNut f s).nut = f s.nut := rfl
@[simp] theorem onNut_fab (f : Nut → Nut) (s : State) : (onNut f s).fab = s.fab := rfl
@[simp] theorem onNut_lnt (f : Nut → Nut) (s : State) : (onNut f s).lnt = s.lnt := rfl
@[simp] theorem onNut_skn (f : Nut → Nut) (s : State) : (onNut f s).skn = s.skn := rfl
@[simp] theorem onNut_floodDc (f : Nut → Nut) (s : State) : (onNut f s).floodDc = s.floodDc := rfl
@[simp] theorem onNut_floodEnv (f : Nut → Nut) (s : State) : (onNut f s).floodEnv = s.floodEnv := rfl
@[simp] theorem onNut_qtd (f : Nut → Nut) (s : State) : (onNut f s).qtd = s.qtd := rfl
@[simp] theorem onNut_rnd (f : Nut → Nut) (s : State) : (onNut f s).rnd = s.rnd := rfl
@[simp] theorem onNut_wbl (f : Nut → Nut) (s : State) : (onNut f s).wbl = s.wbl := rfl
@[simp] theorem onNut_units (f : Nut → Nut) (s : State) : (onNut f s).units = s.units := rfl
@[simp] theorem onNut_hbmPc (f : Nut → Nut) (s : State) : (onNut f s).hbmPc = s.hbmPc := rfl
@[simp] theorem onNut_mem (f : Nut → Nut) (s : State) : (onNut f s).mem = s.mem := rfl
@[simp] theorem onNut_hostMem (f : Nut → Nut) (s : State) : (onNut f s).hostMem = s.hostMem := rfl
@[simp] theorem onNut_hostDeny (f : Nut → Nut) (s : State) : (onNut f s).hostDeny = s.hostDeny := rfl
@[simp] theorem onNut_lastRead (f : Nut → Nut) (s : State) : (onNut f s).lastRead = s.lastRead := rfl
@[simp] theorem onNut_out (f : Nut → Nut) (s : State) : (onNut f s).out = s.out := rfl
@[simp] theorem onNut_free (f : Nut → Nut) (s : State) : (onNut f s).free = s.free := rfl
@[simp] theorem onNut_pending (f : Nut → Nut) (s : State) : (onNut f s).pending = s.pending := rfl

@[simp] theorem onFab_pwr (f : Fab → Fab) (s : State) : (onFab f s).pwr = s.pwr := rfl
@[simp] theorem onFab_boot (f : Fab → Fab) (s : State) : (onFab f s).boot = s.boot := rfl
@[simp] theorem onFab_lark (f : Fab → Fab) (s : State) : (onFab f s).lark = s.lark := rfl
@[simp] theorem onFab_hsc (f : Fab → Fab) (s : State) : (onFab f s).hsc = s.hsc := rfl
@[simp] theorem onFab_glb (f : Fab → Fab) (s : State) : (onFab f s).glb = s.glb := rfl
@[simp] theorem onFab_evlog (f : Fab → Fab) (s : State) : (onFab f s).evlog = s.evlog := rfl
@[simp] theorem onFab_mtr (f : Fab → Fab) (s : State) : (onFab f s).mtr = s.mtr := rfl
@[simp] theorem onFab_host (f : Fab → Fab) (s : State) : (onFab f s).host = s.host := rfl
@[simp] theorem onFab_nut (f : Fab → Fab) (s : State) : (onFab f s).nut = s.nut := rfl
@[simp] theorem onFab_fab (f : Fab → Fab) (s : State) : (onFab f s).fab = f s.fab := rfl
@[simp] theorem onFab_lnt (f : Fab → Fab) (s : State) : (onFab f s).lnt = s.lnt := rfl
@[simp] theorem onFab_skn (f : Fab → Fab) (s : State) : (onFab f s).skn = s.skn := rfl
@[simp] theorem onFab_floodDc (f : Fab → Fab) (s : State) : (onFab f s).floodDc = s.floodDc := rfl
@[simp] theorem onFab_floodEnv (f : Fab → Fab) (s : State) : (onFab f s).floodEnv = s.floodEnv := rfl
@[simp] theorem onFab_qtd (f : Fab → Fab) (s : State) : (onFab f s).qtd = s.qtd := rfl
@[simp] theorem onFab_rnd (f : Fab → Fab) (s : State) : (onFab f s).rnd = s.rnd := rfl
@[simp] theorem onFab_wbl (f : Fab → Fab) (s : State) : (onFab f s).wbl = s.wbl := rfl
@[simp] theorem onFab_units (f : Fab → Fab) (s : State) : (onFab f s).units = s.units := rfl
@[simp] theorem onFab_hbmPc (f : Fab → Fab) (s : State) : (onFab f s).hbmPc = s.hbmPc := rfl
@[simp] theorem onFab_mem (f : Fab → Fab) (s : State) : (onFab f s).mem = s.mem := rfl
@[simp] theorem onFab_hostMem (f : Fab → Fab) (s : State) : (onFab f s).hostMem = s.hostMem := rfl
@[simp] theorem onFab_hostDeny (f : Fab → Fab) (s : State) : (onFab f s).hostDeny = s.hostDeny := rfl
@[simp] theorem onFab_lastRead (f : Fab → Fab) (s : State) : (onFab f s).lastRead = s.lastRead := rfl
@[simp] theorem onFab_out (f : Fab → Fab) (s : State) : (onFab f s).out = s.out := rfl
@[simp] theorem onFab_free (f : Fab → Fab) (s : State) : (onFab f s).free = s.free := rfl
@[simp] theorem onFab_pending (f : Fab → Fab) (s : State) : (onFab f s).pending = s.pending := rfl

@[simp] theorem onLnt_pwr (f : Lnt → Lnt) (s : State) : (onLnt f s).pwr = s.pwr := rfl
@[simp] theorem onLnt_boot (f : Lnt → Lnt) (s : State) : (onLnt f s).boot = s.boot := rfl
@[simp] theorem onLnt_lark (f : Lnt → Lnt) (s : State) : (onLnt f s).lark = s.lark := rfl
@[simp] theorem onLnt_hsc (f : Lnt → Lnt) (s : State) : (onLnt f s).hsc = s.hsc := rfl
@[simp] theorem onLnt_glb (f : Lnt → Lnt) (s : State) : (onLnt f s).glb = s.glb := rfl
@[simp] theorem onLnt_evlog (f : Lnt → Lnt) (s : State) : (onLnt f s).evlog = s.evlog := rfl
@[simp] theorem onLnt_mtr (f : Lnt → Lnt) (s : State) : (onLnt f s).mtr = s.mtr := rfl
@[simp] theorem onLnt_host (f : Lnt → Lnt) (s : State) : (onLnt f s).host = s.host := rfl
@[simp] theorem onLnt_nut (f : Lnt → Lnt) (s : State) : (onLnt f s).nut = s.nut := rfl
@[simp] theorem onLnt_fab (f : Lnt → Lnt) (s : State) : (onLnt f s).fab = s.fab := rfl
@[simp] theorem onLnt_lnt (f : Lnt → Lnt) (s : State) : (onLnt f s).lnt = f s.lnt := rfl
@[simp] theorem onLnt_skn (f : Lnt → Lnt) (s : State) : (onLnt f s).skn = s.skn := rfl
@[simp] theorem onLnt_floodDc (f : Lnt → Lnt) (s : State) : (onLnt f s).floodDc = s.floodDc := rfl
@[simp] theorem onLnt_floodEnv (f : Lnt → Lnt) (s : State) : (onLnt f s).floodEnv = s.floodEnv := rfl
@[simp] theorem onLnt_qtd (f : Lnt → Lnt) (s : State) : (onLnt f s).qtd = s.qtd := rfl
@[simp] theorem onLnt_rnd (f : Lnt → Lnt) (s : State) : (onLnt f s).rnd = s.rnd := rfl
@[simp] theorem onLnt_wbl (f : Lnt → Lnt) (s : State) : (onLnt f s).wbl = s.wbl := rfl
@[simp] theorem onLnt_units (f : Lnt → Lnt) (s : State) : (onLnt f s).units = s.units := rfl
@[simp] theorem onLnt_hbmPc (f : Lnt → Lnt) (s : State) : (onLnt f s).hbmPc = s.hbmPc := rfl
@[simp] theorem onLnt_mem (f : Lnt → Lnt) (s : State) : (onLnt f s).mem = s.mem := rfl
@[simp] theorem onLnt_hostMem (f : Lnt → Lnt) (s : State) : (onLnt f s).hostMem = s.hostMem := rfl
@[simp] theorem onLnt_hostDeny (f : Lnt → Lnt) (s : State) : (onLnt f s).hostDeny = s.hostDeny := rfl
@[simp] theorem onLnt_lastRead (f : Lnt → Lnt) (s : State) : (onLnt f s).lastRead = s.lastRead := rfl
@[simp] theorem onLnt_out (f : Lnt → Lnt) (s : State) : (onLnt f s).out = s.out := rfl
@[simp] theorem onLnt_free (f : Lnt → Lnt) (s : State) : (onLnt f s).free = s.free := rfl
@[simp] theorem onLnt_pending (f : Lnt → Lnt) (s : State) : (onLnt f s).pending = s.pending := rfl

@[simp] theorem onQtd_pwr (f : Qtd → Qtd) (s : State) : (onQtd f s).pwr = s.pwr := rfl
@[simp] theorem onQtd_boot (f : Qtd → Qtd) (s : State) : (onQtd f s).boot = s.boot := rfl
@[simp] theorem onQtd_lark (f : Qtd → Qtd) (s : State) : (onQtd f s).lark = s.lark := rfl
@[simp] theorem onQtd_hsc (f : Qtd → Qtd) (s : State) : (onQtd f s).hsc = s.hsc := rfl
@[simp] theorem onQtd_glb (f : Qtd → Qtd) (s : State) : (onQtd f s).glb = s.glb := rfl
@[simp] theorem onQtd_evlog (f : Qtd → Qtd) (s : State) : (onQtd f s).evlog = s.evlog := rfl
@[simp] theorem onQtd_mtr (f : Qtd → Qtd) (s : State) : (onQtd f s).mtr = s.mtr := rfl
@[simp] theorem onQtd_host (f : Qtd → Qtd) (s : State) : (onQtd f s).host = s.host := rfl
@[simp] theorem onQtd_nut (f : Qtd → Qtd) (s : State) : (onQtd f s).nut = s.nut := rfl
@[simp] theorem onQtd_fab (f : Qtd → Qtd) (s : State) : (onQtd f s).fab = s.fab := rfl
@[simp] theorem onQtd_lnt (f : Qtd → Qtd) (s : State) : (onQtd f s).lnt = s.lnt := rfl
@[simp] theorem onQtd_skn (f : Qtd → Qtd) (s : State) : (onQtd f s).skn = s.skn := rfl
@[simp] theorem onQtd_floodDc (f : Qtd → Qtd) (s : State) : (onQtd f s).floodDc = s.floodDc := rfl
@[simp] theorem onQtd_floodEnv (f : Qtd → Qtd) (s : State) : (onQtd f s).floodEnv = s.floodEnv := rfl
@[simp] theorem onQtd_qtd (f : Qtd → Qtd) (s : State) : (onQtd f s).qtd = f s.qtd := rfl
@[simp] theorem onQtd_rnd (f : Qtd → Qtd) (s : State) : (onQtd f s).rnd = s.rnd := rfl
@[simp] theorem onQtd_wbl (f : Qtd → Qtd) (s : State) : (onQtd f s).wbl = s.wbl := rfl
@[simp] theorem onQtd_units (f : Qtd → Qtd) (s : State) : (onQtd f s).units = s.units := rfl
@[simp] theorem onQtd_hbmPc (f : Qtd → Qtd) (s : State) : (onQtd f s).hbmPc = s.hbmPc := rfl
@[simp] theorem onQtd_mem (f : Qtd → Qtd) (s : State) : (onQtd f s).mem = s.mem := rfl
@[simp] theorem onQtd_hostMem (f : Qtd → Qtd) (s : State) : (onQtd f s).hostMem = s.hostMem := rfl
@[simp] theorem onQtd_hostDeny (f : Qtd → Qtd) (s : State) : (onQtd f s).hostDeny = s.hostDeny := rfl
@[simp] theorem onQtd_lastRead (f : Qtd → Qtd) (s : State) : (onQtd f s).lastRead = s.lastRead := rfl
@[simp] theorem onQtd_out (f : Qtd → Qtd) (s : State) : (onQtd f s).out = s.out := rfl
@[simp] theorem onQtd_free (f : Qtd → Qtd) (s : State) : (onQtd f s).free = s.free := rfl
@[simp] theorem onQtd_pending (f : Qtd → Qtd) (s : State) : (onQtd f s).pending = s.pending := rfl

@[simp] theorem onRnd_pwr (f : Rounds → Rounds) (s : State) : (onRnd f s).pwr = s.pwr := rfl
@[simp] theorem onRnd_boot (f : Rounds → Rounds) (s : State) : (onRnd f s).boot = s.boot := rfl
@[simp] theorem onRnd_lark (f : Rounds → Rounds) (s : State) : (onRnd f s).lark = s.lark := rfl
@[simp] theorem onRnd_hsc (f : Rounds → Rounds) (s : State) : (onRnd f s).hsc = s.hsc := rfl
@[simp] theorem onRnd_glb (f : Rounds → Rounds) (s : State) : (onRnd f s).glb = s.glb := rfl
@[simp] theorem onRnd_evlog (f : Rounds → Rounds) (s : State) : (onRnd f s).evlog = s.evlog := rfl
@[simp] theorem onRnd_mtr (f : Rounds → Rounds) (s : State) : (onRnd f s).mtr = s.mtr := rfl
@[simp] theorem onRnd_host (f : Rounds → Rounds) (s : State) : (onRnd f s).host = s.host := rfl
@[simp] theorem onRnd_nut (f : Rounds → Rounds) (s : State) : (onRnd f s).nut = s.nut := rfl
@[simp] theorem onRnd_fab (f : Rounds → Rounds) (s : State) : (onRnd f s).fab = s.fab := rfl
@[simp] theorem onRnd_lnt (f : Rounds → Rounds) (s : State) : (onRnd f s).lnt = s.lnt := rfl
@[simp] theorem onRnd_skn (f : Rounds → Rounds) (s : State) : (onRnd f s).skn = s.skn := rfl
@[simp] theorem onRnd_floodDc (f : Rounds → Rounds) (s : State) : (onRnd f s).floodDc = s.floodDc := rfl
@[simp] theorem onRnd_floodEnv (f : Rounds → Rounds) (s : State) : (onRnd f s).floodEnv = s.floodEnv := rfl
@[simp] theorem onRnd_qtd (f : Rounds → Rounds) (s : State) : (onRnd f s).qtd = s.qtd := rfl
@[simp] theorem onRnd_rnd (f : Rounds → Rounds) (s : State) : (onRnd f s).rnd = f s.rnd := rfl
@[simp] theorem onRnd_wbl (f : Rounds → Rounds) (s : State) : (onRnd f s).wbl = s.wbl := rfl
@[simp] theorem onRnd_units (f : Rounds → Rounds) (s : State) : (onRnd f s).units = s.units := rfl
@[simp] theorem onRnd_hbmPc (f : Rounds → Rounds) (s : State) : (onRnd f s).hbmPc = s.hbmPc := rfl
@[simp] theorem onRnd_mem (f : Rounds → Rounds) (s : State) : (onRnd f s).mem = s.mem := rfl
@[simp] theorem onRnd_hostMem (f : Rounds → Rounds) (s : State) : (onRnd f s).hostMem = s.hostMem := rfl
@[simp] theorem onRnd_hostDeny (f : Rounds → Rounds) (s : State) : (onRnd f s).hostDeny = s.hostDeny := rfl
@[simp] theorem onRnd_lastRead (f : Rounds → Rounds) (s : State) : (onRnd f s).lastRead = s.lastRead := rfl
@[simp] theorem onRnd_out (f : Rounds → Rounds) (s : State) : (onRnd f s).out = s.out := rfl
@[simp] theorem onRnd_free (f : Rounds → Rounds) (s : State) : (onRnd f s).free = s.free := rfl
@[simp] theorem onRnd_pending (f : Rounds → Rounds) (s : State) : (onRnd f s).pending = s.pending := rfl

@[simp] theorem onWbl_pwr (f : Wbl → Wbl) (s : State) : (onWbl f s).pwr = s.pwr := rfl
@[simp] theorem onWbl_boot (f : Wbl → Wbl) (s : State) : (onWbl f s).boot = s.boot := rfl
@[simp] theorem onWbl_lark (f : Wbl → Wbl) (s : State) : (onWbl f s).lark = s.lark := rfl
@[simp] theorem onWbl_hsc (f : Wbl → Wbl) (s : State) : (onWbl f s).hsc = s.hsc := rfl
@[simp] theorem onWbl_glb (f : Wbl → Wbl) (s : State) : (onWbl f s).glb = s.glb := rfl
@[simp] theorem onWbl_evlog (f : Wbl → Wbl) (s : State) : (onWbl f s).evlog = s.evlog := rfl
@[simp] theorem onWbl_mtr (f : Wbl → Wbl) (s : State) : (onWbl f s).mtr = s.mtr := rfl
@[simp] theorem onWbl_host (f : Wbl → Wbl) (s : State) : (onWbl f s).host = s.host := rfl
@[simp] theorem onWbl_nut (f : Wbl → Wbl) (s : State) : (onWbl f s).nut = s.nut := rfl
@[simp] theorem onWbl_fab (f : Wbl → Wbl) (s : State) : (onWbl f s).fab = s.fab := rfl
@[simp] theorem onWbl_lnt (f : Wbl → Wbl) (s : State) : (onWbl f s).lnt = s.lnt := rfl
@[simp] theorem onWbl_skn (f : Wbl → Wbl) (s : State) : (onWbl f s).skn = s.skn := rfl
@[simp] theorem onWbl_floodDc (f : Wbl → Wbl) (s : State) : (onWbl f s).floodDc = s.floodDc := rfl
@[simp] theorem onWbl_floodEnv (f : Wbl → Wbl) (s : State) : (onWbl f s).floodEnv = s.floodEnv := rfl
@[simp] theorem onWbl_qtd (f : Wbl → Wbl) (s : State) : (onWbl f s).qtd = s.qtd := rfl
@[simp] theorem onWbl_rnd (f : Wbl → Wbl) (s : State) : (onWbl f s).rnd = s.rnd := rfl
@[simp] theorem onWbl_wbl (f : Wbl → Wbl) (s : State) : (onWbl f s).wbl = f s.wbl := rfl
@[simp] theorem onWbl_units (f : Wbl → Wbl) (s : State) : (onWbl f s).units = s.units := rfl
@[simp] theorem onWbl_hbmPc (f : Wbl → Wbl) (s : State) : (onWbl f s).hbmPc = s.hbmPc := rfl
@[simp] theorem onWbl_mem (f : Wbl → Wbl) (s : State) : (onWbl f s).mem = s.mem := rfl
@[simp] theorem onWbl_hostMem (f : Wbl → Wbl) (s : State) : (onWbl f s).hostMem = s.hostMem := rfl
@[simp] theorem onWbl_hostDeny (f : Wbl → Wbl) (s : State) : (onWbl f s).hostDeny = s.hostDeny := rfl
@[simp] theorem onWbl_lastRead (f : Wbl → Wbl) (s : State) : (onWbl f s).lastRead = s.lastRead := rfl
@[simp] theorem onWbl_out (f : Wbl → Wbl) (s : State) : (onWbl f s).out = s.out := rfl
@[simp] theorem onWbl_free (f : Wbl → Wbl) (s : State) : (onWbl f s).free = s.free := rfl
@[simp] theorem onWbl_pending (f : Wbl → Wbl) (s : State) : (onWbl f s).pending = s.pending := rfl

@[simp] theorem onPins_pwr (f : Pins → Pins) (s : State) : (onPins f s).pwr = { s.pwr with pins := f s.pwr.pins } := rfl
@[simp] theorem onPins_boot (f : Pins → Pins) (s : State) : (onPins f s).boot = s.boot := rfl
@[simp] theorem onPins_lark (f : Pins → Pins) (s : State) : (onPins f s).lark = s.lark := rfl
@[simp] theorem onPins_hsc (f : Pins → Pins) (s : State) : (onPins f s).hsc = s.hsc := rfl
@[simp] theorem onPins_glb (f : Pins → Pins) (s : State) : (onPins f s).glb = s.glb := rfl
@[simp] theorem onPins_evlog (f : Pins → Pins) (s : State) : (onPins f s).evlog = s.evlog := rfl
@[simp] theorem onPins_mtr (f : Pins → Pins) (s : State) : (onPins f s).mtr = s.mtr := rfl
@[simp] theorem onPins_host (f : Pins → Pins) (s : State) : (onPins f s).host = s.host := rfl
@[simp] theorem onPins_nut (f : Pins → Pins) (s : State) : (onPins f s).nut = s.nut := rfl
@[simp] theorem onPins_fab (f : Pins → Pins) (s : State) : (onPins f s).fab = s.fab := rfl
@[simp] theorem onPins_lnt (f : Pins → Pins) (s : State) : (onPins f s).lnt = s.lnt := rfl
@[simp] theorem onPins_skn (f : Pins → Pins) (s : State) : (onPins f s).skn = s.skn := rfl
@[simp] theorem onPins_floodDc (f : Pins → Pins) (s : State) : (onPins f s).floodDc = s.floodDc := rfl
@[simp] theorem onPins_floodEnv (f : Pins → Pins) (s : State) : (onPins f s).floodEnv = s.floodEnv := rfl
@[simp] theorem onPins_qtd (f : Pins → Pins) (s : State) : (onPins f s).qtd = s.qtd := rfl
@[simp] theorem onPins_rnd (f : Pins → Pins) (s : State) : (onPins f s).rnd = s.rnd := rfl
@[simp] theorem onPins_wbl (f : Pins → Pins) (s : State) : (onPins f s).wbl = s.wbl := rfl
@[simp] theorem onPins_units (f : Pins → Pins) (s : State) : (onPins f s).units = s.units := rfl
@[simp] theorem onPins_hbmPc (f : Pins → Pins) (s : State) : (onPins f s).hbmPc = s.hbmPc := rfl
@[simp] theorem onPins_mem (f : Pins → Pins) (s : State) : (onPins f s).mem = s.mem := rfl
@[simp] theorem onPins_hostMem (f : Pins → Pins) (s : State) : (onPins f s).hostMem = s.hostMem := rfl
@[simp] theorem onPins_hostDeny (f : Pins → Pins) (s : State) : (onPins f s).hostDeny = s.hostDeny := rfl
@[simp] theorem onPins_lastRead (f : Pins → Pins) (s : State) : (onPins f s).lastRead = s.lastRead := rfl
@[simp] theorem onPins_out (f : Pins → Pins) (s : State) : (onPins f s).out = s.out := rfl
@[simp] theorem onPins_free (f : Pins → Pins) (s : State) : (onPins f s).free = s.free := rfl
@[simp] theorem onPins_pending (f : Pins → Pins) (s : State) : (onPins f s).pending = s.pending := rfl

/-! A field replaced. -/

@[simp] theorem setMem_pwr (v : List Host.Cell) (s : State) : (setMem v s).pwr = s.pwr := rfl
@[simp] theorem setMem_boot (v : List Host.Cell) (s : State) : (setMem v s).boot = s.boot := rfl
@[simp] theorem setMem_lark (v : List Host.Cell) (s : State) : (setMem v s).lark = s.lark := rfl
@[simp] theorem setMem_hsc (v : List Host.Cell) (s : State) : (setMem v s).hsc = s.hsc := rfl
@[simp] theorem setMem_glb (v : List Host.Cell) (s : State) : (setMem v s).glb = s.glb := rfl
@[simp] theorem setMem_evlog (v : List Host.Cell) (s : State) : (setMem v s).evlog = s.evlog := rfl
@[simp] theorem setMem_mtr (v : List Host.Cell) (s : State) : (setMem v s).mtr = s.mtr := rfl
@[simp] theorem setMem_host (v : List Host.Cell) (s : State) : (setMem v s).host = s.host := rfl
@[simp] theorem setMem_nut (v : List Host.Cell) (s : State) : (setMem v s).nut = s.nut := rfl
@[simp] theorem setMem_fab (v : List Host.Cell) (s : State) : (setMem v s).fab = s.fab := rfl
@[simp] theorem setMem_lnt (v : List Host.Cell) (s : State) : (setMem v s).lnt = s.lnt := rfl
@[simp] theorem setMem_skn (v : List Host.Cell) (s : State) : (setMem v s).skn = s.skn := rfl
@[simp] theorem setMem_floodDc (v : List Host.Cell) (s : State) : (setMem v s).floodDc = s.floodDc := rfl
@[simp] theorem setMem_floodEnv (v : List Host.Cell) (s : State) : (setMem v s).floodEnv = s.floodEnv := rfl
@[simp] theorem setMem_qtd (v : List Host.Cell) (s : State) : (setMem v s).qtd = s.qtd := rfl
@[simp] theorem setMem_rnd (v : List Host.Cell) (s : State) : (setMem v s).rnd = s.rnd := rfl
@[simp] theorem setMem_wbl (v : List Host.Cell) (s : State) : (setMem v s).wbl = s.wbl := rfl
@[simp] theorem setMem_units (v : List Host.Cell) (s : State) : (setMem v s).units = s.units := rfl
@[simp] theorem setMem_hbmPc (v : List Host.Cell) (s : State) : (setMem v s).hbmPc = s.hbmPc := rfl
@[simp] theorem setMem_mem (v : List Host.Cell) (s : State) : (setMem v s).mem = v := rfl
@[simp] theorem setMem_hostMem (v : List Host.Cell) (s : State) : (setMem v s).hostMem = s.hostMem := rfl
@[simp] theorem setMem_hostDeny (v : List Host.Cell) (s : State) : (setMem v s).hostDeny = s.hostDeny := rfl
@[simp] theorem setMem_lastRead (v : List Host.Cell) (s : State) : (setMem v s).lastRead = s.lastRead := rfl
@[simp] theorem setMem_out (v : List Host.Cell) (s : State) : (setMem v s).out = s.out := rfl
@[simp] theorem setMem_free (v : List Host.Cell) (s : State) : (setMem v s).free = s.free := rfl
@[simp] theorem setMem_pending (v : List Host.Cell) (s : State) : (setMem v s).pending = s.pending := rfl

@[simp] theorem setHostMem_pwr (v : List Host.Cell) (s : State) : (setHostMem v s).pwr = s.pwr := rfl
@[simp] theorem setHostMem_boot (v : List Host.Cell) (s : State) : (setHostMem v s).boot = s.boot := rfl
@[simp] theorem setHostMem_lark (v : List Host.Cell) (s : State) : (setHostMem v s).lark = s.lark := rfl
@[simp] theorem setHostMem_hsc (v : List Host.Cell) (s : State) : (setHostMem v s).hsc = s.hsc := rfl
@[simp] theorem setHostMem_glb (v : List Host.Cell) (s : State) : (setHostMem v s).glb = s.glb := rfl
@[simp] theorem setHostMem_evlog (v : List Host.Cell) (s : State) : (setHostMem v s).evlog = s.evlog := rfl
@[simp] theorem setHostMem_mtr (v : List Host.Cell) (s : State) : (setHostMem v s).mtr = s.mtr := rfl
@[simp] theorem setHostMem_host (v : List Host.Cell) (s : State) : (setHostMem v s).host = s.host := rfl
@[simp] theorem setHostMem_nut (v : List Host.Cell) (s : State) : (setHostMem v s).nut = s.nut := rfl
@[simp] theorem setHostMem_fab (v : List Host.Cell) (s : State) : (setHostMem v s).fab = s.fab := rfl
@[simp] theorem setHostMem_lnt (v : List Host.Cell) (s : State) : (setHostMem v s).lnt = s.lnt := rfl
@[simp] theorem setHostMem_skn (v : List Host.Cell) (s : State) : (setHostMem v s).skn = s.skn := rfl
@[simp] theorem setHostMem_floodDc (v : List Host.Cell) (s : State) : (setHostMem v s).floodDc = s.floodDc := rfl
@[simp] theorem setHostMem_floodEnv (v : List Host.Cell) (s : State) : (setHostMem v s).floodEnv = s.floodEnv := rfl
@[simp] theorem setHostMem_qtd (v : List Host.Cell) (s : State) : (setHostMem v s).qtd = s.qtd := rfl
@[simp] theorem setHostMem_rnd (v : List Host.Cell) (s : State) : (setHostMem v s).rnd = s.rnd := rfl
@[simp] theorem setHostMem_wbl (v : List Host.Cell) (s : State) : (setHostMem v s).wbl = s.wbl := rfl
@[simp] theorem setHostMem_units (v : List Host.Cell) (s : State) : (setHostMem v s).units = s.units := rfl
@[simp] theorem setHostMem_hbmPc (v : List Host.Cell) (s : State) : (setHostMem v s).hbmPc = s.hbmPc := rfl
@[simp] theorem setHostMem_mem (v : List Host.Cell) (s : State) : (setHostMem v s).mem = s.mem := rfl
@[simp] theorem setHostMem_hostMem (v : List Host.Cell) (s : State) : (setHostMem v s).hostMem = v := rfl
@[simp] theorem setHostMem_hostDeny (v : List Host.Cell) (s : State) : (setHostMem v s).hostDeny = s.hostDeny := rfl
@[simp] theorem setHostMem_lastRead (v : List Host.Cell) (s : State) : (setHostMem v s).lastRead = s.lastRead := rfl
@[simp] theorem setHostMem_out (v : List Host.Cell) (s : State) : (setHostMem v s).out = s.out := rfl
@[simp] theorem setHostMem_free (v : List Host.Cell) (s : State) : (setHostMem v s).free = s.free := rfl
@[simp] theorem setHostMem_pending (v : List Host.Cell) (s : State) : (setHostMem v s).pending = s.pending := rfl

@[simp] theorem setSlots_pwr (v : Tab Slot) (s : State) : (setSlots v s).pwr = s.pwr := rfl
@[simp] theorem setSlots_boot (v : Tab Slot) (s : State) : (setSlots v s).boot = s.boot := rfl
@[simp] theorem setSlots_lark (v : Tab Slot) (s : State) : (setSlots v s).lark = s.lark := rfl
@[simp] theorem setSlots_hsc (v : Tab Slot) (s : State) : (setSlots v s).hsc = v := rfl
@[simp] theorem setSlots_glb (v : Tab Slot) (s : State) : (setSlots v s).glb = s.glb := rfl
@[simp] theorem setSlots_evlog (v : Tab Slot) (s : State) : (setSlots v s).evlog = s.evlog := rfl
@[simp] theorem setSlots_mtr (v : Tab Slot) (s : State) : (setSlots v s).mtr = s.mtr := rfl
@[simp] theorem setSlots_host (v : Tab Slot) (s : State) : (setSlots v s).host = s.host := rfl
@[simp] theorem setSlots_nut (v : Tab Slot) (s : State) : (setSlots v s).nut = s.nut := rfl
@[simp] theorem setSlots_fab (v : Tab Slot) (s : State) : (setSlots v s).fab = s.fab := rfl
@[simp] theorem setSlots_lnt (v : Tab Slot) (s : State) : (setSlots v s).lnt = s.lnt := rfl
@[simp] theorem setSlots_skn (v : Tab Slot) (s : State) : (setSlots v s).skn = s.skn := rfl
@[simp] theorem setSlots_floodDc (v : Tab Slot) (s : State) : (setSlots v s).floodDc = s.floodDc := rfl
@[simp] theorem setSlots_floodEnv (v : Tab Slot) (s : State) : (setSlots v s).floodEnv = s.floodEnv := rfl
@[simp] theorem setSlots_qtd (v : Tab Slot) (s : State) : (setSlots v s).qtd = s.qtd := rfl
@[simp] theorem setSlots_rnd (v : Tab Slot) (s : State) : (setSlots v s).rnd = s.rnd := rfl
@[simp] theorem setSlots_wbl (v : Tab Slot) (s : State) : (setSlots v s).wbl = s.wbl := rfl
@[simp] theorem setSlots_units (v : Tab Slot) (s : State) : (setSlots v s).units = s.units := rfl
@[simp] theorem setSlots_hbmPc (v : Tab Slot) (s : State) : (setSlots v s).hbmPc = s.hbmPc := rfl
@[simp] theorem setSlots_mem (v : Tab Slot) (s : State) : (setSlots v s).mem = s.mem := rfl
@[simp] theorem setSlots_hostMem (v : Tab Slot) (s : State) : (setSlots v s).hostMem = s.hostMem := rfl
@[simp] theorem setSlots_hostDeny (v : Tab Slot) (s : State) : (setSlots v s).hostDeny = s.hostDeny := rfl
@[simp] theorem setSlots_lastRead (v : Tab Slot) (s : State) : (setSlots v s).lastRead = s.lastRead := rfl
@[simp] theorem setSlots_out (v : Tab Slot) (s : State) : (setSlots v s).out = s.out := rfl
@[simp] theorem setSlots_free (v : Tab Slot) (s : State) : (setSlots v s).free = s.free := rfl
@[simp] theorem setSlots_pending (v : Tab Slot) (s : State) : (setSlots v s).pending = s.pending := rfl

@[simp] theorem setEvlog_pwr (v : Tab EvGroup) (s : State) : (setEvlog v s).pwr = s.pwr := rfl
@[simp] theorem setEvlog_boot (v : Tab EvGroup) (s : State) : (setEvlog v s).boot = s.boot := rfl
@[simp] theorem setEvlog_lark (v : Tab EvGroup) (s : State) : (setEvlog v s).lark = s.lark := rfl
@[simp] theorem setEvlog_hsc (v : Tab EvGroup) (s : State) : (setEvlog v s).hsc = s.hsc := rfl
@[simp] theorem setEvlog_glb (v : Tab EvGroup) (s : State) : (setEvlog v s).glb = s.glb := rfl
@[simp] theorem setEvlog_evlog (v : Tab EvGroup) (s : State) : (setEvlog v s).evlog = v := rfl
@[simp] theorem setEvlog_mtr (v : Tab EvGroup) (s : State) : (setEvlog v s).mtr = s.mtr := rfl
@[simp] theorem setEvlog_host (v : Tab EvGroup) (s : State) : (setEvlog v s).host = s.host := rfl
@[simp] theorem setEvlog_nut (v : Tab EvGroup) (s : State) : (setEvlog v s).nut = s.nut := rfl
@[simp] theorem setEvlog_fab (v : Tab EvGroup) (s : State) : (setEvlog v s).fab = s.fab := rfl
@[simp] theorem setEvlog_lnt (v : Tab EvGroup) (s : State) : (setEvlog v s).lnt = s.lnt := rfl
@[simp] theorem setEvlog_skn (v : Tab EvGroup) (s : State) : (setEvlog v s).skn = s.skn := rfl
@[simp] theorem setEvlog_floodDc (v : Tab EvGroup) (s : State) : (setEvlog v s).floodDc = s.floodDc := rfl
@[simp] theorem setEvlog_floodEnv (v : Tab EvGroup) (s : State) : (setEvlog v s).floodEnv = s.floodEnv := rfl
@[simp] theorem setEvlog_qtd (v : Tab EvGroup) (s : State) : (setEvlog v s).qtd = s.qtd := rfl
@[simp] theorem setEvlog_rnd (v : Tab EvGroup) (s : State) : (setEvlog v s).rnd = s.rnd := rfl
@[simp] theorem setEvlog_wbl (v : Tab EvGroup) (s : State) : (setEvlog v s).wbl = s.wbl := rfl
@[simp] theorem setEvlog_units (v : Tab EvGroup) (s : State) : (setEvlog v s).units = s.units := rfl
@[simp] theorem setEvlog_hbmPc (v : Tab EvGroup) (s : State) : (setEvlog v s).hbmPc = s.hbmPc := rfl
@[simp] theorem setEvlog_mem (v : Tab EvGroup) (s : State) : (setEvlog v s).mem = s.mem := rfl
@[simp] theorem setEvlog_hostMem (v : Tab EvGroup) (s : State) : (setEvlog v s).hostMem = s.hostMem := rfl
@[simp] theorem setEvlog_hostDeny (v : Tab EvGroup) (s : State) : (setEvlog v s).hostDeny = s.hostDeny := rfl
@[simp] theorem setEvlog_lastRead (v : Tab EvGroup) (s : State) : (setEvlog v s).lastRead = s.lastRead := rfl
@[simp] theorem setEvlog_out (v : Tab EvGroup) (s : State) : (setEvlog v s).out = s.out := rfl
@[simp] theorem setEvlog_free (v : Tab EvGroup) (s : State) : (setEvlog v s).free = s.free := rfl
@[simp] theorem setEvlog_pending (v : Tab EvGroup) (s : State) : (setEvlog v s).pending = s.pending := rfl

@[simp] theorem setUnits_pwr (v : Tab UnitSt) (s : State) : (setUnits v s).pwr = s.pwr := rfl
@[simp] theorem setUnits_boot (v : Tab UnitSt) (s : State) : (setUnits v s).boot = s.boot := rfl
@[simp] theorem setUnits_lark (v : Tab UnitSt) (s : State) : (setUnits v s).lark = s.lark := rfl
@[simp] theorem setUnits_hsc (v : Tab UnitSt) (s : State) : (setUnits v s).hsc = s.hsc := rfl
@[simp] theorem setUnits_glb (v : Tab UnitSt) (s : State) : (setUnits v s).glb = s.glb := rfl
@[simp] theorem setUnits_evlog (v : Tab UnitSt) (s : State) : (setUnits v s).evlog = s.evlog := rfl
@[simp] theorem setUnits_mtr (v : Tab UnitSt) (s : State) : (setUnits v s).mtr = s.mtr := rfl
@[simp] theorem setUnits_host (v : Tab UnitSt) (s : State) : (setUnits v s).host = s.host := rfl
@[simp] theorem setUnits_nut (v : Tab UnitSt) (s : State) : (setUnits v s).nut = s.nut := rfl
@[simp] theorem setUnits_fab (v : Tab UnitSt) (s : State) : (setUnits v s).fab = s.fab := rfl
@[simp] theorem setUnits_lnt (v : Tab UnitSt) (s : State) : (setUnits v s).lnt = s.lnt := rfl
@[simp] theorem setUnits_skn (v : Tab UnitSt) (s : State) : (setUnits v s).skn = s.skn := rfl
@[simp] theorem setUnits_floodDc (v : Tab UnitSt) (s : State) : (setUnits v s).floodDc = s.floodDc := rfl
@[simp] theorem setUnits_floodEnv (v : Tab UnitSt) (s : State) : (setUnits v s).floodEnv = s.floodEnv := rfl
@[simp] theorem setUnits_qtd (v : Tab UnitSt) (s : State) : (setUnits v s).qtd = s.qtd := rfl
@[simp] theorem setUnits_rnd (v : Tab UnitSt) (s : State) : (setUnits v s).rnd = s.rnd := rfl
@[simp] theorem setUnits_wbl (v : Tab UnitSt) (s : State) : (setUnits v s).wbl = s.wbl := rfl
@[simp] theorem setUnits_units (v : Tab UnitSt) (s : State) : (setUnits v s).units = v := rfl
@[simp] theorem setUnits_hbmPc (v : Tab UnitSt) (s : State) : (setUnits v s).hbmPc = s.hbmPc := rfl
@[simp] theorem setUnits_mem (v : Tab UnitSt) (s : State) : (setUnits v s).mem = s.mem := rfl
@[simp] theorem setUnits_hostMem (v : Tab UnitSt) (s : State) : (setUnits v s).hostMem = s.hostMem := rfl
@[simp] theorem setUnits_hostDeny (v : Tab UnitSt) (s : State) : (setUnits v s).hostDeny = s.hostDeny := rfl
@[simp] theorem setUnits_lastRead (v : Tab UnitSt) (s : State) : (setUnits v s).lastRead = s.lastRead := rfl
@[simp] theorem setUnits_out (v : Tab UnitSt) (s : State) : (setUnits v s).out = s.out := rfl
@[simp] theorem setUnits_free (v : Tab UnitSt) (s : State) : (setUnits v s).free = s.free := rfl
@[simp] theorem setUnits_pending (v : Tab UnitSt) (s : State) : (setUnits v s).pending = s.pending := rfl

@[simp] theorem setHbmPc_pwr (v : Tab HbmPc) (s : State) : (setHbmPc v s).pwr = s.pwr := rfl
@[simp] theorem setHbmPc_boot (v : Tab HbmPc) (s : State) : (setHbmPc v s).boot = s.boot := rfl
@[simp] theorem setHbmPc_lark (v : Tab HbmPc) (s : State) : (setHbmPc v s).lark = s.lark := rfl
@[simp] theorem setHbmPc_hsc (v : Tab HbmPc) (s : State) : (setHbmPc v s).hsc = s.hsc := rfl
@[simp] theorem setHbmPc_glb (v : Tab HbmPc) (s : State) : (setHbmPc v s).glb = s.glb := rfl
@[simp] theorem setHbmPc_evlog (v : Tab HbmPc) (s : State) : (setHbmPc v s).evlog = s.evlog := rfl
@[simp] theorem setHbmPc_mtr (v : Tab HbmPc) (s : State) : (setHbmPc v s).mtr = s.mtr := rfl
@[simp] theorem setHbmPc_host (v : Tab HbmPc) (s : State) : (setHbmPc v s).host = s.host := rfl
@[simp] theorem setHbmPc_nut (v : Tab HbmPc) (s : State) : (setHbmPc v s).nut = s.nut := rfl
@[simp] theorem setHbmPc_fab (v : Tab HbmPc) (s : State) : (setHbmPc v s).fab = s.fab := rfl
@[simp] theorem setHbmPc_lnt (v : Tab HbmPc) (s : State) : (setHbmPc v s).lnt = s.lnt := rfl
@[simp] theorem setHbmPc_skn (v : Tab HbmPc) (s : State) : (setHbmPc v s).skn = s.skn := rfl
@[simp] theorem setHbmPc_floodDc (v : Tab HbmPc) (s : State) : (setHbmPc v s).floodDc = s.floodDc := rfl
@[simp] theorem setHbmPc_floodEnv (v : Tab HbmPc) (s : State) : (setHbmPc v s).floodEnv = s.floodEnv := rfl
@[simp] theorem setHbmPc_qtd (v : Tab HbmPc) (s : State) : (setHbmPc v s).qtd = s.qtd := rfl
@[simp] theorem setHbmPc_rnd (v : Tab HbmPc) (s : State) : (setHbmPc v s).rnd = s.rnd := rfl
@[simp] theorem setHbmPc_wbl (v : Tab HbmPc) (s : State) : (setHbmPc v s).wbl = s.wbl := rfl
@[simp] theorem setHbmPc_units (v : Tab HbmPc) (s : State) : (setHbmPc v s).units = s.units := rfl
@[simp] theorem setHbmPc_hbmPc (v : Tab HbmPc) (s : State) : (setHbmPc v s).hbmPc = v := rfl
@[simp] theorem setHbmPc_mem (v : Tab HbmPc) (s : State) : (setHbmPc v s).mem = s.mem := rfl
@[simp] theorem setHbmPc_hostMem (v : Tab HbmPc) (s : State) : (setHbmPc v s).hostMem = s.hostMem := rfl
@[simp] theorem setHbmPc_hostDeny (v : Tab HbmPc) (s : State) : (setHbmPc v s).hostDeny = s.hostDeny := rfl
@[simp] theorem setHbmPc_lastRead (v : Tab HbmPc) (s : State) : (setHbmPc v s).lastRead = s.lastRead := rfl
@[simp] theorem setHbmPc_out (v : Tab HbmPc) (s : State) : (setHbmPc v s).out = s.out := rfl
@[simp] theorem setHbmPc_free (v : Tab HbmPc) (s : State) : (setHbmPc v s).free = s.free := rfl
@[simp] theorem setHbmPc_pending (v : Tab HbmPc) (s : State) : (setHbmPc v s).pending = s.pending := rfl

@[simp] theorem setSkn_pwr (v : Tab Skn) (s : State) : (setSkn v s).pwr = s.pwr := rfl
@[simp] theorem setSkn_boot (v : Tab Skn) (s : State) : (setSkn v s).boot = s.boot := rfl
@[simp] theorem setSkn_lark (v : Tab Skn) (s : State) : (setSkn v s).lark = s.lark := rfl
@[simp] theorem setSkn_hsc (v : Tab Skn) (s : State) : (setSkn v s).hsc = s.hsc := rfl
@[simp] theorem setSkn_glb (v : Tab Skn) (s : State) : (setSkn v s).glb = s.glb := rfl
@[simp] theorem setSkn_evlog (v : Tab Skn) (s : State) : (setSkn v s).evlog = s.evlog := rfl
@[simp] theorem setSkn_mtr (v : Tab Skn) (s : State) : (setSkn v s).mtr = s.mtr := rfl
@[simp] theorem setSkn_host (v : Tab Skn) (s : State) : (setSkn v s).host = s.host := rfl
@[simp] theorem setSkn_nut (v : Tab Skn) (s : State) : (setSkn v s).nut = s.nut := rfl
@[simp] theorem setSkn_fab (v : Tab Skn) (s : State) : (setSkn v s).fab = s.fab := rfl
@[simp] theorem setSkn_lnt (v : Tab Skn) (s : State) : (setSkn v s).lnt = s.lnt := rfl
@[simp] theorem setSkn_skn (v : Tab Skn) (s : State) : (setSkn v s).skn = v := rfl
@[simp] theorem setSkn_floodDc (v : Tab Skn) (s : State) : (setSkn v s).floodDc = s.floodDc := rfl
@[simp] theorem setSkn_floodEnv (v : Tab Skn) (s : State) : (setSkn v s).floodEnv = s.floodEnv := rfl
@[simp] theorem setSkn_qtd (v : Tab Skn) (s : State) : (setSkn v s).qtd = s.qtd := rfl
@[simp] theorem setSkn_rnd (v : Tab Skn) (s : State) : (setSkn v s).rnd = s.rnd := rfl
@[simp] theorem setSkn_wbl (v : Tab Skn) (s : State) : (setSkn v s).wbl = s.wbl := rfl
@[simp] theorem setSkn_units (v : Tab Skn) (s : State) : (setSkn v s).units = s.units := rfl
@[simp] theorem setSkn_hbmPc (v : Tab Skn) (s : State) : (setSkn v s).hbmPc = s.hbmPc := rfl
@[simp] theorem setSkn_mem (v : Tab Skn) (s : State) : (setSkn v s).mem = s.mem := rfl
@[simp] theorem setSkn_hostMem (v : Tab Skn) (s : State) : (setSkn v s).hostMem = s.hostMem := rfl
@[simp] theorem setSkn_hostDeny (v : Tab Skn) (s : State) : (setSkn v s).hostDeny = s.hostDeny := rfl
@[simp] theorem setSkn_lastRead (v : Tab Skn) (s : State) : (setSkn v s).lastRead = s.lastRead := rfl
@[simp] theorem setSkn_out (v : Tab Skn) (s : State) : (setSkn v s).out = s.out := rfl
@[simp] theorem setSkn_free (v : Tab Skn) (s : State) : (setSkn v s).free = s.free := rfl
@[simp] theorem setSkn_pending (v : Tab Skn) (s : State) : (setSkn v s).pending = s.pending := rfl

@[simp] theorem setLastRead_pwr (v : Nat) (s : State) : (setLastRead v s).pwr = s.pwr := rfl
@[simp] theorem setLastRead_boot (v : Nat) (s : State) : (setLastRead v s).boot = s.boot := rfl
@[simp] theorem setLastRead_lark (v : Nat) (s : State) : (setLastRead v s).lark = s.lark := rfl
@[simp] theorem setLastRead_hsc (v : Nat) (s : State) : (setLastRead v s).hsc = s.hsc := rfl
@[simp] theorem setLastRead_glb (v : Nat) (s : State) : (setLastRead v s).glb = s.glb := rfl
@[simp] theorem setLastRead_evlog (v : Nat) (s : State) : (setLastRead v s).evlog = s.evlog := rfl
@[simp] theorem setLastRead_mtr (v : Nat) (s : State) : (setLastRead v s).mtr = s.mtr := rfl
@[simp] theorem setLastRead_host (v : Nat) (s : State) : (setLastRead v s).host = s.host := rfl
@[simp] theorem setLastRead_nut (v : Nat) (s : State) : (setLastRead v s).nut = s.nut := rfl
@[simp] theorem setLastRead_fab (v : Nat) (s : State) : (setLastRead v s).fab = s.fab := rfl
@[simp] theorem setLastRead_lnt (v : Nat) (s : State) : (setLastRead v s).lnt = s.lnt := rfl
@[simp] theorem setLastRead_skn (v : Nat) (s : State) : (setLastRead v s).skn = s.skn := rfl
@[simp] theorem setLastRead_floodDc (v : Nat) (s : State) : (setLastRead v s).floodDc = s.floodDc := rfl
@[simp] theorem setLastRead_floodEnv (v : Nat) (s : State) : (setLastRead v s).floodEnv = s.floodEnv := rfl
@[simp] theorem setLastRead_qtd (v : Nat) (s : State) : (setLastRead v s).qtd = s.qtd := rfl
@[simp] theorem setLastRead_rnd (v : Nat) (s : State) : (setLastRead v s).rnd = s.rnd := rfl
@[simp] theorem setLastRead_wbl (v : Nat) (s : State) : (setLastRead v s).wbl = s.wbl := rfl
@[simp] theorem setLastRead_units (v : Nat) (s : State) : (setLastRead v s).units = s.units := rfl
@[simp] theorem setLastRead_hbmPc (v : Nat) (s : State) : (setLastRead v s).hbmPc = s.hbmPc := rfl
@[simp] theorem setLastRead_mem (v : Nat) (s : State) : (setLastRead v s).mem = s.mem := rfl
@[simp] theorem setLastRead_hostMem (v : Nat) (s : State) : (setLastRead v s).hostMem = s.hostMem := rfl
@[simp] theorem setLastRead_hostDeny (v : Nat) (s : State) : (setLastRead v s).hostDeny = s.hostDeny := rfl
@[simp] theorem setLastRead_lastRead (v : Nat) (s : State) : (setLastRead v s).lastRead = v := rfl
@[simp] theorem setLastRead_out (v : Nat) (s : State) : (setLastRead v s).out = s.out := rfl
@[simp] theorem setLastRead_free (v : Nat) (s : State) : (setLastRead v s).free = s.free := rfl
@[simp] theorem setLastRead_pending (v : Nat) (s : State) : (setLastRead v s).pending = s.pending := rfl

/-! Outputs and free values. -/

@[simp] theorem emit_pwr (o : Out) (s : State) : (emit o s).pwr = s.pwr := rfl
@[simp] theorem emit_boot (o : Out) (s : State) : (emit o s).boot = s.boot := rfl
@[simp] theorem emit_lark (o : Out) (s : State) : (emit o s).lark = s.lark := rfl
@[simp] theorem emit_hsc (o : Out) (s : State) : (emit o s).hsc = s.hsc := rfl
@[simp] theorem emit_glb (o : Out) (s : State) : (emit o s).glb = s.glb := rfl
@[simp] theorem emit_evlog (o : Out) (s : State) : (emit o s).evlog = s.evlog := rfl
@[simp] theorem emit_mtr (o : Out) (s : State) : (emit o s).mtr = s.mtr := rfl
@[simp] theorem emit_host (o : Out) (s : State) : (emit o s).host = s.host := rfl
@[simp] theorem emit_nut (o : Out) (s : State) : (emit o s).nut = s.nut := rfl
@[simp] theorem emit_fab (o : Out) (s : State) : (emit o s).fab = s.fab := rfl
@[simp] theorem emit_lnt (o : Out) (s : State) : (emit o s).lnt = s.lnt := rfl
@[simp] theorem emit_skn (o : Out) (s : State) : (emit o s).skn = s.skn := rfl
@[simp] theorem emit_floodDc (o : Out) (s : State) : (emit o s).floodDc = s.floodDc := rfl
@[simp] theorem emit_floodEnv (o : Out) (s : State) : (emit o s).floodEnv = s.floodEnv := rfl
@[simp] theorem emit_qtd (o : Out) (s : State) : (emit o s).qtd = s.qtd := rfl
@[simp] theorem emit_rnd (o : Out) (s : State) : (emit o s).rnd = s.rnd := rfl
@[simp] theorem emit_wbl (o : Out) (s : State) : (emit o s).wbl = s.wbl := rfl
@[simp] theorem emit_units (o : Out) (s : State) : (emit o s).units = s.units := rfl
@[simp] theorem emit_hbmPc (o : Out) (s : State) : (emit o s).hbmPc = s.hbmPc := rfl
@[simp] theorem emit_mem (o : Out) (s : State) : (emit o s).mem = s.mem := rfl
@[simp] theorem emit_hostMem (o : Out) (s : State) : (emit o s).hostMem = s.hostMem := rfl
@[simp] theorem emit_hostDeny (o : Out) (s : State) : (emit o s).hostDeny = s.hostDeny := rfl
@[simp] theorem emit_lastRead (o : Out) (s : State) : (emit o s).lastRead = s.lastRead := rfl
@[simp] theorem emit_out (o : Out) (s : State) : (emit o s).out = s.out ++ [o] := rfl
@[simp] theorem emit_free (o : Out) (s : State) : (emit o s).free = s.free := rfl
@[simp] theorem emit_pending (o : Out) (s : State) : (emit o s).pending = s.pending := rfl
@[simp] theorem emitAll_pwr (os : List Out) (s : State) : (emitAll os s).pwr = s.pwr := rfl
@[simp] theorem emitAll_boot (os : List Out) (s : State) : (emitAll os s).boot = s.boot := rfl
@[simp] theorem emitAll_lark (os : List Out) (s : State) : (emitAll os s).lark = s.lark := rfl
@[simp] theorem emitAll_hsc (os : List Out) (s : State) : (emitAll os s).hsc = s.hsc := rfl
@[simp] theorem emitAll_glb (os : List Out) (s : State) : (emitAll os s).glb = s.glb := rfl
@[simp] theorem emitAll_evlog (os : List Out) (s : State) : (emitAll os s).evlog = s.evlog := rfl
@[simp] theorem emitAll_mtr (os : List Out) (s : State) : (emitAll os s).mtr = s.mtr := rfl
@[simp] theorem emitAll_host (os : List Out) (s : State) : (emitAll os s).host = s.host := rfl
@[simp] theorem emitAll_nut (os : List Out) (s : State) : (emitAll os s).nut = s.nut := rfl
@[simp] theorem emitAll_fab (os : List Out) (s : State) : (emitAll os s).fab = s.fab := rfl
@[simp] theorem emitAll_lnt (os : List Out) (s : State) : (emitAll os s).lnt = s.lnt := rfl
@[simp] theorem emitAll_skn (os : List Out) (s : State) : (emitAll os s).skn = s.skn := rfl
@[simp] theorem emitAll_floodDc (os : List Out) (s : State) : (emitAll os s).floodDc = s.floodDc := rfl
@[simp] theorem emitAll_floodEnv (os : List Out) (s : State) : (emitAll os s).floodEnv = s.floodEnv := rfl
@[simp] theorem emitAll_qtd (os : List Out) (s : State) : (emitAll os s).qtd = s.qtd := rfl
@[simp] theorem emitAll_rnd (os : List Out) (s : State) : (emitAll os s).rnd = s.rnd := rfl
@[simp] theorem emitAll_wbl (os : List Out) (s : State) : (emitAll os s).wbl = s.wbl := rfl
@[simp] theorem emitAll_units (os : List Out) (s : State) : (emitAll os s).units = s.units := rfl
@[simp] theorem emitAll_hbmPc (os : List Out) (s : State) : (emitAll os s).hbmPc = s.hbmPc := rfl
@[simp] theorem emitAll_mem (os : List Out) (s : State) : (emitAll os s).mem = s.mem := rfl
@[simp] theorem emitAll_hostMem (os : List Out) (s : State) : (emitAll os s).hostMem = s.hostMem := rfl
@[simp] theorem emitAll_hostDeny (os : List Out) (s : State) : (emitAll os s).hostDeny = s.hostDeny := rfl
@[simp] theorem emitAll_lastRead (os : List Out) (s : State) : (emitAll os s).lastRead = s.lastRead := rfl
@[simp] theorem emitAll_out (os : List Out) (s : State) : (emitAll os s).out = s.out ++ os := rfl
@[simp] theorem emitAll_free (os : List Out) (s : State) : (emitAll os s).free = s.free := rfl
@[simp] theorem emitAll_pending (os : List Out) (s : State) : (emitAll os s).pending = s.pending := rfl
@[simp] theorem drawNat_pwr (s : State) : (drawNat s).2.pwr = s.pwr := rfl
@[simp] theorem drawNat_boot (s : State) : (drawNat s).2.boot = s.boot := rfl
@[simp] theorem drawNat_lark (s : State) : (drawNat s).2.lark = s.lark := rfl
@[simp] theorem drawNat_hsc (s : State) : (drawNat s).2.hsc = s.hsc := rfl
@[simp] theorem drawNat_glb (s : State) : (drawNat s).2.glb = s.glb := rfl
@[simp] theorem drawNat_evlog (s : State) : (drawNat s).2.evlog = s.evlog := rfl
@[simp] theorem drawNat_mtr (s : State) : (drawNat s).2.mtr = s.mtr := rfl
@[simp] theorem drawNat_host (s : State) : (drawNat s).2.host = s.host := rfl
@[simp] theorem drawNat_nut (s : State) : (drawNat s).2.nut = s.nut := rfl
@[simp] theorem drawNat_fab (s : State) : (drawNat s).2.fab = s.fab := rfl
@[simp] theorem drawNat_lnt (s : State) : (drawNat s).2.lnt = s.lnt := rfl
@[simp] theorem drawNat_skn (s : State) : (drawNat s).2.skn = s.skn := rfl
@[simp] theorem drawNat_floodDc (s : State) : (drawNat s).2.floodDc = s.floodDc := rfl
@[simp] theorem drawNat_floodEnv (s : State) : (drawNat s).2.floodEnv = s.floodEnv := rfl
@[simp] theorem drawNat_qtd (s : State) : (drawNat s).2.qtd = s.qtd := rfl
@[simp] theorem drawNat_rnd (s : State) : (drawNat s).2.rnd = s.rnd := rfl
@[simp] theorem drawNat_wbl (s : State) : (drawNat s).2.wbl = s.wbl := rfl
@[simp] theorem drawNat_units (s : State) : (drawNat s).2.units = s.units := rfl
@[simp] theorem drawNat_hbmPc (s : State) : (drawNat s).2.hbmPc = s.hbmPc := rfl
@[simp] theorem drawNat_mem (s : State) : (drawNat s).2.mem = s.mem := rfl
@[simp] theorem drawNat_hostMem (s : State) : (drawNat s).2.hostMem = s.hostMem := rfl
@[simp] theorem drawNat_hostDeny (s : State) : (drawNat s).2.hostDeny = s.hostDeny := rfl
@[simp] theorem drawNat_lastRead (s : State) : (drawNat s).2.lastRead = s.lastRead := rfl
@[simp] theorem drawNat_out (s : State) : (drawNat s).2.out = s.out := rfl
@[simp] theorem drawNat_free (s : State) : (drawNat s).2.free = s.free + 1 := rfl
@[simp] theorem drawNat_pending (s : State) : (drawNat s).2.pending = s.pending := rfl
@[simp] theorem drawBytes_pwr (n : Nat) (s : State) : (drawBytes n s).2.pwr = s.pwr := rfl
@[simp] theorem drawBytes_boot (n : Nat) (s : State) : (drawBytes n s).2.boot = s.boot := rfl
@[simp] theorem drawBytes_lark (n : Nat) (s : State) : (drawBytes n s).2.lark = s.lark := rfl
@[simp] theorem drawBytes_hsc (n : Nat) (s : State) : (drawBytes n s).2.hsc = s.hsc := rfl
@[simp] theorem drawBytes_glb (n : Nat) (s : State) : (drawBytes n s).2.glb = s.glb := rfl
@[simp] theorem drawBytes_evlog (n : Nat) (s : State) : (drawBytes n s).2.evlog = s.evlog := rfl
@[simp] theorem drawBytes_mtr (n : Nat) (s : State) : (drawBytes n s).2.mtr = s.mtr := rfl
@[simp] theorem drawBytes_host (n : Nat) (s : State) : (drawBytes n s).2.host = s.host := rfl
@[simp] theorem drawBytes_nut (n : Nat) (s : State) : (drawBytes n s).2.nut = s.nut := rfl
@[simp] theorem drawBytes_fab (n : Nat) (s : State) : (drawBytes n s).2.fab = s.fab := rfl
@[simp] theorem drawBytes_lnt (n : Nat) (s : State) : (drawBytes n s).2.lnt = s.lnt := rfl
@[simp] theorem drawBytes_skn (n : Nat) (s : State) : (drawBytes n s).2.skn = s.skn := rfl
@[simp] theorem drawBytes_floodDc (n : Nat) (s : State) : (drawBytes n s).2.floodDc = s.floodDc := rfl
@[simp] theorem drawBytes_floodEnv (n : Nat) (s : State) : (drawBytes n s).2.floodEnv = s.floodEnv := rfl
@[simp] theorem drawBytes_qtd (n : Nat) (s : State) : (drawBytes n s).2.qtd = s.qtd := rfl
@[simp] theorem drawBytes_rnd (n : Nat) (s : State) : (drawBytes n s).2.rnd = s.rnd := rfl
@[simp] theorem drawBytes_wbl (n : Nat) (s : State) : (drawBytes n s).2.wbl = s.wbl := rfl
@[simp] theorem drawBytes_units (n : Nat) (s : State) : (drawBytes n s).2.units = s.units := rfl
@[simp] theorem drawBytes_hbmPc (n : Nat) (s : State) : (drawBytes n s).2.hbmPc = s.hbmPc := rfl
@[simp] theorem drawBytes_mem (n : Nat) (s : State) : (drawBytes n s).2.mem = s.mem := rfl
@[simp] theorem drawBytes_hostMem (n : Nat) (s : State) : (drawBytes n s).2.hostMem = s.hostMem := rfl
@[simp] theorem drawBytes_hostDeny (n : Nat) (s : State) : (drawBytes n s).2.hostDeny = s.hostDeny := rfl
@[simp] theorem drawBytes_lastRead (n : Nat) (s : State) : (drawBytes n s).2.lastRead = s.lastRead := rfl
@[simp] theorem drawBytes_out (n : Nat) (s : State) : (drawBytes n s).2.out = s.out := rfl
@[simp] theorem drawBytes_free (n : Nat) (s : State) : (drawBytes n s).2.free = s.free + 1 := rfl
@[simp] theorem drawBytes_pending (n : Nat) (s : State) : (drawBytes n s).2.pending = s.pending := rfl

/-! A row of a named table written: every other block, and the table itself. -/

@[simp] theorem putQ_pwr (k : Nat) (v : Queue) (s : State) : (putQ k v s).pwr = s.pwr := rfl
@[simp] theorem putQ_boot (k : Nat) (v : Queue) (s : State) : (putQ k v s).boot = s.boot := rfl
@[simp] theorem putQ_lark (k : Nat) (v : Queue) (s : State) : (putQ k v s).lark = s.lark := rfl
@[simp] theorem putQ_hsc (k : Nat) (v : Queue) (s : State) : (putQ k v s).hsc = s.hsc := rfl
@[simp] theorem putQ_glb (k : Nat) (v : Queue) (s : State) : (putQ k v s).glb = s.glb := rfl
@[simp] theorem putQ_evlog (k : Nat) (v : Queue) (s : State) : (putQ k v s).evlog = s.evlog := rfl
@[simp] theorem putQ_mtr (k : Nat) (v : Queue) (s : State) : (putQ k v s).mtr = s.mtr := rfl
@[simp] theorem putQ_nut (k : Nat) (v : Queue) (s : State) : (putQ k v s).nut = s.nut := rfl
@[simp] theorem putQ_fab (k : Nat) (v : Queue) (s : State) : (putQ k v s).fab = s.fab := rfl
@[simp] theorem putQ_lnt (k : Nat) (v : Queue) (s : State) : (putQ k v s).lnt = s.lnt := rfl
@[simp] theorem putQ_skn (k : Nat) (v : Queue) (s : State) : (putQ k v s).skn = s.skn := rfl
@[simp] theorem putQ_floodDc (k : Nat) (v : Queue) (s : State) : (putQ k v s).floodDc = s.floodDc := rfl
@[simp] theorem putQ_floodEnv (k : Nat) (v : Queue) (s : State) : (putQ k v s).floodEnv = s.floodEnv := rfl
@[simp] theorem putQ_qtd (k : Nat) (v : Queue) (s : State) : (putQ k v s).qtd = s.qtd := rfl
@[simp] theorem putQ_rnd (k : Nat) (v : Queue) (s : State) : (putQ k v s).rnd = s.rnd := rfl
@[simp] theorem putQ_wbl (k : Nat) (v : Queue) (s : State) : (putQ k v s).wbl = s.wbl := rfl
@[simp] theorem putQ_units (k : Nat) (v : Queue) (s : State) : (putQ k v s).units = s.units := rfl
@[simp] theorem putQ_hbmPc (k : Nat) (v : Queue) (s : State) : (putQ k v s).hbmPc = s.hbmPc := rfl
@[simp] theorem putQ_mem (k : Nat) (v : Queue) (s : State) : (putQ k v s).mem = s.mem := rfl
@[simp] theorem putQ_hostMem (k : Nat) (v : Queue) (s : State) : (putQ k v s).hostMem = s.hostMem := rfl
@[simp] theorem putQ_hostDeny (k : Nat) (v : Queue) (s : State) : (putQ k v s).hostDeny = s.hostDeny := rfl
@[simp] theorem putQ_lastRead (k : Nat) (v : Queue) (s : State) : (putQ k v s).lastRead = s.lastRead := rfl
@[simp] theorem putQ_out (k : Nat) (v : Queue) (s : State) : (putQ k v s).out = s.out := rfl
@[simp] theorem putQ_free (k : Nat) (v : Queue) (s : State) : (putQ k v s).free = s.free := rfl
@[simp] theorem putQ_pending (k : Nat) (v : Queue) (s : State) : (putQ k v s).pending = s.pending := rfl
theorem getQ_putQ (j k : Nat) (v : Queue) (s : State) : getQ (putQ k v s) j = if j = k then v else getQ s j := tabGet_put _ _ j k v
@[simp] theorem getQ_putQ_same (k : Nat) (v : Queue) (s : State) : getQ (putQ k v s) k = v := tabGet_put_same _ _ k v

@[simp] theorem putCtx_pwr (k : Nat) (v : Ctx) (s : State) : (putCtx k v s).pwr = s.pwr := rfl
@[simp] theorem putCtx_boot (k : Nat) (v : Ctx) (s : State) : (putCtx k v s).boot = s.boot := rfl
@[simp] theorem putCtx_lark (k : Nat) (v : Ctx) (s : State) : (putCtx k v s).lark = s.lark := rfl
@[simp] theorem putCtx_hsc (k : Nat) (v : Ctx) (s : State) : (putCtx k v s).hsc = s.hsc := rfl
@[simp] theorem putCtx_glb (k : Nat) (v : Ctx) (s : State) : (putCtx k v s).glb = s.glb := rfl
@[simp] theorem putCtx_evlog (k : Nat) (v : Ctx) (s : State) : (putCtx k v s).evlog = s.evlog := rfl
@[simp] theorem putCtx_mtr (k : Nat) (v : Ctx) (s : State) : (putCtx k v s).mtr = s.mtr := rfl
@[simp] theorem putCtx_nut (k : Nat) (v : Ctx) (s : State) : (putCtx k v s).nut = s.nut := rfl
@[simp] theorem putCtx_fab (k : Nat) (v : Ctx) (s : State) : (putCtx k v s).fab = s.fab := rfl
@[simp] theorem putCtx_lnt (k : Nat) (v : Ctx) (s : State) : (putCtx k v s).lnt = s.lnt := rfl
@[simp] theorem putCtx_skn (k : Nat) (v : Ctx) (s : State) : (putCtx k v s).skn = s.skn := rfl
@[simp] theorem putCtx_floodDc (k : Nat) (v : Ctx) (s : State) : (putCtx k v s).floodDc = s.floodDc := rfl
@[simp] theorem putCtx_floodEnv (k : Nat) (v : Ctx) (s : State) : (putCtx k v s).floodEnv = s.floodEnv := rfl
@[simp] theorem putCtx_qtd (k : Nat) (v : Ctx) (s : State) : (putCtx k v s).qtd = s.qtd := rfl
@[simp] theorem putCtx_rnd (k : Nat) (v : Ctx) (s : State) : (putCtx k v s).rnd = s.rnd := rfl
@[simp] theorem putCtx_wbl (k : Nat) (v : Ctx) (s : State) : (putCtx k v s).wbl = s.wbl := rfl
@[simp] theorem putCtx_units (k : Nat) (v : Ctx) (s : State) : (putCtx k v s).units = s.units := rfl
@[simp] theorem putCtx_hbmPc (k : Nat) (v : Ctx) (s : State) : (putCtx k v s).hbmPc = s.hbmPc := rfl
@[simp] theorem putCtx_mem (k : Nat) (v : Ctx) (s : State) : (putCtx k v s).mem = s.mem := rfl
@[simp] theorem putCtx_hostMem (k : Nat) (v : Ctx) (s : State) : (putCtx k v s).hostMem = s.hostMem := rfl
@[simp] theorem putCtx_hostDeny (k : Nat) (v : Ctx) (s : State) : (putCtx k v s).hostDeny = s.hostDeny := rfl
@[simp] theorem putCtx_lastRead (k : Nat) (v : Ctx) (s : State) : (putCtx k v s).lastRead = s.lastRead := rfl
@[simp] theorem putCtx_out (k : Nat) (v : Ctx) (s : State) : (putCtx k v s).out = s.out := rfl
@[simp] theorem putCtx_free (k : Nat) (v : Ctx) (s : State) : (putCtx k v s).free = s.free := rfl
@[simp] theorem putCtx_pending (k : Nat) (v : Ctx) (s : State) : (putCtx k v s).pending = s.pending := rfl
theorem getCtx_putCtx (j k : Nat) (v : Ctx) (s : State) : getCtx (putCtx k v s) j = if j = k then v else getCtx s j := tabGet_put _ _ j k v
@[simp] theorem getCtx_putCtx_same (k : Nat) (v : Ctx) (s : State) : getCtx (putCtx k v s) k = v := tabGet_put_same _ _ k v

@[simp] theorem putPart_pwr (k : Nat) (v : Part) (s : State) : (putPart k v s).pwr = s.pwr := rfl
@[simp] theorem putPart_boot (k : Nat) (v : Part) (s : State) : (putPart k v s).boot = s.boot := rfl
@[simp] theorem putPart_lark (k : Nat) (v : Part) (s : State) : (putPart k v s).lark = s.lark := rfl
@[simp] theorem putPart_hsc (k : Nat) (v : Part) (s : State) : (putPart k v s).hsc = s.hsc := rfl
@[simp] theorem putPart_glb (k : Nat) (v : Part) (s : State) : (putPart k v s).glb = s.glb := rfl
@[simp] theorem putPart_evlog (k : Nat) (v : Part) (s : State) : (putPart k v s).evlog = s.evlog := rfl
@[simp] theorem putPart_mtr (k : Nat) (v : Part) (s : State) : (putPart k v s).mtr = s.mtr := rfl
@[simp] theorem putPart_nut (k : Nat) (v : Part) (s : State) : (putPart k v s).nut = s.nut := rfl
@[simp] theorem putPart_fab (k : Nat) (v : Part) (s : State) : (putPart k v s).fab = s.fab := rfl
@[simp] theorem putPart_lnt (k : Nat) (v : Part) (s : State) : (putPart k v s).lnt = s.lnt := rfl
@[simp] theorem putPart_skn (k : Nat) (v : Part) (s : State) : (putPart k v s).skn = s.skn := rfl
@[simp] theorem putPart_floodDc (k : Nat) (v : Part) (s : State) : (putPart k v s).floodDc = s.floodDc := rfl
@[simp] theorem putPart_floodEnv (k : Nat) (v : Part) (s : State) : (putPart k v s).floodEnv = s.floodEnv := rfl
@[simp] theorem putPart_qtd (k : Nat) (v : Part) (s : State) : (putPart k v s).qtd = s.qtd := rfl
@[simp] theorem putPart_rnd (k : Nat) (v : Part) (s : State) : (putPart k v s).rnd = s.rnd := rfl
@[simp] theorem putPart_wbl (k : Nat) (v : Part) (s : State) : (putPart k v s).wbl = s.wbl := rfl
@[simp] theorem putPart_units (k : Nat) (v : Part) (s : State) : (putPart k v s).units = s.units := rfl
@[simp] theorem putPart_hbmPc (k : Nat) (v : Part) (s : State) : (putPart k v s).hbmPc = s.hbmPc := rfl
@[simp] theorem putPart_mem (k : Nat) (v : Part) (s : State) : (putPart k v s).mem = s.mem := rfl
@[simp] theorem putPart_hostMem (k : Nat) (v : Part) (s : State) : (putPart k v s).hostMem = s.hostMem := rfl
@[simp] theorem putPart_hostDeny (k : Nat) (v : Part) (s : State) : (putPart k v s).hostDeny = s.hostDeny := rfl
@[simp] theorem putPart_lastRead (k : Nat) (v : Part) (s : State) : (putPart k v s).lastRead = s.lastRead := rfl
@[simp] theorem putPart_out (k : Nat) (v : Part) (s : State) : (putPart k v s).out = s.out := rfl
@[simp] theorem putPart_free (k : Nat) (v : Part) (s : State) : (putPart k v s).free = s.free := rfl
@[simp] theorem putPart_pending (k : Nat) (v : Part) (s : State) : (putPart k v s).pending = s.pending := rfl
theorem getPart_putPart (j k : Nat) (v : Part) (s : State) : getPart (putPart k v s) j = if j = k then v else getPart s j := tabGet_put _ _ j k v
@[simp] theorem getPart_putPart_same (k : Nat) (v : Part) (s : State) : getPart (putPart k v s) k = v := tabGet_put_same _ _ k v

@[simp] theorem putSlotK_pwr (k : Nat) (v : KSlot) (s : State) : (putSlotK k v s).pwr = s.pwr := rfl
@[simp] theorem putSlotK_boot (k : Nat) (v : KSlot) (s : State) : (putSlotK k v s).boot = s.boot := rfl
@[simp] theorem putSlotK_lark (k : Nat) (v : KSlot) (s : State) : (putSlotK k v s).lark = s.lark := rfl
@[simp] theorem putSlotK_hsc (k : Nat) (v : KSlot) (s : State) : (putSlotK k v s).hsc = s.hsc := rfl
@[simp] theorem putSlotK_glb (k : Nat) (v : KSlot) (s : State) : (putSlotK k v s).glb = s.glb := rfl
@[simp] theorem putSlotK_evlog (k : Nat) (v : KSlot) (s : State) : (putSlotK k v s).evlog = s.evlog := rfl
@[simp] theorem putSlotK_mtr (k : Nat) (v : KSlot) (s : State) : (putSlotK k v s).mtr = s.mtr := rfl
@[simp] theorem putSlotK_host (k : Nat) (v : KSlot) (s : State) : (putSlotK k v s).host = s.host := rfl
@[simp] theorem putSlotK_fab (k : Nat) (v : KSlot) (s : State) : (putSlotK k v s).fab = s.fab := rfl
@[simp] theorem putSlotK_lnt (k : Nat) (v : KSlot) (s : State) : (putSlotK k v s).lnt = s.lnt := rfl
@[simp] theorem putSlotK_skn (k : Nat) (v : KSlot) (s : State) : (putSlotK k v s).skn = s.skn := rfl
@[simp] theorem putSlotK_floodDc (k : Nat) (v : KSlot) (s : State) : (putSlotK k v s).floodDc = s.floodDc := rfl
@[simp] theorem putSlotK_floodEnv (k : Nat) (v : KSlot) (s : State) : (putSlotK k v s).floodEnv = s.floodEnv := rfl
@[simp] theorem putSlotK_qtd (k : Nat) (v : KSlot) (s : State) : (putSlotK k v s).qtd = s.qtd := rfl
@[simp] theorem putSlotK_rnd (k : Nat) (v : KSlot) (s : State) : (putSlotK k v s).rnd = s.rnd := rfl
@[simp] theorem putSlotK_wbl (k : Nat) (v : KSlot) (s : State) : (putSlotK k v s).wbl = s.wbl := rfl
@[simp] theorem putSlotK_units (k : Nat) (v : KSlot) (s : State) : (putSlotK k v s).units = s.units := rfl
@[simp] theorem putSlotK_hbmPc (k : Nat) (v : KSlot) (s : State) : (putSlotK k v s).hbmPc = s.hbmPc := rfl
@[simp] theorem putSlotK_mem (k : Nat) (v : KSlot) (s : State) : (putSlotK k v s).mem = s.mem := rfl
@[simp] theorem putSlotK_hostMem (k : Nat) (v : KSlot) (s : State) : (putSlotK k v s).hostMem = s.hostMem := rfl
@[simp] theorem putSlotK_hostDeny (k : Nat) (v : KSlot) (s : State) : (putSlotK k v s).hostDeny = s.hostDeny := rfl
@[simp] theorem putSlotK_lastRead (k : Nat) (v : KSlot) (s : State) : (putSlotK k v s).lastRead = s.lastRead := rfl
@[simp] theorem putSlotK_out (k : Nat) (v : KSlot) (s : State) : (putSlotK k v s).out = s.out := rfl
@[simp] theorem putSlotK_free (k : Nat) (v : KSlot) (s : State) : (putSlotK k v s).free = s.free := rfl
@[simp] theorem putSlotK_pending (k : Nat) (v : KSlot) (s : State) : (putSlotK k v s).pending = s.pending := rfl
theorem getSlotK_putSlotK (j k : Nat) (v : KSlot) (s : State) : getSlotK (putSlotK k v s) j = if j = k then v else getSlotK s j := tabGet_put _ _ j k v
@[simp] theorem getSlotK_putSlotK_same (k : Nat) (v : KSlot) (s : State) : getSlotK (putSlotK k v s) k = v := tabGet_put_same _ _ k v

@[simp] theorem putWren_pwr (k : Nat) (v : Wren) (s : State) : (putWren k v s).pwr = s.pwr := rfl
@[simp] theorem putWren_boot (k : Nat) (v : Wren) (s : State) : (putWren k v s).boot = s.boot := rfl
@[simp] theorem putWren_lark (k : Nat) (v : Wren) (s : State) : (putWren k v s).lark = s.lark := rfl
@[simp] theorem putWren_hsc (k : Nat) (v : Wren) (s : State) : (putWren k v s).hsc = s.hsc := rfl
@[simp] theorem putWren_glb (k : Nat) (v : Wren) (s : State) : (putWren k v s).glb = s.glb := rfl
@[simp] theorem putWren_evlog (k : Nat) (v : Wren) (s : State) : (putWren k v s).evlog = s.evlog := rfl
@[simp] theorem putWren_mtr (k : Nat) (v : Wren) (s : State) : (putWren k v s).mtr = s.mtr := rfl
@[simp] theorem putWren_host (k : Nat) (v : Wren) (s : State) : (putWren k v s).host = s.host := rfl
@[simp] theorem putWren_nut (k : Nat) (v : Wren) (s : State) : (putWren k v s).nut = s.nut := rfl
@[simp] theorem putWren_lnt (k : Nat) (v : Wren) (s : State) : (putWren k v s).lnt = s.lnt := rfl
@[simp] theorem putWren_skn (k : Nat) (v : Wren) (s : State) : (putWren k v s).skn = s.skn := rfl
@[simp] theorem putWren_floodDc (k : Nat) (v : Wren) (s : State) : (putWren k v s).floodDc = s.floodDc := rfl
@[simp] theorem putWren_floodEnv (k : Nat) (v : Wren) (s : State) : (putWren k v s).floodEnv = s.floodEnv := rfl
@[simp] theorem putWren_qtd (k : Nat) (v : Wren) (s : State) : (putWren k v s).qtd = s.qtd := rfl
@[simp] theorem putWren_rnd (k : Nat) (v : Wren) (s : State) : (putWren k v s).rnd = s.rnd := rfl
@[simp] theorem putWren_wbl (k : Nat) (v : Wren) (s : State) : (putWren k v s).wbl = s.wbl := rfl
@[simp] theorem putWren_units (k : Nat) (v : Wren) (s : State) : (putWren k v s).units = s.units := rfl
@[simp] theorem putWren_hbmPc (k : Nat) (v : Wren) (s : State) : (putWren k v s).hbmPc = s.hbmPc := rfl
@[simp] theorem putWren_mem (k : Nat) (v : Wren) (s : State) : (putWren k v s).mem = s.mem := rfl
@[simp] theorem putWren_hostMem (k : Nat) (v : Wren) (s : State) : (putWren k v s).hostMem = s.hostMem := rfl
@[simp] theorem putWren_hostDeny (k : Nat) (v : Wren) (s : State) : (putWren k v s).hostDeny = s.hostDeny := rfl
@[simp] theorem putWren_lastRead (k : Nat) (v : Wren) (s : State) : (putWren k v s).lastRead = s.lastRead := rfl
@[simp] theorem putWren_out (k : Nat) (v : Wren) (s : State) : (putWren k v s).out = s.out := rfl
@[simp] theorem putWren_free (k : Nat) (v : Wren) (s : State) : (putWren k v s).free = s.free := rfl
@[simp] theorem putWren_pending (k : Nat) (v : Wren) (s : State) : (putWren k v s).pending = s.pending := rfl
theorem getWren_putWren (j k : Nat) (v : Wren) (s : State) : getWren (putWren k v s) j = if j = k then v else getWren s j := tabGet_put _ _ j k v
@[simp] theorem getWren_putWren_same (k : Nat) (v : Wren) (s : State) : getWren (putWren k v s) k = v := tabGet_put_same _ _ k v

@[simp] theorem putThk_pwr (k : Nat) (v : Thk) (s : State) : (putThk k v s).pwr = s.pwr := rfl
@[simp] theorem putThk_boot (k : Nat) (v : Thk) (s : State) : (putThk k v s).boot = s.boot := rfl
@[simp] theorem putThk_lark (k : Nat) (v : Thk) (s : State) : (putThk k v s).lark = s.lark := rfl
@[simp] theorem putThk_hsc (k : Nat) (v : Thk) (s : State) : (putThk k v s).hsc = s.hsc := rfl
@[simp] theorem putThk_glb (k : Nat) (v : Thk) (s : State) : (putThk k v s).glb = s.glb := rfl
@[simp] theorem putThk_evlog (k : Nat) (v : Thk) (s : State) : (putThk k v s).evlog = s.evlog := rfl
@[simp] theorem putThk_mtr (k : Nat) (v : Thk) (s : State) : (putThk k v s).mtr = s.mtr := rfl
@[simp] theorem putThk_host (k : Nat) (v : Thk) (s : State) : (putThk k v s).host = s.host := rfl
@[simp] theorem putThk_nut (k : Nat) (v : Thk) (s : State) : (putThk k v s).nut = s.nut := rfl
@[simp] theorem putThk_lnt (k : Nat) (v : Thk) (s : State) : (putThk k v s).lnt = s.lnt := rfl
@[simp] theorem putThk_skn (k : Nat) (v : Thk) (s : State) : (putThk k v s).skn = s.skn := rfl
@[simp] theorem putThk_floodDc (k : Nat) (v : Thk) (s : State) : (putThk k v s).floodDc = s.floodDc := rfl
@[simp] theorem putThk_floodEnv (k : Nat) (v : Thk) (s : State) : (putThk k v s).floodEnv = s.floodEnv := rfl
@[simp] theorem putThk_qtd (k : Nat) (v : Thk) (s : State) : (putThk k v s).qtd = s.qtd := rfl
@[simp] theorem putThk_rnd (k : Nat) (v : Thk) (s : State) : (putThk k v s).rnd = s.rnd := rfl
@[simp] theorem putThk_wbl (k : Nat) (v : Thk) (s : State) : (putThk k v s).wbl = s.wbl := rfl
@[simp] theorem putThk_units (k : Nat) (v : Thk) (s : State) : (putThk k v s).units = s.units := rfl
@[simp] theorem putThk_hbmPc (k : Nat) (v : Thk) (s : State) : (putThk k v s).hbmPc = s.hbmPc := rfl
@[simp] theorem putThk_mem (k : Nat) (v : Thk) (s : State) : (putThk k v s).mem = s.mem := rfl
@[simp] theorem putThk_hostMem (k : Nat) (v : Thk) (s : State) : (putThk k v s).hostMem = s.hostMem := rfl
@[simp] theorem putThk_hostDeny (k : Nat) (v : Thk) (s : State) : (putThk k v s).hostDeny = s.hostDeny := rfl
@[simp] theorem putThk_lastRead (k : Nat) (v : Thk) (s : State) : (putThk k v s).lastRead = s.lastRead := rfl
@[simp] theorem putThk_out (k : Nat) (v : Thk) (s : State) : (putThk k v s).out = s.out := rfl
@[simp] theorem putThk_free (k : Nat) (v : Thk) (s : State) : (putThk k v s).free = s.free := rfl
@[simp] theorem putThk_pending (k : Nat) (v : Thk) (s : State) : (putThk k v s).pending = s.pending := rfl
theorem getThk_putThk (j k : Nat) (v : Thk) (s : State) : getThk (putThk k v s) j = if j = k then v else getThk s j := tabGet_put _ _ j k v
@[simp] theorem getThk_putThk_same (k : Nat) (v : Thk) (s : State) : getThk (putThk k v s) k = v := tabGet_put_same _ _ k v

@[simp] theorem putSkn_pwr (k : Nat) (v : Skn) (s : State) : (putSkn k v s).pwr = s.pwr := rfl
@[simp] theorem putSkn_boot (k : Nat) (v : Skn) (s : State) : (putSkn k v s).boot = s.boot := rfl
@[simp] theorem putSkn_lark (k : Nat) (v : Skn) (s : State) : (putSkn k v s).lark = s.lark := rfl
@[simp] theorem putSkn_hsc (k : Nat) (v : Skn) (s : State) : (putSkn k v s).hsc = s.hsc := rfl
@[simp] theorem putSkn_glb (k : Nat) (v : Skn) (s : State) : (putSkn k v s).glb = s.glb := rfl
@[simp] theorem putSkn_evlog (k : Nat) (v : Skn) (s : State) : (putSkn k v s).evlog = s.evlog := rfl
@[simp] theorem putSkn_mtr (k : Nat) (v : Skn) (s : State) : (putSkn k v s).mtr = s.mtr := rfl
@[simp] theorem putSkn_host (k : Nat) (v : Skn) (s : State) : (putSkn k v s).host = s.host := rfl
@[simp] theorem putSkn_nut (k : Nat) (v : Skn) (s : State) : (putSkn k v s).nut = s.nut := rfl
@[simp] theorem putSkn_fab (k : Nat) (v : Skn) (s : State) : (putSkn k v s).fab = s.fab := rfl
@[simp] theorem putSkn_lnt (k : Nat) (v : Skn) (s : State) : (putSkn k v s).lnt = s.lnt := rfl
@[simp] theorem putSkn_floodDc (k : Nat) (v : Skn) (s : State) : (putSkn k v s).floodDc = s.floodDc := rfl
@[simp] theorem putSkn_floodEnv (k : Nat) (v : Skn) (s : State) : (putSkn k v s).floodEnv = s.floodEnv := rfl
@[simp] theorem putSkn_qtd (k : Nat) (v : Skn) (s : State) : (putSkn k v s).qtd = s.qtd := rfl
@[simp] theorem putSkn_rnd (k : Nat) (v : Skn) (s : State) : (putSkn k v s).rnd = s.rnd := rfl
@[simp] theorem putSkn_wbl (k : Nat) (v : Skn) (s : State) : (putSkn k v s).wbl = s.wbl := rfl
@[simp] theorem putSkn_units (k : Nat) (v : Skn) (s : State) : (putSkn k v s).units = s.units := rfl
@[simp] theorem putSkn_hbmPc (k : Nat) (v : Skn) (s : State) : (putSkn k v s).hbmPc = s.hbmPc := rfl
@[simp] theorem putSkn_mem (k : Nat) (v : Skn) (s : State) : (putSkn k v s).mem = s.mem := rfl
@[simp] theorem putSkn_hostMem (k : Nat) (v : Skn) (s : State) : (putSkn k v s).hostMem = s.hostMem := rfl
@[simp] theorem putSkn_hostDeny (k : Nat) (v : Skn) (s : State) : (putSkn k v s).hostDeny = s.hostDeny := rfl
@[simp] theorem putSkn_lastRead (k : Nat) (v : Skn) (s : State) : (putSkn k v s).lastRead = s.lastRead := rfl
@[simp] theorem putSkn_out (k : Nat) (v : Skn) (s : State) : (putSkn k v s).out = s.out := rfl
@[simp] theorem putSkn_free (k : Nat) (v : Skn) (s : State) : (putSkn k v s).free = s.free := rfl
@[simp] theorem putSkn_pending (k : Nat) (v : Skn) (s : State) : (putSkn k v s).pending = s.pending := rfl
theorem getSkn_putSkn (j k : Nat) (v : Skn) (s : State) : getSkn (putSkn k v s) j = if j = k then v else getSkn s j := tabGet_put _ _ j k v
@[simp] theorem getSkn_putSkn_same (k : Nat) (v : Skn) (s : State) : getSkn (putSkn k v s) k = v := tabGet_put_same _ _ k v

@[simp] theorem putQp_pwr (k : Nat) (v : Qp) (s : State) : (putQp k v s).pwr = s.pwr := rfl
@[simp] theorem putQp_boot (k : Nat) (v : Qp) (s : State) : (putQp k v s).boot = s.boot := rfl
@[simp] theorem putQp_lark (k : Nat) (v : Qp) (s : State) : (putQp k v s).lark = s.lark := rfl
@[simp] theorem putQp_hsc (k : Nat) (v : Qp) (s : State) : (putQp k v s).hsc = s.hsc := rfl
@[simp] theorem putQp_glb (k : Nat) (v : Qp) (s : State) : (putQp k v s).glb = s.glb := rfl
@[simp] theorem putQp_evlog (k : Nat) (v : Qp) (s : State) : (putQp k v s).evlog = s.evlog := rfl
@[simp] theorem putQp_mtr (k : Nat) (v : Qp) (s : State) : (putQp k v s).mtr = s.mtr := rfl
@[simp] theorem putQp_host (k : Nat) (v : Qp) (s : State) : (putQp k v s).host = s.host := rfl
@[simp] theorem putQp_nut (k : Nat) (v : Qp) (s : State) : (putQp k v s).nut = s.nut := rfl
@[simp] theorem putQp_fab (k : Nat) (v : Qp) (s : State) : (putQp k v s).fab = s.fab := rfl
@[simp] theorem putQp_skn (k : Nat) (v : Qp) (s : State) : (putQp k v s).skn = s.skn := rfl
@[simp] theorem putQp_floodDc (k : Nat) (v : Qp) (s : State) : (putQp k v s).floodDc = s.floodDc := rfl
@[simp] theorem putQp_floodEnv (k : Nat) (v : Qp) (s : State) : (putQp k v s).floodEnv = s.floodEnv := rfl
@[simp] theorem putQp_qtd (k : Nat) (v : Qp) (s : State) : (putQp k v s).qtd = s.qtd := rfl
@[simp] theorem putQp_rnd (k : Nat) (v : Qp) (s : State) : (putQp k v s).rnd = s.rnd := rfl
@[simp] theorem putQp_wbl (k : Nat) (v : Qp) (s : State) : (putQp k v s).wbl = s.wbl := rfl
@[simp] theorem putQp_units (k : Nat) (v : Qp) (s : State) : (putQp k v s).units = s.units := rfl
@[simp] theorem putQp_hbmPc (k : Nat) (v : Qp) (s : State) : (putQp k v s).hbmPc = s.hbmPc := rfl
@[simp] theorem putQp_mem (k : Nat) (v : Qp) (s : State) : (putQp k v s).mem = s.mem := rfl
@[simp] theorem putQp_hostMem (k : Nat) (v : Qp) (s : State) : (putQp k v s).hostMem = s.hostMem := rfl
@[simp] theorem putQp_hostDeny (k : Nat) (v : Qp) (s : State) : (putQp k v s).hostDeny = s.hostDeny := rfl
@[simp] theorem putQp_lastRead (k : Nat) (v : Qp) (s : State) : (putQp k v s).lastRead = s.lastRead := rfl
@[simp] theorem putQp_out (k : Nat) (v : Qp) (s : State) : (putQp k v s).out = s.out := rfl
@[simp] theorem putQp_free (k : Nat) (v : Qp) (s : State) : (putQp k v s).free = s.free := rfl
@[simp] theorem putQp_pending (k : Nat) (v : Qp) (s : State) : (putQp k v s).pending = s.pending := rfl
theorem getQp_putQp (j k : Nat) (v : Qp) (s : State) : getQp (putQp k v s) j = if j = k then v else getQp s j := tabGet_put _ _ j k v
@[simp] theorem getQp_putQp_same (k : Nat) (v : Qp) (s : State) : getQp (putQp k v s) k = v := tabGet_put_same _ _ k v

@[simp] theorem putEth_pwr (k : Nat) (v : EthPort) (s : State) : (putEth k v s).pwr = s.pwr := rfl
@[simp] theorem putEth_boot (k : Nat) (v : EthPort) (s : State) : (putEth k v s).boot = s.boot := rfl
@[simp] theorem putEth_lark (k : Nat) (v : EthPort) (s : State) : (putEth k v s).lark = s.lark := rfl
@[simp] theorem putEth_hsc (k : Nat) (v : EthPort) (s : State) : (putEth k v s).hsc = s.hsc := rfl
@[simp] theorem putEth_glb (k : Nat) (v : EthPort) (s : State) : (putEth k v s).glb = s.glb := rfl
@[simp] theorem putEth_evlog (k : Nat) (v : EthPort) (s : State) : (putEth k v s).evlog = s.evlog := rfl
@[simp] theorem putEth_mtr (k : Nat) (v : EthPort) (s : State) : (putEth k v s).mtr = s.mtr := rfl
@[simp] theorem putEth_host (k : Nat) (v : EthPort) (s : State) : (putEth k v s).host = s.host := rfl
@[simp] theorem putEth_nut (k : Nat) (v : EthPort) (s : State) : (putEth k v s).nut = s.nut := rfl
@[simp] theorem putEth_fab (k : Nat) (v : EthPort) (s : State) : (putEth k v s).fab = s.fab := rfl
@[simp] theorem putEth_skn (k : Nat) (v : EthPort) (s : State) : (putEth k v s).skn = s.skn := rfl
@[simp] theorem putEth_floodDc (k : Nat) (v : EthPort) (s : State) : (putEth k v s).floodDc = s.floodDc := rfl
@[simp] theorem putEth_floodEnv (k : Nat) (v : EthPort) (s : State) : (putEth k v s).floodEnv = s.floodEnv := rfl
@[simp] theorem putEth_qtd (k : Nat) (v : EthPort) (s : State) : (putEth k v s).qtd = s.qtd := rfl
@[simp] theorem putEth_rnd (k : Nat) (v : EthPort) (s : State) : (putEth k v s).rnd = s.rnd := rfl
@[simp] theorem putEth_wbl (k : Nat) (v : EthPort) (s : State) : (putEth k v s).wbl = s.wbl := rfl
@[simp] theorem putEth_units (k : Nat) (v : EthPort) (s : State) : (putEth k v s).units = s.units := rfl
@[simp] theorem putEth_hbmPc (k : Nat) (v : EthPort) (s : State) : (putEth k v s).hbmPc = s.hbmPc := rfl
@[simp] theorem putEth_mem (k : Nat) (v : EthPort) (s : State) : (putEth k v s).mem = s.mem := rfl
@[simp] theorem putEth_hostMem (k : Nat) (v : EthPort) (s : State) : (putEth k v s).hostMem = s.hostMem := rfl
@[simp] theorem putEth_hostDeny (k : Nat) (v : EthPort) (s : State) : (putEth k v s).hostDeny = s.hostDeny := rfl
@[simp] theorem putEth_lastRead (k : Nat) (v : EthPort) (s : State) : (putEth k v s).lastRead = s.lastRead := rfl
@[simp] theorem putEth_out (k : Nat) (v : EthPort) (s : State) : (putEth k v s).out = s.out := rfl
@[simp] theorem putEth_free (k : Nat) (v : EthPort) (s : State) : (putEth k v s).free = s.free := rfl
@[simp] theorem putEth_pending (k : Nat) (v : EthPort) (s : State) : (putEth k v s).pending = s.pending := rfl
theorem getEth_putEth (j k : Nat) (v : EthPort) (s : State) : getEth (putEth k v s) j = if j = k then v else getEth s j := tabGet_put _ _ j k v
@[simp] theorem getEth_putEth_same (k : Nat) (v : EthPort) (s : State) : getEth (putEth k v s) k = v := tabGet_put_same _ _ k v

@[simp] theorem putSess_pwr (k : Nat) (v : Sess) (s : State) : (putSess k v s).pwr = s.pwr := rfl
@[simp] theorem putSess_boot (k : Nat) (v : Sess) (s : State) : (putSess k v s).boot = s.boot := rfl
@[simp] theorem putSess_lark (k : Nat) (v : Sess) (s : State) : (putSess k v s).lark = s.lark := rfl
@[simp] theorem putSess_hsc (k : Nat) (v : Sess) (s : State) : (putSess k v s).hsc = s.hsc := rfl
@[simp] theorem putSess_glb (k : Nat) (v : Sess) (s : State) : (putSess k v s).glb = s.glb := rfl
@[simp] theorem putSess_evlog (k : Nat) (v : Sess) (s : State) : (putSess k v s).evlog = s.evlog := rfl
@[simp] theorem putSess_mtr (k : Nat) (v : Sess) (s : State) : (putSess k v s).mtr = s.mtr := rfl
@[simp] theorem putSess_host (k : Nat) (v : Sess) (s : State) : (putSess k v s).host = s.host := rfl
@[simp] theorem putSess_nut (k : Nat) (v : Sess) (s : State) : (putSess k v s).nut = s.nut := rfl
@[simp] theorem putSess_fab (k : Nat) (v : Sess) (s : State) : (putSess k v s).fab = s.fab := rfl
@[simp] theorem putSess_skn (k : Nat) (v : Sess) (s : State) : (putSess k v s).skn = s.skn := rfl
@[simp] theorem putSess_floodDc (k : Nat) (v : Sess) (s : State) : (putSess k v s).floodDc = s.floodDc := rfl
@[simp] theorem putSess_floodEnv (k : Nat) (v : Sess) (s : State) : (putSess k v s).floodEnv = s.floodEnv := rfl
@[simp] theorem putSess_qtd (k : Nat) (v : Sess) (s : State) : (putSess k v s).qtd = s.qtd := rfl
@[simp] theorem putSess_rnd (k : Nat) (v : Sess) (s : State) : (putSess k v s).rnd = s.rnd := rfl
@[simp] theorem putSess_wbl (k : Nat) (v : Sess) (s : State) : (putSess k v s).wbl = s.wbl := rfl
@[simp] theorem putSess_units (k : Nat) (v : Sess) (s : State) : (putSess k v s).units = s.units := rfl
@[simp] theorem putSess_hbmPc (k : Nat) (v : Sess) (s : State) : (putSess k v s).hbmPc = s.hbmPc := rfl
@[simp] theorem putSess_mem (k : Nat) (v : Sess) (s : State) : (putSess k v s).mem = s.mem := rfl
@[simp] theorem putSess_hostMem (k : Nat) (v : Sess) (s : State) : (putSess k v s).hostMem = s.hostMem := rfl
@[simp] theorem putSess_hostDeny (k : Nat) (v : Sess) (s : State) : (putSess k v s).hostDeny = s.hostDeny := rfl
@[simp] theorem putSess_lastRead (k : Nat) (v : Sess) (s : State) : (putSess k v s).lastRead = s.lastRead := rfl
@[simp] theorem putSess_out (k : Nat) (v : Sess) (s : State) : (putSess k v s).out = s.out := rfl
@[simp] theorem putSess_free (k : Nat) (v : Sess) (s : State) : (putSess k v s).free = s.free := rfl
@[simp] theorem putSess_pending (k : Nat) (v : Sess) (s : State) : (putSess k v s).pending = s.pending := rfl
theorem getSess_putSess (j k : Nat) (v : Sess) (s : State) : getSess (putSess k v s) j = if j = k then v else getSess s j := tabGet_put _ _ j k v
@[simp] theorem getSess_putSess_same (k : Nat) (v : Sess) (s : State) : getSess (putSess k v s) k = v := tabGet_put_same _ _ k v

@[simp] theorem putBeat_pwr (k : Nat) (v : Beat) (s : State) : (putBeat k v s).pwr = s.pwr := rfl
@[simp] theorem putBeat_boot (k : Nat) (v : Beat) (s : State) : (putBeat k v s).boot = s.boot := rfl
@[simp] theorem putBeat_hsc (k : Nat) (v : Beat) (s : State) : (putBeat k v s).hsc = s.hsc := rfl
@[simp] theorem putBeat_glb (k : Nat) (v : Beat) (s : State) : (putBeat k v s).glb = s.glb := rfl
@[simp] theorem putBeat_evlog (k : Nat) (v : Beat) (s : State) : (putBeat k v s).evlog = s.evlog := rfl
@[simp] theorem putBeat_mtr (k : Nat) (v : Beat) (s : State) : (putBeat k v s).mtr = s.mtr := rfl
@[simp] theorem putBeat_host (k : Nat) (v : Beat) (s : State) : (putBeat k v s).host = s.host := rfl
@[simp] theorem putBeat_nut (k : Nat) (v : Beat) (s : State) : (putBeat k v s).nut = s.nut := rfl
@[simp] theorem putBeat_fab (k : Nat) (v : Beat) (s : State) : (putBeat k v s).fab = s.fab := rfl
@[simp] theorem putBeat_lnt (k : Nat) (v : Beat) (s : State) : (putBeat k v s).lnt = s.lnt := rfl
@[simp] theorem putBeat_skn (k : Nat) (v : Beat) (s : State) : (putBeat k v s).skn = s.skn := rfl
@[simp] theorem putBeat_floodDc (k : Nat) (v : Beat) (s : State) : (putBeat k v s).floodDc = s.floodDc := rfl
@[simp] theorem putBeat_floodEnv (k : Nat) (v : Beat) (s : State) : (putBeat k v s).floodEnv = s.floodEnv := rfl
@[simp] theorem putBeat_qtd (k : Nat) (v : Beat) (s : State) : (putBeat k v s).qtd = s.qtd := rfl
@[simp] theorem putBeat_rnd (k : Nat) (v : Beat) (s : State) : (putBeat k v s).rnd = s.rnd := rfl
@[simp] theorem putBeat_wbl (k : Nat) (v : Beat) (s : State) : (putBeat k v s).wbl = s.wbl := rfl
@[simp] theorem putBeat_units (k : Nat) (v : Beat) (s : State) : (putBeat k v s).units = s.units := rfl
@[simp] theorem putBeat_hbmPc (k : Nat) (v : Beat) (s : State) : (putBeat k v s).hbmPc = s.hbmPc := rfl
@[simp] theorem putBeat_mem (k : Nat) (v : Beat) (s : State) : (putBeat k v s).mem = s.mem := rfl
@[simp] theorem putBeat_hostMem (k : Nat) (v : Beat) (s : State) : (putBeat k v s).hostMem = s.hostMem := rfl
@[simp] theorem putBeat_hostDeny (k : Nat) (v : Beat) (s : State) : (putBeat k v s).hostDeny = s.hostDeny := rfl
@[simp] theorem putBeat_lastRead (k : Nat) (v : Beat) (s : State) : (putBeat k v s).lastRead = s.lastRead := rfl
@[simp] theorem putBeat_out (k : Nat) (v : Beat) (s : State) : (putBeat k v s).out = s.out := rfl
@[simp] theorem putBeat_free (k : Nat) (v : Beat) (s : State) : (putBeat k v s).free = s.free := rfl
@[simp] theorem putBeat_pending (k : Nat) (v : Beat) (s : State) : (putBeat k v s).pending = s.pending := rfl
theorem getBeat_putBeat (j k : Nat) (v : Beat) (s : State) : getBeat (putBeat k v s) j = if j = k then v else getBeat s j := tabGet_put _ _ j k v
@[simp] theorem getBeat_putBeat_same (k : Nat) (v : Beat) (s : State) : getBeat (putBeat k v s) k = v := tabGet_put_same _ _ k v

@[simp] theorem putUnit_pwr (k : Nat) (v : UnitSt) (s : State) : (putUnit k v s).pwr = s.pwr := rfl
@[simp] theorem putUnit_boot (k : Nat) (v : UnitSt) (s : State) : (putUnit k v s).boot = s.boot := rfl
@[simp] theorem putUnit_lark (k : Nat) (v : UnitSt) (s : State) : (putUnit k v s).lark = s.lark := rfl
@[simp] theorem putUnit_hsc (k : Nat) (v : UnitSt) (s : State) : (putUnit k v s).hsc = s.hsc := rfl
@[simp] theorem putUnit_glb (k : Nat) (v : UnitSt) (s : State) : (putUnit k v s).glb = s.glb := rfl
@[simp] theorem putUnit_evlog (k : Nat) (v : UnitSt) (s : State) : (putUnit k v s).evlog = s.evlog := rfl
@[simp] theorem putUnit_mtr (k : Nat) (v : UnitSt) (s : State) : (putUnit k v s).mtr = s.mtr := rfl
@[simp] theorem putUnit_host (k : Nat) (v : UnitSt) (s : State) : (putUnit k v s).host = s.host := rfl
@[simp] theorem putUnit_nut (k : Nat) (v : UnitSt) (s : State) : (putUnit k v s).nut = s.nut := rfl
@[simp] theorem putUnit_fab (k : Nat) (v : UnitSt) (s : State) : (putUnit k v s).fab = s.fab := rfl
@[simp] theorem putUnit_lnt (k : Nat) (v : UnitSt) (s : State) : (putUnit k v s).lnt = s.lnt := rfl
@[simp] theorem putUnit_skn (k : Nat) (v : UnitSt) (s : State) : (putUnit k v s).skn = s.skn := rfl
@[simp] theorem putUnit_floodDc (k : Nat) (v : UnitSt) (s : State) : (putUnit k v s).floodDc = s.floodDc := rfl
@[simp] theorem putUnit_floodEnv (k : Nat) (v : UnitSt) (s : State) : (putUnit k v s).floodEnv = s.floodEnv := rfl
@[simp] theorem putUnit_qtd (k : Nat) (v : UnitSt) (s : State) : (putUnit k v s).qtd = s.qtd := rfl
@[simp] theorem putUnit_rnd (k : Nat) (v : UnitSt) (s : State) : (putUnit k v s).rnd = s.rnd := rfl
@[simp] theorem putUnit_wbl (k : Nat) (v : UnitSt) (s : State) : (putUnit k v s).wbl = s.wbl := rfl
@[simp] theorem putUnit_hbmPc (k : Nat) (v : UnitSt) (s : State) : (putUnit k v s).hbmPc = s.hbmPc := rfl
@[simp] theorem putUnit_mem (k : Nat) (v : UnitSt) (s : State) : (putUnit k v s).mem = s.mem := rfl
@[simp] theorem putUnit_hostMem (k : Nat) (v : UnitSt) (s : State) : (putUnit k v s).hostMem = s.hostMem := rfl
@[simp] theorem putUnit_hostDeny (k : Nat) (v : UnitSt) (s : State) : (putUnit k v s).hostDeny = s.hostDeny := rfl
@[simp] theorem putUnit_lastRead (k : Nat) (v : UnitSt) (s : State) : (putUnit k v s).lastRead = s.lastRead := rfl
@[simp] theorem putUnit_out (k : Nat) (v : UnitSt) (s : State) : (putUnit k v s).out = s.out := rfl
@[simp] theorem putUnit_free (k : Nat) (v : UnitSt) (s : State) : (putUnit k v s).free = s.free := rfl
@[simp] theorem putUnit_pending (k : Nat) (v : UnitSt) (s : State) : (putUnit k v s).pending = s.pending := rfl
theorem getUnit_putUnit (j k : Nat) (v : UnitSt) (s : State) : getUnit (putUnit k v s) j = if j = k then v else getUnit s j := tabGet_put _ _ j k v
@[simp] theorem getUnit_putUnit_same (k : Nat) (v : UnitSt) (s : State) : getUnit (putUnit k v s) k = v := tabGet_put_same _ _ k v

@[simp] theorem putStream_pwr (k : Nat) (v : Stream) (s : State) : (putStream k v s).pwr = s.pwr := rfl
@[simp] theorem putStream_boot (k : Nat) (v : Stream) (s : State) : (putStream k v s).boot = s.boot := rfl
@[simp] theorem putStream_lark (k : Nat) (v : Stream) (s : State) : (putStream k v s).lark = s.lark := rfl
@[simp] theorem putStream_hsc (k : Nat) (v : Stream) (s : State) : (putStream k v s).hsc = s.hsc := rfl
@[simp] theorem putStream_glb (k : Nat) (v : Stream) (s : State) : (putStream k v s).glb = s.glb := rfl
@[simp] theorem putStream_evlog (k : Nat) (v : Stream) (s : State) : (putStream k v s).evlog = s.evlog := rfl
@[simp] theorem putStream_mtr (k : Nat) (v : Stream) (s : State) : (putStream k v s).mtr = s.mtr := rfl
@[simp] theorem putStream_host (k : Nat) (v : Stream) (s : State) : (putStream k v s).host = s.host := rfl
@[simp] theorem putStream_nut (k : Nat) (v : Stream) (s : State) : (putStream k v s).nut = s.nut := rfl
@[simp] theorem putStream_fab (k : Nat) (v : Stream) (s : State) : (putStream k v s).fab = s.fab := rfl
@[simp] theorem putStream_lnt (k : Nat) (v : Stream) (s : State) : (putStream k v s).lnt = s.lnt := rfl
@[simp] theorem putStream_skn (k : Nat) (v : Stream) (s : State) : (putStream k v s).skn = s.skn := rfl
@[simp] theorem putStream_floodDc (k : Nat) (v : Stream) (s : State) : (putStream k v s).floodDc = s.floodDc := rfl
@[simp] theorem putStream_floodEnv (k : Nat) (v : Stream) (s : State) : (putStream k v s).floodEnv = s.floodEnv := rfl
@[simp] theorem putStream_qtd (k : Nat) (v : Stream) (s : State) : (putStream k v s).qtd = s.qtd := rfl
@[simp] theorem putStream_rnd (k : Nat) (v : Stream) (s : State) : (putStream k v s).rnd = s.rnd := rfl
@[simp] theorem putStream_units (k : Nat) (v : Stream) (s : State) : (putStream k v s).units = s.units := rfl
@[simp] theorem putStream_hbmPc (k : Nat) (v : Stream) (s : State) : (putStream k v s).hbmPc = s.hbmPc := rfl
@[simp] theorem putStream_mem (k : Nat) (v : Stream) (s : State) : (putStream k v s).mem = s.mem := rfl
@[simp] theorem putStream_hostMem (k : Nat) (v : Stream) (s : State) : (putStream k v s).hostMem = s.hostMem := rfl
@[simp] theorem putStream_hostDeny (k : Nat) (v : Stream) (s : State) : (putStream k v s).hostDeny = s.hostDeny := rfl
@[simp] theorem putStream_lastRead (k : Nat) (v : Stream) (s : State) : (putStream k v s).lastRead = s.lastRead := rfl
@[simp] theorem putStream_out (k : Nat) (v : Stream) (s : State) : (putStream k v s).out = s.out := rfl
@[simp] theorem putStream_free (k : Nat) (v : Stream) (s : State) : (putStream k v s).free = s.free := rfl
@[simp] theorem putStream_pending (k : Nat) (v : Stream) (s : State) : (putStream k v s).pending = s.pending := rfl
theorem getStream_putStream (j k : Nat) (v : Stream) (s : State) : getStream (putStream k v s) j = if j = k then v else getStream s j := tabGet_put _ _ j k v
@[simp] theorem getStream_putStream_same (k : Nat) (v : Stream) (s : State) : getStream (putStream k v s) k = v := tabGet_put_same _ _ k v

/-! A row changed is that row written. -/

@[simp] theorem modQ_eq (k : Nat) (f : Queue → Queue) (s : State) : modQ k f s = putQ k (f (getQ s k)) s := rfl
@[simp] theorem modCtx_eq (k : Nat) (f : Ctx → Ctx) (s : State) : modCtx k f s = putCtx k (f (getCtx s k)) s := rfl
@[simp] theorem modWren_eq (k : Nat) (f : Wren → Wren) (s : State) : modWren k f s = putWren k (f (getWren s k)) s := rfl
@[simp] theorem modThk_eq (k : Nat) (f : Thk → Thk) (s : State) : modThk k f s = putThk k (f (getThk s k)) s := rfl
@[simp] theorem modSkn_eq (k : Nat) (f : Skn → Skn) (s : State) : modSkn k f s = putSkn k (f (getSkn s k)) s := rfl
@[simp] theorem modQp_eq (k : Nat) (f : Qp → Qp) (s : State) : modQp k f s = putQp k (f (getQp s k)) s := rfl
@[simp] theorem modEth_eq (k : Nat) (f : EthPort → EthPort) (s : State) : modEth k f s = putEth k (f (getEth s k)) s := rfl
@[simp] theorem modSess_eq (k : Nat) (f : Sess → Sess) (s : State) : modSess k f s = putSess k (f (getSess s k)) s := rfl

end Sys2Proof.Machine
end

