-- ==== Sys2Proof/Laws/Ops.lean ====
section
/-! SUPPORT. What the shared operations of Machine/Ops.lean can do: events, meters and counter slots leave everything else, and they keep the canonical form. -/

namespace Sys2Proof.Machine

/-! The canonical form of a state. -/

/-- The seven memories and tables of the canonical form. -/
theorem tablesWf_iff (s : State) : s.tablesWf = true ↔ Memory.wf s.mem = true ∧ Memory.wf s.hostMem = true ∧ tabWf Slot.init s.hsc = true ∧
    tabWf EvGroup.init s.evlog = true ∧ tabWf Skn.init s.skn = true ∧ tabWf UnitSt.init s.units = true ∧ tabWf HbmPc.init s.hbmPc = true := by
  simp [State.tablesWf, and_assoc]

/-- An update keeps the canonical form. -/
def Keeps (f : State → State) : Prop := ∀ s, s.tablesWf = true → (f s).tablesWf = true

theorem Keeps.id : Keeps fun s => s := fun _ h => h
theorem Keeps.comp {f g : State → State} (hf : Keeps f) (hg : Keeps g) : Keeps fun s => f (g s) := fun s h => hf _ (hg s h)
theorem Keeps.ite {c : State → Prop} [∀ s, Decidable (c s)] {f g : State → State} (hf : Keeps f) (hg : Keeps g) :
    Keeps fun s => if c s then f s else g s := fun s h => by
  by_cases hc : c s
  · simpa [hc] using hf s h
  · simpa [hc] using hg s h

/-- A fold of updates that keep the canonical form keeps it. -/
theorem Keeps.foldl {α : Type} {f : State → α → State} (l : List α) (hf : ∀ a ∈ l, Keeps fun s => f s a) : Keeps fun s => l.foldl f s := by
  induction l with
  | nil => exact fun _ h => h
  | cons a l ih => exact fun s h => ih (fun b hb => hf b (by simp [hb])) _ (hf a (by simp) s h)

@[simp] theorem tablesWf_onPwr (f : Pwr → Pwr) (s : State) : (onPwr f s).tablesWf = s.tablesWf := rfl
@[simp] theorem tablesWf_onBoot (f : Boot → Boot) (s : State) : (onBoot f s).tablesWf = s.tablesWf := rfl
@[simp] theorem tablesWf_onLark (f : Lark → Lark) (s : State) : (onLark f s).tablesWf = s.tablesWf := rfl
@[simp] theorem tablesWf_onGlb (f : Glb → Glb) (s : State) : (onGlb f s).tablesWf = s.tablesWf := rfl
@[simp] theorem tablesWf_onMtr (f : Metering → Metering) (s : State) : (onMtr f s).tablesWf = s.tablesWf := rfl
@[simp] theorem tablesWf_onHost (f : HostSt → HostSt) (s : State) : (onHost f s).tablesWf = s.tablesWf := rfl
@[simp] theorem tablesWf_onNut (f : Nut → Nut) (s : State) : (onNut f s).tablesWf = s.tablesWf := rfl
@[simp] theorem tablesWf_onFab (f : Fab → Fab) (s : State) : (onFab f s).tablesWf = s.tablesWf := rfl
@[simp] theorem tablesWf_onLnt (f : Lnt → Lnt) (s : State) : (onLnt f s).tablesWf = s.tablesWf := rfl
@[simp] theorem tablesWf_onQtd (f : Qtd → Qtd) (s : State) : (onQtd f s).tablesWf = s.tablesWf := rfl
@[simp] theorem tablesWf_onRnd (f : Rounds → Rounds) (s : State) : (onRnd f s).tablesWf = s.tablesWf := rfl
@[simp] theorem tablesWf_onWbl (f : Wbl → Wbl) (s : State) : (onWbl f s).tablesWf = s.tablesWf := rfl
@[simp] theorem tablesWf_onPins (f : Pins → Pins) (s : State) : (onPins f s).tablesWf = s.tablesWf := rfl
@[simp] theorem tablesWf_setLastRead (v : Nat) (s : State) : (setLastRead v s).tablesWf = s.tablesWf := rfl
@[simp] theorem tablesWf_emit (o : Out) (s : State) : (emit o s).tablesWf = s.tablesWf := rfl
@[simp] theorem tablesWf_emitAll (os : List Out) (s : State) : (emitAll os s).tablesWf = s.tablesWf := rfl
@[simp] theorem tablesWf_drawNat (s : State) : (drawNat s).2.tablesWf = s.tablesWf := rfl
@[simp] theorem tablesWf_drawBytes (n : Nat) (s : State) : (drawBytes n s).2.tablesWf = s.tablesWf := rfl
@[simp] theorem tablesWf_putQ (k : Nat) (v : Queue) (s : State) : (putQ k v s).tablesWf = s.tablesWf := rfl
@[simp] theorem tablesWf_putCtx (k : Nat) (v : Ctx) (s : State) : (putCtx k v s).tablesWf = s.tablesWf := rfl
@[simp] theorem tablesWf_putPart (k : Nat) (v : Part) (s : State) : (putPart k v s).tablesWf = s.tablesWf := rfl
@[simp] theorem tablesWf_putSlotK (k : Nat) (v : KSlot) (s : State) : (putSlotK k v s).tablesWf = s.tablesWf := rfl
@[simp] theorem tablesWf_putWren (k : Nat) (v : Wren) (s : State) : (putWren k v s).tablesWf = s.tablesWf := rfl
@[simp] theorem tablesWf_putThk (k : Nat) (v : Thk) (s : State) : (putThk k v s).tablesWf = s.tablesWf := rfl
@[simp] theorem tablesWf_putQp (k : Nat) (v : Qp) (s : State) : (putQp k v s).tablesWf = s.tablesWf := rfl
@[simp] theorem tablesWf_putEth (k : Nat) (v : EthPort) (s : State) : (putEth k v s).tablesWf = s.tablesWf := rfl
@[simp] theorem tablesWf_putSess (k : Nat) (v : Sess) (s : State) : (putSess k v s).tablesWf = s.tablesWf := rfl
@[simp] theorem tablesWf_putBeat (k : Nat) (v : Beat) (s : State) : (putBeat k v s).tablesWf = s.tablesWf := rfl
@[simp] theorem tablesWf_putStream (k : Nat) (v : Stream) (s : State) : (putStream k v s).tablesWf = s.tablesWf := rfl
@[simp] theorem tablesWf_meterAt (k : Nat) (f : Meter → Meter) (s : State) : (meterAt k f s).tablesWf = s.tablesWf := rfl

theorem setMem_keeps {m : List Host.Cell} (hm : Memory.wf m = true) : Keeps (setMem m) := fun s h => by
  rw [tablesWf_iff] at h ⊢; exact ⟨hm, h.2⟩
theorem setHostMem_keeps {m : List Host.Cell} (hm : Memory.wf m = true) : Keeps (setHostMem m) := fun s h => by
  rw [tablesWf_iff] at h ⊢; exact ⟨h.1, hm, h.2.2⟩
theorem setSlots_keeps {t : Tab Slot} (ht : tabWf Slot.init t = true) : Keeps (setSlots t) := fun s h => by
  rw [tablesWf_iff] at h ⊢; exact ⟨h.1, h.2.1, ht, h.2.2.2⟩
theorem setEvlog_keeps {t : Tab EvGroup} (ht : tabWf EvGroup.init t = true) : Keeps (setEvlog t) := fun s h => by
  rw [tablesWf_iff] at h ⊢; exact ⟨h.1, h.2.1, h.2.2.1, ht, h.2.2.2.2⟩
theorem setSkn_keeps {t : Tab Skn} (ht : tabWf Skn.init t = true) : Keeps (setSkn t) := fun s h => by
  rw [tablesWf_iff] at h ⊢; exact ⟨h.1, h.2.1, h.2.2.1, h.2.2.2.1, ht, h.2.2.2.2.2⟩
theorem setUnits_keeps {t : Tab UnitSt} (ht : tabWf UnitSt.init t = true) : Keeps (setUnits t) := fun s h => by
  rw [tablesWf_iff] at h ⊢; exact ⟨h.1, h.2.1, h.2.2.1, h.2.2.2.1, h.2.2.2.2.1, ht, h.2.2.2.2.2.2⟩

/-- A Siskin port written. -/
theorem putSkn_keeps (n : Nat) (v : Skn) : Keeps (putSkn n v) := fun s h =>
  setSkn_keeps (tabWf_put _ _ _ _ ((tablesWf_iff s).1 h).2.2.2.2.1) s h
/-- A unit written. -/
theorem putUnit_keeps (n : Nat) (v : UnitSt) : Keeps (putUnit n v) := fun s h =>
  setUnits_keeps (tabWf_put _ _ _ _ ((tablesWf_iff s).1 h).2.2.2.2.2.1) s h
/-- Bytes stored in chip memory. -/
theorem memWrite_keeps (a : Nat) (bs : List Byte) : Keeps fun s => setMem (memWrite s.mem a bs) s := fun s h =>
  setMem_keeps (memWf_write _ _ _ ((tablesWf_iff s).1 h).1) s h
/-- Bytes stored in host memory. -/
theorem hostWrite_keeps (a : Nat) (bs : List Byte) : Keeps fun s => setHostMem (memWrite s.hostMem a bs) s := fun s h =>
  setHostMem_keeps (memWf_write _ _ _ ((tablesWf_iff s).1 h).2.1) s h
/-- A range of chip memory erased. -/
theorem memErase_keeps (a n : Nat) : Keeps fun s => setMem (memErase s.mem a n) s := fun s h =>
  setMem_keeps (memWf_filter _ _ ((tablesWf_iff s).1 h).1) s h
/-- A range of host memory erased. -/
theorem hostErase_keeps (a n : Nat) : Keeps fun s => setHostMem (memErase s.hostMem a n) s := fun s h =>
  setHostMem_keeps (memWf_filter _ _ ((tablesWf_iff s).1 h).2.1) s h

/-! Events. -/

/-- State `t` is `s` but for the event log, its counters, the alert pin and the outputs. -/
def EventOnly (s t : State) : Prop :=
  t = { s with evlog := t.evlog, glb := t.glb, pwr := { s.pwr with pins := t.pwr.pins }, out := t.out }

theorem EventOnly.refl (s : State) : EventOnly s s := rfl
theorem EventOnly.trans {s t u : State} (h : EventOnly s t) (k : EventOnly t u) : EventOnly s u := by
  unfold EventOnly at *; rw [k, h]

/-- Something may be sent besides. -/
theorem EventOnly.emit_if {s t : State} (c : Bool) (o : Out) (h : EventOnly s t) : EventOnly s (if c then emit o t else t) := by
  cases c
  · exact h
  · exact h.trans rfl

theorem evNotify_frame (code g seq : Nat) (s : State) : EventOnly s (evNotify code g seq s) := EventOnly.emit_if _ _ rfl

theorem emit_if_keeps (c : Bool) (o : Out) : Keeps fun s => if c then emit o s else s := fun s h => by
  cases c <;> exact h

theorem evNotify_keeps (code g seq : Nat) : Keeps (evNotify code g seq) := fun s h =>
  emit_if_keeps _ _ (syncAlert (onGlb _ s)) h

/-- What an event leaves (18 R346, R348): everything but the log, the event counters, the alert pin and the interrupt. -/
theorem raiseEv_frame (code : Nat) (ctx : Option Nat) (unit detail : Nat) (s : State) : EventOnly s (raiseEv code ctx unit detail s) := by
  unfold raiseEv; dsimp only; split
  · rfl
  · exact EventOnly.trans (t := setEvlog _ s) rfl (evNotify_frame _ _ _ _)

theorem raiseEv_keeps (code : Nat) (ctx : Option Nat) (unit detail : Nat) : Keeps (raiseEv code ctx unit detail) := fun s h => by
  have hw : (setEvlog (tabPut EvGroup.init s.evlog (evGroup s ctx) (evAdd (evQuota s) (tabGet EvGroup.init s.evlog (evGroup s ctx)) s.lark.time code ctx
      (if s.host.shared then (match ctx with | some c => (getCtx s c).part | none => 0) else 0) unit detail)) s).tablesWf = true :=
    setEvlog_keeps (tabWf_put _ _ _ _ ((tablesWf_iff s).1 h).2.2.2.1) s h
  unfold raiseEv; dsimp only; split
  · exact hw
  · exact evNotify_keeps _ _ _ _ hw

theorem raiseDev_frame (code detail : Nat) (s : State) : EventOnly s (raiseDev code detail s) := raiseEv_frame _ _ _ _ s
theorem raisePlain_frame (code : Nat) (ctx : Option Nat) (unit : Nat) (s : State) : EventOnly s (raisePlain code ctx unit s) := raiseEv_frame _ _ _ _ s
theorem raiseDev_keeps (code detail : Nat) : Keeps (raiseDev code detail) := raiseEv_keeps _ _ _ _
theorem raisePlain_keeps (code : Nat) (ctx : Option Nat) (unit : Nat) : Keeps (raisePlain code ctx unit) := raiseEv_keeps _ _ _ _

/-! Meters and counter slots. -/

theorem meter_keeps (c : Nat) (f : Meter → Meter) : Keeps (meter c f) := fun s h => by
  unfold meter; split <;> simpa using h

/-- State `t` is `s` but for counter slots and what their wraps raise. -/
def CountOnly (s t : State) : Prop :=
  t = { s with hsc := t.hsc, evlog := t.evlog, glb := t.glb, pwr := { s.pwr with pins := t.pwr.pins }, out := t.out }

theorem CountOnly.refl (s : State) : CountOnly s s := rfl
theorem CountOnly.trans {s t u : State} (h : CountOnly s t) (k : CountOnly t u) : CountOnly s u := by
  unfold CountOnly at *; rw [k, h]
theorem EventOnly.count {s t : State} (h : EventOnly s t) : CountOnly s t := by
  unfold EventOnly at h; unfold CountOnly; rw [h]

theorem slotAdd_frame (blk inst slot n : Nat) (s : State) : CountOnly s (slotAdd blk inst slot n s) := by
  unfold slotAdd; dsimp only; split
  · exact CountOnly.trans (t := setSlots _ s) rfl (raiseDev_frame _ _ _).count
  · rfl

theorem slotAdd_keeps (blk inst slot n : Nat) : Keeps (slotAdd blk inst slot n) := fun s h => by
  unfold slotAdd; dsimp only; split
  · exact raiseDev_keeps _ _ _ (setSlots_keeps (tabWf_put _ _ _ _ ((tablesWf_iff s).1 h).2.2.1) s h)
  · exact setSlots_keeps (tabWf_put _ _ _ _ ((tablesWf_iff s).1 h).2.2.1) s h

/-- Counting (02 R26) changes counter slots and what their wraps raise, nothing else. -/
theorem countFrom_frame (c blk inst code n k : Nat) (s : State) : CountOnly s (countFrom c blk inst code n k s) := by
  induction k with
  | zero => rfl
  | succ k ih =>
    unfold countFrom; dsimp only; split
    · exact ih.trans (slotAdd_frame _ _ _ _ _)
    · exact ih

theorem count_frame (c blk inst code n : Nat) (s : State) : CountOnly s (count c blk inst code n s) := by
  unfold count; split
  · rfl
  · exact countFrom_frame _ _ _ _ _ _ s

theorem countFrom_keeps (c blk inst code n k : Nat) : Keeps (countFrom c blk inst code n k) := fun s h => by
  induction k with
  | zero => exact h
  | succ k ih =>
    unfold countFrom; dsimp only; split
    · exact slotAdd_keeps _ _ _ _ _ ih
    · exact ih

theorem count_keeps (c blk inst code n : Nat) : Keeps (count c blk inst code n) := fun s h => by
  unfold count; split
  · exact h
  · exact countFrom_keeps _ _ _ _ _ _ s h

end Sys2Proof.Machine
end

