-- ==== Sys2Proof/Laws/Access.lean ====
section
/-! SUPPORT. What a context's memory accesses, completions and the command frame can do: the fields they leave, and that they keep the canonical form. -/

namespace Sys2Proof.Machine

/-! Accesses (06 R113). -/

/-- State `t` is `s` but for bytes of chip and host memory. -/
def MemOnly (s t : State) : Prop := t = { s with mem := t.mem, hostMem := t.hostMem }

theorem MemOnly.trans {s t u : State} (h : MemOnly s t) (k : MemOnly t u) : MemOnly s u := by
  unfold MemOnly at *; rw [k, h]

theorem dvaPut_frame (s : State) (c a : Nat) (acc : Acc) (bus : Bool) (b : Byte) : MemOnly s (dvaPut s c a acc bus b) := by
  unfold dvaPut locPut; split
  · split <;> rfl
  · rfl

theorem dvaStore_frame (c : Nat) (acc : Acc) (bus : Bool) (bs : List Byte) (a : Nat) (s : State) : MemOnly s (dvaStore c acc bus a bs s) := by
  induction bs generalizing a s with
  | nil => rfl
  | cons b bs ih => exact (dvaPut_frame s c a acc bus b).trans (ih _ _)

/-- A write that is let through changes bytes of memory and nothing else. -/
theorem dvaWrite_frame {s t : State} {c a : Nat} {bs : List Byte} {acc : Acc} {bus : Bool} (h : dvaWrite s c a bs acc bus = .ok t) : MemOnly s t := by
  unfold dvaWrite at h; split at h
  · cases h
  · cases h; exact dvaStore_frame _ _ _ _ _ _

theorem dvaPut_keeps (c a : Nat) (acc : Acc) (bus : Bool) (b : Byte) : Keeps fun s => dvaPut s c a acc bus b := fun s h => by
  unfold dvaPut; dsimp only; split
  · unfold locPut; split
    · exact setMem_keeps (memWf_put _ _ _ ((tablesWf_iff s).1 h).1) s h
    · exact setHostMem_keeps (memWf_put _ _ _ ((tablesWf_iff s).1 h).2.1) s h
  · exact h

theorem dvaStore_keeps (c : Nat) (acc : Acc) (bus : Bool) (bs : List Byte) (a : Nat) : Keeps (dvaStore c acc bus a bs) := by
  induction bs generalizing a with
  | nil => exact fun _ h => h
  | cons b bs ih => exact fun s h => ih _ _ (dvaPut_keeps c a acc bus b s h)

theorem dvaWrite_keeps {s t : State} {c a : Nat} {bs : List Byte} {acc : Acc} {bus : Bool} (h : dvaWrite s c a bs acc bus = .ok t)
    (hs : s.tablesWf = true) : t.tablesWf = true := by
  unfold dvaWrite at h; split at h
  · cases h
  · cases h; exact dvaStore_keeps _ _ _ _ _ s hs

/-! Completion (05 R84, R98). -/

theorem postRec_keeps (q : Nat) (r : StatusRec) (irq : Bool) : Keeps (postRec q r irq) := fun s h => by
  have h1 := hostWrite_keeps ((getQ s q).cq + 32 * ((getQ s q).written.toNat % 2 ^ (getQ s q).c))
    (recBytes { r with phase := (getQ s q).written.toNat / 2 ^ (getQ s q).c % 2 == 0 }) s h
  have h2 := hostWrite_keeps (getQ s q).cntAddr (natLE 4 ((getQ s q).cnt + 1).toNat ++ zeros 4)
    (putQ q { getQ s q with written := (getQ s q).written + 1, cnt := (getQ s q).cnt + 1 }
      (setHostMem (memWrite s.hostMem ((getQ s q).cq + 32 * ((getQ s q).written.toNat % 2 ^ (getQ s q).c))
        (recBytes { r with phase := (getQ s q).written.toNat / 2 ^ (getQ s q).c % 2 == 0 })) s)) h1
  unfold postRec; dsimp only; split <;> exact h2

theorem writeResult_keeps (p : Packet) (bs : List Byte) : Keeps (writeResult p bs) := fun s h => by
  unfold writeResult; split
  · rename_i t e; exact dvaWrite_keeps e h
  · exact h

/-- Result bytes, if there are any. -/
theorem writeResult_if_keeps (p : Packet) (bs : List Byte) : Keeps fun s => if bs.isEmpty then s else writeResult p bs s := fun s h => by
  dsimp only; split
  · exact h
  · exact writeResult_keeps p bs s h

theorem finishPlain_keeps (q : Nat) (d : Done) : Keeps (finishPlain q d) := fun s h => by
  unfold finishPlain; split
  · exact h
  · exact postRec_keeps _ _ _ _ (writeResult_if_keeps _ _ s h)

theorem finishEntry_keeps (q tag status detail rlen res0 res1 : Nat) (irq : Bool) : Keeps (finishEntry q tag status detail rlen res0 res1 irq) :=
  fun s h => postRec_keeps _ _ _ s h

theorem finishDesc_keeps (q status detail res0 res1 : Nat) : Keeps (finishDesc q status detail res0 res1) := fun s h => by
  unfold finishDesc; split
  · exact h
  · exact finishEntry_keeps _ _ _ _ _ _ _ _ s h

theorem failWaiter_keeps (q w : Nat) : Keeps fun s => failWaiter q s w := fun s h => by
  unfold failWaiter; dsimp only; split
  · exact finishDesc_keeps _ _ _ _ _ _ (finishPlain_keeps _ _ s h)
  · exact h

theorem failWaiters_keeps (q : Nat) : Keeps (failWaiters q) := fun s h => by
  unfold failWaiters
  have h1 := Keeps.foldl (f := failWaiter q) (s.host.queues.map Prod.fst) (fun w _ => failWaiter_keeps q w) s h
  refine Keeps.foldl _ (fun n _ => fun t ht => ?_) _ h1
  dsimp only; split <;> exact ht

theorem clearQueue_keeps (q mode : Nat) : Keeps (clearQueue q mode) := fun s h => by
  have h1 : (unfence q (putQ q (resetQueue mode (getQ s q)) s)).tablesWf = true := h
  unfold clearQueue; dsimp only; split
  · exact failWaiters_keeps _ _ h1
  · exact h1

theorem finishHost_keeps (q : Nat) (d : Done) : Keeps (finishHost q d) := fun s h => by
  unfold finishHost; dsimp only; split
  · exact clearQueue_keeps _ _ _ (writeResult_if_keeps _ _ s h)
  · exact finishPlain_keeps q d s h

theorem finishMgmt_keeps (d : Done) : Keeps (finishMgmt d) := fun s h => by
  unfold finishMgmt; split <;> exact h

theorem finishChain_keeps (n : Nat) (q : QRef) (d : Done) : Keeps (finishChain n q d) := by
  induction n generalizing q d with
  | zero => intro s h; cases q <;> exact h
  | succ n ih =>
    intro s h
    cases q with
    | mgmt => exact finishMgmt_keeps d s h
    | host q =>
      unfold finishChain; dsimp only; split
      · exact ih _ _ _ (finishHost_keeps q d s h)
      · exact finishHost_keeps q d s h

/-- A completion keeps the canonical form. -/
theorem finish_keeps (q : QRef) (d : Done) : Keeps (finish q d) := fun s h => finishChain_keeps _ q d s h

theorem abortQueue_keeps (status q : Nat) : Keeps (abortQueue status q) := fun s h => by
  unfold abortQueue; dsimp only; split
  · exact finishDesc_keeps _ _ _ _ _ _ (finish_keeps _ _ s h)
  · exact finishDesc_keeps _ _ _ _ _ s h

/-! The frame in which an opcode runs (05 R90 to R94). -/

@[simp] theorem tablesWf_countAuth (status : Nat) (s : State) : (countAuth status s).tablesWf = s.tablesWf := by
  unfold countAuth; split
  · rfl
  · split <;> rfl
@[simp] theorem tablesWf_markStarted (q : QRef) (s : State) : (markStarted q s).tablesWf = s.tablesWf := by cases q <;> rfl
@[simp] theorem tablesWf_dropBuf (q : QRef) (s : State) : (dropBuf q s).tablesWf = s.tablesWf := by cases q <;> rfl

/-- What a command's turn can do: nothing, a refusal in the dark or for its buffer, or what its body answers. -/
theorem runCmd_cases (op : Nat) (body : Body) (q : QRef) (s : State) :
    runCmd op body q s = s ∨ (∃ d u, (u = s ∨ u = dropBuf q s) ∧ runCmd op body q s = finish q d u) ∨
    ∃ p, startable s q = some p ∧ p.opcode = op ∧
      ((∃ d u, body q p s = (.done d, u) ∧ runCmd op body q s = finish q d (countAuth d.status u)) ∨
       (∃ d k u, body q p s = (.doneThen d k, u) ∧ runCmd op body q s = k (finish q d u)) ∨
       (∃ u, body q p s = (.later, u) ∧ runCmd op body q s = markStarted q u) ∨
       (∃ u, body q p s = (.wait, u) ∧ runCmd op body q s = u)) := by
  cases hs : startable s q with
  | none => exact .inl (by simp [runCmd, hs])
  | some p =>
    by_cases ht : (p.opcode == op && !p.started && serves s q && fenceMet s p) = true
    · by_cases hd : darkRefusal s op = true
      · exact .inr (.inl ⟨_, s, .inl rfl, by simp only [runCmd, hs, ht, hd]; rfl⟩)
      · cases hb : sealedBufErr s q p with
        | some d => exact .inr (.inl ⟨d, _, .inr rfl, by simp only [runCmd, hs, ht, hd, hb]; rfl⟩)
        | none =>
          refine .inr (.inr ⟨p, rfl, by simp at ht; exact ht.1.1.1, ?_⟩)
          cases hr : body q p s with
          | mk r u =>
            cases r with
            | done d => exact .inl ⟨d, u, rfl, by simp only [runCmd, hs, ht, hd, hb, hr]; rfl⟩
            | doneThen d k => exact .inr (.inl ⟨d, k, u, rfl, by simp only [runCmd, hs, ht, hd, hb, hr]; rfl⟩)
            | later => exact .inr (.inr (.inl ⟨u, rfl, by simp only [runCmd, hs, ht, hd, hb, hr]; rfl⟩))
            | wait => exact .inr (.inr (.inr ⟨u, rfl, by simp only [runCmd, hs, ht, hd, hb, hr]; rfl⟩))
    · exact .inl (by simp only [runCmd, hs]; simp only [Bool.not_eq_true] at ht; rw [ht]; rfl)

/-- A command keeps the canonical form if its body does, and so does what follows its completion. -/
theorem runCmd_keeps (op : Nat) (body : Body) (q : QRef)
    (hb : ∀ p s, s.tablesWf = true → (body q p s).2.tablesWf = true ∧ ∀ d k, (body q p s).1 = .doneThen d k → Keeps k) :
    Keeps (runCmd op body q) := fun s h => by
  rcases runCmd_cases op body q s with e | ⟨d, u, hu, e⟩ | ⟨p, -, -, ⟨d, u, e, r⟩ | ⟨d, k, u, e, r⟩ | ⟨u, e, r⟩ | ⟨u, e, r⟩⟩
  · rw [e]; exact h
  · rw [e]; refine finish_keeps _ _ _ ?_
    rcases hu with rfl | rfl
    · exact h
    · simpa using h
  · rw [r]; refine finish_keeps _ _ _ ?_; have := (hb p s h).1; rw [e] at this; simpa using this
  · rw [r]; have := hb p s h; rw [e] at this; exact this.2 d k rfl _ (finish_keeps _ _ _ this.1)
  · rw [r]; have := (hb p s h).1; rw [e] at this; simpa using this
  · rw [r]; have := (hb p s h).1; rw [e] at this; exact this

end Sys2Proof.Machine
end

