-- ==== Sys2Proof/Laws/Run.lean ====
section
/-! SUPPORT. What the shared operations of objects, accumulation tiles, runs and instructions can do: they keep the canonical form; and the four outcomes of an instruction at its site. -/

namespace Sys2Proof.Machine

/-! Objects and thickets (06 R127, 09 R182). -/

@[simp] theorem tablesWf_modRun (id : Nat) (f : Run → Run) (s : State) : (modRun id f s).tablesWf = s.tablesWf := rfl

theorem unbindFree_keeps (t : Nat) : Keeps (unbindFree t) := fun s h => by
  unfold unbindFree; split <;> exact h

theorem clearRegions_keeps (m : Model) : Keeps (clearRegions m) := fun s h => by
  unfold clearRegions
  refine Keeps.foldl _ (fun w _ t ht => ?_) s h
  refine setMem_keeps (memWf_filter _ _ ((tablesWf_iff t).1 ht).1) _ ?_
  simpa using ht

theorem removeObj_keeps (k : Nat) : Keeps (removeObj k) := fun s h => by
  unfold removeObj; split
  · exact h
  · rename_i o _
    have h1 := Keeps.foldl (objRanges o) (fun r _ => memErase_keeps r.1 r.2) s h
    dsimp only; split
    · exact h1
    · rename_i p _
      exact Keeps.foldl (maskThks p.mask) (fun t _ u hu => unbindFree_keeps t (modThk t _ u) hu) _ h1
    · exact Keeps.foldl _ (fun t _ u hu => unbindFree_keeps t u hu) _ (clearRegions_keeps _ _ h1)

theorem reap_keeps (k : Nat) : Keeps (reap k) := fun s h => by
  unfold reap; split
  · split
    · exact removeObj_keeps k s h
    · exact h
  · exact h

theorem dropRef_keeps (k : Nat) : Keeps (dropRef k) := fun _ h => reap_keeps k _ h
theorem dropHost_keeps (k : Nat) : Keeps (dropHost k) := fun _ h => reap_keeps k _ h

/-! Accumulation tiles (10). -/

theorem countStl_keeps (r : Roost) (code n : Nat) : Keeps (countStl r code n) := fun s h => by
  unfold countStl; split <;> exact count_keeps _ _ _ _ _ s h

theorem putTile_keeps (r : Roost) (f : AccFmt) (t : Nat) (es : List Elem) : Keeps (putTile r f t es) := fun s h => memWrite_keeps _ _ s h

theorem storeTile_keeps (r : Roost) (f : AccFmt) (t : Nat) (es : List Elem) (v : Tsw) : Keeps (storeTile r f t es v) :=
  fun s h => putTile_keeps r f t es s h

theorem markLimit_keeps (r : Roost) (t : Nat) : Keeps (markLimit r t) := fun _ h => raisePlain_keeps _ _ _ _ h
theorem markExhausted_keeps (r : Roost) (t : Nat) : Keeps (markExhausted r t) := fun _ h => raisePlain_keeps _ _ _ _ h

theorem addFixedTile_keeps (r : Roost) (t : Nat) (term : Nat → Option (List Int)) (pre : List Int) (sigma : Nat) (o : Option Tsw) :
    Keeps (addFixedTile r t term pre sigma o) := fun s h => by
  unfold addFixedTile; dsimp only; split
  · exact h
  · split
    · exact markExhausted_keeps r t s h
    · refine storeTile_keeps _ _ _ _ _ _ ?_
      split
      · exact h
      · exact countStl_keeps _ _ _ s h

/-- Limit or store: what both kinds of add end in. -/
theorem limit_or_store_keeps (r : Roost) (f : AccFmt) (t : Nat) (es : List Elem) (v : Tsw) :
    Keeps fun s => if overLimit es then markLimit r t s else storeTile r f t es v s := fun s h => by
  dsimp only; split
  · exact markLimit_keeps r t s h
  · exact storeTile_keeps r f t es v s h

theorem addRow_keeps (r : Roost) (f : AccFmt) (k t : Nat) (row : List Elem) : Keeps (addRow r f k t row) := fun s h => by
  have h1 := countStl_keeps r (rowEvent f) 1 s h
  unfold addRow; dsimp only; split
  · exact addFixedTile_keeps _ _ _ _ _ _ _ h1
  · exact limit_or_store_keeps r f t _ _ _ h1

theorem combineRow_keeps (r : Roost) (f : AccFmt) (t : Nat) (swap : Bool) (row : List Elem) (o : Tsw) : Keeps (combineRow r f t swap row o) := fun s h => by
  have h1 := countStl_keeps r (rowEvent f) 1 s h
  unfold combineRow; dsimp only; split
  · exact addFixedTile_keeps _ _ _ _ _ _ _ h1
  · exact limit_or_store_keeps r f t _ _ _ h1

theorem setIdentity_keeps (r : Roost) (f : AccFmt) (sigma : Nat) (g : Option Nat) (t : Nat) : Keeps (setIdentity r f sigma g t) :=
  fun s h => putTile_keeps r f t _ s h

theorem flushTile_keeps (r : Roost) (f : AccFmt) (t : Nat) : Keeps (flushTile r f t) := fun s h => by
  unfold flushTile; dsimp only; split
  · exact h
  · exact countStl_keeps _ _ _ _ (putTile_keeps r f t _ _ h)

theorem putTsw_keeps (r : Roost) (t : Nat) (v : Tsw) : Keeps (putTsw r t v) := fun _ h => h
theorem stick_keeps (r : Roost) (v : Tsw) (es : List Elem) : Keeps (stick r v es) := fun _ h => h

theorem pushLeaf_keeps (r : Roost) (f : AccFmt) (order t : Nat) (row : List Elem) (o : Option Tsw) : Keeps (pushLeaf r f order t row o) := fun s h => by
  have h1 := countStl_keeps r (rowEvent f) 1 s h
  unfold pushLeaf; dsimp only
  generalize countStl r (rowEvent f) 1 s = u at h1 ⊢
  have h2 := putTsw_keeps r t (tswEnter f o (getTsw r t u)) u h1
  generalize putTsw r t (tswEnter f o (getTsw r t u)) u = v at h2 ⊢
  have h3 : ∀ rows, (modWren r.w (fun x => { x with pend := tabPut [] x.pend (tswKey r t) rows }) v).tablesWf = true := fun _ => by simpa using h2
  split
  · exact flushTile_keeps _ _ _ _ (stick_keeps _ _ _ _ (h3 _))
  · exact stick_keeps _ _ _ _ (h3 _)

theorem addUnder_keeps (r : Roost) (g : Nat) (f : AccFmt) (k t : Nat) (row : List Elem) : Keeps (addUnder r g f k t row) := fun s h => by
  unfold addUnder; dsimp only; split
  · exact pushLeaf_keeps _ _ _ _ _ _ s h
  · exact addRow_keeps _ _ _ _ _ s h

theorem closeGroup_keeps (r : Roost) (g : Nat) : Keeps (closeGroup r g) := fun s h => by
  unfold closeGroup; dsimp only
  exact Keeps.foldl (f := fun s t => putTsw r t { getTsw r t s with opn := false, group := 0 }
    (modWren r.w (fun x => { x with pend := tabDel x.pend (tswKey r t) }) s)) _ (fun _ _ _ hu => hu) s h

theorem flushGroup_keeps (r : Roost) (g : Nat) : Keeps (flushGroup r g) := fun s h => by
  unfold flushGroup; dsimp only; split
  · exact closeGroup_keeps _ _ _ (Keeps.foldl _ (fun t _ u hu => flushTile_keeps _ _ t u hu) s h)
  · exact h

theorem closeGroups_keeps (r : Roost) (flush : Bool) : Keeps (closeGroups r flush) := fun s h => by
  unfold closeGroups
  refine Keeps.foldl _ (fun g _ u hu => ?_) s h
  dsimp only; split
  · exact flushGroup_keeps r g u hu
  · split
    · exact closeGroup_keeps r g u hu
    · exact hu

/-! Runs (09). -/

theorem retired_keeps (x : Site) : Keeps (retired x) := fun _ h => count_keeps _ _ _ _ _ _ (count_keeps _ _ _ _ _ _ h)
theorem retire_keeps (x : Site) : Keeps (retire x) := fun _ h => retired_keeps x _ h

theorem blockOn_keeps (x : Site) (code : Nat) : Keeps (blockOn x code) := fun s h => by
  unfold blockOn; split
  · exact h
  · exact count_keeps _ _ _ _ _ _ (count_keeps _ _ _ _ _ _ h)

theorem scrubWren_keeps (p : Prog) (w : Nat) : Keeps (scrubWren p w) := fun s h =>
  setMem_keeps (memWf_filter _ _ (memWf_filter _ _ ((tablesWf_iff s).1 h).1)) s h

theorem freeWren_keeps (w : Nat) : Keeps (freeWren w) := fun _ h => h
theorem releaseAll_keeps (id : Nat) : Keeps (releaseAll id) := fun _ h => h

theorem completeRun_keeps (r : Run) (status detail res0 res1 : Nat) : Keeps (completeRun r status detail res0 res1) := fun s h => by
  unfold completeRun; split
  · exact finishDesc_keeps _ _ _ _ _ s h
  · exact finish_keeps _ _ s h

theorem dropRun_keeps (r : Run) : Keeps (dropRun r) := fun s h => by
  unfold dropRun; dsimp only
  have h1 : ∀ u : State, u.tablesWf = true → (r.wrens.foldl (fun t w =>
      let t := match progOf s r.prog with | some p => if p.secret && r.st != 0 then scrubWren p w t else t | none => t
      if r.st = 0 then t else freeWren w t) u).tablesWf = true := fun u hu => by
    refine Keeps.foldl r.wrens (fun w _ t ht => ?_) u hu
    have h2 : (match progOf s r.prog with | some p => if p.secret && r.st != 0 then scrubWren p w t else t | none => t).tablesWf = true := by
      split
      · split
        · exact scrubWren_keeps _ w t ht
        · exact ht
      · exact ht
    dsimp only; split
    · exact h2
    · exact freeWren_keeps w _ h2
  have h3 := h1 _ (releaseAll_keeps r.id s h)
  generalize List.foldl _ (releaseAll r.id s) r.wrens = u at h3 ⊢
  have h4 : (onFab (fun f => { f with runs := f.runs.filter fun x => x.id != r.id }) u).tablesWf = true := h3
  split
  · exact h4
  · exact Keeps.foldl _ (fun k _ u hu => dropRef_keeps k u hu) _ h4

theorem endRunAll_keeps (r : Run) : Keeps (endRunAll r) := fun s h => completeRun_keeps _ _ _ _ _ _ (dropRun_keeps r s h)

theorem closeWren_keeps (p : Prog) (c w : Nat) (flush : Bool) : Keeps (closeWren p c w flush) := fun s h => closeGroups_keeps _ _ s h

theorem stopRun_keeps (r : Run) : Keeps (stopRun r) := fun s h => by
  unfold stopRun; refine dropRun_keeps r _ ?_
  split
  · split
    · exact h
    · exact Keeps.foldl _ (fun w _ u hu => closeWren_keeps _ _ w _ u hu) s h
  · exact h

theorem faultRun_keeps (r : Run) (w ix status detail : Nat) (addr : Option Nat) : Keeps (faultRun r w ix status detail addr) :=
  fun _ h => completeRun_keeps _ _ _ _ _ _ (stopRun_keeps r _ h)

theorem abortRun_keeps (status : Nat) (r : Run) : Keeps fun s => abortRun status s r :=
  fun s h => completeRun_keeps _ _ _ _ _ _ (stopRun_keeps r s h)

theorem writeLocal_keeps (w off : Nat) (bs : List Byte) : Keeps (writeLocal w off bs) := fun s h => memWrite_keeps _ _ s h
theorem setSr_keeps (w n v : Nat) : Keeps (setSr w n v) := fun s h => by
  unfold setSr; split <;> exact h

/-! The frame of an instruction. -/

/-- The states inside an outcome. -/
def WOut.state? : WOut → Option State
  | .retire s => some s
  | .jump _ s => some s
  | .block _ s => some s
  | .fault .. => none
  | .hold s => some s

/-- An outcome keeps the canonical form if its state does. -/
theorem settle_keeps (x : Site) (s : State) (o : WOut) (h : s.tablesWf = true) (ho : ∀ t, o.state? = some t → t.tablesWf = true) :
    (settle x s o).tablesWf = true := by
  cases o with
  | retire t => exact retire_keeps x t (ho t rfl)
  | jump ix t => exact retired_keeps x _ (ho t rfl)
  | block c t => exact blockOn_keeps x c t (ho t rfl)
  | fault st d a => exact faultRun_keeps _ _ _ _ _ _ s h
  | hold t => exact ho t rfl

/-- What an instruction row can do: nothing where the Wren does not stand at it, retirement where its predicate is false, or its outcome. -/
theorem runInsn_cases (cls op : Nat) (body : Site → State → WOut) (w : Nat) (s : State) :
    runInsn cls op body w s = s ∨ ∃ x, siteOf s w = some x ∧ insClass x.insn = cls ∧ insOp x.insn = op ∧
      (skipped x s = true ∧ runInsn cls op body w s = retire x s ∨ skipped x s = false ∧ runInsn cls op body w s = settle x s (body x s)) := by
  unfold runInsn
  cases hs : siteOf s w with
  | none => exact .inl rfl
  | some x =>
    dsimp only; split
    · exact .inl rfl
    · rename_i hn
      refine .inr ⟨x, rfl, Decidable.byContradiction fun e => hn (.inl e), Decidable.byContradiction fun e => hn (.inr e), ?_⟩
      split
      · rename_i h; exact .inl ⟨h, rfl⟩
      · rename_i h; exact .inr ⟨by simpa using h, rfl⟩

/-- An instruction row keeps the canonical form if its outcomes do. -/
theorem runInsn_keeps (cls op : Nat) (body : Site → State → WOut) (w : Nat)
    (hb : ∀ x s t, s.tablesWf = true → (body x s).state? = some t → t.tablesWf = true) : Keeps (runInsn cls op body w) := fun s h => by
  rcases runInsn_cases cls op body w s with e | ⟨x, -, -, -, ⟨-, e⟩ | ⟨-, e⟩⟩
  · rw [e]; exact h
  · rw [e]; exact retire_keeps x s h
  · rw [e]; exact settle_keeps x s _ h fun t ht => hb x s t h ht

end Sys2Proof.Machine
end

