-- ==== Sys2Proof/WellFormed.lean ====
section
/-! DEFINITION. Well-formed commands: every operand lies within the range that the chapter of its row gives it. A meaning is total all the same: a command outside these ranges names nothing the chip has. -/

namespace Sys2Proof

/-- Virtual functions are 1 to 63 (19 Table 19.4, R367). -/
def Fn.wf : Fn → Bool
  | .pf => true
  | .vf v => decide (1 ≤ v) && decide (v ≤ 63)

/-- Queue numbers are 0 to 65,535 (06 R118, 19 R365). -/
def QRef.wf : QRef → Bool
  | .host n => decide (n < 65536)
  | .mgmt => true

/-- A queue, or a queue pair of 24-bit number (12 R237). -/
def Waiter.wf : Waiter → Bool
  | .queue n => decide (n < 65536)
  | .qp n => decide (n < 2 ^ 24)

/-- Linnet has engines 0 to 4 (12). -/
def Engine.wf : Engine → Bool
  | .linnet e => decide (e ≤ 4)
  | _ => true

/-- Linnet has engines 0 to 4 (12). -/
def TimeShared.wf : TimeShared → Bool
  | .linnet e => decide (e ≤ 4)
  | _ => true

/-- HBM stacks are 0 to 5 (03). -/
def PldmSensor.wf : PldmSensor → Bool
  | .hbm n => decide (n < 6)
  | _ => true

/-- Partitions are 0 to 7 (07 R142). -/
def Level.wf : Level → Bool
  | .slice p => decide (p < 8)
  | _ => true

/-- The token's fields (04 R73): 16-byte device identifier, 32-byte nonce, four roots. -/
def UnlockToken.wf (t : UnlockToken) : Bool :=
  decide (t.deviceId.length = 16) && decide (t.nonce.length = 32) && decide (t.rootIndex < 4)

/-- The message's fields (04, Edges). -/
def RecoveryMsg.wf (m : RecoveryMsg) : Bool :=
  decide (m.deviceId.length = 16) && decide (m.epoch < 1024) && decide (m.floor < 2 ^ 32) && decide (m.counter < 2 ^ 32)
    && decide (m.rootIndex < 4)

/-- The header fields of a Linnet packet fit (12 Table 12.1). -/
def LntPkt.wf (p : LntPkt) : Bool :=
  decide (p.engine ≤ 4) && decide (p.typ < 256) && decide (p.dest < 2 ^ 24) && decide (p.src < 2 ^ 24)
    && decide (p.psn < 2 ^ 24) && decide (p.apsn < 2 ^ 24) && decide (p.srcPort < 65536) && decide (p.dstPort < 65536)

/-- The header fields of a Quintidy packet fit (14 Table 14.2). -/
def QtdPkt.wf (p : QtdPkt) : Bool :=
  decide (p.inPort ≤ 24) && decide (p.cls < 4) && decide (p.vc < 2) && decide (p.dest < 2 ^ 17) && decide (p.src < 2 ^ 17)
    && decide (p.slice < 4096) && decide (p.part < 8)

/-- FSEQ and ASEQ are 12 bits (13 Table 13.2). -/
def Frame.wf (f : Frame) : Bool := decide (f.fseq < 4096) && decide (f.aseq < 4096)

/-- What EXCHANGE carries (13 Table 13.4). -/
def TrainReport.wf (r : TrainReport) : Bool :=
  decide (r.chip < 2 ^ 17) && decide (r.port < 24) && decide (r.roleClass < 4)

/-- A chip number is 17 bits (03 R59). -/
def JoinReport.wf (r : JoinReport) : Bool := decide (r.chip < 2 ^ 17) && r.ports.all fun p => decide (p.1 < 24)

/-- Links 0 to 9 and chords 10 to 12 (14 R283). -/
def LinkAdv.wf (a : LinkAdv) : Bool := decide (a.chip < 2 ^ 17) && decide (a.link < 13)

/-- A chip number is 17 bits (03 R59). -/
def Bid.wf (b : Bid) : Bool := decide (b.chip < 2 ^ 17)

/-- Header fields of a round message (15 Table 15.4). -/
def RoundMsg.wf (m : RoundMsg) : Bool := decide (m.index < 2 ^ 32) && decide (m.offset < 2 ^ 64)

/-- A temperature in the 8-bit field of PWR_TJ (03 Table 3.15). -/
def tempOk (t : Int) : Bool := decide (-128 ≤ t) && decide (t ≤ 127)

/-- A register offset (19 R358). -/
def offOk (o : Nat) : Bool := decide (o < 0x20000000)

/-- The width of one read or write request, in bytes. -/
def widthOk (n : Nat) : Bool := n == 1 || n == 2 || n == 4 || n == 8 || n == 16 || n == 32 || n == 64

/-- Every operand is in its range. -/
def Instr.wf : Instr → Bool
  | .vinOn => true
  | .strapLatch samples => decide (samples.length = 8)
  | .vinLow => true
  | .vinLowClear => true
  | .vinUv _ => true
  | .vinOv _ => true
  | .thermalAnalogStop _ => true
  | .removal _ => true
  | .matedReturnStop => true
  | .modLatchOpen => true
  | .carPwrEnLow _ => true
  | .coldResetPin _ => true
  | .coldResetRelease => true
  | .prochotLow => true
  | .prochotReleaseSample _ => true
  | .thermalWarn tj sensor => tempOk tj && decide (sensor < 96)
  | .throttlePeriod tj sensor => tempOk tj && decide (sensor < 96)
  | .throttleRecovery tj sensor => tempOk tj && decide (sensor < 96)
  | .pointChangeSettled => true
  | .critTrip tj sensor => tempOk tj && decide (sensor < 96)
  | .hbmStackLimit stack temp => decide (stack < 6) && tempOk temp
  | .powerWindow mean vin => decide (mean < 65536) && decide (vin < 65536)
  | .powerCeilingRise => true
  | .runToIdle => true
  | .powerTransitionDone => true
  | .warmResetPin => true
  | .warmResetScrubDone => true
  | .functionLevelReset f => f.wf
  | .vfEnableWrite _ num => decide (num < 65536)
  | .bootSequence => true
  | .firmwareReady => true
  | .bootMbxGo => true
  | .fabricBootRequest => true
  | .fabricBootTimeout => true
  | .debugHold => true
  | .debugUnlockToken tok => tok.wf
  | .debugHoldTimeout => true
  | .recoveryMessage msg => msg.wf
  | .replicaOverrun _ w => decide (w < 1536)
  | .counterWrap blk inst slot => decide (1 ≤ blk) && decide (blk ≤ 10) && decide (inst < 1536) && decide (slot < 4)
  | .lrkSnap _ => true
  | .ppsMeasurement => true
  | .ptpSyncExchange _ => true
  | .slewLocked => true
  | .lrkCtlWrite _ => true
  | .lrkStep _ => true
  | .referenceLoss => true
  | .holdoverReselect => true
  | .referenceReturn => true
  | .ptpSyncLoss => true
  | .ppsOutRise => true
  | .ppsOutFall => true
  | .beatFire n => decide (n < 16)
  | .lrkBeatCfgWrite n _ => decide (n < 16)
  | .doorbell f q _ => f.wf && decide (q < 65536)
  | .statusRelease f q _ => f.wf && decide (q < 65536)
  | .kcpFetch q => decide (q < 65536)
  | .waitMet q => q.wf
  | .startTimeout q => q.wf
  | .admqCtlWrite f _ => f.wf
  | .nop q => q.wf
  | .getInfo q => q.wf
  | .setPowerState q => q.wf
  | .setPoint q => q.wf
  | .setPowerCap q => q.wf
  | .reset q => q.wf
  | .raiseSvnFloor q => q.wf
  | .fwUpdate q => q.wf
  | .setTenancy q => q.wf
  | .setHostMode q => q.wf
  | .ctxCreate q => q.wf
  | .ctxDestroy q => q.wf
  | .ctxReset q => q.wf
  | .engineAck c e => decide (c < 4096) && e.wf
  | .engineAckTimeout c e => decide (c < 4096) && e.wf
  | .contextScrubDone c => decide (c < 4096)
  | .ctxQuery q => q.wf
  | .queueCreate q => q.wf
  | .queueDestroy q => q.wf
  | .queueReset q => q.wf
  | .objRelease q => q.wf
  | .faultResume q => q.wf
  | .memAlloc q => q.wf
  | .memFree q => q.wf
  | .memMap q => q.wf
  | .memUnmap q => q.wf
  | .winOpen q => q.wf
  | .winRevoke q => q.wf
  | .memCopy q => q.wf
  | .memFill q => q.wf
  | .dmaCopy q => decide (q < 65536)
  | .dmaFill q => decide (q < 65536)
  | .dmaMarker q => decide (q < 65536)
  | .keyLoad q => q.wf
  | .keyEvict q => q.wf
  | .keyDerive q => q.wf
  | .keyWrap q => q.wf
  | .keyStage q => q.wf
  | .keyCommit q => q.wf
  | .keyOldReleased slot => decide (slot < 256)
  | .keyUpdate q => q.wf
  | .keyQuery q => q.wf
  | .reportPlatform q => q.wf
  | .reportContext q => q.wf
  | .measLogRead q => q.wf
  | .certRead q => q.wf
  | .progLoad q => q.wf
  | .progUnload q => q.wf
  | .progRun q => q.wf
  | .launch q => decide (q < 65536)
  | .launchMarker q => decide (q < 65536)
  | .runStart _ => true
  | .runStalled _ => true
  | .stallExamination => true
  | .modelLoad q => q.wf
  | .modelUnload q => q.wf
  | .modelQuery q => q.wf
  | .roundCreate q => q.wf
  | .roundJoin q => q.wf
  | .roundStart q => q.wf
  | .roundAbort q => q.wf
  | .roundStatus q => q.wf
  | .roundResult q => q.wf
  | .setFloor q => q.wf
  | .sessionListen q => q.wf
  | .listenClose q => q.wf
  | .sessionQuery q => q.wf
  | .sessionEvict q => q.wf
  | .qpCreate q => q.wf
  | .qpModify q => q.wf
  | .qpDestroy q => q.wf
  | .portConfig q => q.wf
  | .ccConfig q => q.wf
  | .fabricStatus q => q.wf
  | .sliceCreate q => q.wf
  | .sliceDestroy q => q.wf
  | .linkConfig q => q.wf
  | .laneRelease q => q.wf
  | .fabricDrain q => q.wf
  | .wblTableLoad q => q.wf
  | .wblTableUnload q => q.wf
  | .wblStreamOpen q => q.wf
  | .wblStreamClose q => q.wf
  | .wblNormalize q => q.wf
  | .timeRead q => q.wf
  | .timeConfig q => q.wf
  | .beatArm q => q.wf
  | .beatDisarm q => q.wf
  | .wallOffsetSet q => q.wf
  | .periodClose q => q.wf
  | .periodCloseTakesEffect => true
  | .meterRead q => q.wf
  | .eventLogRead q => q.wf
  | .counterSelect q => q.wf
  | .snapshot q => q.wf
  | .unitStatus q => q.wf
  | .unitRelease q => q.wf
  | .unitReleaseCheck _ dataPath robin => decide (dataPath < 16) && decide (robin < 16)
  | .unitDisagreement _ dataPath robin => decide (dataPath < 16) && decide (robin < 16)
  | .echo q => q.wf
  | .mctpKcp pkt => decide (64 ≤ pkt.length) && decide (pkt.length ≤ 4096)
  | .pldmBaseDiscovery => true
  | .pldmSensorRead sensor => sensor.wf
  | .pldmFwUpdate _ => true
  | .getVersion => true
  | .getCapabilities => true
  | .negotiateAlgorithms => true
  | .getDigests => true
  | .getCertificate offset len => decide (offset < 65536) && decide (len < 65536)
  | .challenge nonce => decide (nonce.length = 32)
  | .getMeasurements index nonce => decide (index < 256) && decide (nonce.length = 32)
  | .timeShareSlot unit => unit.wf
  | .partitionScrubDone p => decide (p < 8)
  | .wrenNop w => decide (w < 1536)
  | .endRun w => decide (w < 1536)
  | .br w => decide (w < 1536)
  | .loop w => decide (w < 1536)
  | .add w => decide (w < 1536)
  | .sub w => decide (w < 1536)
  | .and w => decide (w < 1536)
  | .or w => decide (w < 1536)
  | .xor w => decide (w < 1536)
  | .shl w => decide (w < 1536)
  | .shr w => decide (w < 1536)
  | .mul w => decide (w < 1536)
  | .cmpeq w => decide (w < 1536)
  | .cmpltu w => decide (w < 1536)
  | .cmplts w => decide (w < 1536)
  | .mov w => decide (w < 1536)
  | .rdarg w => decide (w < 1536)
  | .rdtime w => decide (w < 1536)
  | .move w => decide (w < 1536)
  | .peer w => decide (w < 1536)
  | .fill w => decide (w < 1536)
  | .wrenAsyncComplete w _ => decide (w < 1536)
  | .peerPlaced w _ => decide (w < 1536)
  | .peerTimeout w => decide (w < 1536)
  | .wld w => decide (w < 1536)
  | .wswap w => decide (w < 1536)
  | .mma w => decide (w < 1536)
  | .vadd w => decide (w < 1536)
  | .preload w => decide (w < 1536)
  | .tread w => decide (w < 1536)
  | .twrite w => decide (w < 1536)
  | .topk w => decide (w < 1536)
  | .maxi w => decide (w < 1536)
  | .mini w => decide (w < 1536)
  | .combine w => decide (w < 1536)
  | .madd w => decide (w < 1536)
  | .msub w => decide (w < 1536)
  | .mmul w => decide (w < 1536)
  | .mmac w => decide (w < 1536)
  | .mscal w => decide (w < 1536)
  | .ntt w => decide (w < 1536)
  | .intt w => decide (w < 1536)
  | .plift w => decide (w < 1536)
  | .sample w => decide (w < 1536)
  | .modsw w => decide (w < 1536)
  | .ksw w => decide (w < 1536)
  | .extract w => decide (w < 1536)
  | .pdec w => decide (w < 1536)
  | .semwait w => decide (w < 1536)
  | .semsig w => decide (w < 1536)
  | .bar w => decide (w < 1536)
  | .cwait w => decide (w < 1536)
  | .bwait w => decide (w < 1536)
  | .arrwait w => decide (w < 1536)
  | .eventWaitTimeout w => decide (w < 1536)
  | .rsv w => decide (w < 1536)
  | .rls w => decide (w < 1536)
  | .fence w => decide (w < 1536)
  | .eng w => decide (w < 1536)
  | .mask w => decide (w < 1536)
  | .gateAnd w => decide (w < 1536)
  | .gateOr w => decide (w < 1536)
  | .gateNand w => decide (w < 1536)
  | .gateNor w => decide (w < 1536)
  | .gateXor w => decide (w < 1536)
  | .gateXnor w => decide (w < 1536)
  | .andny w => decide (w < 1536)
  | .orny w => decide (w < 1536)
  | .gateMux w => decide (w < 1536)
  | .gateNot w => decide (w < 1536)
  | .gateCopy w => decide (w < 1536)
  | .switchBits w => decide (w < 1536)
  | .wblByte w => decide (w < 1536)
  | .wblEnd w => decide (w < 1536)
  | .wblPad w => decide (w < 1536)
  | .wblRestart w => decide (w < 1536)
  | .ingressRowAdd w tile _ row => decide (w < 1536) && decide (tile < 4096) && decide (row.length ≤ 8192)
  | .ethLinkDown e => decide (e < 4)
  | .ethLinkUp e => decide (e < 4)
  | .ethHoldExpiry e => decide (e < 4)
  | .icmpv6Echo e _ _ _ => decide (e < 4)
  | .neighbourSolicitation e _ _ => decide (e < 4)
  | .routerAdvertisement e _ => decide (e < 4)
  | .sHello p => p.wf
  | .sData p => p.wf
  | .sClose p => p.wf
  | .sessionIdleTimeout i => decide (i < 2 ^ 18)
  | .coldSessionFetch i => decide (i < 2 ^ 18)
  | .postWrite f qp _ => f.wf && decide (qp < 2 ^ 24)
  | .postWriteImm f qp _ => f.wf && decide (qp < 2 ^ 24)
  | .postRead f qp _ => f.wf && decide (qp < 2 ^ 24)
  | .postFlush f qp _ => f.wf && decide (qp < 2 ^ 24)
  | .postAccWrite f qp _ => f.wf && decide (qp < 2 ^ 24)
  | .rxWrite p => p.wf
  | .writeImm p => p.wf
  | .readReq p => p.wf
  | .readResp p => p.wf
  | .flush p => p.wf
  | .accWrite p => p.wf
  | .ack p => p.wf
  | .nakSequence p => p.wf
  | .nakAccess p => p.wf
  | .nakStalled p => p.wf
  | .nakReceiveFull p => p.wf
  | .nakGroup p => p.wf
  | .nakMemoryError p => p.wf
  | .notReady p => p.wf
  | .notReadyResend qp => decide (qp < 2 ^ 24)
  | .stallNakTimer qp => decide (qp < 2 ^ 24)
  | .retransmitTimeout qp => decide (qp < 2 ^ 24)
  | .receiveFullResend qp => decide (qp < 2 ^ 24)
  | .connect p => p.wf
  | .connectRetry qp => decide (qp < 2 ^ 24)
  | .accept p => p.wf
  | .confirm p => p.wf
  | .provisionalBindTimeout qp => decide (qp < 2 ^ 24)
  | .reject p => p.wf
  | .terminate p => p.wf
  | .lntQpCqRead f qp _ => f.wf && decide (qp < 2 ^ 24)
  | .lntQpRqRead f qp _ => f.wf && decide (qp < 2 ^ 24)
  | .linkTraining n r => decide (n < 24) && r.wf
  | .detectRetry n r => decide (n < 24) && r.wf
  | .dataFrame n fr => decide (n < 24) && fr.wf
  | .replayTimeout n => decide (n < 24)
  | .linkDown n => decide (n < 24)
  | .laneDrop n lane => decide (n < 24) && decide (lane < 8)
  | .laneAdd n lane => decide (n < 24) && decide (lane < 8)
  | .laneClearReadmit n lane => decide (n < 24) && decide (lane < 8)
  | .laneLockLoss n lane => decide (n < 24) && decide (lane < 8)
  | .laneErrorRate n lane => decide (n < 24) && decide (lane < 8)
  | .floodDcTrip n lane => decide (n < 24) && decide (lane < 8)
  | .floodEnvelopeTrip n lane => decide (n < 24) && decide (lane < 8)
  | .floodQuarantine n lane => decide (n < 24) && decide (lane < 8)
  | .siskinLinkLoss n => decide (n < 24)
  | .siskinHoldExpiry n => decide (n < 24)
  | .roostReq n k => decide (n < 24) && decide (k < 32)
  | .roostAck n => decide (n < 24)
  | .roostIdle n => decide (n < 24)
  | .roostWake n _ => decide (n < 24)
  | .wake n _ lane => decide (n < 24) && decide (lane < 8)
  | .demandWake n => decide (n < 24)
  | .wakePatternHeard n _ => decide (n < 24)
  | .dawnChorus n => decide (n < 24)
  | .chorusTimeout n => decide (n < 24)
  | .status n _ => decide (n < 24)
  | .creditReturn n cls vc _ _ => decide (n < 24) && decide (cls < 4) && decide (vc < 2)
  | .qtdForward p => p.wf
  | .qtdLinnet p => p.wf
  | .memWr p => p.wf
  | .memRdReq p => p.wf
  | .memRdResp p => p.wf
  | .acc p => p.wf
  | .qtdPeer p => p.wf
  | .fw p => p.wf
  | .notice p => p.wf
  | .timeSync _ => true
  | .timeSyncPeriod _ => true
  | .boot n => decide (n < 24)
  | .joinReport r => r.wf
  | .linkStateAdvertisement a => a.wf
  | .beacon lvl b => lvl.wf && b.wf
  | .beaconSend lvl => lvl.wf
  | .claimWaitExpiry lvl => lvl.wf
  | .claim lvl b => lvl.wf && b.wf
  | .claimWindowEnd lvl => lvl.wf
  | .managerLoss lvl => lvl.wf
  | .enrol sess m => decide (sess < 2 ^ 18) && m.wf
  | .shares sess m => decide (sess < 2 ^ 18) && m.wf
  | .vector sess m => decide (sess < 2 ^ 18) && m.wf
  | .commit sess m => decide (sess < 2 ^ 18) && m.wf
  | .response sess m => decide (sess < 2 ^ 18) && m.wf
  | .norm sess m => decide (sess < 2 ^ 18) && m.wf
  | .partialDecryption _ _ _ => true
  | .roundPhaseEnd _ => true
  | .unmask _ => true
  | .publish _ => true
  | .workerLost _ chip => decide (chip < 2 ^ 17)
  | .dnkHpoolLenWrite _ => true
  | .pwrPtReqWrite _ => true
  | .pwrCapWrite _ => true
  | .pwrThermCfgWrite _ => true
  | .rcRead f off width => f.wf && offOk off && widthOk width
  | .halfReadLatch f off => f.wf && offOk off
  | .registerWrite f off width _ => f.wf && offOk off && widthOk width
  | .perstNRelease => true
  | .prochotHigh => true
  | .atsInvalidation addr len => decide (addr < 2 ^ 64) && decide (len ≤ 2 ^ 64)
  | .fabricBootImage _ => true
  | .controlMessageRepeat n => decide (n < 24)

end Sys2Proof
end

