-- ==== Sys2Proof/Tests/Slice0.lean ====
section
/-! SUPPORT. Tests: what WellFormed refuses, decoding, one witness for each statement's hypotheses at the ends of their ranges, and single steps against the manual's own figures. -/

namespace Sys2Proof.Tests

set_option Elab.async false

open Sys2Proof Sys2Proof.Machine

/-! Small states. -/

/-- The state after a command. -/
def after (c : Instr) (s : State) : State := match exec c s with | .next t => t | _ => s

/-- A chip in Run whose firmware runs. -/
def up : State := { State.reset with pwr := { Pwr.init with st := .run }, boot := { Boot.init with stage := 8 } }

/-- The same chip with part of its state replaced. -/
def lark (l : Lark) : State := { up with lark := l }
def power (p : Pwr) : State := { up with pwr := p }

/-- A packet of context `c`. -/
def pktOf (c op : Nat) (ws : List Nat) : Packet :=
  { opcode := op, flags := 0, ctx := c, tag := 7, plen := ws.length, waitQ := 0, waitV := 0, timeout := 0, rbuf := 0, rbufLen := 0
    params := ws.flatMap (natLE 8), digest := [], at_ := 0, slots := 1, fence := [], accepted := true, started := false, kRes := [] }

/-- A packet of context 0. -/
def pkt (op : Nat) (ws : List Nat) : Packet := pktOf 0 op ws

/-- A KCP queue of 64 slots. -/
def queue0 : Queue := { Queue.init with st := .ready, s := 6, c := 6, sq := 0x1000, cq := 0x10000, cntAddr := 0x20000 }

/-- A chip with a packet at its turn on queue 0 of the packet's context. -/
def holding (p : Packet) (s : State) : State :=
  { s with host := { s.host with queues := [(0, { queue0 with st := .running, cur := some p, ctx := p.ctx })] ++ s.host.queues.filter (fun e => e.1 != 0)
                                 ctxs := if p.ctx = 0 then [(0, { Ctx.init with st := 1 })] else [(0, { Ctx.init with st := 1 }), (p.ctx, { Ctx.init with st := 1 })] } }

/-- 1 MiB of host memory, object 0x1001, which context 0 maps at 0x8000 with all rights. -/
def roomObj : Obj := { idx := 1, gen := 0, ctx := 0, host := true, refs := 0, sha := [], kind := .mem .host 0 0x100000 0x1000 }
def roomMap : Mapping := { dva := 0x8000, len := 0x100000, page := 0x1000, obj := 0x1001, off := 0, r := true, w := true, acc := true }
def roomy (s : State) : State :=
  { s with host := { s.host with objs := [(0x1001, roomObj)], ctxs := tabPut Ctx.init s.host.ctxs 0 { Ctx.init with st := 1, maps := [roomMap] } } }

/-- A packet of context 0 at its turn. -/
def turn (op : Nat) (ws : List Nat) (s : State := up) : State := holding (pkt op ws) s

/-- Queue 0. -/
abbrev q0 : QRef := .host 0

theorem witness_StepRunsFrontCommand : State.reset.pending = [] := by decide
theorem witness_StepKeepsTablesCanonical : State.reset.Inv ∧ step State.reset = .next State.reset := ⟨by decide, rfl⟩
theorem test_turn : Turn (turn 0 []) q0 0 (pkt 0 []) := by unfold Turn; decide
theorem test_nop : (getQ (after (.nop q0) (turn 0 [])) 0).cnt = 1 := by decide

/-! Well-formedness: each check refuses an operand just outside its range and takes the one at its end. -/

def tokOf (n m r : Nat) : UnlockToken := { deviceId := List.replicate n 0, nonce := List.replicate m 0, scope := 0, rootIndex := r, mldsaKey := [], p384Key := [], mldsaSig := [], p384Sig := [] }
def recOf (n e f c r : Nat) : RecoveryMsg := { deviceId := List.replicate n 0, epoch := e, floor := f, counter := c, rootIndex := r, mldsaKey := [], p384Key := [], mldsaSig := [], p384Sig := [] }
def lnt (p : LntPkt → LntPkt) : LntPkt :=
  p { engine := 4, ipOk := true, srcAddr := 0, srcPort := 65535, dstPort := 65535, typ := 255, flags := 0, len := 0, dest := 2 ^ 24 - 1, src := 2 ^ 24 - 1
      psn := 2 ^ 24 - 1, apsn := 2 ^ 24 - 1, msn := 0, ts := 0, offset := 0, wkey := 0, imm := 0, payload := [], tag := [] }
def qtd (p : QtdPkt → QtdPkt) : QtdPkt :=
  p { inPort := 24, rsvd := false, typ := 1, cls := 3, vc := 1, hops := 0, len := 0, dest := 2 ^ 17 - 1, src := 2 ^ 17 - 1, slice := 4095, part := 7, flow := 0, addr := 0
      corr := 0, chord := 0, order := 0, via := 0, stage := 0, pair := 0, pairHops := 0, payload := [] }
def frm (a b : Nat) : Frame := { rsOk := true, crcOk := true, fseq := a, aseq := b, nak := false, payload := [], corrected := 0, aligned := true }
def rep (c p r : Nat) : TrainReport := { kd1 := none, txLanes := 0, rxLanes := 0, optical := false, chip := c, port := p, roleClass := r, bootMode := false, roost := false, delay := 0 }
def bidOf (c : Nat) : Bid := { rackMgr := false, prio := false, chip := c, nonce := 0 }
def msgOf (i o : Nat) : RoundMsg := { flags := 0, rsvd := 0, index := i, offset := o, payload := [] }

theorem wf_refuses : ∀ i ∈ [Instr.functionLevelReset (.vf 64), .functionLevelReset (.vf 0), .nop (.host 65536), .waitMet (.queue 65536), .engineAck 0 (.linnet 5), .engineAck 4096 .dunnock,
      .timeShareSlot (.linnet 5), .pldmSensorRead (.hbm 6), .beaconSend (.slice 8), .debugUnlockToken (tokOf 15 32 3), .debugUnlockToken (tokOf 16 31 3),
      .debugUnlockToken (tokOf 16 32 4), .recoveryMessage (recOf 16 1024 0 0 3), .recoveryMessage (recOf 16 1023 0 0 4), .thermalWarn 128 0, .thermalWarn (-129) 0,
      .thermalWarn 0 96, .strapLatch [], .powerWindow 65536 0, .hbmStackLimit 6 0, .vfEnableWrite true 65536, .beatFire 16, .counterWrap 11 0 0, .counterWrap 0 0 0,
      .counterWrap 1 0 4, .keyOldReleased 256, .unitReleaseCheck 0 16 0, .mctpKcp (List.replicate 63 0), .challenge [], .getMeasurements 256 (List.replicate 32 0),
      .partitionScrubDone 8, .add 1536, .ingressRowAdd 0 4096 .z64 [], .ethLinkUp 4, .sHello (lnt fun p => { p with engine := 5 }), .sData (lnt fun p => { p with dest := 2 ^ 24 }),
      .sessionIdleTimeout (2 ^ 18), .notReadyResend (2 ^ 24), .linkTraining 24 (rep 0 0 0), .linkTraining 23 (rep (2 ^ 17) 0 0), .dataFrame 0 (frm 4096 0), .laneDrop 0 8,
      .roostReq 0 32, .creditReturn 0 4 0 0 0, .memWr (qtd fun p => { p with slice := 4096 }), .notice (qtd fun p => { p with inPort := 25 }),
      .joinReport { chip := 0, nonce := 0, ports := [(24, 0)] }, .linkStateAdvertisement { chip := 0, link := 13, up := true }, .beacon .rack (bidOf (2 ^ 17)),
      .enrol 0 (msgOf (2 ^ 32) 0), .workerLost 0 (2 ^ 17), .rcRead .pf 0x20000000 4, .rcRead .pf 0 3, .registerWrite .pf 0x20000000 4 0, .atsInvalidation (2 ^ 64) 0],
    i.wf = false := by decide

theorem wf_takes : ∀ i ∈ [Instr.functionLevelReset (.vf 63), .nop (.host 65535), .engineAck 4095 (.linnet 4), .pldmSensorRead (.hbm 5), .beaconSend (.slice 7),
      .debugUnlockToken (tokOf 16 32 3), .recoveryMessage (recOf 16 1023 (2 ^ 32 - 1) (2 ^ 32 - 1) 3), .thermalWarn 127 95, .beatFire 15, .counterWrap 10 1535 3, .add 1535,
      .ingressRowAdd 1535 4095 .z64 [], .sHello (lnt id), .memWr (qtd id), .dataFrame 23 (frm 4095 4095), .linkTraining 23 (rep (2 ^ 17 - 1) 23 3), .beacon .rack (bidOf (2 ^ 17 - 1)),
      .enrol (2 ^ 18 - 1) (msgOf (2 ^ 32 - 1) (2 ^ 64 - 1)), .rcRead (.vf 1) 0x1FFFFFFF 64],
    i.wf = true := by decide

theorem test_no_word_spells_a_command : decodeTableWord 32 0 = none ∧ (State.reset.withFetchWord 32 0).pending = [] := by decide

/-! 02. -/

/-- Lark with a reference, at half a second and just before it (02 R29: the whole second nearest decides the sign). -/
def half (t src : Nat) : Lark := { Lark.init with time := t, src := BitVec.ofNat 2 src }
theorem test_pps_half : after .ppsMeasurement (lark (half 500000000 0)) = lark ((half 500000000 0).measured (-500000000)) := by decide
theorem test_pps_below : after .ppsMeasurement (lark (half 499999999 0)) = lark ((half 499999999 0).measured 499999999) := by decide
theorem witness_LarkMeasurementsDiscipline :
    (lark (half 500000000 0)).pwr.st ≠ .off ∧ (half 500000000 0).refPresent = true ∧ (half 500000000 0).aheadStuck = false ∧ (half 500000000 0).stepWait = none ∧
    (after .ppsMeasurement (lark { half 500000000 0 with stepWait := some 5 })).lark.remaining = (half 500000000 0).remaining ∧
    (let s := { lark (half 5 1) with lnt := { Lnt.init with ports := [(0, { EthPort.init with st := 1 })] } }
     (getEth s s.lark.ptpPort.toNat).st = 1 ∧ s.lark.src = 1) ∧
    (let s := lark { Lark.init with state := 1, remaining := 10000000000 }
     s.lark.remaining.natAbs ≤ 10000000000 ∧ after .slewLocked s = lark { s.lark with state := 0 }) ∧
    up.up ∧ (0x12 : BitVec 32).extractLsb' 0 2 = 2 ∧ (after (.lrkCtlWrite 0x12) up).lark.state = 3 := by
  refine ⟨by decide, by decide, by decide, by decide, by decide, by decide, by decide, ⟨by decide, by decide⟩, by decide, by decide⟩

/-- Beat generator 3 armed with k = 10 at time 0 (02 R34). -/
def beats (t : Nat) : State := lark { Lark.init with time := t, beats := [(3, { Beat.init with k := 10, en := true })], state := 0 }
theorem witness_LrkStepMovesTimeOnlyWithoutBeats : up.up ∧ (∀ n, n < 16 → (getBeat up n).en = false) ∧
    ((List.range 16).countP fun n => (getBeat (beats 0) n).en) = 1 ∧ (after (.lrkStep 5) (beats 0)).lark.time = 0 ∧
    (after (.lrkStep 5) up).lark.time = 5 := by
  refine ⟨⟨by decide, by decide⟩, by decide, by decide, by decide, by decide⟩

theorem witness_LarkHoldoverSelectsLowestSyncedPort :
    (let s := { up with skn := [(2, { Skn.init with st := 4, peerLark := 0 }), (5, { Skn.init with st := 4, peerLark := 1 })] }
     (getSkn s 2).st = 4 ∧ (getSkn s 2).peerLark = 0 ∧ (∀ m, m < 2 → ¬ ((getSkn s m).st = 4 ∧ ((getSkn s m).peerLark = 0 ∨ (getSkn s m).peerLark = 1))) ∧
       (after .referenceLoss s).lark.holdPort = 2 ∧ (after .referenceLoss s).lark.state = 2) ∧
    (∀ m, m < 24 → ¬ ((getSkn up m).st = 4 ∧ ((getSkn up m).peerLark = 0 ∨ (getSkn up m).peerLark = 1))) ∧
    (after .referenceLoss up).lark.holdPort = 0x1F ∧
    (let s := lark { Lark.init with refPresent := false, state := 2, holdPort := 4 }
     (s.lark.state, s.lark.holdPort) ≠ holdChoice s ∧ (after .holdoverReselect s).lark.state = 3) ∧
    (let s := lark { Lark.init with src := 1 }
     s.lark.ptpLost = false ∧ (after .ptpSyncLoss s).lark.ptpLost = true) := by
  refine ⟨by decide, by decide, by decide, by decide, by decide⟩

theorem test_beat_at_multiple : (getBeat (after (.beatFire 3) (beats 2048)) 3).cnt = 2 := by decide
theorem test_beat_before : (getBeat (after (.beatFire 3) (beats 1023)) 3).cnt = 0 := by decide
theorem witness_BeatsFireAtEveryMultiple : (getBeat (beats 1024) 3).base / 2 ^ (getBeat (beats 1024) 3).k < (beats 1024).lark.time / 2 ^ (getBeat (beats 1024) 3).k ∧
    up.up ∧ ((0x2A : BitVec 32).getLsbD 5 = true ∧ ((0x2A : BitVec 32).extractLsb' 0 5).toNat = 10) ∧ ((0x3E : BitVec 32).extractLsb' 0 5).toNat = 30 ∧
    ((0x29 : BitVec 32).extractLsb' 0 5).toNat = 9 ∧ ((0x3F : BitVec 32).extractLsb' 0 5).toNat = 31 ∧ (0 : BitVec 32).getLsbD 5 = false ∧
    (getBeat (after (.lrkBeatCfgWrite 3 0x2A) up) 3).en = true ∧ (after (.lrkBeatCfgWrite 3 0x29) up).glb.range = true ∧
    (beats 99999999).lark.time % 1000000000 < 100000000 ∧ 100000000 ≤ (beats 100000000).lark.time % 1000000000 ∧
    (after .ppsOutRise (beats 99999999)).pwr.pins.ppsOut = true := by
  refine ⟨by decide, ⟨by decide, by decide⟩, by decide, by decide, by decide, by decide, by decide, by decide, by decide, by decide, by decide, by decide⟩

/-- Slot 1 of Wren 0 one below its wrap (02 R26). -/
def slotEdge : State := { up with hsc := [(slotKey 1 0 1, { Slot.init with sel := 1, cnt := 2 ^ 48 - 1 })] }
theorem witness_CounterSlotsWrapAndFreeze : 1 < slotCount 1 ∧ 0 < slotInsts slotEdge 1 ∧ (tabGet Slot.init slotEdge.hsc (slotKey 1 0 1)).sel ≠ 0 ∧
    (tabGet Slot.init slotEdge.hsc (slotKey 1 0 1)).part < evUnit 1 1 ∧ tabWf Slot.init slotEdge.hsc = true ∧
    (tabGet Slot.init (after (.counterWrap 1 0 1) slotEdge).hsc (slotKey 1 0 1)).wrap = true ∧ (1 : BitVec 32).getLsbD 0 = true ∧
    (tabGet Slot.init (after (.lrkSnap 1) slotEdge).hsc (slotKey 1 0 1)).snap = 2 ^ 48 - 1 ∧ (2 : BitVec 32).getLsbD 0 = false := by decide

theorem witness_FabricTimeIsSlewLimited : 1 ≤ up.lark.slew ∧ up.lark.slew ≤ 500 ∧ up.lark.frac < 100000000 ∧ up.pending = [] ∧
    (larkTick up).lark.time = 6 ∧ (larkTick up).lark.frac = 40000000 := by decide

/-! 03. -/

theorem witness_StopsGoColdAndLatchTheFirstCause : up.pwr.st ≠ .off ∧ (power { up.pwr with removing := true }).pwr.removing = true ∧
    up.pwr.st = .run ∧ (after (.vinUv [.overvolt]) up).pwr.cause = some .overvolt ∧ (after (.vinUv []) up).pwr.cause = some .undervolt ∧
    (after .matedReturnStop (power { up.pwr with removing := true })).pwr.cause = some .removal ∧ (after (.removal []) up).pwr.st = .run := by decide

/-- Standby with the straps of board 5 in a rack not yet latched. -/
def standby : State := power { Pwr.init with st := .standby }
theorem witness_PowerOnLatchesStrapsAndEvents : State.reset.pwr.st = .off ∧ State.reset.pwr.coldHeld = false ∧
    (after .vinOn State.reset).pwr.st = .standby ∧ (power { Pwr.init with coldHeld := true }).pwr.coldHeld = true ∧
    standby.pwr.straps.latched = false ∧ ((List.range 18).countP fun i => (0x80001 : BitVec 23).getLsbD i) % 2 = 1 ∧
    (0x80001 : BitVec 23).extractLsb' 21 2 ≠ 3 ∧ (after (.strapLatch (List.replicate 8 0x80001)) standby).pwr.straps.boot = 1 ∧
    (after .modLatchOpen up).pwr.pins.modLatchN = true ∧
    State.reset.pwr.pins.prochotExt = true ∧ State.reset.pwr.pins.modLatchN = false ∧
    (after .vinOn (after .prochotLow State.reset)).pwr.ceilCar = 1 ∧ (after .vinOn (after .modLatchOpen State.reset)).evlog.length = 1 ∧
    (power { up.pwr with settling := true }).pwr.settling = true := by decide

/-- The throttle temperature, the power cap, and the point below each (03 R40, R41, R55). -/
theorem witness_CeilingsFollowTheirCausesWithEvents : up.pwr.st ≠ .off ∧ (up.pwr.throttle : Int) ≤ 100 ∧ (92 : Int) ≤ (up.pwr.throttle : Int) - 8 ∧
    up.pwr.cap * 10 < 11501 ∧ up.pwr.ceilPower ≠ 1 ∧ (power { up.pwr with ceilPower := 1 }).pwr.ceilPower = 1 ∧ 11499 < up.pwr.cap * 10 ∧
    (power { up.pwr with phSample := true }).pwr.phSample = true ∧ (after .vinLow up).pwr.ceilVin = 1 ∧
    (after (.powerWindow 11501 54000) up).pwr.ceilPower = 2 ∧ (after (.powerWindow 11500 54000) up).pwr.ceilPower = 5 ∧
    (after (.powerWindow 11501 54000) (power { up.pwr with ceilPower := 1 })).pwr.duty = true ∧ (after (.throttlePeriod 100 0) up).pwr.ceilTherm = 2 ∧
    (after (.throttlePeriod 99 0) up).pwr.ceilTherm = 5 := by decide

theorem witness_ThermalTripsAndStackLimits : up.pwr.st ≠ .off ∧ up.pwr.st ≠ .tripped ∧ (after (.critTrip 110 3) up).pwr.st = .tripped ∧
    (after (.critTrip 109 3) up).pwr.st = .run ∧
    (after (.critTrip 110 3) (power { up.pwr with req := some (.host 0), target := some .idle, warmBusy := true })).pwr.req = none ∧
    (after (.hbmStackLimit 2 85) up).pwr.stackDouble = 4 ∧ (after (.hbmStackLimit 2 84) up).pwr.stackDouble = 0 ∧
    (after (.hbmStackLimit 5 95) up).pwr.stackLimit = 32 ∧ (after (.hbmStackLimit 5 94) up).pwr.stackLimit = 0 ∧
    (after (.hbmStackLimit 0 105) up).pwr.st = .tripped ∧ (after (.hbmStackLimit 0 104) up).pwr.st = .run ∧ (up.pwr.warn : Int) ≤ 95 := by decide

/-- Standby with latched straps and running firmware, and Idle on its way to Run. -/
def ready : State := { standby with pwr := { standby.pwr with straps := { Straps.init with latched := true } } }
theorem witness_PowerStatesMoveAlongTheChain :
    Turn (turn 2 [1]) q0 2 (pkt 2 [1]) ∧ (turn 2 [1]).pwr.req = none ∧ bits ((pkt 2 [1]).w 0) 0 3 = 1 ∧
    Turn (turn 2 [2] ready) q0 2 (pkt 2 [2]) ∧ (after (.setPowerState q0) (turn 2 [2] ready)).pwr.target = some .idle ∧
    (turn 2 [2] standby).pwr.straps.latched = false ∧ Turn (turn 2 [2] (power { up.pwr with st := .tripped })) q0 2 (pkt 2 [2]) ∧
    (let s := power { up.pwr with st := .idle, target := some .run }
     s.pwr.req = none ∧ (after .powerTransitionDone s).pwr.st = .run) ∧
    (let s := power { up.pwr with st := .standby, target := some .run }
     (after .powerTransitionDone s).pwr.st = .idle) ∧
    wrensIdle up = true ∧ runReady up = false ∧ (after .runToIdle up).pwr.st = .idle := by
  unfold Turn; decide

theorem witness_WarmResetDiscardsWorkAndScrubs : up.pwr.warmBusy = false ∧ (power { up.pwr with st := .tripped }).pwr.st = .tripped ∧
    (let s := after .warmResetPin up
     s.pwr.warmBusy = true ∧ s.pwr.warmScrubbed = false ∧ s.pwr.warmFromPin = true ∧ s.pwr.pins.perstN = false ∧
       (after .warmResetScrubDone s).pwr.warmScrubbed = true ∧ (after .perstNRelease (after .warmResetScrubDone s)).pwr.warmBusy = false) ∧
    Turn (turn 5 [0]) q0 5 (pkt 5 [0]) ∧ Turn (turn 5 [1]) q0 5 (pkt 5 [1]) ∧ bits ((pkt 5 [1]).w 0) 0 2 ≠ 0 ∧
    Turn (turn 5 [0] (power { up.pwr with st := .tripped })) q0 5 (pkt 5 [0]) ∧ (after (.reset q0) (turn 5 [0])).pwr.warmBusy = true := by
  unfold Turn; decide

theorem witness_PowerSettingsTakeOnlyTheirRange : up.up ∧ (after (.pwrPtReqWrite 1) up).pwr.ptReq = 1 ∧ (after (.pwrPtReqWrite 5) up).pwr.ptReq = 5 ∧
    (after (.pwrPtReqWrite 0) up).glb.range = true ∧ (after (.pwrPtReqWrite 6) up).glb.range = true ∧ (after (.pwrCapWrite 400) up).pwr.cap = 400 ∧
    (after (.pwrCapWrite 1150) up).pwr.cap = 1150 ∧ (after (.pwrCapWrite 399) up).glb.range = true ∧ (after (.pwrCapWrite 1151) up).glb.range = true ∧
    (after (.pwrThermCfgWrite 0x15046) up).pwr.warn = 70 ∧ (after (.pwrThermCfgWrite 0x645F) up).pwr.throttle = 100 ∧
    (after (.pwrThermCfgWrite 0x5045) up).glb.range = true ∧ (after (.pwrThermCfgWrite 0x6560) up).glb.range = true ∧
    Turn (turn 3 [1]) q0 3 (pkt 3 [1]) ∧ Turn (turn 3 [6]) q0 3 (pkt 3 [6]) ∧ Turn (turn 4 [400]) q0 4 (pkt 4 [400]) ∧ Turn (turn 4 [399]) q0 4 (pkt 4 [399]) ∧
    (after (.setPoint q0) (turn 3 [5])).pwr.ptReq = 5 ∧ (after (.setPowerCap q0) (turn 4 [1150])).pwr.cap = 1150 := by
  refine ⟨⟨by decide, by decide⟩, ?_⟩; unfold Turn; decide

/-! 04. Whether a signature verifies is uninterpreted, so no test can show an accepted image or token. -/

/-- A chip whose firmware does not run. -/
def booting (b : Boot) : State := { up with boot := b }

theorem witness_BootAcceptsExactlyTheCheckedImages :
    (let s := booting { Boot.init with stage := 2 }
     s.boot.hold = none ∧ imageFault s.boot s.boot.floor (mailboxImage s.boot) ≠ none ∧ (after .bootMbxGo s).boot.stage = 4 ∧
       (after .bootMbxGo s).boot.code = 0x25) ∧
    (let s := booting { Boot.init with stage := 3 }
     imageFault s.boot s.boot.floor [] ≠ none ∧ (after (.fabricBootImage []) s).boot.stage = 4) ∧
    (let s := { booting { Boot.init with stage := 3 } with lark := { Lark.init with time := 10000000000 } }
     s.boot.fabricStart + 10000000000 ≤ s.lark.time ∧ (after .fabricBootTimeout s).boot.code = 0x30 ∧
       (after .fabricBootTimeout { s with lark := { Lark.init with time := 9999999999 } }).boot.stage = 3) := by decide

theorem witness_BootSequenceFollowsStrapsAndRecord :
    (let s := booting { Boot.init with romReady := true }
     romMayRun s = true ∧ -20 ≤ s.pwr.tj ∧ fusesOk s.boot.fuses = true ∧ s.boot.fuses.epoch = s.boot.fuses.epochMargin ∧
       rollPick s.boot s.boot.fuses.epoch = none ∧ (after .bootSequence s).boot.code = 0x24) ∧
    (let s := booting { Boot.init with romReady := true, fuses := { Fuses.init with crcOk := false } }
     romMayRun s = true ∧ fusesOk s.boot.fuses = false ∧ (after .bootSequence s).boot.code = 0x10) ∧
    (let s := booting { Boot.init with step := 6 }
     s.boot.stage = 1 ∧ (after .firmwareReady s).boot.stage = 8 ∧ (after .firmwareReady s).mtr.started = true) := by decide

theorem witness_DebugUnlocksOnlyByASignedToken :
    (let s := booting { Boot.init with romReady := true }
     s.boot.stage ≠ 8 ∧ s.boot.step < 6 ∧ s.boot.hold = none ∧ lifecycleCode s.boot.fuses.lifecycle = 0) ∧
    (let s := after .debugHold (booting { Boot.init with romReady := true })
     s.boot.hold.isSome = true ∧ s.boot.holdUntil = 10000000000 ∧
       (after .debugHoldTimeout { s with lark := { s.lark with time := 10000000000 } }).boot.hold.isSome = false ∧
       (after .debugHoldTimeout { s with lark := { s.lark with time := 9999999999 } }).boot.hold.isSome = true) := by decide

theorem witness_AntiRollbackAdvancesOneEpoch :
    (let s := turn 6 [5] (booting { Boot.init with stage := 8, svn := 5, floor := 4 })
     Turn s q0 6 (pkt 6 [5]) ∧ s.boot.floor < 5 ∧ s.boot.fuses.epoch < 1023 ∧ (after (.raiseSvnFloor q0) s).boot.floor = 5 ∧
       (after (.raiseSvnFloor q0) s).boot.fuses.epoch = 1) ∧
    (let s := turn 6 [6] (booting { Boot.init with stage := 8, svn := 5, floor := 4 })
     Turn s q0 6 (pkt 6 [6]) ∧ (after (.raiseSvnFloor q0) s).boot.floor = 4) ∧
    (let s := turn 6 [5] (booting { Boot.init with stage := 8, svn := 5, floor := 4, fuses := { Fuses.init with epoch := 1023 } })
     Turn s q0 6 (pkt 6 [5]) ∧ 1023 ≤ s.boot.fuses.epoch ∧ (after (.raiseSvnFloor q0) s).boot.floor = 4) := by
  unfold Turn; decide

/-! 05. -/

/-- A packet header: magic 0x4B01, opcode, FLAGS, context, TAG, PLEN (05 Table 5.1). -/
def hdr (magic op flags ctx tag plen : Nat) : List Byte :=
  natLE 2 magic ++ natLE 2 op ++ natLE 2 flags ++ natLE 2 ctx ++ natLE 4 tag ++ natLE 2 plen ++ zeros 50

/-- Queue 0 Ready with these bytes at its fetch index and `n` slots covered by the producer index. -/
def ringed (bs : List Byte) (n : Nat) (s : State := up) : State :=
  { s with host := { s.host with queues := [(0, { queue0 with prod := BitVec.ofNat 32 n })], ctxs := [(0, { Ctx.init with st := 1 })] }
           hostMem := memWrite [] 0x1000 bs }

theorem witness_CompletionPostsRecordCounterInterrupt : (getQ (turn 0 []) 0).cur = some (pkt 0 []) ∧ (getQ (turn 0 []) 0).resetBy = none ∧
    (pkt 0 []).isSealed = false ∧ (Done.res 0 0).data = [] := by decide

theorem witness_FullStatusRingStopsFetching : 
    (let v := { queue0 with written := 64 }
     ringRoom v = false ∧ ringRoom { v with released := 1 } = true ∧ ((0 : BitVec 32) - v.released).toNat < (v.written - v.released).toNat) ∧
    (getQ { up with host := { up.host with queues := [(0, { queue0 with written := 64 })] } } 0).desc = none := by decide

/-- A chip with queue 0 Ready and empty. -/
def idleQ : State := ringed [] 0
theorem witness_DoorbellsReleasesAndAdminEnable : idleQ.up ∧ queueLive idleQ 0 = true ∧ mayReach .pf (queueFn idleQ 0) = true ∧
    ((64 : BitVec 32) - (getQ idleQ 0).fetch).toNat ≤ 2 ^ (getQ idleQ 0).s ∧ 2 ^ (getQ idleQ 0).s < ((65 : BitVec 32) - (getQ idleQ 0).fetch).toNat ∧
    (getQ (after (.doorbell .pf 0 64) idleQ) 0).prod = 64 ∧ (getQ (after (.doorbell .pf 0 65) idleQ) 0).prod = 0 ∧
    mayReach (.vf 1) (queueFn idleQ 0) = false ∧ (after (.doorbell (.vf 1) 0 1) idleQ).glb.foreign = true ∧
    up.host.admq.q = 0 ∧ up.host.admq.en = false ∧ (0x66001 : BitVec 32).getLsbD 0 = true ∧ bits (0x66001 : BitVec 32).toNat 12 4 = 6 ∧
    (getQ (after (.admqCtlWrite .pf 0x66001) up) 0).st = .ready ∧
    (let s := after (.admqCtlWrite .pf 0x66001) up
     s.host.admq.en = true ∧ (after (.admqCtlWrite .pf 0x67001) s).glb.range = true ∧ (getQ (after (.admqCtlWrite .pf 0x66000) s) 0).st = .absent) := by
  refine ⟨⟨by decide, by decide⟩, ?_⟩; decide

theorem witness_FetchLocatesChecksAndRetries :
    (let h := hdr 0x4B01 0 0 0 9 0
     Fetchable (ringed h 1) 0 h 1 ∧ bitOf (field h 4 2) 2 = false ∧
       checkPacket false 0 h (parsePacket h [] 0 []) (ringed h 1) = none ∧ (getQ (after (.kcpFetch 0) (ringed h 1)) 0).st = .running) ∧
    (let h := hdr 0x4B02 0 0 0 9 0
     canFetch (ringed h 1) 0 0 = true ∧ h = ringSlots (ringed h 1) (getQ (ringed h 1) 0) 1 ∧ (getQ (after (.kcpFetch 0) (ringed h 1)) 0).errStatus = 0x0101) ∧
    (let h := hdr 0x4B01 0 0 0 9 505
     504 < field h 0xC 2 % 512 ∧ (getQ (after (.kcpFetch 0) (ringed h 1)) 0).errStatus = 0x0103) ∧
    (let h := hdr 0x4B01 0 0 0 9 504
     ((getQ (ringed h 63) 0).prod - (getQ (ringed h 63) 0).fetch).toNat < (64 + 8 * (field h 0xC 2 % 512) + 63) / 64 ∧
       (getQ (after (.kcpFetch 0) (ringed h 63)) 0).st = .ready) ∧
    (let h := hdr 0x4B01 0 0 0 9 0
     let e : DupEntry := { tag := 9, digest := [], rec_ := { tag := 9, status := 0, dup := false, sealed := false, phase := false, detail := 0, rlen := 0, res0 := 0, res1 := 0 }, sealedOut := [] }
     let s := ringed h 1
     let s := { s with host := { s.host with queues := [(0, { queue0 with prod := 1, dup := [e] })] } }
     ((getQ s 0).dup.filter fun x => x.tag == field h 8 4).getLast? = some e ∧ (getQ (after (.kcpFetch 0) s) 0).cur = none ∧
       (getQ (after (.kcpFetch 0) s) 0).cnt = 1) ∧
    (let p := { pkt 0 [] with timeout := 3 }
     let s := { holding p up with lark := { Lark.init with time := 3000 } }
     p.at_ + p.timeout * 1000 ≤ s.lark.time ∧ serves s q0 = true ∧ (getQ (after (.startTimeout q0) s) 0).cnt = 1 ∧
       (getQ (after (.startTimeout q0) { s with lark := { Lark.init with time := 2999 } }) 0).cnt = 0) ∧
    (let h := hdr 0x4B01 0 0 0 9 0
     serves up .mgmt = true ∧ checkPacket true 0 h (parsePacket h [] 0 []) up = none ∧ (after (.mctpKcp h) up).host.mgmt.isSome = true) := by
  unfold Fetchable; decide

theorem witness_QueriesAndEchoChangeNothing : Turn (turn 1 []) q0 1 (pkt 1 []) ∧ Turn (turn 0x0A00 []) q0 0x0A00 (pkt 0x0A00 []) ∧
    Turn (turn 0x0F02 []) q0 0x0F02 (pkt 0x0F02 []) ∧
    (let w := 1 + 1 * 2 ^ 8 + 1 * 2 ^ 16 + 1535 * 2 ^ 32
     Turn (turn 0x0F01 [w]) q0 0x0F01 (pkt 0x0F01 [w]) ∧ bits w 8 8 < slotCount 1 ∧ bits w 32 16 < slotInsts up 1 ∧ bits w 16 16 ∈ slotEvents 1) ∧
    slotCount 1 ≤ 2 ∧ slotInsts up 1 ≤ 1536 ∧ Turn (turn 0x0F05 [1]) q0 0x0F05 (pkt 0x0F05 [1]) ∧ (pkt 0x0F05 [1]).rbufLen < (pkt 0x0F05 [1]).params.length ∧
    (let p := { pkt 0x0F05 [1] with rbuf := 0x8000, rbufLen := 8 }
     bufErr (roomy (holding p up)) q0 p p.params.length  = none) ∧
    (after (.timeRead q0) (turn 0x0A00 [] (lark { Lark.init with time := 5 }))).hostMem.length ≠ 0 := by
  unfold Turn; and_intros <;> decide

theorem witness_TimeBeatAndTenancyCommands :
    Turn (turn 0x0A01 [1, 500]) q0 0x0A01 (pkt 0x0A01 [1, 500]) ∧ (after (.timeConfig q0) (turn 0x0A01 [1, 500])).lark.src = 1 ∧
    Turn (turn 0x0A01 [1, 501]) q0 0x0A01 (pkt 0x0A01 [1, 501]) ∧ (after (.timeConfig q0) (turn 0x0A01 [1, 501])).lark.src = 0 ∧
    Turn (turn 0x0A02 [10]) q0 0x0A02 (pkt 0x0A02 [10]) ∧ (getBeat up 0).en = false ∧ (getBeat (after (.beatArm q0) (turn 0x0A02 [30])) 0).en = true ∧
    (getBeat (after (.beatArm q0) (turn 0x0A02 [31])) 0).en = false ∧ (getBeat (after (.beatArm q0) (turn 0x0A02 [9])) 0).en = false ∧
    (let s := turn 0x0A02 [10] (lark { Lark.init with beats := (List.range 16).map fun n => (n, { Beat.init with k := 10, en := true }) })
     (∀ n, n < 16 → (getBeat s n).en = true) ∧ Turn s q0 0x0A02 (pkt 0x0A02 [10])) ∧
    (let s := turn 0x0A03 [3] (beats 0)
     Turn s q0 0x0A03 (pkt 0x0A03 [3]) ∧ (getBeat s 3).en = true ∧ (getBeat (after (.beatDisarm q0) s) 3).en = false) ∧
    (let s := turn 8 [0x201]
     Turn s q0 8 (pkt 8 [0x201]) ∧ anyTenant s = false ∧ (after (.setTenancy q0) s).host.parts = 2 ∧ s.boot.measLog.length < 256) ∧
    (let s := turn 9 [1]
     Turn s q0 9 (pkt 9 [1]) ∧ (after (.setHostMode q0) s).host.confidential = true) ∧
    (let s := turn 9 [1]
     let s := { s with host := { s.host with ctxs := s.host.ctxs ++ [(5, { Ctx.init with st := 1 })] } }
     Turn s q0 9 (pkt 9 [1]) ∧ anyTenant s = true ∧ (after (.setHostMode q0) s).host.confidential = false) := by
  unfold Turn; and_intros <;> decide

theorem witness_AttestationAnswersOverKcpAndMctp :
    (let p := { pkt 0x0400 [0, 0, 0, 0] with rbuf := 0x8000, rbufLen := 3928 }
     Turn (roomy (holding p up)) q0 0x0400 p ∧ bufErr (roomy (holding p up)) q0 p 3928 = none) ∧
    (let p := { pkt 0x0401 [0, 0, 0, 0, 0] with rbuf := 0x8000, rbufLen := 8192 }
     let s := roomy (holding p up)
     Turn s q0 0x0401 p ∧ (getCtx s 0).st ≠ 0 ∧ mayName s 0 0 = true ∧
       (reportEntries s 0).length ≤ 2048 ∧ bufErr s q0 p (1848 + 64 * (reportEntries s 0).length + 3408) = none) ∧
    Turn (turn 0x0402 [0x100]) q0 0x0402 (pkt 0x0402 [0x100]) ∧ bits 0x100 8 9 = 1 ∧ bits 0x10000 8 9 = 256 ∧ bits 0x10100 8 9 = 257 ∧
    bufErr (turn 0x0402 [0x100]) q0 (pkt 0x0402 [0x100]) 0 = none ∧ Turn (turn 0x0403 [0]) q0 0x0403 (pkt 0x0403 [0]) ∧
    (booting { Boot.init with stage := 8, aliasSeed := [1] }).boot.aliasSeed ≠ [] ∧ sensorKnown .vin = true ∧ up.boot.stage = 8 ∧
    up.boot.pldmUpd = false ∧ (after (.pldmFwUpdate .request) up).boot.pldmUpd = true := by
  unfold Turn; and_intros <;> decide

/-! 06. -/

/-- Queue `n` beside what the chip has. -/
def withQ (n : Nat) (v : Queue) (s : State) : State := { s with host := { s.host with queues := s.host.queues ++ [(n, v)] } }

/-- A packet of context 0 at its turn in a chip where context 0 maps the room. -/
def rturn (op : Nat) (ws : List Nat) : State := roomy (turn op ws)

theorem witness_MemoryObjectsAllocateMapAndFree :
    (let s := turn 0x0200 [4096, 0]
     let p := pkt 0x0200 [4096, 0]
     Turn s q0 0x0200 p ∧ memKindOf (bits (p.w 1) 0 2) = some .hbm ∧ pageOf .hbm (bits (p.w 1) 4 2) = 4096 ∧
      (placeMem s 0 .hbm 4096 4096 false).isSome = true ∧ s.host.objs.length < 1048576 ∧
      tablesUsed (addMap 0 { roomMap with len := 4096 } s) 0 ≤ tableLimit ∧
      (after (.memAlloc q0) s).host.objs.length = 1) ∧
    (let s := rturn 0x0202 [0x1001, 0x200000, 0x1000, 3]
     let p := pkt 0x0202 [0x1001, 0x200000, 0x1000, 3]
     Turn s q0 0x0202 p ∧ (useObj s 0 (p.w 0) 1).toOption = some roomObj ∧ roomObj.kind = .mem .host 0 0x100000 0x1000 ∧
      (∀ m ∈ (getCtx s 0).maps, p.w 1 + p.w 2 ≤ m.dva ∨ m.dva + m.len ≤ p.w 1) ∧ (getCtx (after (.memMap q0) s) 0).maps.length = 2) ∧
    (let p := pkt 0x0202 [0x1001, 0x108000, 0x100000, 7]
     p.w 2 ≤ 0x100000 ∧ ∀ m ∈ (getCtx (rturn 0x0202 [0x1001, 0x108000, 0x100000, 7]) 0).maps, m.dva + m.len ≤ p.w 1) ∧
    (let s := rturn 0x0203 [0x9000, 0x2000]
     Turn s q0 0x0203 (pkt 0x0203 [0x9000, 0x2000]) ∧
      (findMap (getCtx (after (.memUnmap q0) s) 0) 0x8FFF).isSome = true ∧ findMap (getCtx (after (.memUnmap q0) s) 0) 0x9000 = none ∧
      findMap (getCtx (after (.memUnmap q0) s) 0) 0xAFFF = none ∧ (findMap (getCtx (after (.memUnmap q0) s) 0) 0xB000).isSome = true) ∧
    (let s := rturn 0x0201 [0x1001]
     Turn s q0 0x0201 (pkt 0x0201 [0x1001]) ∧ (useObj s 0 0x1001 1).toOption = some roomObj ∧ roomObj.refs = 0 ∧
      (after (.memFree q0) s).host.objs = []) ∧
    (let s := rturn 0x0201 [0x1001]
     let s := { s with host := { s.host with objs := [(0x1001, { roomObj with refs := 1 })] } }
     (useObj s 0 0x1001 1).toOption = some { roomObj with refs := 1 } ∧ (getCtx (after (.memFree q0) s) 0).maps = [roomMap]) ∧
    (let s := turn 0x0107 [0x1001]
     let s := { s with host := { s.host with objs := [(0x1001, roomObj)] } }
     Turn s q0 0x0107 (pkt 0x0107 [0x1001]) ∧ deviceRefs s 0x1001 = 0 ∧ (after (.objRelease q0) s).host.objs = []) ∧
    (let s := rturn 0x0107 [0x1001]
     Turn s q0 0x0107 (pkt 0x0107 [0x1001]) ∧ deviceRefs s 0x1001 = 1 ∧ (after (.objRelease q0) s).host.objs = [(0x1001, { roomObj with host := false })]) ∧
    (let o : Obj := { roomObj with kind := .prog { mask := 1, secret := false, board := false, roost := 0, wsize := 0, staticLen := 0, static_ := [], minT := 1, maxT := 1, engines := 1, code := [] } }
     let s := turn 0x0501 [0x2001]
     let s := { s with host := { s.host with objs := [(0x2001, o)] } }
     Turn s q0 0x0501 (pkt 0x0501 [0x2001]) ∧ (useObj s 0 0x2001 2).toOption = some o ∧ (after (.progUnload q0) s).host.objs = []) ∧
    getObj? (turn 0x0201 [0x1001]) 0x1001 = none := by
  unfold Turn; and_intros <;> decide

/-- A live window on the room. -/
def roomWin : Win := { gen := 3, live := true, obj := 0x1001, off := 0, len := 16, r := true, w := false, acc := false, peers := 0, ctx := 0, revokedAt := 0 }

theorem witness_WindowsQueriesAndPool :
    (let s := rturn 0x0204 [0x1001, 0xFFFFF, 1, 3]
     let p := pkt 0x0204 [0x1001, 0xFFFFF, 1, 3]
     Turn s q0 0x0204 p ∧ bits (p.w 0) 12 4 = 1 ∧ (useObj s 0 0x1001 1).toOption = some roomObj ∧ p.w 1 + p.w 2 ≤ 0x100000 ∧ bits (p.w 3) 32 32 = 0 ∧
      (after (.winOpen q0) s).host.wins.length = 1) ∧
    (after (.winOpen q0) (rturn 0x0204 [0x1001, 0xFFFFF, 2, 3])).host.wins = [] ∧ (after (.winOpen q0) (rturn 0x0204 [0x1001, 0, 0, 3])).host.wins = [] ∧
    (let s := turn 0x0205 [0x300000]
     let s := { s with host := { s.host with wins := [(0, roomWin)] } }
     Turn s q0 0x0205 (pkt 0x0205 [0x300000]) ∧ winOf s 0x300000 = some (0, roomWin) ∧ inScope s 0 0 = true ∧ winOf (after (.winRevoke q0) s) 0x300000 = none ∧
      winOf s 0x200000 = none) ∧
    Turn (turn 0x0103 [0]) q0 0x0103 (pkt 0x0103 [0]) ∧ mayName (turn 0x0103 [0]) 0 0 = true ∧ poolRanges up = [] ∧
    (after (.dnkHpoolLenWrite (2 ^ 40 + 2 ^ 21 - 1)) up).host.hpoolLen = 2 ^ 40 ∧ (after (.dnkHpoolLenWrite (2 ^ 40 + 2 ^ 21)) up).host.hpoolLen = up.host.hpoolLen ∧
    poolRanges (roomy up) ≠ [] := by
  unfold Turn; and_intros <;> decide

theorem witness_QueuesAreCreatedResetAndDestroyed :
    (let ws := [0xFFFF6600, 0x2000, 0x3000, 0x4008]
     Turn (turn 0x0104 ws) q0 0x0104 (pkt 0x0104 ws) ∧ queueParams (turn 0x0104 ws) (pkt 0x0104 ws) = none ∧ (ctxQueues (turn 0x0104 ws) 0).length < 64 ∧
      (freeQueue (turn 0x0104 ws) 0).isSome = true) ∧
    (let ws := [0x6600, 0x2000, 0x3000, 0x4008]
     let s := turn 0x0104 ws
     let s := { s with host := { s.host with queues := s.host.queues ++ (List.range 63).map fun n => (n + 1, queue0) } }
     Turn s q0 0x0104 (pkt 0x0104 ws) ∧ (ctxQueues s 0).length = 64) ∧
    (let s := withQ 1 { queue0 with fetch := 2, prod := 5, cnt := 9 } (turn 0x0106 [1])
     Turn s q0 0x0106 (pkt 0x0106 [1]) ∧ (getQ s 1).st ≠ .absent ∧ (getQ s 1).typ < 2 ∧ inScope s 0 0 = true ∧ (getQ s 1).cur = none ∧
      (getQ (after (.queueReset q0) s) 1).cnt = 9) ∧
    (let s := withQ 1 { queue0 with st := .running, cur := some { pkt 0 [] with started := true } } (turn 0x0106 [1])
     Turn s q0 0x0106 (pkt 0x0106 [1]) ∧ (getQ (after (.queueReset q0) s) 1).resetBy = some (0, some q0)) ∧
    (let s := withQ 1 queue0 (turn 0x0105 [1])
     Turn s q0 0x0105 (pkt 0x0105 [1]) ∧ isAdminQueue s 1 = false ∧ (∀ e ∈ s.host.queues, e.2.edge.map Prod.fst ≠ some 1) ∧ s.lnt.qps = [] ∧
      getQ (after (.queueDestroy q0) s) 1 = Queue.init) ∧
    (let s := turn 0x0105 [0]
     let s := { s with host := { s.host with admq := { s.host.admq with en := true } } }
     Turn s q0 0x0105 (pkt 0x0105 [0]) ∧ isAdminQueue s 0 = true) ∧
    Turn (turn 0x0106 [0]) (.host 0) 0x0106 (pkt 0x0106 [0]) ∧ inScope (turn 0x0106 [0]) 0 0 = true ∧
    (let v := { queue0 with typ := 1, st := .running, desc := some (zeros 64), fault := some { cause := 1, access := 1, dva := 0 } }
     Turn (withQ 1 v (turn 0x0108 [1, 0])) q0 0x0108 (pkt 0x0108 [1, 0]) ∧ Turn (withQ 1 v (turn 0x0108 [1, 1])) q0 0x0108 (pkt 0x0108 [1, 1]) ∧
      (getQ (after (.faultResume q0) (withQ 1 v (turn 0x0108 [1, 0]))) 1).desc = some (zeros 64) ∧
      (getQ (after (.faultResume q0) (withQ 1 v (turn 0x0108 [1, 1]))) 1).cnt = 1 ∧
      queueLive (withQ 1 v (turn 0x0108 [1, 0])) 1 = true ∧ queueLive (withQ 1 { v with ctx := 9 } (turn 0x0108 [1, 0])) 1 = false ∧
      inScope (withQ 1 { v with ctx := 9 } (turn 0x0108 [1, 0])) 0 9 = true ∧
      Turn (withQ 1 queue0 (turn 0x0108 [1, 0])) q0 0x0108 (pkt 0x0108 [1, 0])) ∧
    (let s := fun n : BitVec 32 => withQ 2 { queue0 with st := .waiting, edge := some (1, 5), cur := some (pkt 0 []) } (withQ 1 { queue0 with cnt := n } up)
     (getQ (s 5) 2).st = .waiting ∧ (getQ (s 5) 2).edge = some (1, 5) ∧ (counterOf (s 5) 1 - 5).toNat = 0 ∧ (counterOf (s 4) 1 - 5).toNat = 2 ^ 32 - 1 ∧
      (counterOf (s (5 + 2 ^ 31 - 1)) 1 - 5).toNat < 2 ^ 31 ∧ (getQ (after (.waitMet (.queue 2)) (s 5)) 2).edge = none ∧
      (getQ (after (.waitMet (.queue 2)) (s 4)) 2).edge = some (1, 5)) ∧
    (let s := withQ 1 queue0 up
     (getQ s 3).st = .absent ∧ (getQ s 1).ctx ≠ 4 ∧ (waitCheck s 0 (· == 1) 1 0).toOption = some true ∧ (waitCheck s 0 (· == 1) 1 (2 ^ 31 + 1)).toOption = some true ∧
      (waitCheck s 0 (· == 2) 1 (2 ^ 31)).toOption = none ∧ (waitCheck s 0 (· == 1) 1 1).toOption = none ∧ (waitCheck s 0 (· == 2) 1 (2 ^ 31 - 1)).toOption = some false ∧
      (waitCheck s 0 (· == 2) 1 1).toOption = some false ∧ nextEdge s 1 = none) := by
  unfold Turn; and_intros <;> decide

/-- A descriptor: OP at 0, source 0x10, destination 0x18, length 0x20, pattern 0x28 (06 Table 6.8). -/
def dmaDesc (op src dst len pat : Nat) : List Byte :=
  natLE 2 op ++ zeros 14 ++ natLE 8 src ++ natLE 8 dst ++ natLE 8 len ++ natLE 8 pat ++ zeros 16

/-- DMA queue 1 of context 0 holds a descriptor; context 0 maps the room. -/
def dmaHeld (b : List Byte) : State :=
  withQ 1 { queue0 with typ := 1, st := .running, desc := some b } (roomy up)

theorem witness_DmaCopiesFillsAndMarks :
    (let b := dmaDesc 1 0x8001 0x9003 5 0
     let s := setHostMem (memWrite [] 1 (natLE 5 0x0504030201)) (dmaHeld b)
     runnable s 1 1 = some b ∧ quarantined s (unitId 8 0) = false ∧ s.host.confidential = false ∧ field b 0x20 8 ≠ 0 ∧ descOp b = 1 ∧
      copyOverlaps (field b 0x10 8) (field b 0x18 8) (field b 0x20 8) = false ∧
      (dvaRead s 0 (field b 0x10 8) (field b 0x20 8) .read false).toOption = some (natLE 5 0x0504030201) ∧
      (dvaWrite s 0 (field b 0x18 8) (natLE 5 0x0504030201) .write false).toOption.isSome = true ∧
      memRead (after (.dmaCopy 1) s).hostMem 0x1003 5 = natLE 5 0x0504030201) ∧
    (let b := dmaDesc 2 0 0x107FFE 2 0x1122334455667788
     let s := dmaHeld b
     runnable s 1 1 = some b ∧ descOp b = 2 ∧ memRead (after (.dmaFill 1) s).hostMem 0xFFFFE 2 = [0x22, 0x11]) ∧
    runnable (dmaHeld (dmaDesc 3 0 0 0 0)) 1 1 = some (dmaDesc 3 0 0 0 0) ∧ (getQ (after (.dmaMarker 1) (dmaHeld (dmaDesc 3 0 0 0 0))) 1).cnt = 1 ∧
    (getQ (after (.dmaCopy 1) (dmaHeld (dmaDesc 1 0 0 0 0))) 1).cnt = 1 ∧
    copyOverlaps 0x8000 0x8004 5 = true ∧ copyOverlaps 0x8000 0x8005 5 = false ∧ copyOverlaps 0x8005 0x8000 5 = false ∧
    (let b := dmaDesc 1 0x7FFF 0x9000 1 0
     (match dvaRead (dmaHeld b) 0 0x7FFF 1 .read false with | .error (.cause n x) => decide (n = 1 ∧ x = 0x7FFF) | _ => false) = true ∧
      (getQ (after (.dmaCopy 1) (dmaHeld b)) 1).fault = some { cause := 1, access := 1, dva := 0x7FFF }) ∧
    (let b := dmaDesc 1 (2 ^ 48) 0x9000 1 0
     (match dvaRead (dmaHeld b) 0 (2 ^ 48) 1 .read false with | .error (.cause n _) => decide (n = 4) | _ => false) = true ∧
      (getQ (after (.dmaCopy 1) (dmaHeld b)) 1).cnt = 1) ∧
    (let s := withQ 1 { queue0 with typ := 1, prod := 1 } (setHostMem (memWrite [] 0x1000 (natLE 2 4)) (roomy up))
     canFetch s 1 1 = true ∧ (getQ s 1).prod ≠ (getQ s 1).fetch ∧ 3 < descOp (ringSlots s (getQ s 1) 1) ∧ (getQ (after (.dmaCopy 1) s) 1).cnt = 1) ∧
    (let ws := [0x8000, 0x9000, 8]
     Turn (rturn 0x0206 ws) q0 0x0206 (pkt 0x0206 ws) ∧ (dvaRead (rturn 0x0206 ws) 0 0x8000 8 .read false).toOption = some (zeros 8)) ∧
    Turn (rturn 0x0206 [0x8000, 0x8007, 8]) q0 0x0206 (pkt 0x0206 [0x8000, 0x8007, 8]) ∧
    (let ws := [0x8000, 8, 0x0807060504030201]
     Turn (rturn 0x0207 ws) q0 0x0207 (pkt 0x0207 ws) ∧ memRead (after (.memFill q0) (rturn 0x0207 ws)).hostMem 0 8 = natLE 8 0x0807060504030201) := by
  unfold Turn; and_intros <;> decide

/-- Context 5 in a state, with what it waits for. -/
def ctx5 (st : Nat) (w : Option ResetWait) (s : State) : State :=
  { s with host := { s.host with ctxs := s.host.ctxs ++ [(5, { Ctx.init with st := st, wait := w })] } }

/-- A wait of a reset that no command asked for. -/
def waits (d : Bool) (es : List Engine) : Option ResetWait := some { destroy := d, acks := es, by_ := none, since := 100, quar := none }

theorem witness_ContextsResetOnlyThroughTheirEngines :
    Turn (turn 0x0100 [0x1000, 0x100]) q0 0x0100 (pkt 0x0100 [0x1000, 0x100]) ∧ ctxCreateFault (turn 0x0100 [0x1000, 0x100]) (pkt 0x0100 [0x1000, 0x100]) = none ∧
    (getPart (turn 0x0100 [0x1000, 0x100]) 0).st ≠ 2 ∧ (getCtx (after (.ctxCreate q0) (turn 0x0100 [0x1000, 0x100])) 1).root = 0x1000 ∧
    Turn (ctx5 1 none (turn 0x0101 [5])) q0 0x0101 (pkt 0x0101 [5]) ∧ Turn (ctx5 1 none (turn 0x0102 [5])) q0 0x0102 (pkt 0x0102 [5]) ∧
    mayName (ctx5 1 none (turn 0x0102 [5])) 0 5 = true ∧ (getCtx (after (.ctxReset q0) (ctx5 1 none (turn 0x0102 [5]))) 5).st = 2 ∧
    (getCtx (after (.ctxDestroy q0) (ctx5 1 none (turn 0x0101 [5]))) 5).st = 3 ∧
    Turn (turn 0x0102 [0]) q0 0x0102 (pkt 0x0102 [0]) ∧ Turn (turn 0x0101 [4095]) q0 0x0101 (pkt 0x0101 [4095]) ∧ (getCtx (turn 0x0101 [4095]) 4095).st = 0 ∧
    (up.pwr.st ≠ .off ∧ up.pwr.warmBusy = false) ∧
    (getCtx (ctx5 2 (waits false [.dunnock, .wrens]) up) 5).wait = waits false [.dunnock, .wrens] ∧ Engine.dunnock ∈ engines ∧
    (getCtx (after (.engineAck 5 .dunnock) (ctx5 2 (waits false [.dunnock]) up)) 5).st = 1 ∧
    getCtx (after (.engineAck 5 .dunnock) (ctx5 3 (waits true [.dunnock]) up)) 5 = Ctx.init ∧
    (lark { Lark.init with time := 1000099 }).lark.time < 100 + 1000000 ∧ 100 + 1000000 ≤ (lark { Lark.init with time := 1000100 }).lark.time ∧
    ((getCtx (after (.engineAckTimeout 5 .dunnock) (ctx5 2 (waits false [.dunnock, .wrens]) (lark { Lark.init with time := 1000100 }))) 5).wait.map (·.acks)) = some [.wrens] ∧
    (let s := { up with host := { up.host with part := [(1, { Part.init with st := 2, owner := some (zeros 4) })] } }
     (getPart s 1).st = 2 ∧ s.host.vfEnable = false ∧ (getPart (after (.partitionScrubDone 1) s) 1).scrubSeq = 1) ∧
    (getCtx (after (.functionLevelReset .pf) (ctx5 1 none up)) 5).st = 2 ∧
    (let s := { up with host := { up.host with shared := true, parts := 2 } }
     s.host.shared = true ∧ s.host.vfEnable = false ∧ (after (.vfEnableWrite true 4) s).host.vfNum = 4 ∧ (after (.vfEnableWrite true 4) up).host.vfEnable = false) ∧
    (let s := dmaHeld (dmaDesc 1 0x8000 0x9000 8 0)
     let s := { s with host := { s.host with shared := true, parts := 2 } }
     1 < s.host.parts ∧ ((s.host.queues.filter fun e => e.2.typ == 1 && (getCtx s e.2.ctx).part == s.lark.time / 1000 % s.host.parts).map Prod.fst) = [1] ∧
      descOp ((getQ s 1).desc.getD []) = 1) ∧
    (after (.carPwrEnLow true) up).pwr.st = .standby ∧ (after (.carPwrEnLow true) (power { Pwr.init with st := .standby })).pwr.pins.carPwrEn = false ∧
    (after (.carPwrEnLow true) (power { Pwr.init with st := .standby, target := some .idle, req := some (.host 0) })).pwr.target = none := by
  unfold Turn; and_intros <;> decide +kernel

/-! 07. The clauses on a verifying tag rest on AES-GCM, which the model leaves uninterpreted; their remaining hypotheses are met here. -/

theorem witness_SealedPacketsOpenOnceUnderTheChannel :
    (let h := hdr 0x4B01 0 4 0 9 0
     let s := ringed h 1
     let s := { s with host := { s.host with confidential := true, ctxs := [(0, { Ctx.init with st := 1, chan := { Channel.init with st := 2, sealedCnt := 2 ^ 31 - 1 } })] } }
     Fetchable s 0 h 1 ∧ s.host.confidential = true ∧ bitOf (field h 4 2) 2 = true ∧ bitOf (field h 4 2) 1 = false ∧ (getCtx s 0).chan.st = 2 ∧
      (∀ e ∈ (getQ s 0).dup, e.tag ≠ field h 8 4) ∧ (getCtx s 0).chan.sealedCnt < 2 ^ 31 ∧ tagReplayed (getCtx s 0).chan (field h 8 4) = false ∧
      checkPacket false 0 h { parsePacket h [] 0 [] with accepted := true } s = none ∧
      tagReplayed { (getCtx s 0).chan with tagHi := some 9, tags := [9] } 9 = true ∧ tagReplayed { (getCtx s 0).chan with tagHi := some 4105, tags := [] } 9 = true ∧
      tagReplayed { (getCtx s 0).chan with tagHi := some 4104, tags := [] } 9 = false) := by
  unfold Fetchable; decide

/-! 08. -/

/-- A blob of kind 3: 32 bytes of material under algorithm 1, key identifier all `i`, version `v`. -/
def clearBlob (i v : Nat) : List Byte :=
  natLE 4 0x4B4C4B42 ++ natLE 2 1 ++ natLE 1 3 ++ natLE 1 0 ++ natLE 8 0x10100F ++ (List.replicate 16 (BitVec.ofNat 8 i)) ++ zeros 16 ++ natLE 4 v
    ++ natLE 4 32 ++ zeros 12 ++ zeros 60 ++ zeros 32 ++ zeros 16

/-- Its key. -/
def clearKey (i v : Nat) : Key := { attr := 0x10100F, id := List.replicate 16 (BitVec.ofNat 8 i), version := v, material := zeros 32 }

/-- A Live slot of context 0. -/
def liveSlot (k : Key) : KSlot := { KSlot.init with st := 1, key := k }

/-- These key slots, and a floor of 4 for identifier 5. -/
def keyed (sl : Tab KSlot) (s : State) : State := { s with nut := { s.nut with slots := sl, floors := [((clearKey 5 0).id, 4)] } }

theorem witness_KeySlotsLoadStageCommitAndEvict :
    (let s := keyed [] (setHostMem (memWrite [] 0 (clearBlob 5 4)) (rturn 0x0300 [0x8000, 176]))
     let p := pkt 0x0300 [0x8000, 176]
     Turn s q0 0x0300 p ∧ quarantined s (unitId 7 0) = false ∧ s.nut.policyLost = false ∧
      (dvaRead s 0 0x8000 176 .read false).toOption = some (clearBlob 5 4) ∧ (openBlob s 0 176 (clearBlob 5 4)).toOption = some (clearKey 5 4) ∧
      holdsKey s 0 (clearKey 5 4).id = false ∧ freeSlot s 0 = some 2 ∧ (openBlob s 0 176 (clearBlob 5 3)).toOption = none ∧
      getSlotK (after (.keyLoad q0) s) 2 = liveSlot (clearKey 5 4)) ∧
    (let s := keyed [(2, liveSlot (clearKey 5 4))] (setHostMem (memWrite [] 0 (clearBlob 5 5)) (rturn 0x0304 [2, 0x8000, 176]))
     let p := pkt 0x0304 [2, 0x8000, 176]
     Turn s q0 0x0304 p ∧ (nameSlot s 0 2).toOption = some (getSlotK s 2) ∧ (getSlotK s 2).root = false ∧ (getSlotK s 2).st = 1 ∧
      (openBlob s 0 176 (clearBlob 5 5)).toOption = some (clearKey 5 5) ∧ (getSlotK (after (.keyStage q0) s) 2).staged = some (clearKey 5 5)) ∧
    (let s := keyed [(2, liveSlot (clearKey 5 4))] (setHostMem (memWrite [] 0 (clearBlob 5 4)) (rturn 0x0304 [2, 0x8000, 176]))
     (openBlob s 0 176 (clearBlob 5 4)).toOption = some (clearKey 5 4) ∧ (getSlotK (after (.keyStage q0) s) 2).st = 1 ∧
      (openBlob s 0 176 (clearBlob 6 9)).toOption = some (clearKey 6 9)) ∧
    (let v := { liveSlot (clearKey 5 4) with st := 2, staged := some (clearKey 5 5) }
     Turn (keyed [(2, v)] (turn 0x0305 [2])) q0 0x0305 (pkt 0x0305 [2]) ∧ Turn (keyed [(2, v)] (turn 0x0305 [0x102])) q0 0x0305 (pkt 0x0305 [0x102]) ∧
      (nameSlot (keyed [(2, v)] up) 0 2).toOption = some v ∧ getSlotK (keyed [(2, v)] up) 2 = v ∧
      (getSlotK (after (.keyCommit q0) (keyed [(2, v)] (turn 0x0305 [2]))) 2).st = 3 ∧
      (getSlotK (after (.keyOldReleased 2) (after (.keyCommit q0) (keyed [(2, v)] (turn 0x0305 [2])))) 2) = liveSlot (clearKey 5 5) ∧
      (getSlotK (after (.keyCommit q0) (keyed [(2, v)] (turn 0x0305 [0x102]))) 2) = liveSlot (clearKey 5 4) ∧
      Turn (keyed [(2, liveSlot (clearKey 5 4))] (turn 0x0305 [2])) q0 0x0305 (pkt 0x0305 [2])) ∧
    (getSlotK (keyed [(2, { liveSlot (clearKey 5 4) with st := 3 })] up) 2).st = 3 ∧
    (let s := keyed [(255, liveSlot (clearKey 5 4))] (turn 0x0301 [255])
     Turn s q0 0x0301 (pkt 0x0301 [255]) ∧ (nameSlot s 0 255).toOption = some (getSlotK s 255) ∧ (getSlotK (after (.keyEvict q0) s) 255).evicted = true) ∧
    (let v := { liveSlot (clearKey 5 4) with root := true }
     Turn (keyed [(0, v)] (turn 0x0301 [0])) q0 0x0301 (pkt 0x0301 [0]) ∧ Turn (keyed [(0, v)] (turn 0x0304 [0, 0, 0])) q0 0x0304 (pkt 0x0304 [0, 0, 0]) ∧
      (nameSlot (keyed [(0, v)] up) 0 0).toOption = some v ∧ Turn (keyed [(0, v)] (turn 0x0307 [0])) q0 0x0307 (pkt 0x0307 [0])) := by
  unfold Turn; and_intros <;> decide +kernel

theorem witness_KeysDeriveAndWrapAsStated :
    (let ws := [2, 0x10000F] ++ List.replicate 8 0
     let s := keyed [(2, liveSlot { clearKey 5 4 with attr := 0x10040F })] (turn 0x0302 ws)
     Turn s q0 0x0302 (pkt 0x0302 ws) ∧ rsvdWord 1 attrMask 0x10000F = none ∧ deriveMissing 0x10040F 0x10000F = 0 ∧ freeSlot s 0 = some 3 ∧
      deriveMissing 0x10000F 0x10000F = 0x400 ∧ deriveMissing 0x10040F 0x10000F = 0 ∧ (nameSlot s 0 2).toOption = some (getSlotK s 2) ∧
      (getSlotK (after (.keyDerive q0) s) 3).st = 1) ∧
    (let s := keyed [(2, liveSlot { clearKey 5 4 with attr := 0x11000F }), (3, liveSlot { clearKey 6 4 with attr := 0x102000 })] (rturn 0x0303 [0x302])
     let p := { pkt 0x0303 [0x302] with rbuf := 0x8000, rbufLen := 176 }
     let s := { s with host := { s.host with queues := [(0, { queue0 with st := .running, cur := some p })] } }
     Turn s q0 0x0303 p ∧ (nameSlot s 0 (bits (p.w 0) 0 8)).toOption = some (getSlotK s 2) ∧ (nameSlot s 0 (bits (p.w 0) 8 8)).toOption = some (getSlotK s 3) ∧
      (getSlotK s 3).key.attr.getLsbD 13 = true ∧ (getSlotK s 2).key.attr.getLsbD 16 = true ∧ bufErr s q0 p (144 + 32) = none ∧
      (after (.keyWrap q0) s).free = s.free + 1) ∧
    (clearKey 5 4).id.length = 16 := by
  unfold Turn; and_intros <;> decide +kernel

/-- An update message of one floor entry with no signature; its checks rest on signatures that the model leaves uninterpreted. -/
def updMsg : List Byte := natLE 4 0x4B4C4B55 ++ natLE 2 1 ++ natLE 2 1 ++ zeros 16 ++ natLE 4 1 ++ zeros 0x844 ++ zeros 20 ++ natLE 1 1 ++ zeros 3 ++ zeros 3408

theorem witness_KeyUpdateRaisesFloorsAndEvictsStaleKeys :
    (let p := pktOf 5 0x0306 [0, 0]
     Turn (holding p up) q0 0x0306 p ∧ (holding p up).nut.authority = [] ∧ p.ctx ≠ 0) ∧
    updateForm (0x860 + 24 + 3408) updMsg = none ∧ field updMsg 6 2 = 1 ∧
    updateFault { up with boot := { up.boot with deviceId := [1] } } updMsg = some (0x0503, 2) ∧
    up.boot.fuses.epoch < 1023 ∧ up.boot.measLog.length < 256 := by
  unfold Turn; and_intros <;> decide +kernel

/-! 09. -/

/-- An instruction word: CLASS, OP, and other fields as (lowest bit, value) (09 Table 9.5). -/
def ins (cls op : Nat) (fs : List (Nat × Nat)) : Nat := cls + 16 * op + (fs.map fun f => f.2 * 2 ^ f.1).sum

/-- A program of thicket 0 that needs every engine kind: working area 0xE0000, no static allocation. -/
def progOfCode (code : List Nat) : Prog :=
  { mask := 1, secret := false, board := false, roost := 0, wsize := 0xE0000, staticLen := 0, static_ := [], minT := 1, maxT := 1, engines := 15
    code := code.map (BitVec.ofNat 128) }

/-- Its object and its active run. -/
def progObj (g : Prog) : Obj := { idx := 2, gen := 0, ctx := 0, host := true, refs := 0, sha := [], kind := .prog g }
def run0 : Run :=
  { id := 3, st := 1, ctx := 0, prog := 0x2002, thks := [0], argAddr := 0, argLen := 8, args := natLE 8 0x77, pins := [], board := false, boardId := 0
    src := .launch 1, tag := 0, irq := false, order := 0, retired := 0, stalled := false }

/-- A Wren of that run with these registers. -/
def wren0 (sr : Tab (BitVec 64)) : Wren := { Wren.init with st := 1, run := some 3, sr := sr }

/-- The chip in Run with thicket 0 bound to context 0, the Wrens of the run, and the program. -/
def fabric (code : List Nat) (ws : Tab Wren) (s : State := up) : State :=
  { roomy s with fab := { s.fab with wrens := ws, runs := [run0], thks := [(0, { Thk.init with bound := some 0 })] }
                 host := { (roomy s).host with objs := [(0x1001, roomObj), (0x2002, progObj (progOfCode code))]
                                               queues := (roomy s).host.queues ++ [(1, { queue0 with typ := 2 })] } }

/-- One Wren at one instruction; every other of the run has ended. -/
def lone (i : Nat) (sr : Tab (BitVec 64)) (s : State := up) : State :=
  fabric [i, 1 * 16] ((0, wren0 sr) :: (List.range 23).map fun k => (k + 1, { wren0 [] with ended := true })) s

/-- The site of Wren 0. -/
def site0 (i : Nat) : Site := { w := 0, run := run0, prog := progOfCode [i, 1 * 16], insn := i }

/-- SR[3] := SR[1] op SR[2]. -/
def alu (op : Nat) : Nat := ins 1 op [(20, 3), (25, 1), (30, 2)]

theorem witness_ScalarInstructionsWriteTheirResult :
    (∀ op, op < 15 → op ≠ 0 → Stands (lone (alu op) [(1, 5), (2, 63)]) 0 1 op (site0 (alu op))) ∧
    (opB (site0 (alu 6)) (lone (alu 6) [(1, 5), (2, 63)]) = 63 ∧ opB (site0 (alu 6)) (lone (alu 6) [(1, 5), (2, 64)]) = 64 ∧
      getSr (after (.shl 0) (lone (alu 6) [(1, 5), (2, 63)])) 0 3 = 2 ^ 63 ∧ getSr (after (.sub 0) (lone (alu 2) [(1, 5), (2, 6)])) 0 3 = 2 ^ 64 - 1 ∧
      getSr (after (.cmplts 0) (lone (alu 0xB) [(1, 2 ^ 63), (2, 0)])) 0 3 = 1 ∧ getSr (after (.cmpltu 0) (lone (alu 0xA) [(1, 2 ^ 63)])) 0 3 = 0 ∧
      getSr (after (.rdarg 0) (lone (alu 0xD) [])) 0 3 = 0x77 ∧ getSr (after (.rdarg 0) (lone (alu 0xD) [(1, 1)])) 0 3 = 0) ∧
    (let i := alu 1 + 2 ^ 12
     siteOf (lone i []) 0 = some (site0 i) ∧ bitOf i 12 = true ∧ getSr (lone i []) 0 (bits i 13 5) = 0 ∧ (getWren (after (.add 0) (lone i [])) 0).ix = 1) ∧
    siteOf up 0 = none ∧ insOp (site0 (alu 1)).insn ≠ 2 := by
  unfold Stands; and_intros <;> decide +kernel

/-- The Wren waits at an instruction, blocked with a code since time 0. -/
def blockedAt (i code : Nat) (s : State) (sr : Tab (BitVec 64) := []) : State :=
  fabric [i, 1 * 16] ((0, { wren0 sr with block := code, blockedAt := some 0 }) :: (List.range 23).map fun k => (k + 1, { wren0 [] with ended := true })) s

theorem witness_ControlAndSynchronisationOrderWrens :
    Stands (lone 0 []) 0 0 0 (site0 0) ∧
    (let i := ins 0 2 [(20, 1)]
     Stands (lone i []) 0 0 2 (site0 i) ∧ (getWren (after (.br 0) (lone i [])) 0).ix = 1) ∧
    (let i := ins 0 3 [(20, 1), (25, 1)]
     Stands (lone i []) 0 0 3 (site0 i) ∧ Stands (lone i [(1, 1)]) 0 0 3 (site0 i) ∧ (getWren (after (.loop 0) (lone i [])) 0).ix = 2 ∧
      (getWren (after (.loop 0) (lone i [(1, 1)])) 0).loops.length = 1) ∧
    (let i := ins 0 1 [(20, 1)]
     Stands (lone i [(1, 9)]) 0 0 1 (site0 i) ∧ (getWren (lone i []) 0).async = [] ∧ (∀ v ∈ run0.wrens, v ≠ 0 → (getWren (lone i []) v).ended = true) ∧
      (after (.endRun 0) (lone i [(1, 9)])).fab.runs = [] ∧
      (let s := fabric [i] ((0, wren0 []) :: (List.range 23).map fun k => (k + 1, wren0 []))
       (∃ v ∈ run0.wrens, v ≠ 0 ∧ (getWren s v).ended = false) ∧ (∀ v ∈ run0.wrens, (getWren s v).block = 0) ∧ (after (.endRun 0) s).fab.runs.length = 1)) ∧
    (∀ p ∈ [(6, 9), (6, 2), (6, 3), (0, 1)],
      let s := fabric [ins p.1 p.2 []] [(0, { wren0 [] with async := [.fill 0 0 64 0] })]
      (siteOf s 0).isSome = true ∧ (getWren s 0).async ≠ []) ∧ semOf (site0 (ins 6 2 [])) ≠ none ∧
    Stands (lone (ins 6 9 []) []) 0 6 9 (site0 (ins 6 9 [])) ∧
    (let i := ins 6 1 [(20, 1), (30, 63)]
     let k := ins 6 2 [(20, 1), (30, 63)]
     let s := fun n : Nat => { lone i [(1, 5)] with fab := { (lone i [(1, 5)]).fab with thks := [(0, { Thk.init with bound := some 0, sems := [(63, n)] })] } }
     Stands (s 5) 0 6 1 (site0 i) ∧ semVal (s 5) 0 63 = 5 ∧ semVal (after (.semwait 0) (s 5)) 0 63 = 0 ∧ (getWren (after (.semwait 0) (s 4)) 0).block = 1 ∧
      Stands (lone k [(1, 2 ^ 32)]) 0 6 2 (site0 k) ∧ semVal (after (.semsig 0) (lone k [(1, 2 ^ 32)])) 0 63 = 0xFFFFFFFF ∧
      run0.thks[bits (ins 6 1 [(36, 1)]) 36 6]? = none ∧ Stands (lone (ins 6 1 [(36, 1)]) []) 0 6 1 (site0 (ins 6 1 [(36, 1)])) ∧
      Stands (lone (ins 6 2 [(36, 63)]) []) 0 6 2 (site0 (ins 6 2 [(36, 63)])) ∧ (after (.semsig 0) (lone (ins 6 2 [(36, 63)]) [])).fab.runs = []) ∧
    (let i := ins 6 3 [(30, 63)]
     Stands (lone i []) 0 6 3 (site0 i) ∧ 0 ∈ run0.wrens ∧ run0.thks.Nodup ∧ (getWren (after (.bar 0) (lone i [])) 0).ix = 1 ∧
      (let s := fabric [i] ((0, wren0 []) :: (List.range 23).map fun k => (k + 1, wren0 []))
       (getWren (after (.bar 0) s) 0).block = 2)) ∧
    (let i := ins 6 4 [(20, 1), (25, 2), (47, 3)]
     let s := fun (q n : Nat) => lone i [(1, BitVec.ofNat 64 q), (2, BitVec.ofNat 64 n)] (withQ 2 { queue0 with cnt := 5 } up)
     (∀ n ∈ [5, 4, 6, 5 + 2 ^ 31 - 1, 5 + 2 ^ 31], Stands (s 2 n) 0 6 4 (site0 i)) ∧ (getQ (s 2 5) 2).st ≠ .absent ∧ (getQ (s 2 5) 2).ctx = 0 ∧
      (getWren (after (.cwait 0) (s 2 5)) 0).ix = 1 ∧ (getWren (after (.cwait 0) (s 2 6)) 0).block = 4 ∧ (getWren (after (.cwait 0) (s 2 (5 + 2 ^ 31 - 1))) 0).block = 4 ∧
      (getWren (after (.cwait 0) (s 2 (5 + 2 ^ 31))) 0).faultStatus = 0x0603 ∧ (getWren (after (.cwait 0) (s 2 (6 + 2 ^ 31))) 0).ix = 1 ∧
      (getWren (after (.cwait 0) (s 1 1)) 0).faultStatus = 0x0406) ∧
    (let i := ins 6 5 [(30, 15), (47, 3)]
     let l := { Lark.init with time := 2000, beats := [(15, { Beat.init with k := 10, en := true, base := 1023 })] }
     Stands (lone i [] (lark l)) 0 6 5 (site0 i) ∧ (getBeat (lark l) 15).en = true ∧ (getBeat (lark l) 15).owner = 0 ∧ (getWren (after (.bwait 0) (lone i [] (lark l))) 0).block = 5 ∧
      (getWren (blockedAt i 5 (lark l)) 0).blockedAt = some 0 ∧ 0 / 2 ^ 10 < 1024 / 2 ^ 10 ∧
      (getWren (after (.bwait 0) (blockedAt i 5 (lark { l with beats := [(15, { Beat.init with k := 10, en := true, base := 1024 })] }))) 0).ix = 1 ∧
      (getWren (after (.bwait 0) (blockedAt i 5 (lark l))) 0).ix = 0 ∧ (after (.bwait 0) (lone i [])).fab.runs = []) ∧
    (let i := ins 6 6 [(20, 1), (30, 15), (47, 3)]
     let s := fun n : Nat => fabric [i] [(0, { wren0 [(1, 4)] with arr := [(15, n)] })]
     Stands (lone i [(1, 4)]) 0 6 6 (site0 i) ∧ (getWren (after (.arrwait 0) (s 4)) 0).arr = [] ∧ (getWren (after (.arrwait 0) (s 3)) 0).block = 6) ∧
    (let i := ins 6 6 [(20, 1), (30, 15), (42, 4), (47, 3)]
     let s := fun t : Nat => blockedAt i 6 (lark { Lark.init with time := t }) [(4, 2)]
     siteOf (s 2000) 0 = some (site0 i) ∧ getSr (s 2000) 0 (bits i 42 5) = 2 ∧ getSr (after (.eventWaitTimeout 0) (s 2000)) 0 3 = 1 ∧
      (getWren (after (.eventWaitTimeout 0) (s 1999)) 0).ix = 0) ∧
    (let i := ins 6 7 [(20, 1), (30, 1)]
     let k := ins 6 8 [(20, 1)]
     Stands (lone i [(1, 7)]) 0 6 7 (site0 i) ∧ instOwned (lone i []) 0 1 7 = true ∧ instOwned (lone i []) 0 0 15 = true ∧ instOwned (lone i []) 0 1 8 = false ∧
      instOwned (lone i []) 0 0 16 = false ∧ (getInst (after (.rsv 0) (lone i [(1, 7)])) 1 7).holder = some 3 ∧ (after (.rsv 0) (lone i [(1, 8)])).fab.runs = [] ∧
      Stands (lone k []) 0 6 8 (site0 k) ∧
      (let s := fun r : Nat => { lone i [(1, 7)] with fab := { (lone i [(1, 7)]).fab with gcr := [(7, { Inst.init with holder := some r })] } }
       (getWren (after (.rsv 0) (s 3)) 0).ix = 1 ∧ (getWren (after (.rsv 0) (s 4)) 0).block = 3)) := by
  unfold Stands; and_intros <;> decide +kernel

/-- An image of these instructions for one thicket (09 Table 9.9). -/
def imageOf (code : List Nat) : List Byte :=
  natLE 4 0x4B4C4A50 ++ natLE 2 1 ++ natLE 2 0 ++ natLE 4 code.length ++ natLE 4 0xE0000 ++ natLE 4 0 ++ natLE 4 0 ++ natLE 1 1 ++ natLE 1 1 ++ natLE 2 15
    ++ zeros 36 ++ code.flatMap (natLE 16)

/-- PROG_LOAD of that image from the room, of `n` bytes. -/
def loadTurn (code : List Nat) (n : Nat) : State := setHostMem (memWrite [] 0 (imageOf code)) (rturn 0x0500 [0x8000, n, 1])

/-- The chip in Run with the room and a program of one END. -/
def progged (s : State) : State :=
  { roomy s with host := { (roomy s).host with objs := [(0x1001, roomObj), (0x2002, progObj (progOfCode [16]))], queues := (roomy s).host.queues } }

theorem witness_ProgramsLoadLaunchAndStart :
    (let s := loadTurn [0, 16] 96
     Turn s q0 0x0500 (pkt 0x0500 [0x8000, 96, 1]) ∧ (dvaRead s 0 0x8000 64 .fetch false).toOption = some ((imageOf [0, 16]).take 64) ∧
      jkpFault ((imageOf [0, 16]).take 64) = none ∧ 96 = 0x40 + 16 * field (imageOf [0, 16]) 8 4 + field (imageOf [0, 16]) 0x14 4 ∧
      (dvaRead s 0 0x8000 96 .fetch false).toOption = some (imageOf [0, 16]) ∧ progFault s 0 (progFrom (imageOf [0, 16]) 1) = none ∧
      (after (.progLoad q0) s).host.objs.length = 2 ∧ (progFault s 0 (progFrom (imageOf [0x7F]) 1)).isSome = true ∧
      (progFault s 0 (progFrom (imageOf [0, 16]) 0)).isSome = true) ∧
    (let s := progged (turn 0x0502 [0x2002, 0])
     let l : Launch := { prog := 0x2002, arg := 0, argLen := 0, thks := 0, board := false, boardId := 0 }
     Turn s q0 0x0502 (pkt 0x0502 [0x2002, 0]) ∧ launchFault s 0 l = none ∧ (after (.progRun q0) s).fab.runs.length = 1 ∧ (launchFault s 0 { l with prog := 0x2003 }).isSome = true) ∧
    (let b := natLE 2 1 ++ zeros 14 ++ natLE 8 0x2002 ++ natLE 8 0x8000 ++ natLE 4 8 ++ natLE 4 0 ++ natLE 8 1 ++ zeros 16
     let s := fun b => progged (withQ 1 { queue0 with typ := 2, st := .running, desc := some b } up)
     runnable (s b) 1 2 = some b ∧ descOp b = 1 ∧ noRun (s b) 1 = true ∧ launchFault (s b) 0 (launchOf b) = none ∧ field b 0x28 8 ≠ 0 ∧
      (after (.launch 1) (s b)).fab.runs.length = 1 ∧ (launchFault (s b) 0 (launchOf (b.set 0x28 2))).isSome = true ∧
      runnable (s (natLE 2 3 ++ zeros 62)) 1 2 = some (natLE 2 3 ++ zeros 62)) ∧
    (let r : Run := { run0 with st := 0, argAddr := 0x8000, argLen := 16, src := .prog q0 }
     let s := { (progged (turn 0 [])) with fab := { up.fab with runs := [r], thks := [(0, { Thk.init with bound := some 0 })] } }
     getRun? s 3 = some r ∧ mayStart s r = true ∧ s.pwr.st = .run ∧ (useObj s 0 0x2002 2).toOption.isSome = true ∧
      (dvaRead s 0 0x8000 16 .read false).toOption = some (zeros 16) ∧ (pinsOf s 0 (zeros 16)).toOption = some [] ∧ (pinsOf s 0 (natLE 8 1 ++ natLE 8 0x1001)).toOption = some [0x1001] ∧
      r.thks.Nodup ∧ (getWren (after (.runStart 3) s) 23).sr = [(1, 23), (3, 23)] ∧ mayStart s { r with st := 1 } = false ∧
      mayStart { s with pwr := { s.pwr with st := .idle } } r = true ∧ (power { Pwr.init with st := .idle }).pwr.target = none) ∧
    (let s := fun t : Nat => fabric [ins 6 1 [(20, 1)]] ((List.range 24).map fun k => (k, { wren0 [] with block := 1, blockedAt := some 0 })) (lark { Lark.init with time := t })
     getRun? (s 10000000) 3 = some run0 ∧ (∀ w ∈ run0.wrens, longBlocked (s 10000000) w = true) ∧ longBlocked (s 9999999) 0 = false ∧
      ((after (.runStalled 3) (s 10000000)).fab.runs.all (·.stalled)) = true) ∧
    (let s := fun t : Nat => fabric [ins 6 1 [(20, 1)]] ((List.range 24).map fun k => (k, { wren0 [] with block := 1, blockedAt := some 0 })) (lark { Lark.init with time := t })
     let s := fun t : Nat => { s t with fab := { (s t).fab with runs := [{ run0 with stalled := true }] } }
     (s 0).pwr.st = .run ∧ (∀ k, k < 24 → (getWren (s 0) k).block ≠ 3) ∧ (s 20000006).lark.time % 1000000 < 7 ∧ 7 ≤ (s 20000007).lark.time % 1000000 ∧
      (after .stallExamination (s 20000006)).fab.runs = [] ∧ (after .stallExamination (s 20000007)).fab.runs.length = 1) := by
  unfold Turn; and_intros <;> decide +kernel

theorem witness_MovesAndPeersTransferBytes :
    (∀ p ∈ [(1, 64), (3, 16777216), (2, 16777280), (1, 63), (3, 0)],
      Stands (lone (ins 2 p.1 [(30, 1)]) [(1, BitVec.ofNat 64 p.2)]) 0 2 p.1 (site0 (ins 2 p.1 [(30, 1)]))) ∧
    (after (.peer 0) (lone (ins 2 2 [(30, 1)]) [(1, 16777280)])).fab.runs = [] ∧ (after (.move 0) (lone (ins 2 1 [(30, 1)]) [(1, 63)])).fab.runs = [] ∧
    (let i := ins 2 1 [(20, 1), (25, 2), (30, 3)]
     let s := lone i [(1, 0xDFFC0), (2, 64), (3, 64)]
     Stands s 0 2 1 (site0 i) ∧ sideFault s (site0 i) 0 64 64 .read = none ∧ sideFault s (site0 i) 0 0xDFFC0 64 .write = none ∧
      interlocked (getWren s 0) (asyncReads (.move 0 0xDFFC0 64 64)) (asyncWrites (.move 0 0xDFFC0 64 64)) = false ∧
      (getWren (after (.move 0) s) 0).async = [.move 0 0xDFFC0 64 64] ∧
      interlocked { wren0 [] with async := [.move 0 0xDFFC0 64 64] } [(0xDFFC0, 64)] [] = true ∧
      interlocked { wren0 [] with async := [.move 0 0xDFFC0 64 64] } [(64, 64)] [] = false ∧
      srcSide 1 = 1 ∧ thkRange s (site0 i) (2 ^ 24) 64 = none ∧ srcSide 0 = 0 ∧ (progOfCode [i]).wsize < 0xE0000 + 64) ∧
    (let i := ins 2 3 [(20, 1), (25, 2), (30, 3)]
     let s := lone i [(1, 0), (2, 9), (3, 64)]
     Stands s 0 2 3 (site0 i) ∧ sideFault s (site0 i) 0 0 64 .write = none ∧ (getWren (after (.fill 0) s) 0).async = [.fill 0 0 64 9]) ∧
    (let i := ins 2 2 [(20, 1), (25, 2), (30, 3), (39, 5), (42, 15)]
     let s := lone i [(1, 0xDFFC0), (3, 64)]
     Stands s 0 2 2 (site0 i) ∧ interlocked (getWren s 0) [(0, 64)] [] = false ∧ (getWren (after (.peer 0) s) 0).async.length = 1) ∧
    (let s := fun a => fabric [16] [(0, { wren0 [] with async := [a] })]
     (asyncSite (s (.move 0 0xDFFC0 0 64)) 0).isSome = true ∧ (getWren (s (.move 0 0xDFFC0 0 64)) 0).async[0]? = some (.move 0 0xDFFC0 0 64) ∧
      (let t := after (.wrenAsyncComplete 0 0) (s (.fill 0 0xDFFC0 64 0x0807060504030201))
       (getWren t 0).async = [] ∧ memRead t.mem (wrenBase 0 + 0xDFFF8) 8 = natLE 8 0x0807060504030201)) ∧
    (let s := fabric [16] [(0, { wren0 [] with arr := [(2, 2 ^ 32 - 1)], pushed := [(2, 0)] })]
     tabGet 0 (getWren (after (.peerPlaced 0 2) s) 0).arr 2 = 0 ∧ (getWren (after (.peerPlaced 0 3) s) 0).arr = [(2, 2 ^ 32 - 1)]) ∧
    (let s := fun t : Nat => fabric [16] [(0, { wren0 [] with async := [.peer 5 0 0 64 0 false 0] })] (lark { Lark.init with time := t })
     (asyncSite (s 99999) 0).isSome = true ∧ (after (.peerTimeout 0) (s 99999)).fab.runs.length = 1 ∧ (after (.peerTimeout 0) (s 100000)).fab.runs = []) := by
  unfold Stands; and_intros <;> decide +kernel

/-! 09 R172, R173 and 10. -/

/-- Tile 0 row in F32 with FIRST and LAST clear: one activation row at SR[1], INT8. -/
def mmaIns (fmt first m tile infmt : Nat) : Nat := ins 3 3 [(20, 1), (25, m), (31, tile), (49, fmt), (55, infmt), (60, first)]

/-- A Wren with an active tile of a format. -/
def withTile (infmt : Nat) (g : Tab Group) (i : Nat) (sr : Tab (BitVec 64)) : State :=
  fabric [i, 1 * 16] [(0, { wren0 sr with active := some { infmt := infmt, bytes := [] }, groups := g })]

theorem mma_row : MmaAt (withTile 3 [] (mmaIns 0 0 0 511 3) []) 0 (site0 (mmaIns 0 0 0 511 3)) .f32 { infmt := 3, bytes := [] } 0 511 1 := by
  constructor <;> (try unfold Stands) <;> decide
theorem mma_group : MmaAt (withTile 0 [] (mmaIns 0 1 63 0 0) [(1, 0xDE000)]) 0 (site0 (mmaIns 0 1 63 0 0)) .f32 { infmt := 0, bytes := [] } 0xDE000 0 64 := by
  constructor <;> (try unfold Stands) <;> decide

theorem witness_SystolicArrayMultipliesAndAdds :
    (let i := ins 3 1 [(20, 1), (55, 0)]
     Stands (lone i [(1, 0xDE000)]) 0 3 1 (site0 i) ∧ 0xDE000 + weightBytes 0 = 0xE0000 ∧ (getWren (lone i []) 0).async = []) ∧
    Stands (lone (ins 3 2 []) []) 0 3 2 (site0 (ins 3 2 [])) ∧
    groupOk (withTile 3 [] (mmaIns 0 0 0 511 3) []) 0 0 .f32 0 511 1 = true ∧ (getGroup (withTile 3 [] (mmaIns 0 0 0 511 3) []) 0 0).opn = false ∧
    mayOpen (withTile 0 [] (mmaIns 0 1 63 0 0) []) 0 0 .f32 0 64 = true ∧
    (let i := mmaIns 0 0 0 512 3
     Stands (withTile 3 [] i []) 0 3 3 (site0 i) ∧ (site0 i).roost.fits .f32 512 1 = false ∧ (site0 i).roost.fits .f32 511 1 = true ∧
      (after (.mma 0) (withTile 3 [] i [])).fab.runs = []) ∧
    (let i := mmaIns 0 0 0 0 1
     Stands (withTile 3 [] i []) 0 3 3 (site0 i) ∧ (after (.mma 0) (withTile 3 [] i [])).fab.runs = []) := by
  unfold Stands; and_intros <;> decide +kernel

/-- A Starling instruction in F32 on tile 511: location SR[1], rows, group 0. -/
def stl (op n : Nat) (fs : List (Nat × Nat)) : Nat := ins 4 op ([(20, 1), (25, 512 - n), (43, n)] ++ fs)

/-- Its fields with SR[1] = `loc`. -/
def stlA (loc n epi outfmt k1 : Nat) : StlIns :=
  { loc := loc, tile := 512 - n, n := n, f := .f32, order := 0, grp := 0, k1 := k1, epi := epi, outfmt := outfmt, sigma := 0 }

theorem stl_ops : (∀ p ∈ [(1, 1), (1, 2), (2, 1), (3, 1), (4, 1), (5, 1), (6, 1), (7, 1), (8, 1)],
    let i := stl p.1 p.2 []
    Stands (lone i [(1, 0x100)]) 0 4 p.1 (site0 i) ∧ stlFields (site0 i) (lone i [(1, 0x100)]) = some (stlA 0x100 p.2 0 0 0) ∧
      (site0 i).roost.fits .f32 (512 - p.2) p.2 = true) := by
  unfold Stands; decide +kernel

theorem stl_at : StlAt (lone (stl 1 1 []) [(1, 0x100)]) 0 1 (site0 (stl 1 1 [])) (stlA 0x100 1 0 0 0) := by
  constructor <;> (try unfold Stands) <;> decide

/-- 1.0 as the first F32 element. -/
def ones : List Byte := natLE 4 0x3F800000

/-- A Wren at a Starling instruction with these bytes at 0x100 of its working area and at tile 511, which a term has entered. -/
def starling (i : Nat) (bs tile : List Byte) : State :=
  setMem (memWrite (memWrite [] (wrenBase 0 + 0x100) bs) (wrenBase 0 + 0xFFF00) tile)
    (fabric [i, 1 * 16] [(0, { wren0 [(1, 0x100)] with tsw := [(tswKey (site0 0).roost 511, { Tsw.init with empty := false })] })])

/-- The first bytes of tile 511 and of the location after a command. -/
def tile511 (s : State) : List Byte := memRead s.mem (wrenBase 0 + 0xFFF00) 4
def atLoc (n : Nat) (s : State) : List Byte := memRead s.mem (wrenBase 0 + 0x100) n

theorem test_vadd : tile511 (after (.vadd 0) (starling (stl 1 1 []) ones ones)) = natLE 4 0x40000000 := by decide +kernel
theorem test_preload : tile511 (after (.preload 0) (starling (stl 2 1 []) ones [])) = natLE 4 0x3F800000 := by decide +kernel
theorem test_tread : atLoc 4 (after (.tread 0) (starling (stl 3 1 []) [] ones)) = ones := by decide +kernel
theorem test_twrite : tile511 (after (.twrite 0) (starling (stl 4 1 []) ones [])) = natLE 4 0x3F800000 := by decide +kernel
theorem test_topk : atLoc 8 (after (.topk 0) (starling (stl 5 1 [(64, 1)]) [] (zeros 12 ++ natLE 4 0x3F800000))) = natLE 4 3 ++ natLE 4 0 := by decide +kernel
theorem test_maxi : atLoc 8 (after (.maxi 0) (starling (stl 6 1 []) [] (zeros 12 ++ natLE 4 0x3F800000))) = natLE 4 3 ++ natLE 4 0x3F800000 := by decide +kernel
theorem test_mini : atLoc 8 (after (.mini 0) (starling (stl 7 1 []) [] (zeros 12 ++ natLE 4 0xBF800000))) = natLE 4 3 ++ natLE 4 0xBF800000 := by decide +kernel
theorem test_combine : tile511 (after (.combine 0) (starling (stl 8 1 []) ones ones)) = natLE 4 0x40000000 := by decide +kernel

/-- A row of words with only the last set, and a tile that holds the same. -/
def wordRow (n : Nat) : List Byte := zeros 504 ++ natLE 8 n
def ingress : State := setMem (memWrite [] (wrenBase 0 + 1048576 - roostSize 0 + 504) (natLE 8 1)) up
def ingressRoost : Roost := { w := 0, size := wrenRoost ingress 0, ctx := wrenCtx ingress 0, ingress := true }
theorem test_ingress_row_add : memRead (after (.ingressRowAdd 0 0 .z64 (wordRow 1)) ingress).mem (wrenBase 0 + 1048576 - roostSize 0 + 504) 8 = natLE 8 2 := by
  decide +kernel

theorem witness_StarlingAccumulatesReadsAndRanks :
    (let i := stl 1 1 []
     groupOk (lone i []) 0 0 .f32 0 511 1 = true ∧ 0x100 + 1 * srcRowBytes .f32 ≤ (progOfCode [i]).wsize ∧
      interlocked (getWren (lone i []) 0) [(0x100, 256)] [(stlA 0x100 1 0 0 0).range (site0 i)] = false) ∧
    mayOpen (lone (stl 2 1 []) []) 0 0 .f32 0 1 = true ∧ inOpenRange (lone (stl 3 1 []) []) 0 .f32 511 1 = false ∧
    ((decRow .f32 (memRead (starling (stl 4 1 []) ones []).mem (wrenBase 0 + 0x100) 256)).any (badRaw .f32) = false) ∧ valued .f32 = true ∧
    powered up = true ∧ 0 < wrenCount up ∧ quarantined up (unitId 3 0) = false ∧ ingressFault ingress ingressRoost .z64 0 512 = none ∧
    ingressFault ingress ingressRoost .z64 510 512 = none ∧ ingressFault ingress ingressRoost .z64 511 512 = some 0x0105 ∧
    (ingressFault ingress ingressRoost .z64 0 511).isSome = true := by
  decide +kernel

/-! 11. -/

/-- A Thrush instruction over SR[1], SR[2], SR[3]. -/
def thr (op p len : Nat) : Nat := ins 5 op [(20, 1), (25, 2), (30, 3), (35, p), (39, len)]
def thrSt (op p len a b d : Nat) : State := lone (thr op p len) [(1, BitVec.ofNat 64 a), (2, BitVec.ofNat 64 b), (3, BitVec.ofNat 64 d)]
def thrI (p n l k len a b d : Nat) : ThrIns := { a := a, b := b, d := d, p := p, t := { n := n, l := l, k := k }, len := len }

theorem thr_elementwise : ThrAt (thrSt 1 0 16 0 0x8000 0x10000) 0 1 (site0 (thr 1 0 16)) (thrI 0 4096 2 0 16 0 0x8000 0x10000) := by
  constructor <;> (try unfold Stands) <;> first | rfl | decide
theorem thr_same : ThrAt (thrSt 4 3 1 0xDF800 0xDF800 0xDF800) 0 4 (site0 (thr 4 3 1)) (thrI 3 32768 12 4 1 0xDF800 0xDF800 0xDF800) := by
  constructor <;> (try unfold Stands) <;> first | rfl | decide
theorem thr_ksw : ThrAt (thrSt 0xB 1 1 0 0x3001 0x18000) 0 0xB (site0 (thr 0xB 1 1)) (thrI 1 8192 3 1 1 0 0x3001 0x18000) := by
  constructor <;> (try unfold Stands) <;> first | rfl | decide
theorem thr_modsw : ThrAt (thrSt 0xA 0 32 0 1 0x10000) 0 0xA (site0 (thr 0xA 0 32)) (thrI 0 4096 2 0 32 0 1 0x10000) := by
  constructor <;> (try unfold Stands) <;> first | rfl | decide
theorem thr_pdec : ThrAt (thrSt 0xD 0 16 0 (2 + 256 * 20) 0x20000) 0 0xD (site0 (thr 0xD 0 16)) (thrI 0 4096 2 0 16 0 (2 + 256 * 20) 0x20000) := by
  constructor <;> (try unfold Stands) <;> first | rfl | decide

/-- A PDEC key: algorithm 7, PDEC engine and use. -/
def pdecKey : Key := { clearKey 5 0 with attr := 0x700208 }

theorem witness_ThrushComputesModuloItsPrimes :
    (let x := site0 (thr 1 0 16)
     opOk x 0 16 = true ∧ opOk x 0x8000 16 = true ∧ opOk x 0xD8000 16 = true ∧ opOk x 0xD8800 16 = false ∧ opsApart (wordRange 0 16) (wordRange 0x8000 16) = true ∧
      opsApart (wordRange 0 16) (wordRange 0 16) = true ∧ opsApart (wordRange 0 16) (wordRange 0x7800 16) = false ∧
      interlocked (getWren (thrSt 1 0 16 0 0x8000 0x10000) 0) [wordRange 0 16] [wordRange 0x10000 16] = false) ∧
    (16 % (4096 / 256) = 0 ∧ 48 % 64 ≤ 48 ∧ 32 = 2 * (4096 / 256) ∧ 1 < 2 ∧ 2 ≤ 2 + 0 ∧ opOk (site0 (thr 0xA 0 32)) 0x10000 16 = true) ∧
    (0 % 65536 + 4096 = 4096 ∧ 32 = 2 * (4096 / 256) ∧ overlaps (wordRange 0 32) (0x10000, 1 * 4097 * 8) = false) ∧
    (let ls := 1 * 3 * (8192 / 256)
     0x18000 + 2048 * (2 * ls) ≤ 0xE0000 ∧ overlaps (wordRange 0 32) (0x18000, 1) = false ∧ getObj? (thrSt 0xB 1 1 0 0x3001 0x18000) 0x3001 = none ∧
      overlaps (wordRange 0 ls) (wordRange 0x30000 (2 * ls)) = false ∧
      (let s := thrSt 0xB 1 1 0 0x3001 0x30000
       let s := { s with host := { s.host with objs := s.host.objs ++ [(0x3001, { roomObj with kind := .mem .hbm 0 1572864 4096 })] } }
       (kswKey s (site0 (thr 0xB 1 1)) (thrI 1 8192 3 1 1 0 0x3001 0x30000)).toOption = some 0 ∧
        (∀ v ∈ run0.wrens, v ≠ 0 → v / 24 = 0 / 24 → (getWren s v).ended = true) ∧ 0 ∈ run0.wrens ∧ run0.thks.Nodup)) ∧
    (let s := keyed [(2, liveSlot pdecKey)] (thrSt 0xD 0 16 0 (2 + 256 * 20) 0x20000)
     (nameSlot s 0 2).toOption = some (liveSlot pdecKey) ∧ (keyUse (liveSlot pdecKey) none 0x208 [7]).toOption = some pdecKey ∧ 16 % (4096 / 256) = 0 ∧
      opOk (site0 (thr 0xD 0 16)) 0 (2 * 16) = true) ∧
    thrSet (bits (thr 1 4 1) 35 4) = none ∧ Stands (thrSt 1 4 1 0 0 0) 0 5 1 (site0 (thr 1 4 1)) ∧ (after (.madd 0) (thrSt 1 4 1 0 0 0)).fab.runs = [] ∧
    (after (.ksw 0) (thrSt 0xB 1 1 0 0x3001 0x30000)).fab.runs = [] := by
  unfold Stands; unfold thrSet; decide +kernel

/-- ENG of a kind with DESC in SR[1] and the instance in SR[2]. -/
def engIns (kind : Nat) : Nat := ins 7 1 [(20, 1), (25, 2), (30, kind)]
/-- A COPY descriptor of one gate: input at 0x8000, output at 0x9000. -/
def gateDesc (op w n : Nat) : List Byte := natLE 2 op ++ natLE 2 w ++ natLE 2 n ++ zeros 2 ++ natLE 8 0x8000 ++ zeros 16 ++ natLE 8 0x9000 ++ zeros 24
/-- A Wren at ENG whose run holds instance 7 of Goldcrest and 15 of Chaffinch, with a descriptor at 0. -/
def engSt (kind inst : Nat) (d : List Byte) : State :=
  let s := setMem (memWrite [] (wrenBase 0) d) (lone (engIns kind) [(2, BitVec.ofNat 64 inst)])
  { s with fab := { s.fab with gcr := [(7, { Inst.init with holder := some 3 })], chf := [(15, { Inst.init with holder := some 3 })] } }

theorem witness_GoldcrestGatesRunAsDescribed :
    (let s := engSt 1 7 (gateDesc 0x11 0 1)
     let x := site0 (engIns 1)
     Stands s 0 7 1 x ∧ (match gateSite x s with | .ok g => decide (g.op = 0x11) | _ => false) = true ∧ interlocked (getWren s 0) [(0, 64)] [] = false ∧
      (getWren (after (.gateCopy 0) s) 0).async.length = 1 ∧ (getWren (after (.gateNot 0) s) 0).async = [] ∧ (getWren (after (.eng 0) s) 0).ix = 0) ∧
    (let s := engSt 1 6 (gateDesc 0x11 0 1)
     Stands s 0 7 1 (site0 (engIns 1)) ∧ (getInst s 1 6).holder = none ∧ (after (.eng 0) s).fab.runs = []) ∧
    instErr (site0 (engIns 1)) 1 (engSt 1 7 (gateDesc 0x11 0 257)) = none ∧ gateForm (gateDesc 0x11 0 257) = false ∧ gateForm (gateDesc 0x11 0 256) = true ∧
    gateForm (gateDesc 0x20 0 1) = false ∧ gateForm (gateDesc 0x20 15 1) = true ∧ gateForm (gateDesc 0x20 16 1) = false ∧ gateForm (gateDesc 0x11 1 1) = false ∧
    gateForm (gateDesc 0xA 0 1) = false ∧ (after (.eng 0) (engSt 1 7 (gateDesc 0x11 0 257))).fab.runs = [] ∧
    Stands (engSt 3 7 []) 0 7 1 (site0 (engIns 3)) ∧ (after (.eng 0) (engSt 3 7 [])).fab.runs = [] ∧
    (let s := engSt 0 15 []
     Stands s 0 7 1 (site0 (engIns 0)) ∧ instErr (site0 (engIns 0)) 0 s = none ∧ (getWren (after (.eng 0) s) 0).async = [.chaf 15 0]) ∧
    (let g : Gate := { op := 0x11, w := 0, count := 1, inA := 0x8000, inB := 0, inC := 0, out := 0x9000, key := 0 }
     let s := fabric [16] [(0, { wren0 [] with async := [.gate 7 0x11 1 0 0x8000 0 0 0x9000 0] })]
     (asyncSite s 0).isSome = true ∧ gateErr s 0 g = none ∧ (dvaWrite s 0 0x9000 [1] .write false).toOption.isSome = true) := by
  unfold Stands; decide +kernel

/-! 12. What needs a verified tag rests on AES-GCM, which the model leaves uninterpreted: the unprotected queue pair stands for it. -/

/-- A Linnet packet of a type from address 0x1234 at engine 0. -/
def lp (typ : Nat) : LntPkt :=
  { engine := 0, ipOk := true, srcAddr := 0x1234, srcPort := 9, dstPort := 0x4B35, typ := typ, flags := 3, len := 0, dest := 0, src := 7, psn := 0, apsn := 0
    msn := 0, ts := 0, offset := 0, wkey := 0, imm := 0, payload := [], tag := [] }

/-- Ethernet port 0 Up at address 5. -/
def port0 : EthPort := { EthPort.init with st := 1, addr := 5 }
def net (s : State) : State := { s with lnt := { s.lnt with ports := [(0, port0)] } }

/-- A listener on port 0 with port random 0, and a session of it. -/
def lst0 : Listener := { Listener.init with live := true, port := 0, udp := 0x4B35 }
def sess0 : Sess := { Sess.init with st := 1, gen := 2, lst := 3, hot := true, ident := zeros 16, random := zeros 16, addr := 0x1234, port := 9 }
def sessSt (v : Sess) (s : State) : State := { net s with lnt := { (net s).lnt with listeners := [(3, lst0)], sess := [(9, v)] } }
/-- The handle of session 9. -/
def h9 : Nat := 9 + 2 * 2 ^ 18
/-- An S_HELLO that asks for packets of `n` bytes. -/
def hello (n : Nat) : LntPkt := { lp 0x20 with payload := zeros 0x488 ++ natLE 2 n ++ zeros 14 }
/-- What a chip sent, by type and IMM. -/
def sent (s : State) : List (Nat × Nat) := s.out.filterMap fun o => match o with | .lnt _ _ p => some (p.typ, p.imm) | _ => none

theorem witness_SessionsOpenDeliverAndClose :
    (let ws := [1, 0, 0, 0, 77]
     let s := turn 0x0700 ws
     Turn s q0 0x0700 (pkt 0x0700 ws) ∧ quarantined s (unitId 9 1) = false ∧ s.lnt.listeners.length < 64 ∧ (getLst (after (.sessionListen q0) s) 0).udp = 0x4B35 ∧
      (getLst (after (.sessionListen q0) s) 0).rnd = 77 ∧
      (let s := { s with lnt := { s.lnt with listeners := (List.range 64).map fun n => (n, lst0) } }
       64 ≤ s.lnt.listeners.length ∧ (after (.sessionListen q0) s).lnt.listeners.length = 64)) ∧
    (let s := sessSt sess0 (turn 0x0701 [3])
     Turn s q0 0x0701 (pkt 0x0701 [3]) ∧ (getLst s 3).live = true ∧ inScope s 0 0 = true ∧ (getSess (after (.listenClose q0) s) 9).st = 0 ∧ (getSess (after (.listenClose q0) s) 9).gen = 3) ∧
    (let s := { sessSt sess0 up with host := { up.host with ctxs := [(0, { Ctx.init with st := 1 })] } }
     let e := { s with lnt := { s.lnt with sess := [] } }
     Arrives s (hello 1184) 0x20 ∧ helloLst s (hello 1184) = some 3 ∧ helloOk (hello 1184).payload = true ∧ helloOk (hello 1183).payload = false ∧ helloOk (hello 8192).payload = true ∧
      helloOk (hello 8193).payload = false ∧ (sessOfLst s 3).find? (fun j => (getSess s j).ident == sub (hello 1184).payload 0x460 16) = some 9 ∧
      sent (after (.sHello (hello 1184)) s) = [(0x21, 0)] ∧ sessOfLst e 3 = [] ∧ nextNumber 0 (2 ^ 18) [] [] = some 0 ∧ nextNumber 0 1 [0] [] = none ∧
      (getSess (after (.sHello (hello 8192)) e) 0).granted = 8192 ∧ sent (after (.sHello (hello 8192)) e) = [(0x21, 0)] ∧
      helloLst up (hello 1184) = none) ∧
    (let s := sessSt sess0 up
     let p := { lp 0x22 with dest := h9, psn := 1024 }
     Arrives s p 0x22 ∧ sessOf s p.dest = some 9 ∧ (getLst s sess0.lst).port = p.engine ∧ (getSess s 9).hot = true ∧ psnDist 0 1024 = 1024 ∧ psnDist 0 1023 = 1023 ∧
      psnDist 5 4 = 2 ^ 32 - 1 ∧ psnDist 0 (2 ^ 31) = 2 ^ 31 ∧ sessOf s (h9 + 2 ^ 18) = none ∧ Arrives s { lp 0x24 with dest := h9 } 0x24 ∧
      (let c := sessSt { sess0 with hot := false } up
       (getSess c 9).hot = false ∧ missBytes c 0 + 48 + 0 + 0 ≤ 4194304 ∧ (after (.sData p) c).lnt.missBuf.length = 1 ∧ (hotPeers c 9).length < hotLimit c ∧
        (getSess (after (.coldSessionFetch 9) c) 9).hot = true) ∧
      (let c := sessSt { sess0 with st := 2, reason := 4 } up
       (getSess c 9).st = 2 ∧ sent (after (.sData p) c) = [(0x24, 4)])) ∧
    (let s := fun t : Nat => sessSt sess0 (lark { Lark.init with time := t })
     (getSess (s 0) 9).lastAt + (s 0).lnt.idle * 1000000000 = (s 0).lnt.idle * 1000000000 ∧
      (getSess (after (.sessionIdleTimeout 9) (s ((s 0).lnt.idle * 1000000000))) 9).st = 2 ∧
      (getSess (after (.sessionIdleTimeout 9) (s ((s 0).lnt.idle * 1000000000 - 1))) 9).st = 1 ∧ 0 < (s 0).lnt.idle) ∧
    (let s := sessSt sess0 (turn 0x0703 [h9])
     Turn s q0 0x0703 (pkt 0x0703 [h9]) ∧ sessOf s h9 = some 9 ∧ inScope s 0 (sessCtx s (getSess s 9)) = true ∧ (getSess (after (.sessionEvict q0) s) 9).gen = 3) ∧
    Turn (turn 0x0702 [h9]) q0 0x0702 (pkt 0x0702 [h9]) ∧ sessOf (turn 0x0702 [h9]) h9 = none ∧
    (let s := turn 0x0707 [3, 500, 1, 0]
     Turn s q0 0x0707 (pkt 0x0707 [3, 500, 1, 0]) ∧ quarantined s (unitId 9 3) = false ∧ (getEth (after (.portConfig q0) s) 3).hold = 500 ∧
      Turn (turn 0x0707 [3, 501, 1, 0]) q0 0x0707 (pkt 0x0707 [3, 501, 1, 0]) ∧ (getEth (after (.portConfig q0) (turn 0x0707 [3, 501, 1, 0])) 3).addr = 0) ∧
    (let s := net up
     linkUp s 0 = true ∧ (getEth s 0).addr = 5 ∧ (after (.icmpv6Echo 0 9 5 [1]) s).out = [.icmp 0 129 9 [1]] ∧ (after (.icmpv6Echo 0 9 6 [1]) s).out = []) := by
  unfold Turn Arrives; and_intros <;> decide +kernel

/-- An unprotected queue pair 7 of context 0 with a peer at 0x1234, and the chip that holds it. -/
def qp7 : Qp := { Qp.init with st := 3, engine := 0, peer := 0x1234, peerQp := some 7, s := 4, r := 4, cwnd := 65536 }
def qpSt (v : Qp) (s : State := up) : State := { net (roomy s) with lnt := { (net s).lnt with qps := [(7, v)] } }

theorem witness_QueuePairsConnectAndEnd :
    (let ws := [0, 0x1234, 0, 0xC4]
     let s := turn 0x0704 ws
     Turn s q0 0x0704 (pkt 0x0704 ws) ∧ quarantined s (unitId 9 0) = false ∧ (getQp (after (.qpCreate q0) s) 0).st = 1 ∧ (getQp (after (.qpCreate q0) s) 0).r = 12 ∧
      nextNumber (qpRange s 0).1 (qpRange s 0).2 ((s.lnt.qps.filter fun x => x.2.st != 0).map Prod.fst) s.lnt.freedQp = some 0 ∧
      (firstFit (hbmWindow s 0).1 (hbmWindow s 0).2 4096 (ringBytes 4 12) (usedRanges s ++ scrubRanges s)).isSome = true ∧
      (getQp (after (.qpCreate q0) (turn 0x0704 [0, 0x1234, 0, 0x34])) 0).st = 0 ∧ (getQp (after (.qpCreate q0) (turn 0x0704 [0, 0x1234, 0, 0xD4])) 0).st = 0) ∧
    (let s := fun st t : Nat => qpSt { qp7 with st := st } (turn 0x0705 [7, t])
     Turn (s 1 2) q0 0x0705 (pkt 0x0705 [7, 2]) ∧ linkKeyOf (s 1 2) 0 = none ∧ (s 1 2).host.confidential = false ∧ inScope (s 1 2) 0 0 = true ∧
      (getQp (after (.qpModify q0) (s 1 2)) 7).st = 2 ∧ sent (after (.qpModify q0) (s 1 2)) = [(0x0B, 0)] ∧ (getQp (after (.qpModify q0) (s 3 5)) 7).errStatus = 0x0401 ∧
      sent (after (.qpModify q0) (s 3 5)) = [(0x0F, 0x0401)] ∧ (getQp (after (.qpModify q0) (s 5 1)) 7).st = 1 ∧ (getQp (after (.qpModify q0) (s 3 1)) 7).st = 3 ∧
      (getQp (after (.qpModify q0) (s 5 2)) 7).st = 5 ∧
      (let s := { s 1 2 with host := { (s 1 2).host with confidential := true } }
       Turn s q0 0x0705 (pkt 0x0705 [7, 2]) ∧ (getQp (after (.qpModify q0) s) 7).st = 1)) ∧
    (let s := qpSt qp7 (turn 0x0706 [7])
     Turn s q0 0x0706 (pkt 0x0706 [7]) ∧ getQp (after (.qpDestroy q0) s) 7 = Qp.init) ∧
    (let ws := fun t : Nat => [7, t, 1 + 8192 * 2 ^ 32, 16777216 + 8192 * 2 ^ 32, 10000 + 2 ^ 32]
     Turn (qpSt qp7 (turn 0x0708 (ws 1000))) q0 0x0708 (pkt 0x0708 (ws 1000)) ∧ ccFault (pkt 0x0708 (ws 1000)) = none ∧ ccFault (pkt 0x0708 (ws 999)) ≠ none ∧
      rsvdWord 2 (0xFFFF + (2 ^ 64 - 2 ^ 32)) (1 + 8192 * 2 ^ 32) = none ∧ rsvdWord 4 (2 ^ 36 - 1 + 7 * 2 ^ 60) (10000 + 2 ^ 32) = none ∧
      (getQp (after (.ccConfig q0) (qpSt qp7 (turn 0x0708 (ws 1000)))) 7).cc.target = 1000) ∧
    (let v := { qp7 with st := 1, peerQp := none }
     let p := { lp 0x0B with payload := zeros 32 }
     Arrives (qpSt v) p 0x0B ∧ tabFind (fun _ v => rebinds p v) (qpSt v).lnt.qps = none ∧ tabFind (fun _ x => accepts (qpSt v) p x) (qpSt v).lnt.qps = some (7, v) ∧
      sent (after (.connect p) (qpSt v)) = [(0x0C, 0)] ∧ tabFind (fun _ x => accepts (qpSt qp7) p x) (qpSt qp7).lnt.qps = none ∧ sent (after (.connect p) (qpSt qp7)) = [(0x0E, 0)]) ∧
    (let v := { qp7 with st := 2, peerQp := none }
     let p := { lp 0x0C with dest := 7, payload := zeros 16 }
     Arrives (qpSt v) p 0x0C ∧ v.prot = false ∧ v.engine = p.engine ∧ v.peer = p.srcAddr ∧ ctxActive (qpSt v) 0 = true ∧ (getQp (after (.accept p) (qpSt v)) 7).st = 3 ∧
      sent (after (.accept p) (qpSt v)) = [(0x0D, 0)]) ∧
    (let v := { qp7 with st := 1, peerQp := none, prov := some (7, 0) }
     let p := { lp 0x0D with dest := 7 }
     Arrives (qpSt v) p 0x0D ∧ v.prov = some (p.src % 2 ^ 24, 0) ∧ (getQp (after (.confirm p) (qpSt v)) 7).st = 3) ∧
    (let s := fun t : Nat => qpSt { qp7 with st := 2 } (lark { Lark.init with time := t })
     (getQp (s 0) 7).connSince = 0 ∧ (getQp (after (.connectRetry 7) (s 100000000)) 7).errStatus = 0x0801 ∧ sent (after (.connectRetry 7) (s 99999999)) = [(0x0B, 0)]) ∧
    (let s := fun t : Nat => qpSt { qp7 with prov := some (7, 0) } (lark { Lark.init with time := t })
     (getQp (after (.provisionalBindTimeout 7) (s 1000000)) 7).prov = none ∧ (getQp (after (.provisionalBindTimeout 7) (s 999999)) 7).prov = some (7, 0)) ∧
    Arrives (qpSt qp7) (lp 0x0E) 0x0E ∧
    (let p := { lp 0x0F with dest := 7, imm := 0x0403 }
     Arrives (qpSt qp7) p 0x0F ∧ qp7.peerQp = some (p.src % 2 ^ 24) ∧ (getQp (after (.terminate p) (qpSt qp7)) 7).errStatus = 0x0403) ∧
    (let s := fun (st h t : Nat) => { qpSt qp7 (lark { Lark.init with time := t }) with lnt := { (qpSt qp7).lnt with ports := [(0, { port0 with st := st, hold := h })] } }
     powered (s 1 1 0) = true ∧ tabWf Qp.init (s 1 1 0).lnt.qps = true ∧ (getQp (after (.ethLinkDown 0) (s 1 1 0)) 7).st = 4 ∧ (getEth (after (.ethLinkDown 0) (s 1 1 0)) 0).st = 2 ∧
      (getQp (after (.ethLinkDown 0) (s 1 0 0)) 7).errStatus = 0x0702 ∧ (getQp (after (.ethHoldExpiry 0) (s 2 1 100000)) 7).st = 5 ∧ (getQp (after (.ethHoldExpiry 0) (s 2 1 99999)) 7).st = 3 ∧
      (getEth (after (.ethLinkUp 0) (s 2 1 0)) 0).st = 1 ∧ (s 2 1 0).pwr.removing = false) := by
  unfold Turn Arrives; and_intros <;> decide +kernel

/-- A posted descriptor: OP, FLAGS, local address, remote offset, length, window key 0x300000. -/
def sendBytes (op fl len : Nat) : List Byte :=
  natLE 2 op ++ natLE 2 fl ++ zeros 4 ++ natLE 4 0x55 ++ zeros 4 ++ natLE 8 0x8000 ++ natLE 8 0x40 ++ natLE 8 len ++ natLE 4 0x300000 ++ zeros 20

theorem witness_QueuePairsSendAndRetransmit :
    (∀ op ∈ [1, 2, 3, 4], PostOk (qpSt qp7) .pf 7 (sendBytes op 0 8) op) ∧ PostOk (qpSt qp7) .pf 7 ((sendBytes 5 0 512).set 6 3) 5 ∧
    (QpReady (qpSt qp7) 7 ∧ bitOf (field (sendBytes 1 0 8192) 2 2) 1 = false ∧ sendMalformed (sendBytes 1 0 8192) = none ∧
      (dvaRead (qpSt qp7) 0 0x8000 8192 .read false).toOption.isSome = true ∧ sent (after (.postWrite .pf 7 (sendBytes 1 0 8)) (qpSt qp7)) = [(1, 0)] ∧
      (getQp (after (.postWrite .pf 7 (sendBytes 1 0 8)) (qpSt qp7)) 7).cq.length = 1 ∧ (getQp (after (.postRead .pf 7 (sendBytes 3 0 0)) (qpSt qp7)) 7).sendCnt = 1 ∧
      (getQp (after (.postRead .pf 7 (sendBytes 3 0 8)) (qpSt qp7)) 7).sq.length = 1 ∧ sent (after (.postFlush .pf 7 (sendBytes 4 0 0)) (qpSt qp7)) = [(5, 0)]) ∧
    (let full := { qp7 with sq := List.replicate 16 (parseSend (sendBytes 1 0 8)) }
     2 ^ full.s ≤ full.sq.length ∧ (getQp (after (.postWrite .pf 7 (sendBytes 1 0 8)) (qpSt full)) 7).overrun = true ∧
      (getQp (after (.postWrite .pf 7 (sendBytes 1 0 8)) (qpSt { qp7 with st := 5 })) 7).cq.map StatusRec.status = [0x0401] ∧
      (getQp (after (.postWrite .pf 7 (sendBytes 1 0 8)) (qpSt { qp7 with st := 2 })) 7).sq.length = 1) ∧
    (let e : Sent := { psn := 0, pkt := lp 5, at_ := 0 }
     let d := { parseSend (sendBytes 4 0 0) with started := true }
     let v := { qp7 with txPsn := 2, unacked := [e, { e with psn := 1 }], sq := [d], cc := { Qp.init.cc with target := 1000, cwndMin := 8192, cwndMax := 2 ^ 24, retry := 7, rtoMin := 10 } }
     let p := { lp 8 with dest := 7, apsn := 1, imm := 1 }
     Arrives (qpSt v) p 8 ∧ rxQp p (qpSt v) = some 7 ∧ v.prot = false ∧ ackedTo v 1 = some 1 ∧ ackedTo v 2 = none ∧ (getQp (after (.ack p) (qpSt v)) 7).unacked = [] ∧ (getQp (after (.ack p) (qpSt v)) 7).sq = [] ∧
      (getQp (after (.ack { p with imm := 0, apsn := 0 }) (qpSt v)) 7).unacked.length = 1 ∧ (getQp (after (.ack { p with imm := 0 }) (qpSt v)) 7).sq = [d] ∧
      (0 - p.ts ≤ v.cc.target ∧ v.cc.target < 1001 - p.ts ∧ 1001 < 1 + (1001 - p.ts) ∧ v.lastCut + (1001 - p.ts) ≤ 1001) ∧
      (getQp (after (.ack p) (qpSt v (lark { Lark.init with time := 1001 }))) 7).lastCut = 1001 ∧
      (let n := fun k => { lp 9 with dest := 7, imm := k, apsn := 0, psn := 1 }
       Arrives (qpSt v) (n 1) 9 ∧ rxQp (n 1) (qpSt v) = some 7 ∧ sent (after (.nakSequence (n 1)) (qpSt v)) = [(5, 0)] ∧ (getQp (after (.nakAccess (n 2)) (qpSt v)) 7).errStatus = 0x0204 ∧
        (getQp (after (.nakStalled (n 3)) (qpSt { v with retries := 4 })) 7).retries = 0 ∧ (getQp (after (.nakReceiveFull (n 4)) (qpSt v)) 7).rfull = some (1, 0) ∧
        (getQp (after (.nakGroup (n 6)) (qpSt v)) 7).errStatus = 0x0401 ∧ (getQp (after (.nakMemoryError (n 12)) (qpSt v)) 7).errStatus = 0x0C03) ∧
      (let q := { lp 10 with dest := 7, psn := 1 }
       let r : NotReady := { psn := 1, since := 0, backoff := 5000000, due := 100, waiting := true }
       Arrives (qpSt v) q 10 ∧ rxQp q (qpSt v) = some 7 ∧ (getQp (after (.notReady q) (qpSt v)) 7).nr = some { psn := 1, since := 0, backoff := 500000, due := 500000, waiting := true } ∧
        (getQp (after (.notReady q) (qpSt { v with nr := some r })) 7).nr = some { r with backoff := 8000000, due := 8000000 } ∧
        qpLive (qpSt v) 7 = true ∧ after (.notReadyResend 7) (qpSt { v with nr := some r } (lark { Lark.init with time := 99 })) = qpSt { v with nr := some r } (lark { Lark.init with time := 99 }) ∧
        sent (after (.notReadyResend 7) (qpSt { v with nr := some r, sq := [] } (lark { Lark.init with time := 100 }))) = [(5, 0)] ∧
        (getQp (after (.notReadyResend 7) (qpSt { v with nr := some r } (lark { Lark.init with time := 1000000000 }))) 7).errStatus = 0x0204) ∧
      sent (after (.stallNakTimer 7) (qpSt { qp7 with stall := some (4, { cause := 1, access := 1, dva := 0 }) })) = [(9, 3)] ∧
      (let x := { v with sq := [] }
       rtoOf x = 10 ∧ sent (after (.retransmitTimeout 7) (qpSt x (lark { Lark.init with time := 9 }))) = [] ∧
        sent (after (.retransmitTimeout 7) (qpSt x (lark { Lark.init with time := 10 }))) = [(5, 0)] ∧
        (getQp (after (.retransmitTimeout 7) (qpSt { x with retries := 7 } (lark { Lark.init with time := 1280 }))) 7).errStatus = 0x0801 ∧
        sent (after (.receiveFullResend 7) (qpSt { x with rfull := some (1, 0) } (lark { Lark.init with time := 100000 }))) = [(5, 0)] ∧
        sent (after (.receiveFullResend 7) (qpSt { x with rfull := some (1, 0) } (lark { Lark.init with time := 99999 }))) = [])) ∧
    (let r : StatusRec := { tag := 9, status := 0, dup := false, sealed := false, phase := false, detail := 0, rlen := 0, res0 := 0, res1 := 0 }
     let s := qpSt { qp7 with cq := [r], rq := [r] }
     regsOpen s = true ∧ qpReach .pf 7 s = true ∧ (after (.lntQpCqRead .pf 7 32) s).lastRead = 9 ∧ (getQp (after (.lntQpCqRead .pf 7 32) s) 7).cq = [] ∧
      (getQp (after (.lntQpCqRead .pf 7 8) s) 7).cq = [r] ∧ (getQp (after (.lntQpRqRead .pf 7 32) s) 7).rq = [] ∧ (getQp (after (.lntQpRqRead .pf 7 8) s) 7).rq = [r]) := by
  unfold PostOk QpReady Arrives; and_intros <;> decide +kernel

/-- Window 0x300000 and the chip with it, on the room, with every right. -/
def winRoom : Win := { roomWin with len := 0x1000, w := true, acc := true }
def winSt (v : Qp) : State :=
  let s := qpSt v
  { s with host := { s.host with wins := [(0, winRoom)] } }

theorem witness_TargetsPlaceInOrderOnce :
    (∀ typ ∈ [1, 2, 3, 4, 5, 6], DataArrives (winSt qp7) { lp typ with dest := 7 } typ 7 ∧ InOrder (winSt qp7) { lp typ with dest := 7 } 7 []) ∧
    (sent (after (.rxWrite { lp 1 with dest := 7, psn := 1024 }) (winSt qp7)) = [(9, 1)] ∧ sent (after (.rxWrite { lp 1 with dest := 7, psn := 2 ^ 32 - 1 }) (winSt qp7)) = [(8, 0)]) ∧
    (let p := { lp 1 with dest := 7, len := 2, offset := 0xFFE, wkey := 0x300000, payload := [1, 2] }
     winCheck (winSt qp7) 7 p.offset p.len p.wkey .write = some winRoom ∧ winCheck (winSt qp7) 7 0xFFF 2 p.wkey .write = none ∧
      ((getObj? (winSt qp7) 0x1001).map Obj.kind) = some (.mem .host 0 0x100000 0x1000) ∧
      (match winErr (winSt qp7) winRoom 0xFFE 2 .write with | none => true | _ => false) = true ∧
      memRead (after (.rxWrite p) (winSt qp7)).hostMem 0xFFE 2 = [1, 2] ∧ (getQp (after (.rxWrite p) (winSt qp7)) 7).rxPsn = 1 ∧
      (getQp (after (.writeImm { p with typ := 2, imm := 5 }) (winSt qp7)) 7).rq.map StatusRec.tag = [5] ∧
      (let full := { qp7 with rq := List.replicate 16 { tag := 9, status := 0, dup := false, sealed := false, phase := false, detail := 0, rlen := 0, res0 := 0, res1 := 0 } }
       2 ^ full.r ≤ full.rq.length ∧ sent (after (.writeImm { p with typ := 2 }) (winSt full)) = [(9, 4), (8, 0)]) ∧
      (getQp (after (.rxWrite { p with offset := 0xFFF }) (winSt qp7)) 7).errStatus = 0x0204) ∧
    (let p := { lp 3 with dest := 7, wkey := 0x300000, payload := natLE 8 2 }
     field p.payload 0 8 = 2 ∧ QpReady (winSt qp7) 7 ∧ sent (after (.readReq p) (winSt qp7)) = [(8, 0), (4, 0)]) ∧
    (let d := { parseSend (sendBytes 3 0 2) with started := true }
     let v := { qp7 with sq := [d] }
     let p := { lp 4 with dest := 7, offset := 0x40, payload := [1, 2] }
     DataArrives (winSt v) p 4 7 ∧ InOrder (winSt v) p 7 [1, 2] ∧ d.op = 3 ∧ d.length = 2 ∧ d.remote = p.offset ∧ (dvaWrite (winSt v) 0 d.loc [1, 2] .write false).toOption.isSome = true ∧
      (getQp (after (.readResp p) (winSt v)) 7).sq = [] ∧ memRead (after (.readResp p) (winSt v)).hostMem 0 2 = [1, 2]) ∧
    sent (after (.flush { lp 5 with dest := 7 }) (winSt qp7)) = [(8, 1), (8, 0)] ∧
    (let p := { lp 6 with dest := 7, flags := 1, len := 2, wkey := 0x300000, payload := [1, 2] }
     DataArrives (winSt qp7) p 6 7 ∧ InOrder (winSt qp7) p 7 [1, 2] ∧ (winCheck (winSt qp7) 7 0 2 p.wkey .accum).isSome = true ∧ p.flags.getLsbD 1 = false ∧
      (getQp (after (.accWrite p) (winSt qp7)) 7).held.length = 1 ∧ fmtOf 3 = some .z64 ∧ ingressFmt .z64 = true ∧ 512 % tileBytes .z64 = 0) := by
  unfold DataArrives InOrder QpReady Arrives; and_intros <;> decide +kernel

/-! 13. -/

/-- A chip at position 0 whose straps are latched, at a time, with Siskin port 0 in a state. -/
def sknSt (v : Skn) (t : Nat := 0) (s : State := up) : State :=
  { s with pwr := { s.pwr with straps := { s.pwr.straps with latched := true } }, lark := { s.lark with time := t, state := 0 }, skn := [(0, v)] }
/-- An ACTIVE port at full width, and one in Roost. -/
def active : Skn := { Skn.init with st := 4, txWidth := 8, rxWidth := 8, peerRoost := true, roostEn := true, peerLark := 0, peerChip := 1 }
def roosting : Skn := { active with st := 6, k := 14, nextWake := 16384 }
/-- A training that finds chip `c` at port 0 over every lane. -/
def report (c : Nat) : TrainReport :=
  { txLanes := 0xFF, rxLanes := 0xFF, optical := false, chip := c, port := 0, roleClass := 0, bootMode := false, roost := true, delay := 100, kd1 := none }
/-- A good frame, and what a chip sent on its links. -/
def frame0 (fseq aseq : Nat) : Frame := { rsOk := true, crcOk := true, fseq := fseq, aseq := aseq, nak := false, payload := [], corrected := 0, aligned := false }
def unack (n : Nat) : Nat × List Byte × QtdPkt :=
  (n, [], { inPort := 0, rsvd := false, typ := 0, cls := 0, vc := 0, hops := 0, len := 0, dest := 0, src := 0, slice := 0, part := 0, flow := 0, addr := 0, corr := 0,
            chord := 0, order := 0, via := 0, stage := 0, pair := 0, pairHops := 0, payload := [] })
def port0Of (s : State) : Skn := getSkn s 0

theorem witness_LinksTrainReplayAndHold :
    (let s := turn 0x0803 [0x117, 500]
     Turn s q0 0x0803 (pkt 0x0803 [0x117, 500]) ∧ quarantined s (portUnit 23) = false ∧ 14 ≤ (getSkn s 23).roostK ∧ (getSkn s 23).roostK ≤ 30 ∧
      (getSkn (after (.linkConfig q0) s) 23).hold = 500 ∧ Turn (turn 0x0803 [0x117, 501]) q0 0x0803 (pkt 0x0803 [0x117, 501]) ∧
      (getSkn (after (.linkConfig q0) (turn 0x0803 [0x117, 501])) 23).hold = 20) ∧
    (let c := (expectedChip 0 0).getD 0
     let s := sknSt Skn.init
     mayTrain s 0 = true ∧ partnerCheck s 0 (report c) = 1 ∧ partnerCheck s 0 (report (c + 1)) = 2 ∧ laneCount (report c).txLanes = 8 ∧ roleOf 0 = 0 ∧
      (port0Of (after (.linkTraining 0 (report c)) s)).st = 4 ∧ (port0Of (after (.detectRetry 0 (report c)) s)).txWidth = 8 ∧
      (port0Of (after (.linkTraining 0 { report c with roleClass := 1 }) s)).st = 7 ∧ (port0Of (after (.linkTraining 0 (report (c + 1))) s)).st = 3 ∧
      (port0Of (after (.linkTraining 0 { report c with rxLanes := 7 }) s)).st = 0 ∧ (port0Of (after (.linkTraining 0 { report c with rxLanes := 0xF }) s)).rxWidth = 4 ∧
      (let h := { active with st := 5, downAt := 0, hold := 20, txSeq := 3, rxSeq := 2, unacked := [unack 2] }
       mayTrain (sknSt h 1999999) 0 = true ∧ 1999999 < h.downAt + h.hold * 100000 ∧ (port0Of (after (.linkTraining 0 (report c)) (sknSt h 1999999))).txSeq = 3 ∧
        (port0Of (after (.siskinHoldExpiry 0) (sknSt h 1999999))).st = 5 ∧ (port0Of (after (.siskinHoldExpiry 0) (sknSt { h with unacked := [] } 2000000))).st = 0 ∧
        (port0Of (after (.linkDown 0) (sknSt { h with unacked := [] }))).st = 0)) ∧
    (let v := { active with rxSeq := 5, unacked := [unack 1, unack 2] }
     let s := sknSt v 10000
     sknOn s 0 = true ∧ s.glb.evEn = false ∧ v.resends < 16 ∧ (port0Of (after (.dataFrame 0 (frame0 5 2)) s)).rxSeq = 6 ∧
      (port0Of (after (.dataFrame 0 (frame0 5 2)) s)).unacked = [unack 2] ∧ (after (.dataFrame 0 { frame0 5 2 with nak := true }) s).out = framesAgain 0 5 [unack 2] ∧
      (after (.dataFrame 0 (frame0 6 2)) s).out = [.frame 0 0 5 true []] ∧ (after (.dataFrame 0 (frame0 6 2)) (sknSt { v with nakAt := some 8001 } 10000)).out = [] ∧
      (after (.dataFrame 0 (frame0 6 2)) (sknSt { v with nakAt := some 8000 } 10000)).out = [.frame 0 0 5 true []] ∧
      (after (.replayTimeout 0) s).out = framesAgain 0 5 [unack 1, unack 2] ∧ (after (.replayTimeout 0) (sknSt v 9999)).out = [] ∧
      (port0Of (after (.replayTimeout 0) (sknSt { v with resends := 16 } 10000))).st = 5 ∧ (after (.controlMessageRepeat 0) (sknSt { v with await := [2 * 256 + 1] })).out = [.ctl 0 2 1] ∧
      (port0Of (after (.status 0 2) s)).peerLark = 2 ∧ (port0Of (after (.creditReturn 0 3 1 2 3) (sknSt { v with credits := [(7, (5, 5))] }))).credits = [(7, (3, 2))] ∧
      (port0Of (after (.siskinLinkLoss 0) s)).losses = 1 ∧ (port0Of (after (.siskinLinkLoss 0) (sknSt { active with hold := 0 }))).st = 0) := by
  unfold Turn; and_intros <;> decide +kernel

theorem witness_LanesDropFloodAndReturn :
    (let s := sknSt active
     sknOn s 0 = true ∧ active.dropped.getLsbD 7 = false ∧ (port0Of (after (.laneLockLoss 0 7) s)).rxWidth = 7 ∧ Out.ctl 0 2 7 ∈ (after (.laneErrorRate 0 7) s).out ∧
      Out.frame 0 0 0 true [] ∈ (after (.laneErrorRate 0 7) s).out ∧ (port0Of (after (.laneLockLoss 0 7) (sknSt { active with rxWidth := 7, dropped := 1 }))).st = 5 ∧
      (port0Of (after (.laneLockLoss 0 7) (sknSt roosting))).dropped = 0x80 ∧ (after (.laneLockLoss 0 0) (sknSt { active with dropped := 1 })).out = []) ∧
    (let o := { active with optical := true }
     (port0Of (after (.floodDcTrip 0 3) (sknSt o 7))).floodAt = [(3, 7)] ∧ (port0Of (after (.floodEnvelopeTrip 0 3) (sknSt o 7))).rxWidth = 7 ∧ active.optical = false) ∧
    (let f := { active with optical := true, flooded := 8, dropped := 8, rxWidth := 7, floodAt := [(3, 100)] }
     (port0Of (after (.floodQuarantine 0 3) (sknSt f 5000000100))).quar = 8 ∧ (port0Of (after (.floodQuarantine 0 3) (sknSt f 5000000099))).quar = 0 ∧
      (port0Of (after (.laneClearReadmit 0 3) (sknSt f))).rxWidth = 8 ∧ (after (.laneClearReadmit 0 3) (sknSt f)).out = [.ctl 0 3 3] ∧
      (port0Of (after (.laneClearReadmit 0 3) (sknSt { f with quar := 8 }))).rxWidth = 7) ∧
    (let s := fun (p m : Nat) (q : BitVec 8) => sknSt { active with quar := q, floodAt := [(3, 100)] } 200 (turn 0x0804 [p, m])
     Turn (s 0 8 8) q0 0x0804 (pkt 0x0804 [0, 8]) ∧ (port0Of (after (.laneRelease q0) (s 0 8 8))).quar = 0 ∧ (port0Of (after (.laneRelease q0) (s 0 8 8))).floodAt = [(3, 200)] ∧
      (port0Of (after (.laneRelease q0) (s 0 12 8))).quar = 8 ∧ Turn (s 24 8 8) q0 0x0804 (pkt 0x0804 [24, 8]) ∧ Turn (s 0 0 0) q0 0x0804 (pkt 0x0804 [0, 0])) ∧
    ((after (.laneDrop 0 4) (sknSt active)).out = [.ctl 0 12 7] ∧ (port0Of (after (.laneDrop 0 4) (sknSt { active with txWidth := 7, txDropped := 1 }))).st = 5 ∧
      (port0Of (after (.laneAdd 0 0) (sknSt { active with txWidth := 7, txDropped := 1 }))).txWidth = 8 ∧ (after (.laneAdd 0 0) (sknSt active)).out = []) := by
  unfold Turn; and_intros <;> decide +kernel

theorem witness_PortsRoostAndWake :
    (let s := sknSt active 10000
     roostReady s active = true ∧ roostReady (sknSt active 9999) active = false ∧ (after (.roostIdle 0) s).out = [.ctl 0 4 27] ∧ (after (.roostIdle 0) (sknSt active 9999)).out = [] ∧
      (after (.roostReq 0 14) s).out = [.ctl 0 4 27, .ctl 0 5 0] ∧ (after (.roostReq 0 30) s).out = [.ctl 0 4 27, .ctl 0 5 0] ∧ (after (.roostReq 0 13) s).out = [] ∧
      (after (.roostReq 0 31) s).out = [] ∧ (port0Of (after (.roostReq 0 14) s)).k = 27 ∧
      (let r := { active with reqSent := true, reqSeen := true, k := 14 }
       (port0Of (after (.roostAck 0) (sknSt r 16383))).nextWake = 16384 ∧ (port0Of (after (.roostAck 0) (sknSt r 16384))).nextWake = 32768 ∧
        (port0Of (after (.roostAck 0) (sknSt { r with reqSeen := false }))).st = 4)) ∧
    (let s := sknSt roosting 16384
     sknOn s 0 = true ∧ s.glb.evEn = false ∧ roosting.chorusAt = none ∧ (after (.roostWake 0 (some 0)) (sknSt roosting 16383)).out = [] ∧
      (port0Of (after (.roostWake 0 (some 2000)) s)).nextWake = 32768 ∧ (after (.roostWake 0 (some (-2000))) s).out = [.ctl 0 9 0, .ctl 0 6 0] ∧
      (port0Of (after (.roostWake 0 (some 7)) (sknSt { roosting with peerChip := 0 } 16384))).nextWake = 32775 ∧
      (after (.roostWake 0 (some 2001)) s).out = [.ctl 0 9 0] ∧ roostFit s roosting = true ∧ (port0Of (after (.wake 0 true 7) s)).st = 4 ∧ (port0Of (after (.wake 0 false 7) s)).st = 6 ∧
      (port0Of (after (.demandWake 0) (sknSt { roosting with demand := true, queued := [(unack 0).2.2] }))).st = 4 ∧ (port0Of (after (.demandWake 0) s)).st = 6 ∧
      (port0Of (after (.wakePatternHeard 0 5) s)).st = 4 ∧ (after (.dawnChorus 0) (sknSt roosting 18383)).out = [] ∧
      (port0Of (after (.dawnChorus 0) (sknSt roosting 18384))).chorusAt = some 18384 ∧
      (port0Of (after (.chorusTimeout 0) (sknSt { roosting with chorusAt := some 0 } 20000000))).st = 0 ∧
      (port0Of (after (.chorusTimeout 0) (sknSt { roosting with chorusAt := some 0 } 19999999))).st = 6) := by
  and_intros <;> decide +kernel

/-! 14. -/

/-- A chip 0 whose ports 0 and 1 carry traffic, with slice 1 over every chip for partition 0. -/
def fabSt (s : State := up) : State :=
  let v : Skn := { active with check := 1, wakeLane := 0 }
  { s with skn := [(0, v), (1, { v with peerChip := 2 })]
           host := { (roomy s).host with part := [(0, { Part.init with slice := 1, sliceOrigin := 0, sliceSpan := 0x1FF })]
                                         objs := [(0x1001, roomObj), (0x1002, { roomObj with kind := .mem .hbm 0 0x100000 4096 })] } }
/-- A packet of slice 1 from chip 1 to `dest` on port 0. -/
def qpkt (typ dest : Nat) (pl : List Byte) : QtdPkt :=
  { (unack 0).2.2 with typ := typ, cls := 0, dest := dest, src := 1, slice := 1, len := pl.length, payload := pl, stage := 6 }

theorem witness_PacketsTransitArriveAndFence :
    (∀ typ ∈ [1, 2, 3, 4, 5, 6, 8], Reaches fabSt (qpkt typ 0 []) typ ∧ Admitted fabSt (qpkt typ 0 [])) ∧
    (badPkt { qpkt 2 0 [] with len := 8257 } 0 = true ∧ badPkt { qpkt 2 0 [] with len := 8256, hops := 15 } 0 = false ∧ badPkt { qpkt 2 0 [] with hops := 15 } 1 = true ∧
      (after (.memWr { qpkt 2 0 [] with hops := 16 }) fabSt).qtd.drop = 1 ∧ sliceOf fabSt 0 2 = none ∧ (after (.memWr { qpkt 2 0 [] with slice := 2 }) fabSt).qtd.fenceDrop = 1) ∧
    (let p : QtdPkt := { qpkt 2 0 [1, 2] with addr := 0xFFFFE }
     accessRefusal fabSt p 2 = none ∧ accessRefusal fabSt { p with addr := 0xFFFFF } 2 = some 0x0204 ∧ accessRefusal fabSt { p with addr := 2 ^ 46 } 2 = some 0x0801 ∧
      memRead (after (.memWr p) fabSt).mem 0xFFFFE 2 = [1, 2] ∧ (originate (noticePkt fabSt ({ p with addr := 0xFFFFF } : QtdPkt) 0x0204) fabSt).toOption.isSome = true) ∧
    (let p : QtdPkt := { qpkt 3 0 (natLE 8 64) with flow := 3 }
     readLen p = 64 ∧ accessRefusal fabSt p 64 = none ∧
      (originate ({ ownPkt fabSt 4 1 1 (memRead fabSt.mem 0 64) with slice := 1, part := 0, flow := 3 } : QtdPkt) fabSt).toOption.isSome = true ∧
      ((after (.memRdReq p) fabSt).out.countP fun o => match o with | .qtd n _ q => n == 0 && q.typ == 4 | _ => false) = 1) ∧
    (let p : QtdPkt := { qpkt 3 1 (natLE 8 2) with inPort := 24, flow := 9 }
     let t := after (.memRdReq p) fabSt
     qtdOn fabSt = true ∧ p.dest ≠ chipNo fabSt ∧ t.qtd.reads = [{ flow := 9, dest := 1, len := 2, data := none }] ∧
      (after (.memRdResp { qpkt 4 0 [7, 8] with flow := 9 }) t).qtd.reads = [{ flow := 9, dest := 1, len := 2, data := some [7, 8] }] ∧
      (after (.notice (qpkt 8 0 (zeros 4 ++ natLE 2 9 ++ natLE 2 3 ++ zeros 8))) t).qtd.reads = []) ∧
    (fmtOf (3 % 8) = some .z64 ∧ 512 % tileBytes .z64 = 0 ∧ accessRefusal fabSt { qpkt 5 0 [] with addr := 0x100 } 512 = none) ∧
    (let r : Round := { newRound up (pkt 0 []) [] with worker := true, phase := 1, mask := 1 }
     let s : State := { fabSt with rnd := { fabSt.rnd with rounds := [r] } }
     AccTiles s 0 0 .z64 ({ qpkt 5 0 (zeros 512) with addr := wrenBase 0 } : QtdPkt) ∧ Roost.fits { w := 0, size := 1048576, ctx := 0, ingress := true } .z64 4094 1 = true) ∧
    (let s := fabSt (fabric [16] [(0, wren0 [])])
     let s : State := { s with fab := { s.fab with runs := [{ run0 with board := true, boardId := 5 }] }, host := { s.host with objs := s.host.objs ++ [(0x2002, progObj (progOfCode [16]))] } }
     let p : QtdPkt := { qpkt 6 0 (natLE 4 5 ++ natLE 2 0 ++ natLE 1 2 ++ natLE 1 3 ++ zeros 8 ++ [9, 9]) with addr := wrenBase 0 + 0xDFFFE }
     Reaches s p 6 ∧ (partnerWren s 5 0).isSome = true ∧ (progOf s 0x2002).isSome = true ∧ inWork (progOfCode [16]) 0xDFFFE 2 = true ∧
      memRead (after (.qtdPeer p) s).mem (wrenBase 0 + 0xDFFFE) 2 = [9, 9] ∧ (getWren (after (.qtdPeer p) s) 0).pushed = [(2, 1)] ∧ (asyncSite s 0).isSome = true ∧
      (after (.notice (qpkt 8 0 (zeros 6 ++ natLE 2 6 ++ natLE 2 0x0801 ++ zeros 6))) s).fab.runs = []) ∧
    (lntParse 1 (zeros 48)).typ = 0 ∧ (after (.qtdLinnet (qpkt 1 0 (zeros 47))) fabSt).lnt.drop4 = 1 ∧
    (let p := qpkt 2 2 [1]
     (match nextHop fabSt 0 p with | .out n _ nx _ => decide (n = 1 ∧ nx = 2) | _ => false) = true ∧ fenceAdmits fabSt p 2 = true ∧ usable (getSkn fabSt 1) = true ∧
      maySendOn fabSt 1 p = true ∧ ((after (.qtdForward p) fabSt).out.countP fun o => match o with | .qtd n _ q => n == 1 && q.hops == 1 | _ => false) = 1 ∧
      fenceAdmits fabSt { p with slice := 3 } 2 = false ∧ (after (.qtdForward { p with slice := 3 }) fabSt).qtd.fenceDrop = 1) ∧
    (let s : State := { fabSt with skn := [(0, { active with bootMode := true })], boot := { fabSt.boot with image := [1] } }
     s.boot.stage = 8 ∧ s.qtd.bootServe = true ∧ (after (.boot 0) s).out = [.bootImage 0 [1]]) := by
  unfold Reaches Admitted AccTiles; and_intros <;> decide +kernel

/-- A chip at a time whose rack level stands so. -/
def elects (e : Elect) (t : Nat := 0) (s : State := up) : State := { s with lark := { s.lark with time := t, state := 0 }, qtd := { s.qtd with elect := [(.rack, e), (.fabric, e)] } }
/-- Managers' bids: chip `c` with nonce `n`. -/
def bid (c : Nat) (n : BitVec 64 := 1) : Bid := { rackMgr := false, prio := false, chip := c, nonce := n }
def managing : Elect := { Elect.init with role := true, mgr := some (bid 0 0) }

theorem witness_ManagersSlicesDrainAndTime :
    Turn (turn 0x0800 []) q0 0x0800 (pkt 0x0800 []) ∧ chipNo up < 2 ^ 17 ∧
    (let s := elects managing 0 (turn 0x0801 [0, 0x1F, 7])
     Turn s q0 0x0801 (pkt 0x0801 [0, 0x1F, 7]) ∧ (getElect s .fabric).role = true ∧ bits 0x1F 9 4 = 0 ∧ (newSlice s (pkt 0x0801 [0, 0x1F, 7])).id = 1 ∧
      sliceMember 0 0x1F 0 = true ∧ (after (.sliceCreate q0) s).qtd.slices = [] ∧ 0 &&& (spanMask 0x1F - 7) = 0 ∧
      (let s := elects managing 0 (turn 0x0801 [0, 0x1F, 0])
       (after (.sliceCreate q0) s).qtd.slices = [{ id := 1, origin := 0, span := 0x1F, part := 0 }] ∧ (getPart (after (.sliceCreate q0) s) 0).slice = 1) ∧
      Turn (turn 0x0801 [8, 0x1F, 0]) q0 0x0801 (pkt 0x0801 [8, 0x1F, 0]) ∧ 8 &&& (spanMask 0x1F - 7) ≠ 0 ∧
      slicesMeet { id := 1, origin := 0, span := 1, part := 0 } { id := 2, origin := 8, span := 1, part := 0 } = true ∧
      slicesMeet { id := 1, origin := 0, span := 1, part := 0 } { id := 2, origin := 16, span := 1, part := 0 } = false) ∧
    (let s := elects managing 0 (turn 0x0802 [1])
     let s : State := { s with qtd := { s.qtd with slices := [{ id := 1, origin := 0, span := 0, part := 0 }] } }
     Turn s q0 0x0802 (pkt 0x0802 [1]) ∧ sliceLives s { id := 1, origin := 0, span := 0, part := 0 } = false ∧ (after (.sliceDestroy q0) s).qtd.slices = []) ∧
    (let s : State := { elects managing 0 (turn 0x0805 []) with qtd := { up.qtd with elect := [(.rack, managing)] } }
     Turn s q0 0x0805 (pkt 0x0805 []) ∧ (after (.fabricDrain q0) s).qtd.drained = true ∧ (getElect (after (.fabricDrain q0) s) .rack).role = false) ∧
    (let w := { Elect.init with waitFrom := some 0 }
     AtLevel (elects w 50000000) .rack ∧ eligible (elects w) .rack = true ∧ waitOver (elects w 50000000) .rack w = true ∧ waitOver (elects w 49999999) .rack w = false ∧
      (getElect (after (.claimWaitExpiry .rack) (elects w 50000000)) .rack).claimAt = some 50000000 ∧
      (let c := { Elect.init with claimAt := some 0 }
       (getElect (after (.claimWindowEnd .rack) (elects c 199999)) .rack).role = false ∧ (getElect (after (.claimWindowEnd .rack) (elects c 200000)) .rack).role = true ∧
        (after (.claimWindowEnd .rack) (elects c 200000)).qtd.st = 2 ∧ (getElect (after (.claim .rack (bid 1)) (elects c)) .rack).claimAt = some 0) ∧
      (after (.beaconSend .rack) (elects managing)).out = [.mgmt .rack 0 { rackMgr := true, prio := false, chip := 0, nonce := up.qtd.nonce }] ∧
      stronger .rack (bid 1) (bid 0) = false ∧ stronger .rack { bid 1 with prio := true } (bid 0) = true ∧
      (getElect (after (.beacon .rack { bid 1 with prio := true }) (elects managing)) .rack).role = false ∧ (getElect (after (.beacon .rack (bid 1)) (elects managing)) .rack).role = true ∧
      (getElect (after (.beacon .rack (bid 1)) (elects Elect.init 9)) .rack).mgr = some (bid 1) ∧ (after (.beacon .rack (bid 0)) (elects Elect.init)).qtd.dupChip = true) ∧
    (let own : JoinReport := { chip := 0, nonce := up.qtd.nonce, ports := [] }
     let r : JoinReport := { chip := 8, nonce := 5, ports := [] }
     electOn up = true ∧ (after (.joinReport own) (elects managing)).out.length = 1 ∧ rackOf 8 = rackOf 0 ∧ r ∈ (after (.joinReport r) (elects managing)).qtd.reports ∧
      (after (.joinReport { r with nonce := 6 }) (after (.joinReport r) (elects managing))).qtd.unreachable = [8] ∧ (after (.joinReport r) (elects Elect.init)).qtd.reports = []) ∧
    (after (.linkStateAdvertisement { chip := 3, link := 2, up := true }) up).qtd.links = [(3, 2)] ∧
    (let s := elects { Elect.init with mgr := some (bid 1) }
     let m : Int → TimeSyncMsg := fun d => { t1 := 0, t2 := (2 * d + 4000000).toNat, t3 := 0, t4 := 4000000, corr := 0 }
     (timeMaster s).isSome = true ∧ syncOffset (m (-7)) = -7 ∧ syncOffset (m 1000001) = 1000001 ∧ (after (.timeSync (m (-7))) s).lark.time = 7 ∧
      (after (.timeSync (m (-7))) { s with lark := { s.lark with beats := [(15, { Beat.init with en := true, k := 10 })] } }).lark.stepWait = some 7 ∧
      (after (.timeSync (m 1000001)) s).lark.aheadStuck = true ∧ (after (.timeSync (m 1000000)) s).lark.aheadStuck = false ∧
      (after (.timeSyncPeriod (m 1000)) s).qtd.skew = 1000 ∧ (after (.timeSyncPeriod (m 1001)) s).glb.evEn = s.glb.evEn ∧ s.qtd.skewLim = 1000) := by
  unfold Turn AtLevel; and_intros <;> decide +kernel

/-! 15. The tags of ENROL and the seeds that shares reconstruct rest on HMAC and X25519, which the model leaves uninterpreted. -/

/-- A round block: windows of 4 beats, mask `m`, admission key of identifier 5, staging 64 (15 Table 15.2). -/
def blockOf (m : Nat) : List Byte :=
  natLE 4 0x4B4C524E ++ natLE 2 1 ++ zeros 2 ++ (List.replicate 4 (natLE 4 4)).flatten ++ zeros 20 ++ natLE 4 64 ++ List.replicate 16 5 ++ zeros 40 ++ natLE 8 m ++ zeros 16
/-- ROUND_CREATE of a Masked round: beat 2^10 ns, limit `lim`, `m` words, t of d = 16. -/
def createWs (lim m t : Nat) : List Nat := [10 * 256 + 6, lim, m, t + 16 * 2 ^ 32, 0x8000]

/-- The slice manager of partition 0, which holds the admission key, with a block at 0x8000. -/
def mgrSt (op : Nat) (ws : List Nat) : State :=
  let s := keyed [(2, liveSlot { clearKey 5 4 with attr := 0x200802 })] (setHostMem (memWrite [] 0 (blockOf 1)) (rturn op ws))
  { s with lark := { s.lark with state := 0 }, qtd := { s.qtd with elect := [(.slice 0, managing)] }
           host := { s.host with part := [(0, { Part.init with slice := 1, owner := some (zeros 48) })] } }

/-- Round 1 as it was created, of 64 words under quorum 1, and a state that holds it. -/
def round1 : Round := { newRound (mgrSt 0 []) (pkt 0 (createWs 100 64 9)) (blockOf 1) with num := 1, kmin := 1, t := 1 }
def rndSt (r : Round) (s : State := mgrSt 0 []) : State := { s with rnd := { s.rnd with rounds := [r], next := 2 }, lnt := { s.lnt with listeners := [(3, { lst0 with rnd := 1 })], sess := [(9, sess0)] } }
/-- The same with a packet at its turn. -/
def rndTurn (r : Round) (op : Nat) (ws : List Nat) : State := rndSt r (mgrSt op ws)
def phase1Of (s : State) : Option Nat := (getRnd? s 1).map Round.phase

theorem witness_RoundsAreCreatedJoinedStartedAndRead :
    (let s := mgrSt 0x0600 (createWs (2 ^ 22) (2 ^ 26) 9)
     let p := pkt 0x0600 (createWs (2 ^ 22) (2 ^ 26) 9)
     Turn s q0 0x0600 p ∧ managesSlice s 0 = true ∧ managesSlice (turn 0x0600 []) 0 = false ∧ s.boot.debugUnlocked = false ∧ s.lark.state ≠ 3 ∧ createWords p = none ∧
      (dvaRead s 0 (p.w 4) 0x80 .read false).toOption = some (blockOf 1) ∧ createFault s p (blockOf 1) = none ∧ (after (.roundCreate q0) s).rnd.rounds.length = 1 ∧
      (createWords (pkt 0 (createWs (2 ^ 22 + 1) 1 9))).isSome = true ∧ (createFault s (pkt 0 (createWs 1 1 8)) (blockOf 1)).isSome = true ∧
      (createFault s p (blockOf 0)).isSome = true) ∧
    (let s := rndTurn round1 0x0601 [1, 0]
     Turn s q0 0x0601 (pkt 0x0601 [1, 0]) ∧ getRnd? s 1 = some round1 ∧ round1.phase = 0 ∧ round1.worker = false ∧ round1.owner = ownerDigest s 0 ∧ joinMaskOk s 0 1 = true ∧
      chipBarred s = none ∧ (phase1Of (after (.roundJoin q0) s)) = some 0 ∧ ((getRnd? (after (.roundJoin q0) s) 1).map Round.workers) = some [0] ∧
      Turn (rndTurn round1 0x0601 [1, 1]) q0 0x0601 (pkt 0x0601 [1, 1]) ∧ Turn (rndTurn round1 0x0601 [2, 0]) q0 0x0601 (pkt 0x0601 [2, 0])) ∧
    (let r := { round1 with worker := true, workers := [0] }
     let s := rndTurn r 0x0602 [1]
     RoundTurn s q0 0x0602 (pkt 0x0602 [1]) r ∧ startFault s r = none ∧ (s.lnt.listeners.all fun e => !(e.2.live && e.2.rnd == 1)) = false ∧ r.replicas2 = false ∧
      (let e := { s with lnt := { s.lnt with listeners := [] } }
       RoundTurn e q0 0x0602 (pkt 0x0602 [1]) r ∧ (e.lnt.listeners.all fun e => !(e.2.live && e.2.rnd == 1)) = true)) ∧
    (let s := rndTurn round1 0x0603 [1]
     RoundTurn s q0 0x0603 (pkt 0x0603 [1]) round1 ∧ round1.live = true ∧ phase1Of (after (.roundAbort q0) s) = some 9 ∧
      (let e := { round1 with phase := 7 }
       RoundTurn (rndTurn e 0x0603 [1]) q0 0x0603 (pkt 0x0603 [1]) e ∧ e.live = false) ∧
      RoundTurn (rndTurn round1 0x0604 [1]) q0 0x0604 (pkt 0x0604 [1]) round1 ∧ RoundTurn (rndTurn round1 0x0605 [1, 0]) q0 0x0605 (pkt 0x0605 [1, 0]) round1 ∧
      (let p := { round1 with phase := 7, publication := [1, 2] }
       RoundTurn (rndTurn p 0x0605 [1, 0]) q0 0x0605 (pkt 0x0605 [1, 0]) p ∧ (getQ (after (.roundResult q0) (rndTurn { round1 with phase := 3 } 0x0605 [1, 0])) 0).cnt = 1)) ∧
    Turn (mgrSt 0x0606 [63]) q0 0x0606 (pkt 0x0606 [63]) ∧ (after (.setFloor q0) (mgrSt 0x0606 [63])).rnd.floors = [] ∧ Turn (mgrSt 0x0606 [64]) q0 0x0606 (pkt 0x0606 [64]) ∧
    kminOf (after (.setFloor q0) (mgrSt 0x0606 [64])) (zeros 48) = 64 := by
  unfold RoundTurn Turn; and_intros <;> decide +kernel

/-- A contributor on session 9, and a message from it. -/
def contrib9 : Contrib := { sess := h9, ident := 0, pk := [], commit := [], sent := false, inA := false, committed := false, norm := none, shares := [], staged := [], resp := [], seed := none }
def rmsg (off : Nat) (pl : List Byte) : RoundMsg := { flags := 0, rsvd := 0, index := 0, offset := off, payload := pl }
/-- Round 1 started in a phase with these contributors. -/
def roundIn (ph : Nat) (cs : List Contrib) : Round := { round1 with phase := ph, started := true, contribs := cs, worker := true, workers := [0] }
/-- The round's state at a time. -/
def rndAt (r : Round) (t : Nat) : State := { rndSt r with lark := { (rndSt r).lark with time := t, state := 0 } }

theorem witness_RoundsRunToPublication :
    (InRound (rndSt (roundIn 1 [])) 9 (roundIn 1 []) ∧ (getSess (after (.shares 9 (rmsg 0 [])) (rndSt (roundIn 1 []))) 9).st = 2 ∧
      (getSess (after (.enrol 9 { rmsg 0 [] with rsvd := 1 }) (rndSt (roundIn 1 []))) 9).st = 2) ∧
    (contribOf (rndSt (roundIn 1 [])) (roundIn 1 []) 9 = none ∧ (admission (rndSt (roundIn 1 [])) 0 (roundIn 1 []).admKey).isSome = true ∧ 0 < (roundIn 1 []).limit) ∧
    (FromContrib (rndSt (roundIn 2 [contrib9])) 9 (roundIn 2 [contrib9]) (rmsg 0 []) 2 0 contrib9 ∧ round1.sealed = false ∧ round1.norm = 0 ∧
      (let r := { roundIn 2 [contrib9] with norm := 1 }
       FromContrib (rndSt r) 9 r (rmsg 0 []) 2 0 contrib9 ∧ r.norm ≠ 0)) ∧
    (let c := { contrib9 with inA := true }
     let r := roundIn 3 [c]
     FromContrib (rndSt r) 9 r (rmsg 63 (zeros 8)) 3 0 c ∧ r.words = 64 ∧ 63 + 8 / 8 ≤ r.words ∧ (getSess (after (.vector 9 (rmsg 63 (zeros 8))) (rndSt r)) 9).st = 1 ∧
      (getSess (after (.vector 9 (rmsg 64 (zeros 8))) (rndSt r)) 9).st = 2 ∧ (getSess (after (.vector 9 (rmsg 0 (zeros 7))) (rndSt r)) 9).st = 2 ∧
      overlaps (0, 2) (1, 1) = true ∧ overlaps (0, 2) (2, 1) = false ∧
      (let d := { c with staged := [(0, List.replicate 64 0)] }
       FromContrib (rndSt (roundIn 3 [d])) 9 (roundIn 3 [d]) (rmsg 0 (natLE 4 64)) 3 0 d ∧ d.staged.foldl (fun n p => n + p.2.length) 0 = 64 ∧
        (getSess (after (.commit 9 (rmsg 0 (natLE 4 63))) (rndSt (roundIn 3 [d]))) 9).st = 1)) ∧
    (let r := { roundIn 4 [contrib9] with kinds := [1], d := 0 }
     FromContrib (rndSt r) 9 r (rmsg 0 (zeros 40)) 4 0 contrib9 ∧ r.kinds.getD 5 0 = 0 ∧ (after (.response 9 (rmsg 0 (natLE 4 5 ++ zeros 36))) (rndSt r)).fab.kindRefused = 1) ∧
    (let r := { roundIn 4 [] with sealed := true, committee := [(5, []), (6, [])], pset := 9 }
     regsOpen (rndSt r) = true ∧ r.pds.any (fun e => e.1 == 0) = false ∧ ((getRnd? (after (.partialDecryption 1 2 []) (rndSt r)) 1).map Round.pds) = some []) ∧
    (let r := { roundIn 0 [] with phaseStart := 5 }
     (rndAt r 5119).lark.time < r.endBeat * 2 ^ r.k ∧ r.endBeat * 2 ^ r.k ≤ (rndAt r 5120).lark.time ∧ phase1Of (after (.roundPhaseEnd 1) (rndAt r 5119)) = some 0 ∧
      phase1Of (after (.roundPhaseEnd 1) (rndAt r 5120)) = some 1) ∧
    (let b : Bool → Round := fun a => { roundIn 2 [{ contrib9 with inA := a }] with phaseStart := 1 }
     (b true).endBeat = 5 ∧ phase1Of (after (.roundPhaseEnd 1) (rndAt (b false) 5120)) = some 8 ∧ phase1Of (after (.roundPhaseEnd 1) (rndAt (b true) 5120)) = some 3) ∧
    (let r := { roundIn 3 [{ contrib9 with inA := true, committed := true }] with phaseStart := 1 }
     sessOpen (rndAt r 5120) contrib9 = true ∧ phase1Of (after (.roundPhaseEnd 1) (rndAt r 5120)) = some 4 ∧ max r.t r.kmin = 1 ∧
      symDiff [0] [0] = 0 ∧ phase1Of (after (.roundPhaseEnd 1) (rndAt { r with pSet := some [0] } 5120)) = some 8 ∧
      phase1Of (after (.roundPhaseEnd 1) (rndAt { r with pSet := some [1] } 5120)) = some 4) ∧
    (let r := { roundIn 4 [contrib9] with phaseStart := 1 }
     r.allSeeds = true ∧ phase1Of (after (.roundPhaseEnd 1) (rndAt r 5120)) = some 5 ∧ phase1Of (after (.roundPhaseEnd 1) (rndAt { r with kinds := [1] } 5120)) = some 8) ∧
    (let r := { roundIn 5 [] with survivors := [0], m := 2 }
     (getRnd? (rndSt r) 1).isSome = true ∧ gateFault r r.survivors = none ∧ (gateFault { r with kmin := 2 } r.survivors).isSome = true ∧
      ((getRnd? (gatherOwn r (rndSt r)) 1).map Round.gathered) = some true ∧ phase1Of (after (.unmask 1) (rndSt r)) = some 6 ∧ phase1Of (after (.unmask 1) (rndSt { r with kmin := 2 })) = some 8 ∧
      phase1Of (after (.publish 1) (rndSt { r with phase := 6 })) = some 7 ∧ phase1Of (after (.publish 1) (rndSt r)) = some 5) ∧
    (let r := { roundIn 3 [] with workers := [0, 9] }
     r.live = true ∧ phase1Of (after (.workerLost 1 9) (rndSt r)) = some 8 ∧ rangesLive { r with lost := [9] } = false ∧ phase1Of (after (.workerLost 1 8) (rndSt r)) = some 3 ∧
      ((getRnd? (after (.workerLost 1 9) (rndSt { r with started := false, phase := 0 })) 1).map Round.workers) = some [0] ∧
      rangesLive { r with workers := [0, 9], replicas2 := true, lost := [9] } = true) ∧
    (let e := { Elect.init with mgr := some (bid 1) }
     managerSilent (elects e 50000000) .rack = true ∧ managerSilent (elects e 49999999) .rack = false ∧ (getElect (after (.managerLoss .rack) (elects e 50000000)) .rack).mgr = none) ∧
    (let s := { fabSt with rnd := (rndSt round1).rnd }
     let p := qpkt 7 0 (natLE 8 1 ++ natLE 1 0 ++ zeros 7)
     Reaches s p 7 ∧ Admitted s p ∧ getRnd? s 1 = some round1 ∧ ((getRnd? (after (.fw p) s) 1).map Round.workers) = some [1]) := by
  unfold FromContrib InRound Reaches Admitted; and_intros <;> decide +kernel

/-! 16, 17. The weight key of a package, its body's digest and its segments' tags rest on AES-GCM and SHA-384, which the model leaves uninterpreted. -/

/-- A weight package for the device itself: one slot, one layer, one segment of 256 bytes for Wren 0 at region offset `off`, window `win`, segment flags `fl`. -/
def package (off win fl : Nat) : List Byte :=
  natLE 4 0x4B4C5750 ++ natLE 2 1 ++ natLE 2 1 ++ List.replicate 16 5 ++ natLE 8 0x170 ++ zeros 0x70 ++ List.replicate 16 9 ++
    (natLE 4 0x4B4C4D50 ++ natLE 2 1 ++ natLE 1 1 ++ zeros 1 ++ natLE 2 1 ++ zeros 2 ++ natLE 4 1 ++ natLE 8 1 ++ natLE 4 4096 ++ natLE 4 4096 ++ natLE 4 win ++ zeros 28) ++
    (zeros 3 ++ natLE 1 fl ++ natLE 4 0 ++ natLE 4 off ++ natLE 4 256 ++ natLE 8 0x60 ++ zeros 8) ++ zeros 272
def loading (b : List Byte) (n : Nat) : State :=
  let s := setHostMem (memWrite [] 0 b) (rturn 0x0503 [0x8000, n, 1 + 2 ^ 32])
  { s with boot := { s.boot with deviceId := List.replicate 16 9 } }
/-- A model in Spill mode with 272 spilled bytes. -/
def model0 : Model := { mask := 1, board := false, spillMode := true, reserve := 0, wplan := 0, window := 0, segs := [], key := [], nonce := [], spilled := 272 }

/-- A grammar of two states and one row: byte 98 leads to state 1, which accepts; state 0 needs that byte. -/
def gramB : List Byte :=
  natLE 4 0x4B4C4A47 ++ natLE 2 1 ++ natLE 2 2 ++ natLE 2 1 ++ natLE 2 0 ++ natLE 4 64 ++ zeros 48 ++
    (natLE 2 0 ++ natLE 2 0xFFFF ++ natLE 2 1 ++ [0, 98, 0] ++ zeros 7) ++ (natLE 2 0 ++ natLE 2 0xFFFF ++ natLE 2 0 ++ [0, 0, 1] ++ zeros 7) ++
    (zeros 392 ++ natLE 4 5 ++ zeros 628)
def gramTbl : WTable := { gen := 0, ctx := 0, live := true, host := true, norm := false, bytes := gramB }
def drafting (n : Nat) : Stream := { st := 1, secret := false, ctx := 0, gram := 0, chain := [], lin := 4, lout := n, q := 0, frames := [], e := 0 }
/-- Warbler with that grammar in table 0 and these streams. -/
def wbl (ss : Tab Stream) (s : State) : State := { s with wbl := { tables := [(0, gramTbl)], streams := ss } }
/-- A Wren of the run at an ENG of kind 2, or at MASK, that names stream 2. -/
def submitting (v : Nat) (d : Stream) : State := wbl [(2, d)] (lone (ins 7 1 [(25, 3), (30, 2), (32, 2)]) [(3, BitVec.ofNat 64 v)])
def masking (a : Nat) (ctx : Nat) (tile : List Byte := []) : State :=
  wbl [(2, { drafting 2 with ctx := ctx })] (setMem (memWrite [] (wrenBase 0 + a) tile) (lone (ins 7 2 [(20, 3), (32, 2)]) [(3, BitVec.ofNat 64 a)]))

theorem test_gramB : gramCheck gramB gramB.length = none := by decide +kernel

theorem witness_NoticesAlwaysCompleteWithinTheirLimit :
    dAcc gramB (gStart gramB) ≤ (drafting 1).lout ∧ WithinBudget gramB (drafting 1) ∧ streamNeed gramB (drafting 1) = 1 ∧ maskBit gramB (drafting 1) 98 = true ∧
    maskBit gramB (drafting 1) 97 = false ∧ afterByte gramB (drafting 1) 98 = { drafting 1 with q := 1, e := 1 } ∧
    WithinBudget gramB { drafting 1 with q := 1, e := 1 } ∧ streamNeed gramB { drafting 1 with q := 1, e := 1 } = 0 ∧ streamNeed gramB (drafting 0) = 1 := by
  unfold WithinBudget; and_intros <;> first | decide +kernel | exact trivial

theorem witness_ModelsLoadAndStreamsConstrainOutput_models :
    (let s := loading [1] 1
     Turn s q0 0x0503 (pkt 0x0503 [0x8000, 1, 1 + 2 ^ 32]) ∧ s.pwr.st = .run ∧ (dvaRead s 0 0x8000 1 .fetch false).toOption = some [1] ∧ (packageHead (packageOf [1])).isSome = true) ∧
    (let g := packageOf (package 0 0 0)
     let s := loading (package 0 0 0) 0x210
     Turn s q0 0x0503 (pkt 0x0503 [0x8000, 0x210, 1 + 2 ^ 32]) ∧ s.nut.policyLost = false ∧ (dvaRead s 0 0x8000 0x210 .fetch false).toOption = some (package 0 0 0) ∧
      packageHead g = none ∧ (weightKey s 0 g).toOption = none ∧ (planFault s 0 0x210 (packageOf (package 1 0 0))).isSome = true ∧ planFault (fabric [] [] s) 0 0x210 g = none ∧
      (planFault s 0 0x211 g).isSome = true ∧ (g.taken 0).length = 1 ∧ (placePlan s 0 g false 0 (g.taken 0)).toOption.isSome = true ∧
      (placePlan s 0 (packageOf (package 1048320 0 0)) false 0 ((packageOf (package 1048320 0 0)).taken 0)).toOption.isSome = false ∧
      (placePlan s 0 (packageOf (package 1048320 16384 1)) true 1048576 ((packageOf (package 1048320 16384 1)).taken 0)).toOption.isSome = true ∧
      quarDecryptor s g.mask = none ∧ s.host.objs.length < objLimit ∧ (spillPlaces s 0 (g.taken 0) []).isSome = true) ∧
    (let s := turn 0x0505 [0x3007]
     let s : State := { s with host := { s.host with objs := [(0x3007, { idx := 7, gen := 0, ctx := 0, host := true, refs := 0, sha := [], kind := .model model0 })] } }
     Turn s q0 0x0505 (pkt 0x0505 [0x3007]) ∧ (useObj s 0 0x3007 3).toOption.isSome = true) := by
  unfold Turn; and_intros <;> decide +kernel

theorem witness_ModelsLoadAndStreamsConstrainOutput_streams :
    (let s := setHostMem (memWrite [] 0 gramB) (rturn 0x0900 [0x8000, 1120, 0])
     Turn s q0 0x0900 (pkt 0x0900 [0x8000, 1120, 0]) ∧ quarantined s (unitId 0x0C 0) = false ∧ (dvaRead s 0 0x8000 1120 .read false).toOption = some gramB ∧
      tableErr false gramB 1120 = none ∧ (tableErr false gramB 1119).isSome = true ∧ (tableErr true gramB 1120).isSome = true ∧ tblRoom s 0 = true ∧ gramB.length ≤ tblFree s 0 ∧
      (let f : State := { s with wbl := { s.wbl with tables := (List.range 128).map fun i => (i, gramTbl) } }
       tblRoom f 0 = false)) ∧
    (let s := wbl [] (turn 0x0901 [0])
     Turn s q0 0x0901 (pkt 0x0901 [0]) ∧ tblOf s 0 = some (0, gramTbl) ∧ inScope s 0 0 = true ∧ tblOf s 1 = none ∧ tblUsed s 0 = false ∧ tblUsed (wbl [(2, drafting 1)] s) 0 = true) ∧
    (let w := 4 + 2 ^ 16
     let s := wbl [(0, drafting 1)] (turn 0x0902 [0, 2 ^ 64 - 1, w])
     Turn s q0 0x0902 (pkt 0x0902 [0, 2 ^ 64 - 1, w]) ∧ (streamsFor s 0).find? (fun j => (getStream s j).st == 0) = some 1 ∧ chainOf s 0 (2 ^ 64 - 1) 4 = some [] ∧
      chainOf s 0 0 4 = none ∧ bits w 0 16 ≠ 0 ∧ bits w 16 16 ≠ 0 ∧ dAcc gramB (gStart gramB) ≤ bits w 16 16 ∧ bits 4 16 16 < dAcc gramB (gStart gramB) ∧
      (let f := wbl ((List.range 64).map fun i => (i, drafting 1)) (turn 0x0902 [0, 2 ^ 64 - 1, w])
       Turn f q0 0x0902 (pkt 0x0902 [0, 2 ^ 64 - 1, w]) ∧ ∀ i ∈ streamsFor f 0, (getStream f i).st ≠ 0)) ∧
    (let s := wbl [(2, drafting 1)] (turn 0x0903 [2])
     Turn s q0 0x0903 (pkt 0x0903 [2]) ∧ (nameStream s 0 2).toOption = some (drafting 1) ∧ getStream (after (.wblStreamClose q0) s) 2 = Stream.init) ∧
    (let s := fun n => setHostMem (memWrite [] 0 [0x61, 0xC3, 0xA9, 0xFF]) (wbl [(2, drafting 1)] (rturn 0x0904 [2, 0x8000, n, 0x8100]))
     Turn (s 4) q0 0x0904 (pkt 0x0904 [2, 0x8000, 4, 0x8100]) ∧ (nameStream (s 4) 0 2).toOption = some (drafting 1) ∧ Turn (s 0) q0 0x0904 (pkt 0x0904 [2, 0x8000, 0, 0x8100]) ∧
      (dvaRead (s 4) 0 0x8000 4 .read false).toOption = some [0x61, 0xC3, 0xA9, 0xFF] ∧ decodeUtf8 5 [0x61, 0xC3, 0xA9, 0xFF] = ([0x61, 0xE9, 0xFFFD], true) ∧
      fitUtf8 4 [0x61, 0xE9, 0xFFFD] = [0x61, 0xE9] ∧ (dvaWrite (s 4) 0 0x8100 [0x61, 0xC3, 0xA9] .write false).toOption.isSome = true) := by
  unfold Turn; and_intros <;> decide +kernel

theorem witness_ModelsLoadAndStreamsConstrainOutput_submissions :
    (let x := site0 (ins 7 1 [(25, 3), (30, 2), (32, 2)])
     (∀ v ∈ [0, 98, 0x100, 0x101, 0x102], Stands (submitting v (drafting 1)) 0 7 1 x ∧ getSr (submitting v (drafting 1)) 0 (bits x.insn 25 5) % 1024 = v) ∧ bits x.insn 30 2 = 2 ∧
      bits x.insn 32 6 = 2 ∧ gramOf (submitting 98 (drafting 1)) (drafting 1) = gramB ∧ maskBit gramB (drafting 1) 98 = true ∧ maskBit gramB (drafting 1) 0x100 = false ∧
      maskBit gramB { drafting 1 with q := 1 } 0x100 = true ∧ maskBit gramB { drafting 1 with st := 2 } 0x101 = true ∧
      (after (.wblByte 0) (submitting 97 (drafting 1))).fab.runs = [] ∧
      (after (.wblByte 0) (submitting 98 { drafting 1 with ctx := 1 })).fab.runs = [] ∧ (getStream (after (.wblEnd 0) (submitting 0x100 { drafting 1 with q := 1 })) 2).st = 2) ∧
    (let x := site0 (ins 7 2 [(20, 3), (32, 2)])
     Stands (masking 64 0) 0 7 2 x ∧ getSr (masking 64 0) 0 (bits x.insn 20 5) = 64 ∧ 64 + 1032 ≤ x.prog.wsize ∧ (after (.mask 0) (masking 63 0)).fab.runs = [] ∧
      (after (.mask 0) (masking 64 1)).fab.runs = [] ∧ interlocked (getWren (masking 64 0) 0) [(64, 1032)] [(64, 1032)] = false ∧
      interlocked { getWren (masking 64 0) 0 with async := [.gate 7 0x11 1 0 0x8000 0 0 0x9000 0] } [(64, 1032)] [(64, 1032)] = false) := by
  unfold Stands; and_intros <;> decide +kernel

/-! 18. -/

/-- An entry of the event log. -/
def entry (n : Nat) (ctx : Option Nat := none) : Event := { seq := n, time := 0, code := 0x0C02, ctx := ctx, part := 0xFF, unit := 3, rep := 0, detail := 9 }
/-- A chip whose device group holds these entries, at a time. -/
def logged (es : List Event) (t : Nat := 0) (s : State := up) : State :=
  { s with evlog := [(0, { entries := es, next := es.length, lost := 0 })], lark := { s.lark with time := t } }
/-- Metering with this state; period 2 is open. -/
def metered (m : Metering) (t : Nat) (s : State) : State := { s with mtr := m, lark := { s.lark with time := t } }
def mtr2 : Metering := { Metering.init with started := true, cur := Period.init 2 0, closed := [{ Period.init 1 0 with wallEnd := 50 }], lastEnd := some 50, wall := 100, wallSet := true }
/-- Unit Wren 3 in a state. -/
def unit3 (v : UnitSt) (t : Nat) (s : State := up) : State := { s with units := [(0x0803, v)], lark := { s.lark with time := t } }

theorem witness_LogsPeriodsAndUnitsRunForWeeks_log :
    (let s := logged [entry 0, entry 1] 1000000
     evGroup s none = 0 ∧ (tabGet EvGroup.init s.evlog 0).entries = [entry 0] ++ [entry 1] ∧ s.lark.time ≤ (entry 1).time + 1000000 ∧
      (tabGet EvGroup.init (raiseEv 0x0C02 none 3 9 s).evlog 0).entries = [entry 0, { entry 1 with rep := 1 }] ∧
      (let u := logged [entry 0, entry 1] 1000001
       ¬ (u.lark.time ≤ (entry 1).time + 1000000) ∧ (tabGet EvGroup.init u.evlog 0).entries.length < evQuota u ∧
        (tabGet EvGroup.init (raiseEv 0x0C02 none 3 9 u).evlog 0).entries.length = 3)) ∧
    evQuota (logged []) = 8192 ∧ evQuota { logged [] with host := { up.host with shared := true, parts := 7 } } = 1024 ∧
    (let s := logged [entry 0, entry 1 (some 4)] 9 (rturn 0x0F00 [0, 1])
     let p := pkt 0x0F00 [0, 1]
     Turn s q0 0x0F00 p ∧ (readable s 0 0).take (bits (p.w 1) 0 13) = [(0, entry 0)] ∧ (readable s 0 1).map (fun e => e.2.seq) = [1] ∧
      (readable { s with host := { s.host with ctxs := s.host.ctxs ++ [(4, { Ctx.init with st := 1 })] } } 4 0).map (fun e => e.2.seq) = [1] ∧ groupsFor s 0 = [0]) ∧
    (let p : Packet := { pkt 0x0F00 [0, 1] with rbuf := 0x8000, rbufLen := 32 }
     let s := logged [entry 0] 0 (roomy (holding p up))
     Turn s q0 0x0F00 p ∧ bufErr s q0 p ((readable s 0 0).flatMap fun e => eventBytes e.2).length = none) := by
  unfold Turn; and_intros <;> decide +kernel

theorem witness_LogsPeriodsAndUnitsRunForWeeks_periods :
    (let w := 2 ^ 64 - 5
     Turn (turn 0x0A04 [w]) q0 0x0A04 (pkt 0x0A04 [w]) ∧ signed 64 w = -5 ∧ up.mtr.wallSet = false ∧
      (let s := metered mtr2 7 (turn 0x0A04 [w])
       Turn s q0 0x0A04 (pkt 0x0A04 [w]) ∧ s.mtr.wallSet = true ∧ (-5 : Int) < s.mtr.wall ∧ (after (.wallOffsetSet q0) s).mtr.cur.discont = 1) ∧
      signed 64 100 = mtr2.wall) ∧
    Turn (turn 0x0A05 [60]) q0 0x0A05 (pkt 0x0A05 [60]) ∧ up.mtr.wallSet = false ∧
    (∀ w ∈ [50, 51, 107, 108], Turn (metered mtr2 7 (turn 0x0A05 [w])) q0 0x0A05 (pkt 0x0A05 [w])) ∧ mtr2.wallSet = true ∧ mtr2.pend = none ∧
    (50 : Int) ≤ 50 ∧ (50 : Int) < 51 ∧ (108 : Int) - mtr2.wall > 7 ∧ (107 : Int) - mtr2.wall ≤ 7 ∧
    (after (.periodClose q0) (metered mtr2 7 (turn 0x0A05 [108]))).mtr.pend = some (8, 108) ∧
    (let s := after (.periodClose q0) (metered mtr2 7 (turn 0x0A05 [107]))
     s.mtr.cur.num = 3 ∧ s.mtr.closed.map Period.late = [false, true] ∧ s.mtr.lastEnd = some 107) ∧
    (let m : Metering := { mtr2 with pend := some (8, 108) }
     (∀ w ∈ [108, 109], Turn (metered m 7 (turn 0x0A05 [w])) q0 0x0A05 (pkt 0x0A05 [w])) ∧ (metered m 7 up).lark.time < 8 ∧ powered (metered m 8 up) = true ∧
      (after .periodCloseTakesEffect (metered m 7 up)).mtr.cur.num = 2 ∧ (after .periodCloseTakesEffect (metered m 8 up)).mtr.cur.num = 3) ∧
    (let m : Metering := { mtr2 with closed := [] }
     Turn (metered mtr2 7 (turn 0x0A06 [3])) q0 0x0A06 (pkt 0x0A06 [3]) ∧ Turn (metered m 7 (turn 0x0A06 [1])) q0 0x0A06 (pkt 0x0A06 [1])) ∧
    (∀ n ∈ [0, 1, 2], ∃ p : Packet, p = { pkt 0x0A06 [n] with rbuf := 0x8000, rbufLen := 320 } ∧ Turn (metered mtr2 7 (roomy (holding p up))) q0 0x0A06 p) ∧
    (let p : Packet := { pkt 0x0A06 [1] with rbuf := 0x8000, rbufLen := 320 }
     let s := metered mtr2 7 (roomy (holding p up))
     (s.mtr.closed.find? fun c => c.num == 1).isSome = true ∧ (meterRecords s 0 (Period.init 1 0) false).length = 320 ∧ bufErr s q0 p 320 = none ∧ bufErr s q0 p 321 ≠ none) := by
  unfold Turn; and_intros <;> first | decide +kernel | (intro n hn; exact ⟨_, rfl, by revert n; decide +kernel⟩)

theorem witness_LogsPeriodsAndUnitsRunForWeeks_units :
    unitKnown 0x0803 = true ∧ unitOnPart up 0x0803 = true ∧ unitKnown 0xFFFF = false ∧ unitKnown 0x5802 = true ∧
    unitOnPart { up with boot := { up.boot with fuses := { up.boot.fuses with part := 2 } } } (unitId 2 48) = false ∧
    (∀ op ∈ [0x0F03, 0x0F04], ∀ u ∈ [0x0803, 0xFFFF, 0x5802], Turn (turn op [u]) q0 op (pkt op [u])) ∧
    (let v : UnitSt := { quar := true, releasing := false, relAt := 0 }
     Turn (unit3 v 5 (turn 0x0F04 [0x0803])) q0 0x0F04 (pkt 0x0F04 [0x0803]) ∧ (getUnit (unit3 v 5) 0x0803).quar = true ∧
      getUnit (after (.unitRelease q0) (unit3 v 5 (turn 0x0F04 [0x0803]))) 0x0803 = { quar := false, releasing := true, relAt := 5 } ∧
      quarantined (unit3 v 5) 0x0803 = true) ∧
    (let v : UnitSt := { quar := false, releasing := true, relAt := 5 }
     Turn (unit3 v 5 (turn 0x0F04 [0x0803])) q0 0x0F04 (pkt 0x0F04 [0x0803]) ∧ (getUnit (unit3 v 5) 0x0803).releasing = true ∧ powered (unit3 v 5) = true ∧
      (unit3 v 100000004).lark.time < v.relAt + 100000000 ∧ v.relAt + 100000000 ≤ (unit3 v 100000005).lark.time ∧
      getUnit (after (.unitReleaseCheck 0x0803 1 1) (unit3 v 100000004)) 0x0803 = v ∧ getUnit (after (.unitReleaseCheck 0x0803 2 1) (unit3 v 100000005)) 0x0803 = UnitSt.init ∧
      (getUnit (after (.unitReleaseCheck 0x0803 3 1) (unit3 v 100000005)) 0x0803).quar = true) ∧
    (match laneReleaseOf 0 (laneBit 0) (turn 0x0F04 [0x5800]) with | (.done _, _) => true | _ => false) = true ∧ Turn (turn 0x0F04 [0x5800]) q0 0x0F04 (pkt 0x0F04 [0x5800]) ∧
    0x5800 / 2048 = 0x0B ∧ quarantined up 0x0803 = false ∧ forcedRow (0x0803 / 2048) = some 8 ∧
    (getUnit (after (.unitDisagreement 0x0803 1 3) up) 0x0803).quar = true ∧ (getUnit (after (.unitDisagreement 0x0803 1 1) up) 0x0803).quar = false ∧
    (after (.replicaOverrun 0x0803 3) up).glb.ccOverrun = 0x100 := by
  unfold Turn; and_intros <;> decide +kernel

/-! 19. -/

theorem test_ref : PlainReg up .pf 0x11010 0x11010 := by unfold PlainReg State.up; decide
/-- A virtual function 3 exists in partition 2 of four. -/
def vf3 : State := { up with host := { up.host with shared := true, parts := 4, vfEnable := true, vfAdmq := [(3, Admq.init)] } }

theorem witness_RegistersObeyTheAccessRules :
    powered State.reset = false ∧ powered up = true ∧ (power { up.pwr with warmBusy := true }).pwr.warmBusy = true ∧ up.up ∧
    placeOf up .pf 0x2000000 = .none ∧ placeOf up .pf 0x1FFFFFF = .reg 0x1FFFFFF ∧ PlainReg up .pf 0x17000 0x17000 ∧ touched (regAt up) 0x17000 4 = none ∧
    (let s := power { up.pwr with st := .standby }
     s.up ∧ darkBlock 0x13000 = true ∧ darkBlock 0x12FFF = false ∧ (after (.rcRead .pf 0x13000 4) s).glb.dark = true) ∧
    (∀ o ∈ [0x10, 0x28, 0x104, 0x10030, 0x11010, 0x1101C, 0x30040, 0x30044, 0x60000, 0x5C00 + 0x60000], PlainReg up .pf o o) ∧ PlainReg up .pf 0x11014 (0x11010 + 4) ∧
    regAt up 0x11010 = some { bytes := 8, kind := .ro, val := 0 } ∧ regAt up 0x11014 = none ∧ ((regAt up 0x10030).map Reg.kind) = some .rc ∧
    ((regAt up 0x140020).map Reg.kind) = some .rw ∧ ((regAt up 0x140030).map fun r => (r.kind, r.bytes)) = some (.w1c, 8) ∧
    (let s := lark { Lark.init with time := 2 ^ 32 + 7 }
     let t := after (.rcRead .pf 0x11010 4) s
     t.lastRead = 7 ∧ latchedFor s .pf 0x11010 = none ∧ latchedFor t .pf 0x11010 = some 1 ∧ (after (.rcRead .pf 0x11014 4) { t with lark := { t.lark with time := 0 } }).lastRead = 1 ∧
      (after (.rcRead .pf 0x11010 2) s).glb.width = true ∧ (after (.halfReadLatch .pf 0x11010) s).lastRead = 7) ∧
    (after (.registerWrite .pf 0x1101C 4 500) up).lark.slew = 500 ∧ (after (.registerWrite .pf 0x1101C 4 501) up).glb.range = true ∧
    (after (.registerWrite .pf 0x1101C 4 0) up).glb.range = true ∧ bits (14 * 2 ^ 12 + 500 * 8) 3 9 = 500 ∧ bits (14 * 2 ^ 12 + 500 * 8) 12 5 = 14 ∧
    (getSkn (after (.registerWrite .pf 0x60000 4 (BitVec.ofNat 64 (14 * 2 ^ 12 + 500 * 8))) up) 0).hold = 500 ∧
    (after (.registerWrite .pf 0x60000 4 (BitVec.ofNat 64 (13 * 2 ^ 12))) up).glb.range = true ∧
    queueLive up 5 = false ∧ placeOf up .pf 0x400140 = .reg 0x400140 ∧ (0x400140 - 0x400000) / 64 = 5 ∧ (after (.registerWrite .pf 0x400140 4 1) up).glb.foreign = true ∧
    mayReach (.vf 1) .pf = false ∧ mayReach .pf (.vf 1) = true ∧
    (admqOf vf3 (.vf 3)).isSome = true ∧ vfPart vf3 3 = 2 ∧ placeOf vf3 (.vf 3) 0x80001 = .reg (0x400000 + 64 * 16384 + 1) ∧ placeOf vf3 (.vf 3) 0x100000 = .none := by
  unfold PlainReg State.up; and_intros <;> decide +kernel

/-! 20. The manual's own worked cases. -/

/-- 2^24 and 1.0 (Case 10.1). -/
def big : Fl := decF32 0x4B800000
def one : Fl := decF32 0x3F800000
/-- One term after another into an element. -/
def seqAdd (e : Elem) (ts : List Fl) : Elem := ts.foldl (fun a t => addTerm 1 a (.fl t) false) e

theorem case_10_1_f32 : encElem (seqAdd (identElem .f32) [big, one, one, one]) = 0x4B800000 := by decide +kernel
theorem case_10_1_tree : encElem (addElem false (identElem .f32) ((treeSum 5 [[.fl big], [.fl one], [.fl one], [.fl one]]).getD 0 (.word 0))) = 0x4B800001 := by
  decide +kernel
theorem case_10_1_f32c : encElem (seqAdd (identElem .f32c) [big, one, one, one]) = 0x4B800002 + 0xBF800000 * 2 ^ 32 := by decide +kernel
theorem case_10_1_x704 : (seqAdd (identElem .x704) [big, one, one, one]) = .wide (16777219 * 2 ^ 298) 4 0 ∧
    ((List.range 88).filter fun i => natLE 88 (encElem (.wide (16777219 * 2 ^ 298) 4 0)) |>.getD i 0 |> (· != 0)) = [37, 40, 79] ∧
    encF32 (elemValue 0 (.wide (16777219 * 2 ^ 298) 4 0)) = 0x4B800002 := by decide +kernel
theorem case_10_2 : addFixed (fixedRow [.fl (decF32 0x4A000000), .fl (decF32 0)]) 9 [0x7000000000000000, 3] 40 0 0 =
    some ([0x4800000000000000, 2], 39, 1, 1) := by decide +kernel
/-- The score row of Case 10.4. -/
def scores : List Fl := (List.range 64).map fun i => decF32 (if i = 0 ∨ i = 2 then 0x3F68F5C3 else if i = 5 then 0x3ECCCCCD else if i = 7 then 0x7FC00000 else 0x80000000)
theorem case_10_4 : (ranked scores).take 3 = [0, 2, 5] ∧ (ranked scores).getLast? = some 7 ∧ (winner false (scores.zipIdx.map fun e => (e.2, e.1))).map Prod.fst = some 0 ∧
    (winner true (scores.zipIdx.map fun e => (e.2, e.1))).map Prod.fst = some 1 := by decide +kernel

/-- The header bytes and the parameter of Case 5.1. -/
def beatPkt : Packet := parsePacket ([0x01, 0x4B, 0x02, 0x0A, 0x08, 0, 0, 0, 0x2B, 0x1A, 0, 0, 0x01, 0, 0, 0] ++ zeros 48) [0x1B, 0, 0, 0, 0, 0, 0, 0] 0 []
theorem case_5_1 : beatPkt.opcode = 0x0A02 ∧ beatPkt.tag = 0x1A2B ∧ beatPkt.plen = 1 ∧ beatPkt.slots = 2 ∧ beatPkt.w 0 = 27 ∧ bitOf beatPkt.flags 3 = true := by decide +kernel

/-- The MMA word of Case 9.1. -/
def mmaWord : Nat := 0x108000007E600033
theorem case_9_1 : insClass mmaWord = 3 ∧ insOp mmaWord = 3 ∧ bits mmaWord 20 5 = 6 ∧ bits mmaWord 25 6 = 63 ∧ bits mmaWord 55 2 = 1 ∧ bitOf mmaWord 60 = true ∧
    bitOf mmaWord 61 = false ∧ mmaIns 0 1 63 0 1 % 2 ^ 20 = mmaWord % 2 ^ 20 ∧ bitOf 0x208000007E600033 61 = true := by decide +kernel

/-- Chip 187's packet to chip 789 in a fabric of 16 racks (Case 14.2). -/
def fabric16 : State := { up with qtd := { up.qtd with racks := 4 }, skn := (List.range 24).map fun n => (n, { active with check := 1 }) }
def far : QtdPkt := { qpkt 1 789 [] with src := 187, slice := 0, order := 1, stage := 1 }
/-- Port, VC and chip of each hop. -/
def hops : Nat → Nat → QtdPkt → List (Nat × Nat)
  | 0, _, _ => []
  | n + 1, c, p => match nextHop fabric16 c p with
    | .out port vc next q => (if port < 13 then port else 13, next + vc * 2 ^ 20) :: hops n next q
    | _ => []
theorem case_14_2 : hops 5 187 far = [(4, 955), (3, 827 + 2 ^ 20), (13, 789 + 2 ^ 20)] := by decide +kernel

theorem case_19_1 : wrenBase 200 = 0x10000C800000 ∧ thkBase 8 = 0x110008000000 := by decide
/-- Chip 248 in Shared tenancy with two partitions (Case 19.2). -/
def chip248 : State := { up with host := { up.host with shared := true, parts := 2, vfEnable := true, vfAdmq := [(2, Admq.init), (4, Admq.init)] } }
theorem case_19_2 : vfPart chip248 2 = 1 ∧ vfPart chip248 4 = 1 ∧ vfQueue chip248 1 = 8192 ∧ placeOf chip248 (.vf 2) 0x80140 = .reg (0x400000 + 64 * 8197) ∧
    placeOf chip248 (.vf 2) 0x10005000 = .reg (0x12005000) := by decide +kernel

/-- "Comet Ōtsuka" after COMPOSE (Case 17.1). -/
def comet : List Nat := [0x43, 0x6F, 0x6D, 0x65, 0x74, 0x20, 0x14C, 0x74, 0x73, 0x75, 0x6B, 0x61]
theorem case_17_1 : (decodeUtf8 15 [0x43, 0x6F, 0x6D, 0x65, 0x74, 0x20, 0x4F, 0xCC, 0x84]).1.length = 8 ∧ (comet.flatMap encodeUtf8).length = 13 ∧
    (fitUtf8 7 comet).flatMap encodeUtf8 = [0x43, 0x6F, 0x6D, 0x65, 0x74, 0x20] ∧ ((fitUtf8 8 comet).flatMap encodeUtf8).length = 8 := by decide +kernel
/-- Engine 2 is Off in Robin's table and Active in the data path (Case 18.2). -/
theorem case_18_2 : (tabGet EvGroup.init (after (.unitDisagreement 0x4802 1 3) up).evlog 0).entries.map (fun e => (e.code, e.unit, e.detail)) = [(0x0C02, 0x4802, 0x31)] := by
  decide +kernel
/-- Board 7, slot 3 of rack 0 (Case 3.1): STRAP_POS has five ones, and parity holds with STRAP_PAR 0. -/
theorem case_3_1 : strapParityOk 0x3B = true ∧ strapParityOk 0x3A = false := by decide

/-! 21. A board that is down (01 R16), and PEER packets ahead of others (16 R331). -/

/-- A state whose context 0 has a board model on thicket 0, whose program is a board program, with a board run or none. -/
def boardly (rs : List Run) (s : State) : State :=
  { s with
    fab := { s.fab with runs := rs }
    host := { s.host with objs := [(0x1001, roomObj), (0x2002, progObj { progOfCode [16] with board := true }),
                                   (0x3003, { progObj (progOfCode [16]) with kind := .model { model0 with board := true } })] } }
def boardRun : Run := { run0 with board := true }
/-- The three board-cube ports carry traffic. -/
def cube (s : State) : State := { s with skn := (List.range 3).map fun n => (n, { active with check := 1, hold := 0 }) }

theorem witness_BoardDown :
    (let b := natLE 2 1 ++ natLE 2 16 ++ zeros 12 ++ natLE 8 0x2002 ++ natLE 8 0x8000 ++ natLE 4 8 ++ natLE 4 0 ++ natLE 8 0 ++ zeros 16
     let s := boardly [] (progged (withQ 1 { queue0 with typ := 2, st := .running, desc := some b } up))
     runnable s 1 2 = some b ∧ descOp b = 1 ∧ noRun s 1 = true ∧ bitOf (field b 2 2) 4 = true ∧ (modelsOf s 0).map (·.board) = [true] ∧
      usable (getSkn s 2) = false ∧ (launchFault s 0 (launchOf b)).map Prod.fst = some 0x0703 ∧ launchFault (cube s) 0 (launchOf b) = none ∧
      (after (.launch 1) s).fab.runs = [] ∧ (after (.launch 1) (cube s)).fab.runs.length = 1) ∧
    (let i := ins 2 2 [(20, 1), (25, 2), (30, 3), (39, 5), (42, 15)]
     let s := { boardly [boardRun] (lone i [(1, 0xDFFC0), (3, 64)]) with
       host := { (boardly [] (lone i [])).host with objs := [(0x1001, roomObj), (0x2002, progObj (progOfCode [i, 16])), (0x3003, { progObj (progOfCode [16]) with kind := .model { model0 with board := true } })] } }
     Stands s 0 2 2 { site0 i with run := boardRun } ∧ boardDown s 0 [0] true = true ∧ boardDown (cube s) 0 [0] true = false ∧
      (after (.peer 0) s).fab.runs = [] ∧ (getWren (after (.peer 0) s) 0).faultStatus = 0x0703 ∧ (after (.peer 0) (cube s)).fab.runs.length = 1) := by
  unfold Stands; and_intros <;> decide +kernel

theorem witness_ServingEnds :
    (let s := cube (boardly [boardRun, { run0 with id := 4, thks := [1] }] (fabric [16] [(0, wren0 [])]))
     sknOn s 2 = true ∧ (getSkn s 2).hold = 0 ∧ serving s boardRun = true ∧ serving s { run0 with id := 4, thks := [1] } = false ∧
      (after (.siskinLinkLoss 2) s).fab.runs.map (·.id) = [4] ∧ (after (.linkDown 0) s).fab.runs.map (·.id) = [4]) ∧
    (let s := boardly [boardRun] (fabSt (fabric [16] [(0, wren0 [])]))
     serving s boardRun = true ∧ (asyncSite s 0).isSome = true ∧
      (getWren (after (.notice (qpkt 8 0 (zeros 6 ++ natLE 2 6 ++ natLE 2 0x0801 ++ zeros 6))) s) 0).faultStatus = 0x0703) := by
  and_intros <;> decide +kernel

theorem test_peers_first : (peersFirst 2 [qpkt 2 1 [], qpkt 6 1 [], qpkt 3 1 [], qpkt 6 2 []]).map (fun p => (p.typ, p.dest)) = [(6, 1), (6, 2), (2, 1), (3, 1)] ∧
    (peersFirst 3 [qpkt 2 1 [], qpkt 6 1 []]).map (·.typ) = [2, 6] := by decide

end Sys2Proof.Tests
end

section
/-! SUPPORT. Rules of the operations that runs, Wrens and launches share: what counting leaves, how an instruction retires, blocks or
faults, and what a run that ends leaves behind (09 R174 to R190). -/

namespace Sys2Proof.Machine

/-! Folds over states. -/

/-- What each step of a fold establishes for its own element, and no step undoes, holds of every element in the end; `I` is what the
steps keep. -/
theorem foldl_establishes {α β : Type} {f : β → α → β} {I : β → Prop} {P : α → β → Prop} (hI : ∀ b a, I b → I (f b a))
    (hkeep : ∀ b a c, I b → P c b → P c (f b a)) (hset : ∀ b a, I b → P a (f b a)) (l : List α) (b : β) (hb : I b) :
    ∀ a ∈ l, P a (l.foldl f b) := by
  induction l generalizing b with
  | nil => simp
  | cons x l ih =>
    intro a ha
    rcases List.mem_cons.1 ha with rfl | ha
    · exact (List.foldlRecOn l f (motive := fun c => I c ∧ P a c) ⟨hI b a hb, hset b a hb⟩ fun c hc y _ =>
        ⟨hI c y hc.1, hkeep c y a hc.1 hc.2⟩).2
    · exact ih (f b x) (hI b x hb) a ha

/-! Counting (02 R26). -/

theorem CountOnly.fab {s t : State} (h : CountOnly s t) : t.fab = s.fab := by rw [h]
theorem CountOnly.mem {s t : State} (h : CountOnly s t) : t.mem = s.mem := by rw [h]
theorem CountOnly.hostMem {s t : State} (h : CountOnly s t) : t.hostMem = s.hostMem := by rw [h]
theorem CountOnly.getWren {s t : State} (h : CountOnly s t) (w : Nat) : getWren t w = getWren s w := by unfold Machine.getWren; rw [h.fab]

/-- Counting after a change of Wrens and runs stays within `WrenOnly`. -/
theorem CountOnly.wrenOnly {s u t : State} (h : CountOnly u t) (hu : u = { s with fab := { s.fab with wrens := u.fab.wrens, runs := u.fab.runs } }) :
    WrenOnly s t := by
  have hf := h.fab
  refine ⟨by rw [hf, hu], ?_, ?_⟩
  · rw [h, hu]
  · rw [h, hu]

/-! Where a Wren stands. -/

theorem getRun?_some {s : State} {id : Nat} {r : Run} (h : getRun? s id = some r) : r ∈ s.fab.runs ∧ r.id = id :=
  ⟨List.mem_of_find?_eq_some h, by simpa using List.find?_some h⟩

/-- A Wren that stands at an instruction belongs to an active run. -/
theorem siteOf_some {s : State} {w : Nat} {x : Site} (h : siteOf s w = some x) : x.w = w ∧ x.run.st = 1 := by
  unfold siteOf at h; dsimp only at h
  repeat' split at h
  all_goals cases h
  rename_i hc; exact ⟨rfl, hc.2.1⟩

theorem asyncSite_w {s : State} {w : Nat} {x : Site} (h : asyncSite s w = some x) : x.w = w := by
  unfold asyncSite at h; split at h
  · cases h
  · obtain ⟨p, -, rfl⟩ := Option.map_eq_some_iff.1 h; rfl

/-- The row at which a Wren stands runs its body. -/
theorem runInsn_stands {s : State} {w cls op : Nat} {x : Site} (h : Stands s w cls op x) (body : Site → State → WOut) :
    runInsn cls op body w s = settle x s (body x s) := by
  obtain ⟨hs, hc, ho, hk⟩ := h
  simp [runInsn, hs, hc, ho, hk]

/-! Retiring and blocking. -/

theorem retired_frame (x : Site) (s : State) :
    CountOnly (modRun x.run.id (fun r => { r with retired := r.retired + 1, stalled := false }) s) (retired x s) :=
  (count_frame _ _ _ _ _ _).trans (count_frame _ _ _ _ _ _)

/-- A retired instruction leaves its Wren past it (09 Table 9.6). -/
theorem passed_retire (x : Site) (u : State) : Passed x u (retire x u) := by
  have h := retired_frame x (advance x.w (getWren u x.w).ix u)
  refine ⟨?_, fun v hv => ?_, h.wrenOnly rfl, by unfold retire; rw [h.fab]; rfl⟩
  · unfold retire; rw [h.getWren]; exact getWren_putWren_same _ _ _
  · unfold retire; rw [h.getWren]; exact (getWren_putWren _ _ _ _).trans (if_neg hv)

/-- 09 Table 9.14: a blocked Wren keeps the time at which its wait began. -/
theorem blocks_blockOn (x : Site) (code : Nat) (s : State) : Blocks x code s (blockOn x code s) := by
  unfold blockOn; split
  · rename_i h
    refine ⟨?_, fun _ _ => rfl, ⟨rfl, rfl, rfl⟩, rfl⟩
    rw [if_pos h, ← h]
  · rename_i h
    have hc := (count_frame x.run.ctx 1 x.w 0x06 1 (modWren x.w (fun v => { v with block := code, blockedAt := some s.lark.time }) s)).trans
      (count_frame x.run.ctx 2 (x.w / 24) 0x06 1 _)
    refine ⟨?_, fun v hv => ?_, hc.wrenOnly rfl, by rw [hc.fab]; rfl⟩
    · rw [hc.getWren, if_neg h]; exact getWren_putWren_same _ _ _
    · rw [hc.getWren]; exact (getWren_putWren _ _ _ _).trans (if_neg hv)

/-! The end of a run (09 R187, R188). -/

/-- What the parts of a teardown leave alone: the run list and every Wren's fault record; and no Wren takes up a run. -/
structure TornDown (s t : State) : Prop where
  runs : t.fab.runs = s.fab.runs
  status : ∀ w, (getWren t w).faultStatus = (getWren s w).faultStatus
  ix : ∀ w, (getWren t w).faultIx = (getWren s w).faultIx
  freed : ∀ w, (getWren s w).run = none → (getWren t w).run = none

/-- Where neither runs nor Wrens change. -/
theorem TornDown.of_fab {s t : State} (hr : t.fab.runs = s.fab.runs) (hw : t.fab.wrens = s.fab.wrens) : TornDown s t := by
  have h (w) : getWren t w = getWren s w := by unfold getWren; rw [hw]
  exact ⟨hr, fun w => by rw [h], fun w => by rw [h], fun w e => by rwa [h]⟩

theorem TornDown.refl (s : State) : TornDown s s := .of_fab rfl rfl

theorem TornDown.setMem (m : List Host.Cell) (s : State) : TornDown s (setMem m s) := .of_fab rfl rfl

theorem TornDown.trans {s t u : State} (h : TornDown s t) (k : TornDown t u) : TornDown s u :=
  ⟨k.runs.trans h.runs, fun w => (k.status w).trans (h.status w), fun w => (k.ix w).trans (h.ix w), fun w e => k.freed w (h.freed w e)⟩

theorem TornDown.foldl {α : Type} {f : State → α → State} (hf : ∀ s a, TornDown s (f s a)) (l : List α) (s : State) :
    TornDown s (l.foldl f s) :=
  List.foldlRecOn l f (motive := TornDown s) (.refl s) fun b hb a _ => hb.trans (hf b a)

/-- A Wren whose fault record stays and that takes up no run. -/
theorem TornDown.modWren (w : Nat) (f : Wren → Wren) (s : State) (hs : (f (getWren s w)).faultStatus = (getWren s w).faultStatus)
    (hi : (f (getWren s w)).faultIx = (getWren s w).faultIx) (hr : (getWren s w).run = none → (f (getWren s w)).run = none) :
    TornDown s (modWren w f s) := by
  have h (v) : getWren (Machine.modWren w f s) v = if v = w then f (getWren s w) else getWren s v := getWren_putWren _ _ _ _
  refine ⟨rfl, fun v => ?_, fun v => ?_, fun v e => ?_⟩ <;> rw [h] <;> split <;> simp_all

theorem closeGroup_tornDown (r : Roost) (g : Nat) (s : State) : TornDown s (closeGroup r g s) := by
  unfold closeGroup; dsimp only
  refine TornDown.trans (TornDown.foldl (fun s t => ?_) _ s) (.modWren _ _ _ rfl rfl id)
  unfold putTsw
  exact (TornDown.modWren _ _ _ rfl rfl id).trans (.modWren _ _ _ rfl rfl id)

/-- 10 R199: a fault closes groups without flushing them. -/
theorem closeWren_tornDown (p : Prog) (c w : Nat) (s : State) : TornDown s (closeWren p c w false s) := by
  refine TornDown.foldl (fun s g => ?_) _ s
  simp only [Bool.false_eq_true, if_false]
  split
  · exact closeGroup_tornDown _ _ _
  · exact .refl _

theorem scrubWren_tornDown (p : Prog) (w : Nat) (s : State) : TornDown s (scrubWren p w s) := by
  unfold scrubWren; dsimp only
  refine TornDown.trans ?_ (.modWren _ _ _ rfl rfl id)
  exact .setMem _ s

theorem freeWren_tornDown (w : Nat) (s : State) : TornDown s (freeWren w s) := by
  unfold freeWren; exact .modWren _ _ _ rfl rfl fun _ => rfl

theorem freeWren_run (w : Nat) (s : State) : (getWren (freeWren w s) w).run = none := by simp [freeWren]

theorem unbindFree_tornDown (t : Nat) (s : State) : TornDown s (unbindFree t s) := by
  unfold unbindFree; split
  · exact .of_fab rfl rfl
  · exact .refl _

theorem clearRegions_tornDown (m : Model) (s : State) : TornDown s (clearRegions m s) := by
  refine TornDown.foldl (fun s w => ?_) _ s
  refine TornDown.trans ?_ (.setMem _ _)
  exact .modWren _ _ _ rfl rfl id

theorem removeObj_tornDown (h : Nat) (s : State) : TornDown s (removeObj h s) := by
  unfold removeObj; split
  · exact .refl _
  · rename_i o _
    have h1 : TornDown s ((objRanges o).foldl (fun s r => setMem (memErase s.mem r.1 r.2) s) s) :=
      TornDown.foldl (fun s _ => .setMem _ s) _ s
    have h2 := h1.trans (.of_fab (t := onHost (fun v => { v with objs := v.objs.filter fun e => e.1 != h }) _) rfl rfl)
    dsimp only; split
    · exact h2
    · exact h2.trans (TornDown.foldl (fun s t => TornDown.trans (t := modThk t _ s) (.of_fab rfl rfl) (unbindFree_tornDown t _)) _ _)
    · exact h2.trans ((clearRegions_tornDown _ _).trans (TornDown.foldl (fun s t => unbindFree_tornDown t s) _ _))

theorem dropRef_tornDown (h : Nat) (s : State) : TornDown s (dropRef h s) := by
  unfold dropRef
  refine TornDown.trans (t := modObj h (fun o => { o with refs := o.refs - 1 }) s) (.of_fab rfl rfl) ?_
  unfold reap; split
  · split
    · exact removeObj_tornDown h _
    · exact .refl _
  · exact .refl _

/-- A run has left the chip: it is no longer listed, its Wrens hold no run if it was active, and fault records stay. -/
structure RunLeft (r : Run) (s t : State) : Prop where
  runs : t.fab.runs = s.fab.runs.filter fun x => x.id != r.id
  status : ∀ w, (getWren t w).faultStatus = (getWren s w).faultStatus
  ix : ∀ w, (getWren t w).faultIx = (getWren s w).faultIx
  freed : r.st ≠ 0 → ∀ w ∈ r.wrens, (getWren t w).run = none

/-- One Wren of a run is left: scrubbed where the program is SECRET, and freed. -/
def leaveWren (r : Run) (p : Option Prog) (s : State) (w : Nat) : State :=
  let s := match p with | some p => if p.secret && r.st != 0 then scrubWren p w s else s | none => s
  if r.st = 0 then s else freeWren w s

theorem leaveWren_tornDown (r : Run) (p : Option Prog) (s : State) (w : Nat) : TornDown s (leaveWren r p s w) := by
  have h1 : TornDown s (match p with | some p => if p.secret && r.st != 0 then scrubWren p w s else s | none => s) := by
    split
    · split
      · exact scrubWren_tornDown _ _ _
      · exact .refl _
    · exact .refl _
  unfold leaveWren; dsimp only; split
  · exact h1
  · exact h1.trans (freeWren_tornDown w _)

theorem leaveWren_run {r : Run} (p : Option Prog) (s : State) (w : Nat) (h : r.st ≠ 0) : (getWren (leaveWren r p s w) w).run = none := by
  unfold leaveWren; rw [if_neg h]; exact freeWren_run _ _

/-- The order in which a run leaves: its reservations, its Wrens, the run list, its references. -/
theorem dropRun_eq (r : Run) (s : State) : ∃ refs : List Nat, dropRun r s =
    (fun u => if r.st = 0 then u else refs.foldl (fun s h => dropRef h s) u)
      (onFab (fun f => { f with runs := f.runs.filter fun x => x.id != r.id })
        (r.wrens.foldl (leaveWren r (progOf s r.prog)) (releaseAll r.id s))) := ⟨_, rfl⟩

theorem dropRun_left (r : Run) (s : State) : RunLeft r s (dropRun r s) := by
  have h1 : TornDown s (r.wrens.foldl (leaveWren r (progOf s r.prog)) (releaseAll r.id s)) :=
    TornDown.trans (t := releaseAll r.id s) (.of_fab rfl rfl) (TornDown.foldl (leaveWren_tornDown r _) _ _)
  have hfree : r.st ≠ 0 → ∀ w ∈ r.wrens, (getWren (r.wrens.foldl (leaveWren r (progOf s r.prog)) (releaseAll r.id s)) w).run = none := fun hr =>
    foldl_establishes (I := fun _ => True) (P := fun w u => (getWren u w).run = none) (fun _ _ _ => trivial)
      (fun u a w _ hw => (leaveWren_tornDown r _ u a).freed w hw) (fun u w _ => leaveWren_run _ u w hr) _ _ trivial
  have h2 : TornDown (onFab (fun f => { f with runs := f.runs.filter fun x => x.id != r.id })
      (r.wrens.foldl (leaveWren r (progOf s r.prog)) (releaseAll r.id s))) (dropRun r s) := by
    obtain ⟨refs, e⟩ := dropRun_eq r s
    rw [e]; dsimp only; split
    · exact .refl _
    · exact TornDown.foldl (fun s h => dropRef_tornDown h s) _ _
  refine ⟨h2.runs.trans ?_, fun w => (h2.status w).trans (h1.status w), fun w => (h2.ix w).trans (h1.ix w), fun hr w hw => h2.freed w (hfree hr w hw)⟩
  exact congrArg (List.filter _) h1.runs

theorem stopRun_left (r : Run) (s : State) : RunLeft r s (stopRun r s) := by
  have h1 : TornDown s (match progOf s r.prog with
      | some p => if r.st = 0 then s else r.wrens.foldl (fun s w => closeWren p r.ctx w false s) s | none => s) := by
    split
    · split
      · exact .refl _
      · exact TornDown.foldl (fun s w => closeWren_tornDown _ _ w s) _ _
    · exact .refl _
  have h2 := dropRun_left r (match progOf s r.prog with
      | some p => if r.st = 0 then s else r.wrens.foldl (fun s w => closeWren p r.ctx w false s) s | none => s)
  exact ⟨by rw [← h1.runs]; exact h2.runs, fun w => (h2.status w).trans (h1.status w), fun w => (h2.ix w).trans (h1.ix w), h2.freed⟩

/-- 09 R188: a fault at a Wren's instruction. -/
theorem faulted_faultRun (x : Site) (s : State) (hx : x.run.st ≠ 0) (status detail : Nat) (addr : Option Nat) :
    Faulted x status s (faultRun x.run x.w (getWren s x.w).ix status detail addr s) := by
  let s' := modWren x.w (fun v => { v with faultStatus := status, faultIx := (getWren s x.w).ix, faultAddr := addr.getD v.faultAddr }) s
  have hw : getWren s' x.w = { getWren s x.w with faultStatus := status, faultIx := (getWren s x.w).ix, faultAddr := addr.getD (getWren s x.w).faultAddr } :=
    getWren_putWren_same _ _ _
  have h := stopRun_left x.run s'
  refine ⟨detail, stopRun x.run s', rfl, by rw [h.status, hw], by rw [h.ix, hw], fun r hr => ?_, h.freed hx⟩
  rw [h.runs] at hr
  simpa using (List.mem_filter.1 hr).2

end Sys2Proof.Machine
end

section
/-! Moves (09 R170, R171, R175, R180): what a Wren's MOVE, FILL or PEER comes to at issue, and what its completion transfers. Settles O41. -/

namespace Sys2Proof.Machine

/-! Outcomes of an instruction at its site. -/

section
variable {s : State} {x : Site} {c : Instr} {o : WOut} (he : exec c s = .next (settle x s o))
include he

theorem retires_of {u : State} (ho : o = .retire u) : ∃ t, exec c s = .next t ∧ Passed x u t :=
  ⟨retire x u, by rw [he, ho]; rfl, passed_retire x u⟩

theorem blocks_of {code : Nat} (ho : o = .block code s) : ∃ t, exec c s = .next t ∧ Blocks x code s t :=
  ⟨blockOn x code s, by rw [he, ho]; rfl, blocks_blockOn x code s⟩

theorem faults_of (hx : x.run.st ≠ 0) {status d : Nat} {a : Option Nat} (ho : o = .fault status d a) :
    ∃ t, exec c s = .next t ∧ Faulted x status s t :=
  ⟨_, by rw [he, ho]; rfl, faulted_faultRun x s hx status d a⟩

/-- An operation that nothing unfinished stands in the way of joins its Wren's asynchronous operations (09 R175). -/
theorem issues_of {a : AsyncOp} (ho : o = issueAsync x a s) (hi : interlocked (getWren s x.w) (asyncReads a) (asyncWrites a) = false) :
    ∃ u t, exec c s = .next t ∧ Passed x u t ∧ getWren u x.w = { getWren s x.w with async := (getWren s x.w).async ++ [a] } ∧
      (∀ v, v ≠ x.w → getWren u v = getWren s v) ∧ u = { s with fab := { s.fab with wrens := u.fab.wrens } } := by
  obtain ⟨t, ht, hp⟩ := retires_of he (u := issue x a s) (by simp [ho, issueAsync, hi])
  exact ⟨issue x a s, t, ht, hp, getWren_putWren_same _ _ _, fun v hv => (getWren_putWren _ _ _ _).trans (if_neg hv), rfl⟩

theorem waits_of {a : AsyncOp} (ho : o = issueAsync x a s) (hi : interlocked (getWren s x.w) (asyncReads a) (asyncWrites a) = true) :
    ∃ t, exec c s = .next t ∧ Blocks x 7 s t :=
  blocks_of he (by simp [ho, issueAsync, hi])

end

theorem Stands.w_eq {s : State} {w cls op : Nat} {x : Site} (h : Stands s w cls op x) : x.w = w := (siteOf_some h.1).1
theorem Stands.active {s : State} {w cls op : Nat} {x : Site} (h : Stands s w cls op x) : x.run.st ≠ 0 := by
  rw [(siteOf_some h.1).2]; decide

theorem exec_move {s : State} {w : Nat} {x : Site} (h : Stands s w 2 1 x) : exec (.move w) s = .next (settle x s (insMove x s)) :=
  congrArg Host.Outcome.next (runInsn_stands h _)
theorem exec_peer {s : State} {w : Nat} {x : Site} (h : Stands s w 2 2 x) : exec (.peer w) s = .next (settle x s (insPeer x s)) :=
  congrArg Host.Outcome.next (runInsn_stands h _)
theorem exec_fill {s : State} {w : Nat} {x : Site} (h : Stands s w 2 3 x) : exec (.fill w) s = .next (settle x s (insFill x s)) :=
  congrArg Host.Outcome.next (runInsn_stands h _)

/-! What MOVE, FILL and PEER come to. -/

theorem lenOk_iff (n : Nat) : lenOk n = true ↔ n % 64 = 0 ∧ n ≤ 16777216 := by simp [lenOk]

theorem inWork_iff (p : Prog) (off len : Nat) : inWork p off len = true ↔ len = 0 ∨ off + len ≤ p.wsize := by simp [inWork]

theorem sideFault_zero (s : State) (x : Site) (side a : Nat) (acc : Acc) : sideFault s x side a 0 acc = none := by simp [sideFault]

/-- A local side outside the working area is a range breach (09 R168). -/
theorem sideFault_local {s : State} {x : Site} {a len : Nat} (acc : Acc) (h0 : len ≠ 0) (h : x.prog.wsize < a + len) :
    sideFault s x 0 a len acc = some (0x0105, faultDetail s 0x0105, none) := by
  have : ¬ inWork x.prog a len = true := by rw [inWork_iff]; omega
  simp [sideFault, h0, this]

theorem sideFault_local_ok {s : State} {x : Site} {a len : Nat} (acc : Acc) (h : a + len ≤ x.prog.wsize) : sideFault s x 0 a len acc = none := by
  have : inWork x.prog a len = true := (inWork_iff _ _ _).2 (.inr h)
  simp [sideFault, this]

/-- A thicket side that the context does not own (09 R170). -/
theorem sideFault_thicket {s : State} {x : Site} {a len : Nat} (acc : Acc) (h0 : len ≠ 0) (h : thkRange s x a len = none) :
    sideFault s x 1 a len acc = some (0x0204, acc.rights, none) := by simp [sideFault, h0, h]

section
variable {s : State} {x : Site}

/-- 09 Table 9.7: a length that is no multiple of 64, or over 16 MiB. -/
theorem insMove_badLen (h : ¬ lenOk (x.sr s 30) = true) : insMove x s = rangeBreach s := by simp [insMove, h]
theorem insFill_badLen (h : ¬ lenOk (x.sr s 30) = true) : insFill x s = rangeBreach s := by simp [insFill, h]
theorem insPeer_badLen (h : ¬ lenOk (x.sr s 30) = true) : insPeer x s = rangeBreach s := by simp [insPeer, h]

theorem insMove_zero (h : x.sr s 30 = 0) : insMove x s = .retire s := by simp [insMove, h, lenOk, sideFault_zero]
theorem insFill_zero (h : x.sr s 30 = 0) : insFill x s = .retire s := by simp [insFill, h, lenOk, sideFault_zero]

/-- MOVE with two accessible sides is issued. -/
theorem insMove_issue (hl : lenOk (x.sr s 30) = true) (h0 : x.sr s 30 ≠ 0)
    (hs : sideFault s x (srcSide (bits x.insn 35 4)) (x.sr s 25) (x.sr s 30) .read = none)
    (hd : sideFault s x (dstSide (bits x.insn 35 4)) (x.sr s 20) (x.sr s 30) .write = none) :
    insMove x s = issueAsync x (.move (bits x.insn 35 4) (x.sr s 20) (x.sr s 25) (x.sr s 30)) s := by
  simp [insMove, hl, h0, hs, hd]

/-- MOVE faults as its source side does. -/
theorem insMove_srcFault {e : Nat × Nat × Option Nat} (hl : lenOk (x.sr s 30) = true)
    (hs : sideFault s x (srcSide (bits x.insn 35 4)) (x.sr s 25) (x.sr s 30) .read = some e) : insMove x s = .fault e.1 e.2.1 e.2.2 := by
  simp [insMove, hl, hs]

theorem insFill_issue (hl : lenOk (x.sr s 30) = true) (h0 : x.sr s 30 ≠ 0)
    (hd : sideFault s x (dstSide (bits x.insn 35 4)) (x.sr s 20) (x.sr s 30) .write = none) :
    insFill x s = issueAsync x (.fill (dstSide (bits x.insn 35 4)) (x.sr s 20) (x.sr s 30) (BitVec.ofNat 64 (x.sr s 25))) s := by
  simp [insFill, hl, h0, hd]

/-- PEER between two ranges of the working area: issued, or refused on a board that is down (01 R16). -/
theorem insPeer_inWork (hl : lenOk (x.sr s 30) = true) (hs : inWork x.prog (x.sr s 25) (x.sr s 30) = true)
    (hd : inWork x.prog (x.sr s 20) (x.sr s 30) = true) : insPeer x s =
    if boardDown s x.run.ctx x.run.thks x.run.board then .fault 0x0703 (abortDetail s) none
    else issueAsync x (.peer (bits x.insn 39 3) (x.sr s 20) (x.sr s 25) (x.sr s 30) (bits x.insn 42 4) (bitOf x.insn 46) s.lark.time) s := by
  simp [insPeer, hl, hs, hd]

theorem insPeer_outside (hl : lenOk (x.sr s 30) = true)
    (h : ¬ (inWork x.prog (x.sr s 25) (x.sr s 30) = true ∧ inWork x.prog (x.sr s 20) (x.sr s 30) = true)) : insPeer x s = rangeBreach s := by
  have hf : (inWork x.prog (x.sr s 25) (x.sr s 30) && inWork x.prog (x.sr s 20) (x.sr s 30)) = false :=
    Bool.eq_false_iff.2 fun hb => h (by rwa [Bool.and_eq_true] at hb)
  simp only [insPeer, hl, hf, Bool.not_true, Bool.not_false, Bool.false_eq_true, if_false, if_true]

/-- The outcome of a row of class 2 at its site, for a length that the row refuses and for length 0. -/
theorem moveRow_outcome {w : Nat} {c : Instr} (h : c = .move w ∧ Stands s w 2 1 x ∨ c = .fill w ∧ Stands s w 2 3 x ∨ c = .peer w ∧ Stands s w 2 2 x) :
    x.w = w ∧ x.run.st ≠ 0 ∧ ∃ o, exec c s = .next (settle x s o) ∧ (¬ lenOk (x.sr s 30) = true → o = rangeBreach s) ∧
      (x.sr s 30 = 0 → c ≠ .peer w → o = .retire s) := by
  rcases h with ⟨rfl, h⟩ | ⟨rfl, h⟩ | ⟨rfl, h⟩
  · exact ⟨h.w_eq, h.active, _, exec_move h, insMove_badLen, fun h0 _ => insMove_zero h0⟩
  · exact ⟨h.w_eq, h.active, _, exec_fill h, insFill_badLen, fun h0 _ => insFill_zero h0⟩
  · exact ⟨h.w_eq, h.active, _, exec_peer h, insPeer_badLen, fun _ hc => absurd rfl hc⟩

end

/-! Completion (09 R175). -/

@[simp] theorem memRead_length (m : List Host.Cell) (a n : Nat) : (memRead m a n).length = n := by simp [memRead]
@[simp] theorem patBytes_length (pat dst len : Nat) : (patBytes pat dst len).length = len := by simp [patBytes]

/-- Stored bytes read back. -/
theorem memRead_memWrite_same (m : List Host.Cell) (a : Nat) (bs : List Byte) : memRead (memWrite m a bs) a bs.length = bs := by
  refine List.ext_getElem (by simp) fun i _ hi => ?_
  simp [memRead, memGet_write_inside bs m a i hi, hi]

theorem countLines_frame (x : Site) (rd wr : Nat) (s : State) : CountOnly s (countLines x rd wr s) :=
  (count_frame _ _ _ _ _ _).trans (count_frame _ _ _ _ _ _)

/-- A MOVE within the working area stores the bytes it read there. -/
theorem completeAsync_localMove {s : State} {x : Site} {dst src len : Nat} (h0 : len ≠ 0) (hs : src + len ≤ x.prog.wsize) (hd : dst + len ≤ x.prog.wsize) :
    completeAsync x s (.move 0 dst src len) = .ok (countLines x len len (writeLocal x.w dst (memRead s.mem (wrenBase x.w + src) len) s)) := by
  have hb : (readLocal s x.w src len).isEmpty = false := by
    rw [List.isEmpty_eq_false_iff_exists_mem, ← List.length_pos_iff_exists_mem, readLocal, memRead_length]; omega
  simp [completeAsync, srcSide, dstSide, sideFault_local_ok, hs, hd, doMove, readSide, writeSide, hb]
  rfl

/-- A FILL of the working area stores its pattern there. -/
theorem completeAsync_localFill {s : State} {x : Site} {dst len : Nat} (pat : BitVec 64) (h0 : len ≠ 0) (hd : dst + len ≤ x.prog.wsize) :
    completeAsync x s (.fill 0 dst len pat) = .ok (countLines x 0 len (writeLocal x.w dst (patBytes pat.toNat dst len) s)) := by
  have hb : (patBytes pat.toNat dst len).isEmpty = false := by
    rw [List.isEmpty_eq_false_iff_exists_mem, ← List.length_pos_iff_exists_mem, patBytes_length]; omega
  simp [completeAsync, sideFault_local_ok, hd, doFill, writeSide, hb]

/-- An operation that holds no keys and occupies no engine leaves its Wren, and nothing else changes. -/
theorem retireAsync_plain {a : AsyncOp} (hr : asyncRefs a = []) (hi : asyncInst a = none) (w i : Nat) (s : State) :
    retireAsync w i a s = modWren w (fun v => { v with async := v.async.eraseIdx i }) s := by
  simp [retireAsync, hr, hi]

theorem exec_wrenAsyncComplete {s t : State} {w i : Nat} {x : Site} {a : AsyncOp} (hx : asyncSite s w = some x) (ha : (getWren s w).async[i]? = some a)
    (h1 : x.run.st = 1) (hp : s.pwr.st = .run) (hc : completeAsync x s a = .ok t) :
    exec (.wrenAsyncComplete w i) s = .next (retireAsync w i a t) := by
  show execWrenAsyncComplete w i s = _
  simp [execWrenAsyncComplete, hx, ha, h1, hp, hc]

/-- What a completion that stores `bs` in the working area leaves (09 R171): those bytes, the operation gone, nothing else. -/
theorem localStore_effect {a : AsyncOp} (hr : asyncRefs a = []) (hi : asyncInst a = none) (x : Site) (s : State) (i rd wr dst : Nat) (bs : List Byte)
    {t : State} (ht : t = retireAsync x.w i a (countLines x rd wr (writeLocal x.w dst bs s))) :
    memRead t.mem (wrenBase x.w + dst) bs.length = bs ∧
      (∀ a, a < wrenBase x.w + dst ∨ wrenBase x.w + dst + bs.length ≤ a → memGet t.mem a = memGet s.mem a) ∧
      getWren t x.w = { getWren s x.w with async := (getWren s x.w).async.eraseIdx i } ∧ (∀ v, v ≠ x.w → getWren t v = getWren s v) ∧
      t.hostMem = s.hostMem := by
  have hc := countLines_frame x rd wr (writeLocal x.w dst bs s)
  generalize countLines x rd wr (writeLocal x.w dst bs s) = u at hc ht
  have hw (v) : getWren u v = getWren s v := hc.getWren v
  rw [retireAsync_plain hr hi, modWren_eq, hw] at ht
  have hm : t.mem = memWrite s.mem (wrenBase x.w + dst) bs := by rw [ht, putWren_mem]; exact hc.mem
  refine ⟨by rw [hm, memRead_memWrite_same], fun b hb => by rw [hm, memGet_write_outside _ _ _ _ hb], ?_, fun v hv => ?_, ?_⟩
  · rw [ht, getWren_putWren_same]
  · rw [ht, getWren_putWren, if_neg hv, hw]
  · rw [ht, putWren_hostMem]; exact hc.hostMem

/-! Arrivals and partners (09 R180). -/

/-- A noted arrival raises its counter by one and is used up. -/
theorem peerPlaced_noted (s : State) (w k : Nat) (h : ∃ e ∈ (getWren s w).pushed, e.1 = k) : ∃ t, exec (.peerPlaced w k) s = .next t ∧
    tabGet 0 (getWren t w).arr k = (tabGet 0 (getWren s w).arr k + 1) % 2 ^ 32 ∧
    (∀ j, j ≠ k → tabGet 0 (getWren t w).arr j = tabGet 0 (getWren s w).arr j) ∧ (∀ v, v ≠ w → getWren t v = getWren s v) ∧
    t = { s with fab := { s.fab with wrens := t.fab.wrens } } := by
  have hp : ((getWren s w).pushed.any fun e => e.1 == k) = true := by simpa using h
  refine ⟨_, congrArg Host.Outcome.next (if_pos hp), ?_, fun j hj => ?_, fun v hv => ?_, rfl⟩
  · rw [modWren_eq, getWren_putWren_same]; exact tabGet_put_same _ _ _ _
  · rw [modWren_eq, getWren_putWren_same]; exact tabGet_put_other _ _ _ hj
  · rw [modWren_eq, getWren_putWren, if_neg hv]

theorem peerPlaced_none (s : State) (w k : Nat) (h : ∀ e ∈ (getWren s w).pushed, e.1 ≠ k) : exec (.peerPlaced w k) s = .next s :=
  congrArg Host.Outcome.next (if_neg (by simpa [List.any_eq_true] using fun v hv => h (k, v) hv rfl))

/-- No PEER of the Wren has waited 100 µs: nothing happens. -/
theorem peerTimeout_none {s : State} {w : Nat} {x : Site} (hx : asyncSite s w = some x)
    (h : ∀ a ∈ (getWren s w).async, ∀ slot dst src len arr nt since, a = .peer slot dst src len arr nt since → s.lark.time < since + 100000) :
    exec (.peerTimeout w) s = .next s := by
  show execPeerTimeout w s = _
  simp only [execPeerTimeout, hx]
  split
  · rename_i slot dst src len arr nt since hf
    have ht := h _ (List.mem_of_find?_eq_some hf) _ _ _ _ _ _ _ rfl
    have hw := List.find?_some hf
    simp only [decide_eq_true_eq] at hw
    omega
  · rfl

theorem peerTimeout_first {s : State} {w : Nat} {x : Site} (hx : asyncSite s w = some x) {slot dst src len arr since : Nat} {nt : Bool} {rest : List AsyncOp}
    (ha : (getWren s w).async = .peer slot dst src len arr nt since :: rest) (h : since + 100000 ≤ s.lark.time) :
    exec (.peerTimeout w) s = .next (faultRun x.run w (getWren s w).ix 0x0801 (slotChip s slot) none s) := by
  show execPeerTimeout w s = _
  simp [execPeerTimeout, hx, ha, h]

/-- Settles O41: each clause is an outcome of the row at its site, or the effect of a completion, proved above. -/
theorem movesAndPeersTransferBytes : Obligations.MovesAndPeersTransferBytes := by
  unfold Obligations.MovesAndPeersTransferBytes
  refine ⟨?len, ?move, ?fill, ?peer, ?complete, ?placed, ?timeout⟩
  case len =>
    intro s w len x c hc hlen
    obtain ⟨rfl, hx, o, he, hbad, hzero⟩ := moveRow_outcome hc
    obtain rfl : len = x.sr s 30 := hlen
    refine ⟨fun h => faults_of he hx (hbad ?_), fun h0 hp => retires_of he (hzero h0 hp)⟩
    rw [lenOk_iff]; omega
  case move =>
    intro s w mode dst src len x hx hmode hdst hsrc hlen h64 hmax h0
    obtain rfl := hx.w_eq
    obtain ⟨rfl, rfl, rfl, rfl⟩ : mode = bits x.insn 35 4 ∧ dst = x.sr s 20 ∧ src = x.sr s 25 ∧ len = x.sr s 30 := ⟨hmode, hdst, hsrc, hlen⟩
    have hl : lenOk (x.sr s 30) = true := (lenOk_iff _).2 ⟨h64, hmax⟩
    have he := exec_move hx
    refine ⟨fun hs hd => ?_, fun hm hr => ?_, fun hm hr => ?_⟩
    · exact ⟨issues_of he (insMove_issue hl h0 hs hd), waits_of he (insMove_issue hl h0 hs hd)⟩
    · exact faults_of he hx.active (insMove_srcFault hl (by rw [hm]; exact sideFault_thicket _ h0 hr))
    · exact faults_of he hx.active (insMove_srcFault hl (by rw [hm]; exact sideFault_local _ h0 hr))
  case fill =>
    rintro s w side dst len x a hx rfl rfl rfl h64 hmax h0 rfl hd hi
    obtain rfl := hx.w_eq
    exact issues_of (exec_fill hx) (insFill_issue ((lenOk_iff _).2 ⟨h64, hmax⟩) h0 hd) hi
  case peer =>
    intro s w dst src len x a hx hdst hsrc hlen h64 hmax ha
    obtain rfl := hx.w_eq
    obtain ⟨rfl, rfl, rfl⟩ : dst = x.sr s 20 ∧ src = x.sr s 25 ∧ len = x.sr s 30 := ⟨hdst, hsrc, hlen⟩
    subst ha
    have hl : lenOk (x.sr s 30) = true := (lenOk_iff _).2 ⟨h64, hmax⟩
    have he := exec_peer hx
    have hin := fun h : x.sr s 30 = 0 ∨ x.sr s 25 + x.sr s 30 ≤ x.prog.wsize ∧ x.sr s 20 + x.sr s 30 ≤ x.prog.wsize =>
      insPeer_inWork hl ((inWork_iff _ _ _).2 (h.imp_right And.left)) ((inWork_iff _ _ _).2 (h.imp_right And.right))
    refine ⟨fun h hb => ?_, fun h hb hi => ?_, fun h0 h => ?_⟩
    · exact faults_of he hx.active ((hin h).trans (if_pos hb))
    · exact issues_of he ((hin h).trans (if_neg (by simp [hb]))) hi
    · exact faults_of he hx.active (insPeer_outside hl (by rw [inWork_iff, inWork_iff]; omega))
  case complete =>
    rintro s w i dst len x bs hx h1 hp h0 hd (⟨src, ha, hs, rfl⟩ | ⟨pat, ha, rfl⟩) <;> obtain rfl := asyncSite_w hx
    · refine ⟨_, exec_wrenAsyncComplete hx ha h1 hp (completeAsync_localMove h0 hs hd), ?_⟩
      simpa using localStore_effect rfl rfl x s i len len dst (memRead s.mem (wrenBase x.w + src) len) rfl
    · refine ⟨_, exec_wrenAsyncComplete hx ha h1 hp (completeAsync_localFill pat h0 hd), ?_⟩
      simpa using localStore_effect rfl rfl x s i 0 len dst (patBytes pat.toNat dst len) rfl
  case placed => exact fun s w k => ⟨peerPlaced_noted s w k, peerPlaced_none s w k⟩
  case timeout =>
    intro s w x hx h1
    refine ⟨peerTimeout_none hx, fun slot dst src len arr nt since rest ha h => ⟨_, peerTimeout_first hx ha h, ?_⟩⟩
    obtain rfl := asyncSite_w hx
    exact faulted_faultRun x s (by omega) _ _ _

end Sys2Proof.Machine
end

section
/-! Programs and launches (09 R181 to R190): what PROG_LOAD places, what a launch queues, how a run starts, and how a stalled run is
found and faulted. Settles O40. -/

namespace Sys2Proof.Machine

/-! Fields of byte strings (05 R81). -/

theorem leNat_lt (bs : List Byte) : leNat bs < 256 ^ bs.length := by
  induction bs with
  | nil => simp [leNat]
  | cons b bs ih =>
    have := b.isLt
    rw [leNat, List.length_cons, Nat.pow_succ]; omega

theorem field_lt (bs : List Byte) (off len : Nat) : field bs off len < 256 ^ len := by
  have h := leNat_lt (sub bs off len)
  rwa [show (sub bs off len).length = len by simp [sub]] at h

/-- A 64-bit field as a mask is empty only if the field is zero. -/
theorem ofNat_field_eq_zero (bs : List Byte) (off : Nat) : BitVec.ofNat 64 (field bs off 8) = 0 ↔ field bs off 8 = 0 := by
  rw [← BitVec.toNat_inj, BitVec.toNat_ofNat, Nat.mod_eq_of_lt (show _ < 2 ^ 64 from field_lt bs off 8)]; rfl

/-! The turn of a command (05 R90 to R94). -/

section
variable {s : State} {q : QRef} {op : Nat} {p : Packet} (h : Turn s q op p) {body : Body}
include h

/-- A body that completes its command. Only statuses 0x0502 and 0x0504 are counted (07 Table 7.10). -/
theorem runCmd_done {d : Done} {u : State} (hb : body q p s = (.done d, u)) (h2 : d.status ≠ 0x0502) (h4 : d.status ≠ 0x0504) :
    runCmd op body q s = finish q d u := by
  obtain ⟨hs, ho, hst, hv, hf, hd, he⟩ := h
  simp [runCmd, hs, ho, hst, hv, hf, hd, he, hb, countAuth, h2, h4]

theorem runCmd_later {u : State} (hb : body q p s = (.later, u)) : runCmd op body q s = markStarted q u := by
  obtain ⟨hs, ho, hst, hv, hf, hd, he⟩ := h
  simp [runCmd, hs, ho, hst, hv, hf, hd, he, hb]

end

/-! The checks of a program (09 Table 9.10). -/

theorem progFault_status {s : State} {c : Nat} {g : Prog} {e : Nat × Nat} (h : progFault s c g = some e) :
    e.1 = 0x0105 ∨ e.1 = 0x0401 ∨ e.1 = 0x0303 ∨ e.1 = 0x0608 := by
  unfold progFault at h; dsimp only at h
  repeat' split at h
  all_goals cases h
  all_goals simp

theorem badThk_eq_none (m : BitVec 64) (ok : Nat → Bool) : badThk m ok = none ↔ ∀ t ∈ maskThks m, ok t = true := by
  simp [badThk]

theorem firstBad_none {code : List Nat} {ok : Nat → Bool} (h : firstBad code (fun _ i => ok i) = none) : ∀ i ∈ code, ok i = true := by
  intro i hi
  obtain ⟨k, hk, rfl⟩ := List.getElem_of_mem hi
  have hf : code.zipIdx.find? (fun e => !ok e.1) = none := Option.map_eq_none_iff.1 h
  simpa using List.find?_eq_none.1 hf (code[k], k) (List.mem_zipIdx_iff_getElem?.2 (by simp))

theorem codeFault_none {code : List Nat} {S : Nat} {secret : Bool} (h : codeFault code S secret = none) : ∀ i ∈ code, insOk i = true :=
  firstBad_none (Option.or_eq_none_iff.1 (Option.or_eq_none_iff.1 h).1).1

/-- What a program that passes has: defined instructions, and thickets of the part within its limits that no other context holds. -/
theorem progFault_none {s : State} {c : Nat} {g : Prog} (h : progFault s c g = none) :
    codeFault (g.code.map BitVec.toNat) (roostSize g.roost) g.secret = none ∧ (maskThks g.mask).length ≠ 0 ∧
      g.minT ≤ (maskThks g.mask).length ∧ (maskThks g.mask).length ≤ g.maxT ∧
      (∀ t ∈ maskThks g.mask, partThks s (getCtx s c).part t = true) ∧ ∀ t ∈ maskThks g.mask, (boundElse s c t).isNone = true := by
  unfold progFault at h; dsimp only at h
  split at h
  · cases h
  rename_i hp
  split at h
  · cases h
  rename_i h0
  split at h
  · cases h
  rename_i hb
  split at h
  · cases h
  rename_i hl
  split at h
  · cases h
  rename_i hc
  rw [badThk_eq_none] at hp hb
  exact ⟨hc, h0, by omega, by omega, hp, hb⟩

/-! Placing a program (09 R181, R182). -/

/-- State `u` is `s` but for its thickets. -/
def ThksOnly (s u : State) : Prop := u = { s with fab := { s.fab with thks := u.fab.thks } }

theorem ThksOnly.refl (s : State) : ThksOnly s s := rfl
theorem ThksOnly.trans {s t u : State} (h : ThksOnly s t) (k : ThksOnly t u) : ThksOnly s u := by
  unfold ThksOnly at *; rw [k, h]
theorem ThksOnly.host {s u : State} (h : ThksOnly s u) : u.host = s.host := by rw [h]
theorem ThksOnly.getWren {s u : State} (h : ThksOnly s u) (w : Nat) : getWren u w = getWren s w := by rw [h]; rfl

theorem ThksOnly.foldl {f : State → Nat → State} (hf : ∀ s t, ThksOnly s (f s t)) (l : List Nat) (s : State) : ThksOnly s (l.foldl f s) :=
  List.foldlRecOn l f (motive := ThksOnly s) (.refl s) fun b hb t _ => hb.trans (hf b t)

/-- A fold whose steps each change their own thicket leaves every thicket outside the list. -/
theorem getThk_foldl_other {f : State → Nat → State} (hf : ∀ s t j, j ≠ t → getThk (f s t) j = getThk s j) {l : List Nat} {j : Nat} (hj : j ∉ l)
    (s : State) : getThk (l.foldl f s) j = getThk s j :=
  List.foldlRecOn l f (motive := fun b => getThk b j = getThk s j) rfl fun b hb t ht => (hf b t j fun e => hj (e ▸ ht)).trans hb

/-- One thicket becomes bound to a context, its semaphores zero if it was not. -/
def bindThk (c : Nat) (s : State) (t : Nat) : State :=
  if (getThk s t).bound = some c then s else modThk t (fun v => { v with bound := some c, sems := [] }) s

theorem bindThks_eq (c : Nat) (m : BitVec 64) (s : State) : bindThks c m s = (maskThks m).foldl (bindThk c) s := rfl

theorem bindThk_thksOnly (c : Nat) (s : State) (t : Nat) : ThksOnly s (bindThk c s t) := by
  unfold bindThk; split <;> rfl

theorem bindThk_other (c : Nat) (s : State) (t j : Nat) (h : j ≠ t) : getThk (bindThk c s t) j = getThk s j := by
  unfold bindThk; split
  · rfl
  · rw [modThk_eq, getThk_putThk, if_neg h]

theorem bindThk_bound (c : Nat) (s : State) (t : Nat) : (getThk (bindThk c s t) t).bound = some c := by
  unfold bindThk; split
  · assumption
  · rw [modThk_eq, getThk_putThk_same]

theorem bindThks_bound (c : Nat) (m : BitVec 64) (s : State) : ∀ t ∈ maskThks m, (getThk (bindThks c m s) t).bound = some c := by
  rw [bindThks_eq]
  refine foldl_establishes (I := fun _ => True) (P := fun t b => (getThk b t).bound = some c) (fun _ _ _ => trivial) (fun b t j _ hj => ?_)
    (fun b t _ => bindThk_bound c b t) _ _ trivial
  by_cases h : j = t
  · rw [h]; exact bindThk_bound c b t
  · rw [bindThk_other c b t j h]; exact hj

/-- A program of `n` instructions enters a thicket's instruction store. -/
def storeProg (h n : Nat) (s : State) (t : Nat) : State := modThk t (fun v => { v with istore := v.istore ++ [(h, n)] }) s

theorem getThk_storeProg (h n : Nat) (s : State) (t j : Nat) :
    getThk (storeProg h n s t) j = if j = t then { getThk s t with istore := (getThk s t).istore ++ [(h, n)] } else getThk s j :=
  getThk_putThk _ _ _ _

theorem storeProg_bound (h n : Nat) (s : State) (t j : Nat) : (getThk (storeProg h n s t) j).bound = (getThk s j).bound := by
  rw [getThk_storeProg]; split <;> simp_all

theorem foldl_storeProg_bound (h n : Nat) (l : List Nat) (s : State) (j : Nat) : (getThk (l.foldl (storeProg h n) s) j).bound = (getThk s j).bound :=
  List.foldlRecOn l _ (motive := fun b => (getThk b j).bound = (getThk s j).bound) rfl fun b hb t _ => (storeProg_bound h n b t j).trans hb

theorem foldl_storeProg_mem (h n : Nat) (l : List Nat) (s : State) : ∀ t ∈ l, (h, n) ∈ (getThk (l.foldl (storeProg h n) s) t).istore := by
  refine foldl_establishes (I := fun _ => True) (P := fun t b => (h, n) ∈ (getThk b t).istore) (fun _ _ _ => trivial) (fun b t j _ hj => ?_)
    (fun b t _ => by simp [getThk_storeProg]) _ _ trivial
  rw [getThk_storeProg]; split
  · rename_i e; subst e; exact List.mem_append_left _ hj
  · exact hj

/-- Stores into memory leave every other block. -/
theorem foldl_setMem_frame {α : Type} (f : State → α → List Host.Cell) (l : List α) (s : State) :
    (l.foldl (fun s e => setMem (f s e) s) s).fab = s.fab ∧ (l.foldl (fun s e => setMem (f s e) s) s).host = s.host :=
  List.foldlRecOn l _ (motive := fun b : State => b.fab = s.fab ∧ b.host = s.host) ⟨rfl, rfl⟩ fun _ hb _ _ => hb

/-- A new object is listed under its handle, with a host reference and no other (06 R106). -/
theorem newObj_mem (c : Nat) (k : ObjKind) (sha : List Byte) (s : State) : ∃ o, ((newObj c k sha s).1, o) ∈ (newObj c k sha s).2.host.objs ∧
    o.kind = k ∧ o.ctx = c ∧ o.host = true ∧ o.refs = 0 ∧ o.sha = sha :=
  ⟨_, (tabIns_mem _ _ _ _).2 (.inl rfl), rfl, rfl, rfl, rfl, rfl⟩

/-- What a placed program is: an object of its context with the image's digest, bound thickets with its code, nothing else of the
thickets and Wrens. -/
theorem placeProg_places (c : Nat) (g : Prog) (img thk : List Byte) (s : State) : ∃ o st u hd, placeProg c g img thk s = (hd, u) ∧ (hd, o) ∈ u.host.objs ∧
    o.kind = .prog { g with static_ := st } ∧ o.ctx = c ∧ o.host = true ∧ o.refs = 0 ∧ o.sha = sha384 img ∧
    (∀ t ∈ maskThks g.mask, (hd, g.code.length) ∈ (getThk u t).istore ∧ (getThk u t).bound = some c) ∧
    (∀ t, t ∉ maskThks g.mask → getThk u t = getThk s t) ∧ ∀ w, getWren u w = getWren s w := by
  let st := if g.staticLen = 0 then [] else (maskThks g.mask).filterMap fun t => (thkPlace s t g.staticLen).map fun b => (t, b)
  let r := newObj c (.prog { g with static_ := st }) (sha384 img) (bindThks c g.mask s)
  let v := st.foldl (fun s e => setMem (memWrite (memErase s.mem e.2 g.staticLen) e.2 thk) s) r.2
  obtain ⟨hvf, hvh⟩ := foldl_setMem_frame (fun s e => memWrite (memErase s.mem e.2 g.staticLen) e.2 thk) st r.2
  have hv (t) : getThk v t = getThk (bindThks c g.mask s) t := congrArg (fun f : Fab => tabGet Thk.init f.thks t) hvf
  have hs := ThksOnly.foldl (f := storeProg r.1 g.code.length) (fun _ _ => rfl) (maskThks g.mask) v
  have hb := ThksOnly.foldl (bindThk_thksOnly c) (maskThks g.mask) s
  obtain ⟨o, ho, hk, hc, hh, hr, hsha⟩ := newObj_mem c (.prog { g with static_ := st }) (sha384 img) (bindThks c g.mask s)
  refine ⟨o, st, (maskThks g.mask).foldl (storeProg r.1 g.code.length) v, r.1, rfl, ?_, hk, hc, hh, hr, hsha, fun t ht => ⟨?_, ?_⟩, fun t ht => ?_, fun w => ?_⟩
  · rw [hs.host, hvh]; exact ho
  · exact foldl_storeProg_mem _ _ _ _ t ht
  · rw [foldl_storeProg_bound, hv]; exact bindThks_bound c g.mask s t ht
  · rw [getThk_foldl_other (fun s t j hj => (getThk_storeProg _ _ s t j).trans (if_neg hj)) ht, hv]
    exact getThk_foldl_other (bindThk_other c) ht s
  · rw [hs.getWren]; exact (congrArg (fun f : Fab => tabGet Wren.init f.wrens w) hvf).trans (hb.getWren w)

/-! PROG_LOAD (09 R181). -/

section
variable {s : State} {q : QRef} {p : Packet} {h img : List Byte} (hh : dvaRead s p.ctx (p.w 0) 64 .fetch false = .ok h) (hj : jkpFault h = none)
include hh hj

theorem progLoad_badLength (hn : p.w 1 ≠ 0x40 + 16 * field h 8 4 + field h 0x14 4) :
    progLoad q p s = refuse s 0x0103 (0x40 + 16 * field h 8 4 + field h 0x14 4) := by
  simp only [progLoad, hh, hj]; exact if_pos hn

variable (hn : p.w 1 = 0x40 + 16 * field h 8 4 + field h 0x14 4)
  (hi : dvaRead s p.ctx (p.w 0) (0x40 + 16 * field h 8 4 + field h 0x14 4) .fetch false = .ok img)
include hn hi

theorem progLoad_refused {e : Nat × Nat} (he : progFault s p.ctx (progFrom img (BitVec.ofNat 64 (p.w 2))) = some e) :
    progLoad q p s = refuse s e.1 e.2 := by
  simp only [progLoad, hh, hj, hi, he]; exact if_neg (Decidable.not_not.2 hn)

theorem progLoad_placed (he : progFault s p.ctx (progFrom img (BitVec.ofNat 64 (p.w 2))) = none) : ∃ thk, ∀ hd u,
    placeProg p.ctx (progFrom img (BitVec.ofNat 64 (p.w 2))) img thk s = (hd, u) → progLoad q p s = (.done (Done.res hd 0), u) := by
  refine ⟨img.drop (0x40 + 16 * field h 8 4), fun hd u hu => ?_⟩
  simp only [progLoad, hh, hj, hi, he, hu]; exact if_neg (Decidable.not_not.2 hn)

end

/-! Launches (09 R185). -/

theorem useObj_error {s : State} {c h k : Nat} {e : Nat × Nat} (he : useObj s c h k = .error e) : e.1 = 0x0403 ∨ e.1 = 0x0202 := by
  unfold useObj at he
  repeat' split at he
  all_goals cases he
  all_goals simp

theorem launchFault_status {s : State} {c : Nat} {l : Launch} {e : Nat × Nat} (h : launchFault s c l = some e) :
    e.1 = 0x0403 ∨ e.1 = 0x0202 ∨ e.1 = 0x0105 ∨ e.1 = 0x0703 := by
  unfold launchFault at h
  split at h
  · rename_i he; cases h; have := useObj_error he; omega
  · dsimp only at h
    repeat' split at h
    all_goals cases h
    all_goals simp

/-- A board model of the context on one of the thickets, and a cut board (01 R16; log 52). -/
theorem boardDown_of_cut {s : State} {c : Nat} {thks : List Nat} (hm : ∃ m ∈ modelsOf s c, m.board = true ∧ ∃ i ∈ thks, m.mask.getLsbD i = true)
    (hc : boardCut s = true) : boardDown s c thks true = true := by
  obtain ⟨m, hm, hb, i, hi, hbit⟩ := hm
  have hs : (servedBy s c thks).isSome = true := List.find?_isSome.2 ⟨m, hm, by simpa [hb] using ⟨i, hi, hbit⟩⟩
  obtain ⟨m', hm'⟩ := Option.isSome_iff_exists.1 hs
  simp [boardDown, hm', hc]

theorem boardCut_of {s : State} (h : s.qtd.st = 3 ∨ ∃ n, n < 3 ∧ usable (getSkn s n) = false) : boardCut s = true := by
  rcases h with h | ⟨n, hn, hu⟩
  · simp [boardCut, h]
  · have : ((List.range 3).any fun n => !usable (getSkn s n)) = true := List.any_eq_true.2 ⟨n, List.mem_range.2 hn, by simp [hu]⟩
    simp [boardCut, this]

/-- A launch of a board program that only the board's state refuses. -/
theorem launchFault_down {s : State} {c : Nat} {l : Launch} {o : Obj} {g : Prog} {set : BitVec 64} (ho : useObj s c l.prog 2 = .ok o)
    (hk : o.kind = .prog g) (hc : o.ctx = c) (hset : set = if l.thks = 0 then g.mask else l.thks) (hsub : set &&& ~~~g.mask = 0)
    (hmin : g.minT ≤ (maskThks set).length) (hmax : (maskThks set).length ≤ g.maxT) (hb : l.board = g.board)
    (hd : boardDown s c (maskThks set) l.board = true) : launchFault s c l = some (0x0703, abortDetail s) := by
  unfold launchFault; rw [ho]; dsimp only; rw [hk]; dsimp only
  rw [← hset, if_neg (Decidable.not_not.2 hc), if_neg (Decidable.not_not.2 hsub), if_neg (by omega), if_neg (Decidable.not_not.2 hb), if_pos hd]

/-- A queued run has the launch's program, arguments and thickets, and nothing else changes. -/
theorem queueRun_queues (c : Nat) (l : Launch) (src : RunSrc) (tag : Nat) (irq : Bool) (s : State) : ∃ r : Run,
    (queueRun c l src tag irq s).fab.runs = s.fab.runs ++ [r] ∧ r.id = s.fab.nextRun ∧ r.st = 0 ∧ r.ctx = c ∧ r.prog = l.prog ∧ r.argAddr = l.arg ∧
      r.argLen = l.argLen ∧ r.src = src ∧ (l.thks ≠ 0 → r.thks = maskThks l.thks) ∧
      queueRun c l src tag irq s = { s with fab := { s.fab with runs := (queueRun c l src tag irq s).fab.runs, nextRun := s.fab.nextRun + 1 } } :=
  ⟨_, rfl, rfl, rfl, rfl, rfl, rfl, rfl, rfl, fun h => congrArg maskThks (if_neg h), rfl⟩

/-- The launch that PROG_RUN's parameters spell (log 29). -/
def progLaunch (p : Packet) : Launch :=
  { prog := p.w 0, arg := p.w 1, argLen := if p.w 1 = 0 then 0 else 4096, thks := 0, board := false, boardId := 0 }

theorem progRun_queues {s : State} {p : Packet} (q : QRef) (h : launchFault s p.ctx (progLaunch p) = none) :
    progRun q p s = (.later, queueRun p.ctx (progLaunch p) (.prog q) p.tag (bitOf p.flags 3) s) := by
  unfold progLaunch at h; simp only [progRun, h]; rfl

theorem progRun_refused {s : State} {p : Packet} (q : QRef) {e : Nat × Nat} (h : launchFault s p.ctx (progLaunch p) = some e) :
    ∃ d, progRun q p s = refuse s e.1 d := by
  unfold progLaunch at h; simp only [progRun, h]; exact ⟨_, rfl⟩

/-- A queue that holds a descriptor fetches none. -/
theorem fetchDesc_of_runnable {s : State} {q typ typ' : Nat} {b : List Byte} (h : runnable s q typ = some b) (bad : List Byte → Option (Nat × Nat))
    (ops : Nat → Bool) : fetchDesc typ' bad ops q s = s := by
  unfold runnable at h; dsimp only at h
  split at h
  · rename_i hr
    simp [fetchDesc, canFetch, hr.2.1]
  · cases h

/-- The launch step of a queue that holds a launch and has no run (09 R185): the run is queued, or the descriptor completes. -/
theorem exec_launch_queues {s : State} {q : Nat} {b : List Byte} (h : runnable s q 2 = some b) (ho : descOp b = 1) (hn : noRun s q = true)
    (hf : launchFault s (getQ s q).ctx (launchOf b) = none) :
    exec (.launch q) s = .next (queueRun (getQ s q).ctx (launchOf b) (.launch q) (field b 8 4) (bitOf (field b 2 2) 3) s) :=
  congrArg Host.Outcome.next (by simp [launchStep, fetchDesc_of_runnable h, h, ho, hn, hf])

theorem exec_launch_refused {s : State} {q : Nat} {b : List Byte} (h : runnable s q 2 = some b) (ho : descOp b = 1) (hn : noRun s q = true)
    {e : Nat × Nat} (hf : launchFault s (getQ s q).ctx (launchOf b) = some e) : exec (.launch q) s = .next (finishDesc q e.1 e.2 0 0 s) :=
  congrArg Host.Outcome.next (by simp [launchStep, fetchDesc_of_runnable h, h, ho, hn, hf])

theorem exec_launchMarker {s : State} {q : Nat} {b : List Byte} (h : runnable s q 2 = some b) (ho : descOp b = 3) :
    exec (.launchMarker q) s = .next (finishDesc q 0 0 0 0 s) := by
  refine congrArg Host.Outcome.next ?_
  simp only [fetchDesc_of_runnable h, h, ho, if_true]

/-! The start of a run (09 R174, R185, R186). -/

/-- The scalar registers of a Wren at the start of a run (09 R174). -/
def startSr (r : Run) (slot w : Nat) : Tab (BitVec 64) :=
  tabPut 0 (tabPut 0 (tabPut 0 (tabPut 0 [] 1 (BitVec.ofNat 64 (r.widx w))) 2 (BitVec.ofNat 64 (r.thks.idxOf (w / 24)))) 3 (BitVec.ofNat 64 (w % 24)))
    4 (BitVec.ofNat 64 slot)

theorem startSr_get (r : Run) (slot w n : Nat) : tabGet 0 (startSr r slot w) n =
    if n = 4 then BitVec.ofNat 64 slot else if n = 3 then BitVec.ofNat 64 (w % 24) else if n = 2 then BitVec.ofNat 64 (r.thks.idxOf (w / 24))
      else if n = 1 then BitVec.ofNat 64 (r.widx w) else 0 := by
  simp only [startSr, tabGet_put]; rfl

/-- State `u` is `s` but for its Wrens. -/
def WrensOnly (s u : State) : Prop := u = { s with fab := { s.fab with wrens := u.fab.wrens } }

theorem WrensOnly.refl (s : State) : WrensOnly s s := rfl
theorem WrensOnly.trans {s t u : State} (h : WrensOnly s t) (k : WrensOnly t u) : WrensOnly s u := by
  unfold WrensOnly at *; rw [k, h]
theorem WrensOnly.pwr {s u : State} (h : WrensOnly s u) : u.pwr = s.pwr := by rw [h]
theorem WrensOnly.mem {s u : State} (h : WrensOnly s u) : u.mem = s.mem := by rw [h]
theorem WrensOnly.runs {s u : State} (h : WrensOnly s u) : u.fab.runs = s.fab.runs := by rw [h]
theorem WrensOnly.modWren (w : Nat) (f : Wren → Wren) (s : State) : WrensOnly s (modWren w f s) := rfl

theorem setSr_frame (w n v : Nat) (s : State) : WrensOnly s (setSr w n v s) := by
  unfold setSr; split
  · rfl
  · exact .modWren _ _ s

theorem getWren_setSr {w n : Nat} (hn : n ≠ 0) (v : Nat) (s : State) (j : Nat) : getWren (setSr w n v s) j =
    if j = w then { getWren s w with sr := tabPut 0 (getWren s w).sr n (BitVec.ofNat 64 v) } else getWren s j := by
  unfold setSr; rw [if_neg hn]; exact getWren_putWren _ _ _ _

/-- A Wren stands at the start of a run. -/
structure AtStart (r : Run) (slot w : Nat) (v : Wren) : Prop where
  st : v.st = 1
  run : v.run = some r.id
  ix : v.ix = 0
  sr : v.sr = startSr r slot w

theorem startWren_frame (r : Run) (slot w : Nat) (s : State) : WrensOnly s (startWren r slot w s) := by
  unfold startWren
  exact WrensOnly.trans (.modWren _ _ s) ((setSr_frame _ _ _ _).trans ((setSr_frame _ _ _ _).trans ((setSr_frame _ _ _ _).trans (setSr_frame _ _ _ _))))

theorem startWren_other (r : Run) (slot : Nat) {w j : Nat} (s : State) (h : j ≠ w) : getWren (startWren r slot w s) j = getWren s j := by
  simp [startWren, getWren_setSr, getWren_putWren, h]

theorem startWren_atStart (r : Run) (slot w : Nat) (s : State) : AtStart r slot w (getWren (startWren r slot w s) w) := by
  constructor <;> simp [startWren, getWren_setSr, startSr]

/-- The Wrens of a run started, one after another. -/
def startWrens (r : Run) (l : List Nat) (s : State) : State := l.foldl (fun s w => startWren r (boardSlot s) w s) s

theorem startWrens_frame (r : Run) (l : List Nat) (s : State) : WrensOnly s (startWrens r l s) :=
  List.foldlRecOn l _ (motive := WrensOnly s) (.refl s) fun _ hb _ _ => hb.trans (startWren_frame _ _ _ _)

theorem startWrens_other (r : Run) {l : List Nat} {w : Nat} (h : w ∉ l) (s : State) : getWren (startWrens r l s) w = getWren s w :=
  List.foldlRecOn l _ (motive := fun b => getWren b w = getWren s w) rfl fun b hb _ ha =>
    (startWren_other _ _ b (ne_of_mem_of_not_mem ha h).symm).trans hb

theorem startWrens_atStart (r : Run) (l : List Nat) (s : State) : ∀ w ∈ l, AtStart r (boardSlot s) w (getWren (startWrens r l s) w) := by
  have hslot (b w) (hb : boardSlot b = boardSlot s) : boardSlot (startWren r (boardSlot b) w b) = boardSlot s :=
    (congrArg (fun p : Pwr => p.straps.pos.toNat % 8) (startWren_frame r (boardSlot b) w b).pwr).trans hb
  have hset (b w) (hb : boardSlot b = boardSlot s) : AtStart r (boardSlot s) w (getWren (startWren r (boardSlot b) w b) w) :=
    hb ▸ startWren_atStart r _ w b
  refine foldl_establishes (P := fun w b => AtStart r (boardSlot s) w (getWren b w)) hslot ?_ hset l s rfl
  intro b a w hb hw
  by_cases h : w = a
  · rw [h]; exact hset b a hb
  · rw [startWren_other r _ b h]; exact hw

/-- Registers SR1 to SR4 of a Wren at the start give its place; the others read zero (09 R174). -/
theorem AtStart.reads {r : Run} {slot w : Nat} {s : State} (h : AtStart r slot w (getWren s w)) (h1 : r.widx w < 2 ^ 64)
    (h2 : r.thks.idxOf (w / 24) < 2 ^ 64) (h4 : slot < 2 ^ 64) (n : Nat) : getSr s w n =
    if n = 4 then slot else if n = 3 then w % 24 else if n = 2 then r.thks.idxOf (w / 24) else if n = 1 then r.widx w else 0 := by
  have h3 : w % 24 < 2 ^ 64 := by omega
  have hv (v) (hv : v < 2 ^ 64) : (BitVec.ofNat 64 v).toNat = v := by rw [BitVec.toNat_ofNat, Nat.mod_eq_of_lt hv]
  unfold getSr; rw [h.sr, startSr_get]
  split
  · subst n; rfl
  · simp only [apply_ite BitVec.toNat, hv _ h1, hv _ h2, hv _ h3, hv _ h4]; rfl

/-- References taken leave everything but objects. -/
theorem foldl_takeRef_frame (l : List Nat) (s : State) : ∃ h, l.foldl (fun s h => takeRef h s) s = { s with host := h } :=
  List.foldlRecOn l _ (motive := fun b => ∃ h, b = { s with host := h }) ⟨_, rfl⟩ fun _ ⟨_, hb⟩ _ _ => ⟨_, by rw [hb]; rfl⟩

theorem foldl_count_frame (c blk code n : Nat) (l : List Nat) (s : State) : CountOnly s (l.foldl (fun s t => count c blk t code n s) s) :=
  List.foldlRecOn l _ (motive := CountOnly s) (.refl s) fun b hb t _ => hb.trans (count_frame c blk t code n b)

/-- The run as it starts. -/
def Run.begun (r : Run) (args : List Byte) (pins : List Nat) (order : Nat) : Run := { r with st := 1, args := args, pins := pins, order := order }

/-- What the start of a listed run leaves: it is active with its arguments and pins, its Wrens are at the start, memory and every
other Wren stay. -/
theorem startWith_starts {r : Run} {s : State} (hr : r ∈ s.fab.runs) (args : List Byte) (pins : List Nat) :
    r.begun args pins s.fab.nextRun ∈ (startWith r args pins s).fab.runs ∧
      (∀ w ∈ r.wrens, AtStart (r.begun args pins s.fab.nextRun) (boardSlot s) w (getWren (startWith r args pins s) w)) ∧
      (∀ w, w ∉ r.wrens → getWren (startWith r args pins s) w = getWren s w) ∧ (startWith r args pins s).mem = s.mem := by
  let r' := r.begun args pins s.fab.nextRun
  let s1 := onFab (fun f => { f with nextRun := f.nextRun + 1 }) (modRun r.id (fun _ => r') s)
  obtain ⟨h, h2⟩ := foldl_takeRef_frame (r.prog :: pins) s1
  have he : startWith r args pins s = r.thks.foldl (fun s t => count r.ctx 2 t 0x08 1 s) (startWrens r' r.wrens ((r.prog :: pins).foldl (fun s h => takeRef h s) s1)) := rfl
  have hc := foldl_count_frame r.ctx 2 0x08 1 r.thks (startWrens r' r.wrens { s1 with host := h })
  have hw := startWrens_frame r' r.wrens { s1 with host := h }
  rw [h2] at he; rw [← he] at hc
  refine ⟨?_, fun w hm => ?_, fun w hm => ?_, ?_⟩
  · rw [hc.fab, hw.runs]; exact List.mem_map.2 ⟨r, hr, if_pos rfl⟩
  · rw [hc.getWren]; exact startWrens_atStart r' r.wrens { s1 with host := h } w hm
  · rw [hc.getWren, startWrens_other r' hm]; rfl
  · rw [hc.mem, hw.mem]; rfl

theorem mem_wrens {r : Run} {j k : Nat} (hj : j ∈ r.thks) (hk : k < 24) : 24 * j + k ∈ r.wrens :=
  List.mem_flatMap.2 ⟨j, hj, List.mem_map.2 ⟨k, List.mem_range.2 hk, rfl⟩⟩

theorem boardSlot_lt (s : State) : boardSlot s < 2 ^ 64 := by unfold boardSlot; omega

/-- The registers of Wren `k` of the run's thicket `i` at the start (09 R174). -/
theorem AtStart.place {r : Run} {s : State} {i j k slot : Nat} (h : AtStart r slot (24 * j + k) (getWren s (24 * j + k))) (hk : k < 24)
    (hd : r.thks.Nodup) (hl : r.thks.length ≤ 64) (hi : r.thks[i]? = some j) (h4 : slot < 2 ^ 64) :
    getSr s (24 * j + k) 1 = 24 * i + k ∧ getSr s (24 * j + k) 2 = i ∧ getSr s (24 * j + k) 3 = k ∧ getSr s (24 * j + k) 4 = slot ∧
      ∀ n, n ≠ 1 → n ≠ 2 → n ≠ 3 → n ≠ 4 → getSr s (24 * j + k) n = 0 := by
  obtain ⟨hlt, rfl⟩ := List.getElem?_eq_some_iff.1 hi
  have hdiv : (24 * r.thks[i] + k) / 24 = r.thks[i] := by omega
  have hmod : (24 * r.thks[i] + k) % 24 = k := by omega
  have hix : r.thks.idxOf ((24 * r.thks[i] + k) / 24) = i := by rw [hdiv]; exact hd.idxOf_getElem i hlt
  have hwidx : r.widx (24 * r.thks[i] + k) = 24 * i + k := by rw [Run.widx, hix, hmod]
  have hg := h.reads (by rw [hwidx]; omega) (by rw [hix]; omega) h4
  simp only [hwidx, hix, hmod] at hg
  simp +contextual [hg]

section
variable {s : State} {id : Nat} {r : Run} (hr : getRun? s id = some r)
include hr

theorem runStart_stays (hm : mayStart s r = false) : exec (.runStart id) s = .next s :=
  congrArg Host.Outcome.next (by simp [hr, hm])

/-- 03 R39: in Idle the chip first goes to Run. -/
theorem runStart_asks (hm : mayStart s r = true) (hp : s.pwr.st = .idle) (ht : s.pwr.target = none) :
    exec (.runStart id) s = .next { s with pwr := { s.pwr with target := some .run } } :=
  congrArg Host.Outcome.next (a₂ := onPwr (fun p => { p with target := some .run }) s) (by simp [hr, hm, hp, ht])

theorem runStart_starts (hm : mayStart s r = true) (hp : s.pwr.st = .run) {o : Obj} (ho : useObj s r.ctx r.prog 2 = .ok o) {args : List Byte}
    (ha : dvaRead s r.ctx r.argAddr r.argLen .read false = .ok args) {pins : List Nat} (hpins : pinsOf s r.ctx args = .ok pins) :
    exec (.runStart id) s = .next (startWith r args pins s) :=
  congrArg Host.Outcome.next (by simp [hr, hm, hp, startRun, ho, ha, hpins])

/-! The stall watchdog (09 R189, R190). -/

theorem runStalled_stays (h : r.st ≠ 1 ∨ ∃ w ∈ r.wrens, (getWren s w).ended = false ∧ longBlocked s w = false) : exec (.runStalled id) s = .next s := by
  refine congrArg Host.Outcome.next ?_
  simp only [hr]
  refine if_neg fun ⟨h1, hall⟩ => ?_
  rcases h with h | ⟨w, hw, he, hb⟩
  · exact h h1
  · have := List.all_eq_true.1 hall w (List.mem_filter.2 ⟨hw, by simp [he]⟩)
    simp [hb] at this

theorem runStalled_marks (h1 : r.st = 1) (h : ∀ w ∈ r.wrens, (getWren s w).ended = false → longBlocked s w = true) :
    exec (.runStalled id) s = .next (modRun id (fun r => { r with stalled := true }) s) := by
  refine congrArg Host.Outcome.next ?_
  simp only [hr]
  refine if_pos ⟨h1, List.all_eq_true.2 fun w hw => ?_⟩
  obtain ⟨hw, he⟩ := List.mem_filter.1 hw
  exact h w hw (by simpa using he)

end

theorem modRun_mem {s : State} {r : Run} (hr : r ∈ s.fab.runs) (f : Run → Run) : f r ∈ (modRun r.id f s).fab.runs :=
  List.mem_map.2 ⟨r, hr, if_pos rfl⟩

/-- Where no Wren waits for a reservation, a lone run brings no other run into its set (09 R190). -/
theorem stallNext_lone {s : State} {r : Run} (hs : s.fab.runs = [r]) (hw : ∀ w, (getWren s w).block ≠ 3) : ∀ n ∈ stallNext s r, n = r.id := by
  have ha (w) : awaits s w = none := if_neg (hw w)
  intro n hn
  unfold stallNext at hn; rw [hs] at hn
  rcases List.mem_append.1 hn with hn | hn
  · simp [ha] at hn
  · split at hn
    · obtain ⟨x, hx, rfl⟩ := List.mem_map.1 hn
      rw [List.mem_singleton.1 (List.mem_filter.1 hx).1]
    · cases hn

theorem stallVictim_lone {s : State} {r : Run} (hs : s.fab.runs = [r]) (hst : r.stalled = true) (hw : ∀ w, (getWren s w).block ≠ 3) :
    stallVictim s r = some r := by
  have hset : stallSet s 2 [r.id] = [r.id] := by
    unfold stallSet
    refine if_pos ?_
    simp [hs]
    exact fun n hn => stallNext_lone hs hw n hn
  simp [stallVictim, hs, hset, hst, youngest]

/-- 09 R190: the examination faults the one run of a deadlock. -/
theorem stallExamination_lone {s : State} {r : Run} (hp : s.pwr.st = .run) (hs : s.fab.runs = [r]) (hst : r.stalled = true)
    (ht : s.lark.time % 1000000 < 7) (hw : ∀ w, (getWren s w).block ≠ 3) : exec .stallExamination s = .next (faultStalled s r) := by
  refine congrArg Host.Outcome.next ?_
  rw [if_pos ⟨by simp [powered, hp], ht⟩, hs]
  simp only [List.filter_cons, hst, if_true, List.filter_nil, List.filterMap_cons, stallVictim_lone hs hst hw, List.filterMap_nil]
  rfl

/-- The fault of a stalled run: event 0x0708, the completion of its launch, and the run gone. -/
theorem faultStalled_ends (s : State) (r : Run) : ∃ u w, faultStalled s r =
    raisePlain 0x0708 (some r.ctx) 0xFFFF (completeRun r 0x0708 (s.lark.time / 2 ^ 32) 0 (r.widx w + (getWren s w).ix * 2 ^ 16) u) ∧
      u.fab.runs = s.fab.runs.filter fun x => x.id != r.id :=
  ⟨_, _, rfl, (stopRun_left r _).runs⟩

theorem stallExamination_late {s : State} (h : 7 ≤ s.lark.time % 1000000) : exec .stallExamination s = .next s :=
  congrArg Host.Outcome.next (if_neg fun hc => by omega)

/-- Settles O40: PROG_LOAD and PROG_RUN through their turn, launches through the held descriptor, and the start and the examination of a
run through what they do to its Wrens. -/
theorem programsLoadLaunchAndStart : Obligations.ProgramsLoadLaunchAndStart := by
  unfold Obligations.ProgramsLoadLaunchAndStart
  refine ⟨?load, ?checks, ?progRun, ?launch, ?start, ?stalled, ?examination⟩
  case load =>
    rintro s q p h img g need ht hh hj rfl
    have he : exec (.progLoad q) s = .next (runCmd 0x0500 progLoad q s) := rfl
    refine ⟨fun hn => ?_, fun hn hi hg => ⟨fun hf => ?_, fun e hf => ?_⟩⟩
    · rw [he, runCmd_done ht (progLoad_badLength hh hj hn) (by simp [Done.fail]) (by simp [Done.fail])]
    · subst hg
      obtain ⟨thk, hload⟩ := progLoad_placed (q := q) hh hj hn hi hf
      obtain ⟨o, st, u, hd, hu, ho, hk, hc, hh', hr, hs, hmask, hother, hwren⟩ := placeProg_places p.ctx (progFrom img (BitVec.ofNat 64 (p.w 2))) img thk s
      refine ⟨o, st, u, hd, ?_, ho, hk, hc, hh', hr, hs, by simp [progFrom], hmask, hother, hwren⟩
      rw [he, runCmd_done ht (hload hd u hu) (by simp [Done.res, Done.ok, Done.fail]) (by simp [Done.res, Done.ok, Done.fail])]
    · subst hg
      have := progFault_status hf
      rw [he, runCmd_done ht (progLoad_refused hh hj hn hi hf) (by simp only [Done.fail]; omega) (by simp only [Done.fail]; omega)]
  case checks =>
    intro s c g hf
    obtain ⟨hcode, h0, hmin, hmax, hpart, hbound⟩ := progFault_none hf
    refine ⟨fun i hi => codeFault_none hcode _ (List.mem_map_of_mem hi), by omega, hmin, hmax, fun t ht => ⟨?_, by simpa using hbound t ht⟩⟩
    have := hpart t ht
    simp only [partThks, Bool.and_eq_true, decide_eq_true_eq] at this
    exact this.1
  case progRun =>
    rintro s q p l ht rfl
    have he : exec (.progRun q) s = .next (runCmd 0x0502 progRun q s) := rfl
    refine ⟨fun hf => ?_, fun e hf => ?_⟩
    · obtain ⟨r, hruns, hid, hst, hctx, hprog, harg, -, hsrc, -, hframe⟩ := queueRun_queues p.ctx (progLaunch p) (.prog q) p.tag (bitOf p.flags 3) s
      exact ⟨_, r, by rw [he, runCmd_later ht (progRun_queues q hf)], hruns, hid, hst, hctx, hprog, harg, hsrc, hframe⟩
    · obtain ⟨d, hd⟩ := progRun_refused q hf
      have := launchFault_status hf
      exact ⟨d, by rw [he, runCmd_done ht hd (by simp only [Done.fail]; omega) (by simp only [Done.fail]; omega)]⟩
  case launch =>
    intro s q b hb
    refine ⟨fun ho hn hf => ?_, fun e ho hn hf => ?_, fun o g set ho hn hobj hk hc hset hsub hmin hmax hbd hg hm hcut => ?_, exec_launchMarker hb⟩
    · obtain ⟨r, hruns, hid, hst, hctx, hprog, harg, hlen, hsrc, hthks, hframe⟩ := queueRun_queues (getQ s q).ctx (launchOf b) (.launch q) (field b 8 4)
        (bitOf (field b 2 2) 3) s
      refine ⟨_, r, exec_launch_queues hb ho hn hf, hruns, hid, hst, hctx, hprog, harg, hlen, hsrc, fun h0 => ?_, hframe⟩
      exact hthks ((not_congr (ofNat_field_eq_zero b 0x28)).2 h0)
    · exact exec_launch_refused hb ho hn hf
    · have hset' : set = if (launchOf b).thks = 0 then g.mask else (launchOf b).thks :=
        hset.trans (ite_congr (propext (ofNat_field_eq_zero b 0x28).symm) (fun _ => rfl) fun _ => rfl)
      have hd : boardDown s (getQ s q).ctx (maskThks set) (launchOf b).board = true := by
        rw [show (launchOf b).board = true from hbd]; exact boardDown_of_cut hm (boardCut_of hcut)
      rw [exec_launch_refused hb ho hn (launchFault_down hobj hk hc hset' hsub hmin hmax (hbd.trans hg.symm) hd)]
      rfl
  case start =>
    intro s id r hr
    obtain ⟨hmem, rfl⟩ := getRun?_some hr
    refine ⟨runStart_stays hr, runStart_asks hr, fun o args pins hm hp ho ha hpins hd hl => ?_⟩
    obtain ⟨hrun, hstart, hother, hmem'⟩ := startWith_starts hmem args pins
    refine ⟨_, runStart_starts hr hm hp ho ha hpins, ⟨_, hrun, rfl, rfl, rfl, rfl⟩, fun i j hi k hk => ?_, hother, hmem'⟩
    have hw := hstart _ (mem_wrens (List.mem_of_getElem? hi) hk)
    exact ⟨hw.st, hw.run, hw.ix, hw.place hk hd hl hi (boardSlot_lt s)⟩
  case stalled =>
    intro s id r hr
    obtain ⟨hmem, rfl⟩ := getRun?_some hr
    exact ⟨runStalled_stays hr, fun h1 h => ⟨_, runStalled_marks hr h1 h, ⟨_, modRun_mem hmem _, rfl⟩, rfl⟩⟩
  case examination =>
    intro s r hp hs
    refine ⟨stallExamination_late, fun hst ht hw => ?_⟩
    obtain ⟨u, w, he, hu⟩ := faultStalled_ends s r
    exact ⟨u, w, by rw [stallExamination_lone hp hs hst ht hw, he], by rw [hu, hs]; simp⟩

end Sys2Proof.Machine
end

section
/-! SUPPORT. Rules of the power block (03): what an event leaves of it, what a change of a ceiling carries with it, the cause latch,
and a stop. -/

namespace Sys2Proof.Machine

/-! Gates of the commands. -/

theorem powered_of {s : State} (h : s.pwr.st ≠ .off) : powered s = true := by simp [powered, h]
theorem regsOpen_of {s : State} (h : s.up) : regsOpen s = true := by
  obtain ⟨hst, hw⟩ := h
  simp [regsOpen, powered_of hst, hw]

/-- A command whose premise holds. -/
theorem next_if_pos {c : Prop} [Decidable c] (h : c) {t u : State} : (.next (if c then t else u) : Res) = .next t := congrArg _ (if_pos h)

/-- A command at its turn whose body completes it, where its status is not counted (07 Table 7.10). -/
theorem exec_finishes {s u : State} {q : QRef} {op : Nat} {p : Packet} {c : Instr} {body : Body} {d : Done} (ht : Turn s q op p)
    (he : exec c s = .next (runCmd op body q s)) (hb : body q p s = (.done d, u)) (h2 : d.status ≠ 0x0502) (h4 : d.status ≠ 0x0504) :
    exec c s = .next (finish q d u) := by
  rw [he, runCmd_done ht hb h2 h4]

/-! Events (18 R346, R348). -/

theorem emit_if_pwr (c : Bool) (o : Out) (s : State) : (if c then emit o s else s).pwr = s.pwr := by cases c <;> rfl
theorem emit_if_evlog (c : Bool) (o : Out) (s : State) : (if c then emit o s else s).evlog = s.evlog := by cases c <;> rfl

theorem evNotify_pwr (code g seq : Nat) (s : State) : ∃ b,
    (evNotify code g seq s).pwr = { s.pwr with pins := { s.pwr.pins with mgmtAlertN := b } } := ⟨_, emit_if_pwr _ _ _⟩
theorem evNotify_evlog (code g seq : Nat) (s : State) : (evNotify code g seq s).evlog = s.evlog := emit_if_evlog _ _ _

/-- Of the power block an event changes MGMT_ALERT_N at most (18 R348). -/
theorem raiseEv_pwr (code : Nat) (ctx : Option Nat) (unit detail : Nat) (s : State) : ∃ b,
    (raiseEv code ctx unit detail s).pwr = { s.pwr with pins := { s.pwr.pins with mgmtAlertN := b } } := by
  unfold raiseEv; dsimp only; split
  · exact ⟨_, rfl⟩
  · exact evNotify_pwr _ _ _ (setEvlog _ s)

/-- What an event records depends on the log, the tenancy and fabric time only (18 Table 18.3). -/
theorem raiseEv_evlog_congr (code unit detail : Nat) {s u : State} (he : u.evlog = s.evlog) (hh : u.host = s.host) (hl : u.lark = s.lark) :
    (raiseEv code none unit detail u).evlog = (raiseEv code none unit detail s).evlog := by
  have h (w : State) : (raiseEv code none unit detail w).evlog =
      tabPut EvGroup.init w.evlog 0 (evAdd (evQuota w) (tabGet EvGroup.init w.evlog 0) w.lark.time code none 0 unit detail) := by
    unfold raiseEv evGroup; simp only [ite_self]; split
    · rfl
    · rw [evNotify_evlog]; rfl
  rw [h, h, he, hl, evQuota, evQuota, hh]

/-! Ceilings (03 R40, R53). -/

/-- Power block `q` is `p` but for what follows a change of it: a move of VCORE, the drive of PROCHOT_N with the sample after its release,
and the alert of an event. -/
def Pwr.Follows (p q : Pwr) : Prop :=
  q = { p with settling := q.settling, phSample := q.phSample
               pins := { p.pins with prochotDrive := q.pins.prochotDrive, mgmtAlertN := q.pins.mgmtAlertN } }

theorem Pwr.Follows.refl (p : Pwr) : p.Follows p := rfl
theorem Pwr.Follows.trans {p q r : Pwr} (h : p.Follows q) (k : q.Follows r) : p.Follows r := by
  unfold Pwr.Follows at *; rw [k, h]
theorem Pwr.Follows.get {p q : Pwr} (h : p.Follows q) (c : Ceiling) : c.get q = c.get p := by
  rw [h]; cases c <;> rfl

theorem follows_raiseEv (code : Nat) (ctx : Option Nat) (unit detail : Nat) (s : State) : s.pwr.Follows (raiseEv code ctx unit detail s).pwr := by
  obtain ⟨b, hb⟩ := raiseEv_pwr code ctx unit detail s
  rw [hb]; rfl

theorem Ceiling.set_get (c : Ceiling) (p : Pwr) : c.set (c.get p) p = p := by cases c <;> rfl
theorem Ceiling.get_set (c d : Ceiling) (v : Nat) (p : Pwr) : d.get (c.set v p) = if d = c then v else d.get p := by
  cases c <;> cases d <;> rfl

theorem setCeil_same {c : Ceiling} {v : Nat} {s : State} (h : c.get s.pwr = v) : setCeil c v s = s := if_pos h
theorem setCeil_raises {c : Ceiling} {v : Nat} {s : State} (h : c.get s.pwr ≠ v) : setCeil c v s =
    raiseEv c.event none 0xFFFF (v + c.get s.pwr * 8) (onPwr (fun p => syncProchot (repoint (fun p => c.set v p) p)) s) := if_neg h

theorem setCeil_follows (c : Ceiling) (v : Nat) (s : State) : (c.set v s.pwr).Follows (setCeil c v s).pwr := by
  by_cases h : c.get s.pwr = v
  · rw [setCeil_same h, ← h, c.set_get]; exact .refl _
  · rw [setCeil_raises h]
    exact Pwr.Follows.trans (q := syncProchot (repoint (fun p => c.set v p) s.pwr)) rfl (follows_raiseEv _ _ _ _ _)

theorem setCeil_frame (c : Ceiling) (v : Nat) (s : State) :
    setCeil c v s = { s with pwr := (setCeil c v s).pwr, evlog := (setCeil c v s).evlog, glb := (setCeil c v s).glb, out := (setCeil c v s).out } := by
  by_cases h : c.get s.pwr = v
  · rw [setCeil_same h]
  · rw [setCeil_raises h]
    have he := raiseEv_frame c.event none 0xFFFF (v + c.get s.pwr * 8) (onPwr (fun p => syncProchot (repoint (fun p => c.set v p) p)) s)
    generalize raiseEv c.event none 0xFFFF (v + c.get s.pwr * 8) _ = t at he ⊢
    rw [he]; rfl

theorem setCeil_evlog (c : Ceiling) (v : Nat) (s : State) :
    (setCeil c v s).evlog = (if c.get s.pwr = v then s else raiseEv c.event none 0xFFFF (v + c.get s.pwr * 8) s).evlog := by
  by_cases h : c.get s.pwr = v
  · rw [setCeil_same h, if_pos h]
  · rw [setCeil_raises h, if_neg h]; exact raiseEv_evlog_congr _ _ _ rfl rfl rfl

/-- State `u` is `s` but for meters and for what of the power block neither the ceilings nor the points depend on. -/
structure Metered (s u : State) : Prop where
  frame : u = { s with pwr := u.pwr, mtr := u.mtr }
  ceil : ∀ c : Ceiling, c.get u.pwr = c.get s.pwr
  ptReq : u.pwr.ptReq = s.pwr.ptReq
  st : u.pwr.st = s.pwr.st

/-- 03 R40: a ceiling that stays where it is. -/
theorem Metered.ceilingAt_stays {s u : State} (h : Metered s u) {c : Ceiling} {v : Nat} (hv : c.get s.pwr = v) : CeilingAt c v s u :=
  ⟨(h.ceil c).trans hv, fun d _ => h.ceil d, h.ptReq, h.st, by rw [if_pos hv, h.frame], by rw [h.frame], by rw [h.frame], by rw [h.frame]⟩

/-- 03 R40: a ceiling that changes after a reading. -/
theorem Metered.ceilingAt_setCeil {s u : State} (h : Metered s u) (c : Ceiling) (v : Nat) : CeilingAt c v s (setCeil c v u) := by
  have hf := setCeil_follows c v u
  have hx := setCeil_frame c v u
  refine ⟨by rw [hf.get, c.get_set, if_pos rfl], fun d hd => by rw [hf.get, c.get_set, if_neg hd, h.ceil], ?_, ?_, ?_, ?_, ?_, ?_⟩
  · rw [hf, ← h.ptReq]; cases c <;> rfl
  · rw [hf, ← h.st]; cases c <;> rfl
  · rw [setCeil_evlog, h.ceil]; split
    · rw [h.frame]
    · exact raiseEv_evlog_congr _ _ _ (by rw [h.frame]) (by rw [h.frame]) (by rw [h.frame])
  all_goals rw [hx, h.frame]

theorem Metered.refl (s : State) : Metered s s := ⟨rfl, fun _ => rfl, rfl, rfl⟩

/-! The cause latch and a stop (03 R44, R47). -/

theorem firstCause_least (c : StopCause) (ds : List StopCause) :
    firstCause c ds ∈ c :: ds ∧ ∀ d ∈ c :: ds, causeRank (firstCause c ds) ≤ causeRank d := by
  induction ds generalizing c with
  | nil => simp [firstCause]
  | cons d ds ih =>
    simp only [List.forall_mem_cons] at ih ⊢
    rw [firstCause]; split
    · obtain ⟨hmem, hle, hrest⟩ := ih d
      exact ⟨List.mem_cons_of_mem _ hmem, by omega, hle, hrest⟩
    · obtain ⟨hmem, hle, hrest⟩ := ih c
      exact ⟨List.cons_subset_cons c (List.subset_cons_self d ds) hmem, hle, by omega, hrest⟩

theorem latched_latchCause {s t : State} {c : StopCause} {also : List StopCause} (h : t.pwr.cause = (latchCause c also s.pwr).cause) :
    Latched s t c also := by
  unfold latchCause at h; unfold Latched; split at h
  · rwa [if_pos ‹_›]
  · rw [if_neg ‹_›]; exact ⟨_, h, firstCause_least c also⟩

theorem latchCause_cause_congr (c : StopCause) (also : List StopCause) {p q : Pwr} (hc : q.cause = p.cause) (hh : q.causeHeld = p.causeHeld) :
    (latchCause c also q).cause = (latchCause c also p).cause := by
  unfold latchCause; rw [hh]; split <;> simp [hc]

/-- The cause latch changes nothing else. -/
theorem latchCause_frame (c : StopCause) (also : List StopCause) (p : Pwr) :
    latchCause c also p = { p with cause := (latchCause c also p).cause, causeHeld := true } := by
  unfold latchCause; split
  · rename_i h; rw [← h]
  · rfl

/-- 03 R44, R47: a stop, after what a pin has left of the power block. -/
theorem stop_stops {s : State} (c : StopCause) (also : List StopCause) {p : Pwr} (hc : p.cause = s.pwr.cause) (hh : p.causeHeld = s.pwr.causeHeld) :
    Stopped s (stop c also { s with pwr := p }) ∧ Latched s (stop c also { s with pwr := p }) c also :=
  ⟨⟨rfl, rfl, rfl, rfl, rfl, rfl, rfl, rfl, rfl, rfl, rfl, rfl, rfl⟩, latched_latchCause (latchCause_cause_congr c also hc hh)⟩

end Sys2Proof.Machine
end

section
/-! Stops (03 R44, R47, R49, R52). Settles O11. -/

namespace Sys2Proof.Machine

/-- Settles O11: every stop is the model's `stop` after what its pin leaves, and the latch takes the least of the causes. -/
theorem stopsGoColdAndLatchTheFirstCause : Obligations.StopsGoColdAndLatchTheFirstCause := by
  unfold Obligations.StopsGoColdAndLatchTheFirstCause
  refine ⟨fun s also hon => ?stops, fun s hr => ?returned, fun s also hst => ?removal⟩
  case stops =>
    have hp := powered_of hon
    have hstop (c : StopCause) := stop_stops c also (s := s) (p := s.pwr) rfl rfl
    obtain ⟨hstopped, hlatched⟩ := stop_stops .coldPin also (s := s)
      (p := { s.pwr with coldHeld := true, pins := { s.pwr.pins with coldResetN := false } }) rfl rfl
    refine ⟨⟨_, next_if_pos hp, hstop .undervolt⟩, ⟨_, next_if_pos hp, hstop .overvolt⟩, ⟨_, next_if_pos hp, hstop .thermalAnalog⟩,
      ⟨_, ?_, hstopped, hlatched, ?_⟩⟩
    · exact next_if_pos hp
    · exact congrArg Pwr.coldHeld (latchCause_frame _ _ _)
  case returned =>
    exact ⟨_, next_if_pos hr, stop_stops .removal [] rfl rfl⟩
  case removal =>
    refine ⟨_, next_if_pos hst, latched_latchCause rfl, rfl, ?_, rfl, ?_⟩
    · show (latchCause .removal also s.pwr).st = _
      rw [latchCause_frame]
    · show ({ s with out := _, pwr := { latchCause .removal also s.pwr with removing := true, pins := _ } } : State) = _
      rw [latchCause_frame]; rfl

end Sys2Proof.Machine
end

section
/-! The causes of the ceilings (03 R40, R41, R53, R55). Settles O13. -/

namespace Sys2Proof.Machine

theorem metered_pins (f : Pins → Pins) (s : State) : Metered s (onPins f s) := ⟨rfl, fun c => by cases c <;> rfl, rfl, rfl⟩
theorem metered_readTj (tj : Int) (sensor : Nat) (s : State) : Metered s (readTj tj sensor s) := ⟨rfl, fun c => by cases c <;> rfl, rfl, rfl⟩

theorem metered_sample (on : Bool) (s : State) :
    Metered s (onPwr (fun p => { p with phSample := false, pins := { p.pins with prochotExt := on } }) s) := ⟨rfl, fun c => by cases c <;> rfl, rfl, rfl⟩

/-- The meters and readings of a power window, before it acts (03 R41, R42). -/
def windowRead (mean vin : Nat) (s : State) : State :=
  meterAt 0 (fun m => { m with energy := m.energy + mean }) (onPwr (fun p => { p with pin := mean, vin := vin }) s)

theorem metered_windowRead (mean vin : Nat) (s : State) : Metered s (windowRead mean vin s) := ⟨rfl, fun c => by cases c <;> rfl, rfl, rfl⟩

theorem Metered.setDuty {s u : State} (h : Metered s u) (b : Bool) : Metered s (onPwr (fun p => { p with duty := b }) u) := by
  refine ⟨?_, fun c => ?_, h.ptReq, h.st⟩
  · rw [h.frame]; rfl
  · rw [← h.ceil]; cases c <;> rfl

theorem powerWindow_over {mean vin : Nat} {s : State} (h : s.pwr.cap * 10 < mean) : powerWindow mean vin s =
    if s.pwr.ceilPower = 1 then onPwr (fun p => { p with duty := true }) (windowRead mean vin s)
    else setCeil .power (lowered .power s.pwr) (windowRead mean vin s) := if_pos h

theorem powerWindow_under {mean vin : Nat} {s : State} (h : mean < s.pwr.cap * 10) :
    powerWindow mean vin s = onPwr (fun p => { p with duty := false }) (windowRead mean vin s) :=
  (if_neg (Nat.lt_asymm h)).trans (if_pos h)

/-! A change of a ceiling leaves the carrier's pad and DUTY alone. -/

theorem setCeil_prochotExt (c : Ceiling) (v : Nat) (s : State) : (setCeil c v s).pwr.pins.prochotExt = s.pwr.pins.prochotExt := by
  rw [setCeil_follows c v s]; cases c <;> rfl

theorem setCeil_duty (c : Ceiling) (v : Nat) (s : State) : (setCeil c v s).pwr.duty = s.pwr.duty := by
  rw [setCeil_follows c v s]; cases c <;> rfl

/-- PROCHOT_N goes to a level that stands for ceiling `v` of the carrier (03 R40, R53). -/
def carrierPad (on : Bool) (v : Nat) (s : State) : State :=
  let t := onPins (fun p => { p with prochotExt := on }) s
  if powered s && !s.pwr.pins.prochotDrive then setCeil .car v t else t

theorem exec_prochotLow (s : State) : exec .prochotLow s = .next (carrierPad false 1 s) := rfl
theorem exec_prochotHigh (s : State) : exec .prochotHigh s = .next (carrierPad true 5 s) := rfl

/-- 03 R53: a level of the carrier's pad acts on its ceiling unless the KL-5 itself drives the pad. -/
theorem carrierPad_ceiling (on : Bool) (v : Nat) {s : State} (hp : powered s = true) :
    (carrierPad on v s).pwr.pins.prochotExt = on ∧
      CeilingAt .car (if s.pwr.pins.prochotDrive then s.pwr.ceilCar else v) s (carrierPad on v s) := by
  have hm := metered_pins (fun p => { p with prochotExt := on }) s
  unfold carrierPad
  cases s.pwr.pins.prochotDrive with
  | true => rw [Bool.not_true, Bool.and_false]; exact ⟨rfl, hm.ceilingAt_stays rfl⟩
  | false => rw [hp]; exact ⟨setCeil_prochotExt _ _ _, hm.ceilingAt_setCeil .car v⟩

/-- Settles O13: each cause is a change of one ceiling after a reading that no ceiling depends on. -/
theorem ceilingsFollowTheirCausesWithEvents : Obligations.CeilingsFollowTheirCausesWithEvents := by
  unfold Obligations.CeilingsFollowTheirCausesWithEvents
  intro s hon
  have hp := powered_of hon
  have hset (c : Ceiling) (v : Nat) := (Metered.refl s).ceilingAt_setCeil c v
  refine ⟨⟨_, next_if_pos hp, hset .vin 1⟩, ⟨_, next_if_pos hp, hset .vin 5⟩, ⟨_, exec_prochotLow s, carrierPad_ceiling false 1 hp⟩,
    ⟨_, exec_prochotHigh s, carrierPad_ceiling true 5 hp⟩, fun low hs => ?sample, fun tj sensor h => ?throttle, fun tj sensor h => ?recovery,
    fun mean vin h hc => ?above, fun mean vin h hc => ?floor, fun mean vin h => ?below, ⟨_, next_if_pos hp, hset .power _⟩⟩
  case sample =>
    have hdue : (powered s && s.pwr.phSample) = true := by rw [hp, hs]; rfl
    exact ⟨_, next_if_pos hdue, (metered_sample (!low) s).ceilingAt_setCeil .car _⟩
  case throttle =>
    exact ⟨_, (next_if_pos hp).trans (next_if_pos h), (metered_readTj tj sensor s).ceilingAt_setCeil .therm _⟩
  case recovery =>
    exact ⟨_, (next_if_pos hp).trans (next_if_pos h), (metered_readTj tj sensor s).ceilingAt_setCeil .therm _⟩
  case above =>
    refine ⟨_, (next_if_pos hp).trans ?_, (metered_windowRead mean vin s).ceilingAt_setCeil .power _, setCeil_duty _ _ _⟩
    rw [powerWindow_over h, if_neg hc]; rfl
  case floor =>
    refine ⟨_, (next_if_pos hp).trans ?_, ((metered_windowRead mean vin s).setDuty true).ceilingAt_stays hc, rfl⟩
    rw [powerWindow_over h, if_pos hc]
  case below =>
    refine ⟨_, (next_if_pos hp).trans ?_, ((metered_windowRead mean vin s).setDuty false).ceilingAt_stays rfl, rfl⟩
    rw [powerWindow_under h]

end Sys2Proof.Machine
end

section
/-! Trips (03 R54, R56, Table 3.8). Settles O14. -/

namespace Sys2Proof.Machine

/-! Links without power (03 Table 3.1). -/

/-- Writes that take every port out of traffic leave every port out of traffic. -/
theorem foldl_dark_st (l : List (Nat × Skn)) (t : Tab Skn) (n : Nat) (h : (tabGet Skn.init t n).st = 0) :
    (tabGet Skn.init (l.foldl (fun t e => tabPut Skn.init t e.1 e.2.dark) t) n).st = 0 :=
  List.foldlRecOn l _ (motive := fun t => (tabGet Skn.init t n).st = 0) h fun t ht e _ => by
    rw [tabGet_put]; split
    · rfl
    · exact ht

theorem darkLinks_st (s : State) (n : Nat) : (getSkn (darkLinks s) n).st = 0 := foldl_dark_st s.skn [] n rfl

/-! The trip (03 R56). -/

/-- The chip as it has tripped, before a waiting SET_POWER_STATE is answered. -/
def tripState (s : State) : State :=
  onPwr (fun p => { p with req := none }) (setMem [] (darkLinks (onPwr (fun p => syncProchot (onTrip p)) s)))

/-- Neither the cause latch nor the state Tripped touches a waiting command or a reading. -/
theorem onTrip_keeps (p : Pwr) : (onTrip p).req = p.req ∧ (onTrip p).tj = p.tj ∧ (onTrip p).hotSensor = p.hotSensor ∧
    (onTrip p).stackDouble = p.stackDouble ∧ (onTrip p).stackLimit = p.stackLimit := by
  unfold onTrip; rw [latchCause_frame]; exact ⟨rfl, rfl, rfl, rfl, rfl⟩

theorem pendingRefused_congr {s u : State} (h : u.pwr.req = s.pwr.req) (t : State) : pendingRefused u t = pendingRefused s t := by
  unfold pendingRefused; rw [h]

theorem refusePending_eq (u : State) : refusePending u = pendingRefused u (onPwr (fun p => { p with req := none }) u) := by
  unfold refusePending pendingRefused
  cases h : u.pwr.req with
  | none => show u = { u with pwr := { u.pwr with req := none } }; rw [← h]
  | some q => rfl

theorem trip_eq (s : State) : trip s = pendingRefused s (tripState s) :=
  (refusePending_eq _).trans (pendingRefused_congr (onTrip_keeps s.pwr).1 _)

theorem tripped_tripState (s : State) : Tripped s (tripState s) := by
  refine ⟨rfl, rfl, rfl, rfl, ?_, fun n => darkLinks_st (onPwr (fun p => syncProchot (onTrip p)) s) n, rfl, rfl, rfl⟩
  show (latchCause .thermal [] s.pwr).cause = _
  unfold latchCause; split <;> rfl

/-- 03 R56: a trip after a reading. -/
theorem trip_trips {s u : State} (hr : u.pwr.req = s.pwr.req) (hc : u.pwr.cause = s.pwr.cause) (hh : u.pwr.causeHeld = s.pwr.causeHeld)
    (hhost : u.host = s.host) : trip u = pendingRefused s (tripState u) ∧ Tripped s (tripState u) := by
  have ht := tripped_tripState u
  unfold Tripped at ht ⊢; rw [hc, hh, hhost] at ht
  exact ⟨(trip_eq u).trans (pendingRefused_congr hr _), ht⟩

/-! The limits of an HBM stack (03 Table 3.8). -/

/-- Bit `k` of a set of stacks goes to `on`. -/
def stackBit (k : Nat) (on : Bool) (v : BitVec 6) : BitVec 6 := if on then v ||| BitVec.ofNat 6 (2 ^ k) else v &&& ~~~BitVec.ofNat 6 (2 ^ k)

theorem stackBit_getLsbD (k : Nat) (on : Bool) (v : BitVec 6) {j : Nat} (hj : j < 6) :
    (stackBit k on v).getLsbD j = if j = k then on else v.getLsbD j := by
  have hbit : (BitVec.ofNat 6 (2 ^ k)).getLsbD j = decide (j = k) := by
    rw [BitVec.getLsbD_ofNat, Nat.testBit_two_pow, decide_eq_true hj, Bool.true_and, decide_eq_decide]; exact eq_comm
  unfold stackBit
  cases on with
  | true => rw [if_pos rfl, BitVec.getLsbD_or, hbit]; by_cases h : j = k <;> simp [h]
  | false => rw [if_neg (by decide), BitVec.getLsbD_and, BitVec.getLsbD_not, hbit]; by_cases h : j = k <;> simp [h, hj]

/-- The power block after the reading of a stack. -/
def stackPwr (k : Nat) (temp : Int) (p : Pwr) : Pwr :=
  { p with hbmT := p.hbmT.set k temp, stackDouble := stackBit k (85 ≤ temp) p.stackDouble, stackLimit := stackBit k (95 ≤ temp) p.stackLimit }

/-- The reading of a stack with its event, before it trips the chip. -/
def stackRead (k : Nat) (temp : Int) (s : State) : State :=
  let u := onPwr (stackPwr k temp) s
  if 95 ≤ temp ∧ s.pwr.stackLimit.getLsbD k = false then raisePlain 0x0C0A none 0xFFFF u else u

theorem exec_hbmStackLimit {s : State} {k : Nat} (hp : powered s = true) (hk : k < 6) (temp : Int) : exec (.hbmStackLimit k temp) s =
    .next (if 105 ≤ temp ∧ (stackRead k temp s).pwr.st ≠ .tripped then trip (stackRead k temp s) else stackRead k temp s) :=
  next_if_pos (by rw [hp, decide_eq_true hk]; rfl)

theorem stackRead_frame (k : Nat) (temp : Int) (s : State) : EventOnly (onPwr (stackPwr k temp) s) (stackRead k temp s) := by
  unfold stackRead; dsimp only; split
  · exact raisePlain_frame _ _ _ _
  · exact .refl _

/-- Only the bits of the stack that was read change (03 Table 3.8). -/
theorem stackRead_bits {k : Nat} {temp : Int} {s t : State} (hd : t.pwr.stackDouble = (stackRead k temp s).pwr.stackDouble)
    (hl : t.pwr.stackLimit = (stackRead k temp s).pwr.stackLimit) :
    (∀ j, j < 6 → t.pwr.stackDouble.getLsbD j = if j = k then decide (85 ≤ temp) else s.pwr.stackDouble.getLsbD j) ∧
      (∀ j, j < 6 → t.pwr.stackLimit.getLsbD j = if j = k then decide (95 ≤ temp) else s.pwr.stackLimit.getLsbD j) := by
  have hf := stackRead_frame k temp s
  exact ⟨fun j hj => by rw [hd, hf]; exact stackBit_getLsbD _ _ _ hj, fun j hj => by rw [hl, hf]; exact stackBit_getLsbD _ _ _ hj⟩

/-- Settles O14: a trip depends on the reading before it only through what the reading keeps. -/
theorem thermalTripsAndStackLimits : Obligations.ThermalTripsAndStackLimits := by
  unfold Obligations.ThermalTripsAndStackLimits
  refine ⟨fun s tj sensor hon hst h => ?crit, fun s tj sensor hon h => ?cool, fun s k temp hon hk => ?stack, fun s tj sensor hon h => ?warn⟩
  case crit =>
    obtain ⟨htrip, ht⟩ := trip_trips (s := s) (u := readTj tj sensor s) rfl rfl rfl rfl
    obtain ⟨-, htj, hsensor, -⟩ := onTrip_keeps (readTj tj sensor s).pwr
    refine ⟨_, (next_if_pos (powered_of hon)).trans ?_, ht, htj, hsensor⟩
    rw [← htrip]; exact next_if_pos ⟨h, hst⟩
  case cool =>
    exact (next_if_pos (powered_of hon)).trans (congrArg _ (if_neg fun hc => by omega))
  case stack =>
    have hf := stackRead_frame k temp s
    have hst : (stackRead k temp s).pwr.st = s.pwr.st := by rw [hf]; rfl
    rw [exec_hbmStackLimit (powered_of hon) hk, hst]
    by_cases h : 105 ≤ temp ∧ s.pwr.st ≠ .tripped
    · obtain ⟨-, -, -, hdouble, hlimit⟩ := onTrip_keeps (stackRead k temp s).pwr
      obtain ⟨htrip, ht⟩ := trip_trips (s := s) (u := stackRead k temp s) (by rw [hf]; rfl) (by rw [hf]; rfl) (by rw [hf]; rfl) (by rw [hf]; rfl)
      obtain ⟨hd, hl⟩ := stackRead_bits (t := tripState (stackRead k temp s)) hdouble hlimit
      exact ⟨_, by rw [if_pos h, if_pos h, htrip], hd, hl, fun _ _ => ht, fun hc => by omega⟩
    · obtain ⟨hd, hl⟩ := stackRead_bits (k := k) (temp := temp) (s := s) rfl rfl
      exact ⟨_, by rw [if_neg h, if_neg h], hd, hl, fun hc hn => absurd ⟨hc, hn⟩ h, fun _ => ⟨hst, by rw [hf]; rfl⟩⟩
  case warn =>
    exact (next_if_pos (powered_of hon)).trans (next_if_pos h)

end Sys2Proof.Machine
end

section
/-! Moves along the chain Standby, Idle, Run (03 R38, R39). Settles O15. -/

namespace Sys2Proof.Machine

/-! SET_POWER_STATE (03 R38, R39, R48, R56). -/

section
variable {s : State} {q : QRef} {p : Packet}

theorem setPowerState_refused (ht : bits (p.w 0) 0 3 = 2) (h : s.pwr.st = .tripped ∨
    s.pwr.st = .standby ∧ (s.pwr.pins.carPwrEn = false ∨ s.pwr.straps.latched = false)) :
    setPowerState q p s = (.done (Done.fail 0x0409 (devState 1 (pwrState s.pwr))), s) := by
  have hcond : s.pwr.st = .tripped ∨ bits (p.w 0) 0 3 = 2 ∧ s.pwr.st = .standby ∧ (s.pwr.pins.carPwrEn = false ∨ s.pwr.straps.latched = false) :=
    h.imp_right fun hc => ⟨ht, hc⟩
  unfold setPowerState; dsimp only
  rw [if_neg (by omega), if_pos hcond]; rfl

/-- A transition to another state begins when no command waits for one. -/
theorem setPowerState_starts {b : PState} (hb : bits (p.w 0) 0 3 = 1 ∧ b = .standby ∨ bits (p.w 0) 0 3 = 2 ∧ b = .idle) (hr : s.pwr.req = none)
    (htrip : s.pwr.st ≠ .tripped) (hst : s.pwr.st ≠ b)
    (hup : b = .idle → s.pwr.st = .standby → s.pwr.pins.carPwrEn = true ∧ s.pwr.straps.latched = true) :
    setPowerState q p s = (.later, { s with pwr := { s.pwr with target := some b, req := some q } }) := by
  have hy : yieldPower s = s := by unfold yieldPower; rw [hr]
  have htarget : (if bits (p.w 0) 0 3 = 1 then PState.standby else .idle) = b := by rcases hb with ⟨h, rfl⟩ | ⟨h, rfl⟩ <;> simp [h]
  have hserved : ¬ (s.pwr.st = .tripped ∨ bits (p.w 0) 0 3 = 2 ∧ s.pwr.st = .standby ∧
      (s.pwr.pins.carPwrEn = false ∨ s.pwr.straps.latched = false)) := by
    rintro (h | ⟨h2, hs, h⟩)
    · exact htrip h
    · obtain ⟨hcar, hlat⟩ := hup (by rw [← htarget, h2]; rfl) hs
      simp [hcar, hlat] at h
  unfold setPowerState; dsimp only
  rw [if_neg (by omega), if_neg hserved, hy, htarget, if_neg hst]; rfl

end

/-! A leg of a transition (03 R38, Table 3.3). -/

/-- The power block after a leg to state `nx`. -/
def legPwr (nx : PState) (p : Pwr) : Pwr := { setSt nx p with settling := false, curPt := if nx = .run then runPoint p else p.curPt }

/-- The chip after a leg: Idle to Standby darkens the links and loses SRAM. -/
def legState (nx : PState) (s : State) : State :=
  let s := onPwr (legPwr nx) s
  if nx = .standby then loseSram (darkLinks s) else s

theorem legState_pwr (nx : PState) (s : State) : (legState nx s).pwr = legPwr nx s.pwr := by
  unfold legState; dsimp only; split <;> rfl

/-- The end of a transition at its target: a command that waits for it completes. -/
def legEnd (target : PState) (s : State) : State :=
  let t := onPwr (fun p => { p with target := none, req := none }) s
  match s.pwr.req with
  | some q => finish q (Done.res target.code 0) t
  | none => t

theorem legEnd_unasked {target : PState} {s : State} (h : s.pwr.req = none) :
    legEnd target s = onPwr (fun p => { p with target := none, req := none }) s := by
  unfold legEnd; rw [h]

theorem powerLeg_eq {target : PState} {s : State} (h : s.pwr.st = .run → nextLeg s.pwr.st target = .idle → wrensIdle s = true) :
    powerLeg target s = if nextLeg s.pwr.st target = target then legEnd target (legState target s) else legState (nextLeg s.pwr.st target) s := by
  have hgo : ¬ (s.pwr.st = .run && nextLeg s.pwr.st target = .idle && !wrensIdle s) = true := by
    simpa using h
  unfold powerLeg; dsimp only
  rw [if_neg hgo]
  split
  · rename_i ht; rw [ht]; rfl
  · rfl

/-- A leg to the target that nothing waits for ends the transition. -/
theorem powerLeg_arrives {target : PState} {s : State} (hnext : nextLeg s.pwr.st target = target) (hr : s.pwr.req = none)
    (hw : s.pwr.st = .run → target = .idle → wrensIdle s = true) : (powerLeg target s).pwr.st = target ∧ (powerLeg target s).pwr.target = none := by
  have hreq : (legState target s).pwr.req = none := by rw [legState_pwr]; exact hr
  rw [powerLeg_eq (hnext.symm ▸ hw), if_pos hnext, legEnd_unasked hreq]
  exact ⟨by rw [onPwr_pwr, legState_pwr]; rfl, rfl⟩

theorem powerLeg_passes {target : PState} {s : State} (hnext : nextLeg s.pwr.st target ≠ target) (hst : s.pwr.st ≠ .run) :
    (powerLeg target s).pwr.st = nextLeg s.pwr.st target ∧ (powerLeg target s).pwr.target = s.pwr.target := by
  rw [powerLeg_eq fun h => absurd h hst, if_neg hnext, legState_pwr]; exact ⟨rfl, rfl⟩

theorem exec_powerTransitionDone {s : State} {b : PState} (ht : s.pwr.target = some b) (hon : s.pwr.st ≠ .off) (htrip : s.pwr.st ≠ .tripped) :
    exec .powerTransitionDone s = .next (powerLeg b s) := by
  have hgo : (powered s && s.pwr.st != .tripped) = true := by simp [powered_of hon, htrip]
  show execPowerTransitionDone s = _
  unfold execPowerTransitionDone; rw [ht]; exact next_if_pos hgo

/-! RUN_TO_IDLE (03 R39). -/

theorem wrensIdle_of_live {s : State} {r : Run} (hr : r ∈ s.fab.runs) (hst : r.st ≠ 0) : wrensIdle s = false := by
  have : (s.fab.runs.all fun r => r.st == 0) = false := by
    rw [List.all_eq_false]; exact ⟨r, hr, by simpa using hst⟩
  unfold wrensIdle; rw [this]; rfl

/-- Settles O15, by what SET_POWER_STATE answers and what one leg of the chain does. -/
theorem powerStatesMoveAlongTheChain : Obligations.PowerStatesMoveAlongTheChain := by
  unfold Obligations.PowerStatesMoveAlongTheChain
  refine ⟨fun s q p ht hr htrip _ => ⟨fun ⟨h1, hst⟩ => ?standby, fun ⟨h2, hst, hup⟩ => ?idle, fun ⟨h2, hst, hmiss⟩ => ?missing⟩,
    fun s q p ht htrip h2 => ?tripped, fun s a b ha ht hr hab => ?arrives, fun s hst ht => ?passes, fun s hst hw hready => ?toIdle,
    fun s r hr hst => ?live⟩
  case standby =>
    exact congrArg Host.Outcome.next (runCmd_later ht (setPowerState_starts (.inl ⟨h1, rfl⟩) hr htrip hst nofun))
  case idle =>
    exact congrArg Host.Outcome.next (runCmd_later ht (setPowerState_starts (.inr ⟨h2, rfl⟩) hr htrip hst fun _ => hup))
  case missing => exact exec_finishes ht rfl (setPowerState_refused h2 (.inr ⟨hst, hmiss⟩)) nofun nofun
  case tripped => exact exec_finishes ht rfl (setPowerState_refused h2 (.inl htrip)) nofun nofun
  case arrives =>
    subst ha
    have hends (hon : s.pwr.st ≠ .off) (htrip : s.pwr.st ≠ .tripped) (hnext : nextLeg s.pwr.st b = b)
        (hw : s.pwr.st = .run → b = .idle → wrensIdle s = true) : ∃ t, exec .powerTransitionDone s = .next t ∧ t.pwr.st = b ∧ t.pwr.target = none :=
      ⟨_, exec_powerTransitionDone ht hon htrip, powerLeg_arrives hnext hr hw⟩
    rcases hab with ⟨ha, rfl⟩ | ⟨ha, rfl⟩ | ⟨ha, rfl⟩ | ⟨ha, rfl, hw⟩ <;> rw [ha] at hends
    · exact hends nofun nofun rfl nofun
    · exact hends nofun nofun rfl nofun
    · exact hends nofun nofun rfl nofun
    · exact hends nofun nofun rfl fun _ _ => hw
  case passes =>
    have hleg := powerLeg_passes (target := .run) (s := s)
    rw [hst, ht] at hleg
    exact ⟨_, exec_powerTransitionDone ht (by simp [hst]) (by simp [hst]), hleg nofun nofun⟩
  case toIdle =>
    exact ⟨_, next_if_pos ⟨hst, hw, hready⟩, rfl, rfl, rfl⟩
  case live =>
    refine congrArg Host.Outcome.next (if_neg fun ⟨_, hw, _⟩ => ?_)
    rw [wrensIdle_of_live hr hst] at hw; cases hw

end Sys2Proof.Machine
end

section
/-! Settings in range (03 R40, R41, R55; 19 R362). Settles O17. -/

namespace Sys2Proof.Machine

theorem writePtReq_inRange {v : Nat} (s : State) (h : 1 ≤ bits v 0 3 ∧ bits v 0 3 ≤ 5) : writePtReq v s = putPoint (bits v 0 3) s := if_neg (by omega)
theorem writePtReq_outside {v : Nat} (s : State) (h : bits v 0 3 < 1 ∨ 5 < bits v 0 3) : writePtReq v s = discardWrite 0x10008 s := if_pos (by omega)
theorem writeCap_inRange {v : Nat} (s : State) (h : 400 ≤ bits v 0 11 ∧ bits v 0 11 ≤ 1150) :
    writeCap v s = onPwr (fun p => { p with cap := bits v 0 11 }) s := if_neg (by omega)
theorem writeCap_outside {v : Nat} (s : State) (h : bits v 0 11 < 400 ∨ 1150 < bits v 0 11) : writeCap v s = discardWrite 0x1000C s := if_pos h

theorem writeThermCfg_inRange {v : Nat} (s : State) (h : 70 ≤ bits v 0 8 ∧ bits v 0 8 ≤ 95 ∧ 80 ≤ bits v 8 8 ∧ bits v 8 8 ≤ 100) : writeThermCfg v s =
    onPwr (fun p => syncProchot { p with warn := bits v 0 8, throttle := bits v 8 8, phOut := bitOf v 16 }) s := if_neg (by omega)
theorem writeThermCfg_outside {v : Nat} (s : State) (h : bits v 0 8 < 70 ∨ 95 < bits v 0 8 ∨ bits v 8 8 < 80 ∨ 100 < bits v 8 8) :
    writeThermCfg v s = discardWrite 0x10028 s := if_pos h

theorem bitOf_toNat {w : Nat} (v : BitVec w) (i : Nat) : bitOf v.toNat i = v.getLsbD i := by
  rw [bitOf, BitVec.getLsbD, Nat.testBit_eq_decide_div_mod_eq]; rfl

section
variable {s : State} {q : QRef} {p : Packet}

theorem setPoint_inRange (h : 1 ≤ bits (p.w 0) 0 3 ∧ bits (p.w 0) 0 3 ≤ 5) : setPoint q p s =
    let u := putPoint (bits (p.w 0) 0 3) s
    (.done (Done.res (effPoint u.pwr + runPoint u.pwr * 8) 0), u) := if_neg (by omega)
theorem setPoint_outside (h : bits (p.w 0) 0 3 < 1 ∨ 5 < bits (p.w 0) 0 3) : setPoint q p s = (.done (Done.fail 0x0105 0x40), s) := if_pos h
theorem setPowerCap_inRange (h : 400 ≤ bits (p.w 0) 0 11 ∧ bits (p.w 0) 0 11 ≤ 1150) :
    setPowerCap q p s = (.done Done.ok, onPwr (fun w => { w with cap := bits (p.w 0) 0 11 }) s) := if_neg (by omega)
theorem setPowerCap_outside (h : bits (p.w 0) 0 11 < 400 ∨ 1150 < bits (p.w 0) 0 11) : setPowerCap q p s = (.done (Done.fail 0x0105 0x40), s) := if_pos h

end

/-- Settles O17: each setting takes its field in range and discards or refuses it outside. -/
theorem powerSettingsTakeOnlyTheirRange : Obligations.PowerSettingsTakeOnlyTheirRange := by
  unfold Obligations.PowerSettingsTakeOnlyTheirRange
  refine ⟨fun s v hup => ?registers, fun s q p ht => ?point, fun s q p ht => ?cap⟩
  case registers =>
    have hopen := regsOpen_of hup
    have hpt : exec (.pwrPtReqWrite v) s = .next (writePtReq v.toNat s) := next_if_pos hopen
    have hcap : exec (.pwrCapWrite v) s = .next (writeCap v.toNat s) := next_if_pos hopen
    have htherm : exec (.pwrThermCfgWrite v) s = .next (writeThermCfg v.toNat s) := next_if_pos hopen
    rw [hpt, hcap, htherm]
    refine ⟨fun h => ?_, fun h => ?_, fun h => ?_, fun h => ?_, fun h => ?_, fun h => ?_⟩
    · rw [writePtReq_inRange s h]; exact ⟨_, rfl, rfl, rfl, rfl⟩
    · rw [writePtReq_outside s h]; rfl
    · rw [writeCap_inRange s h]; rfl
    · rw [writeCap_outside s h]; rfl
    · rw [writeThermCfg_inRange s h]; exact ⟨_, rfl, rfl, rfl, bitOf_toNat v 16, rfl, rfl⟩
    · rw [writeThermCfg_outside s h]; rfl
  case point =>
    refine ⟨fun h => ?_, fun h => ?_⟩
    · exact ⟨_, _, exec_finishes ht rfl (setPoint_inRange h) nofun nofun, rfl, rfl, rfl, rfl⟩
    · exact exec_finishes ht rfl (setPoint_outside h) nofun nofun
  case cap =>
    refine ⟨fun h => ?_, fun h => ?_⟩
    · exact exec_finishes ht rfl (setPowerCap_inRange h) nofun nofun
    · exact exec_finishes ht rfl (setPowerCap_outside h) nofun nofun

end Sys2Proof.Machine
end

section
/-! Power-on, straps and pads (03 R39, R48, R50, R52, R59; 02 R21). Settles O12. -/

namespace Sys2Proof.Machine

/-! The pads as the chip comes up (03 R40, R50). -/

theorem padsAtPower_quiet {s : State} (hx : s.pwr.pins.prochotExt = true) (hm : s.pwr.pins.modLatchN = false) : padsAtPower s = s := by
  simp [padsAtPower, hx, hm]
theorem padsAtPower_open {s : State} (hx : s.pwr.pins.prochotExt = true) (hm : s.pwr.pins.modLatchN = true) : padsAtPower s = latchEvent s := by
  simp [padsAtPower, hx, hm]

theorem follows_latchEvent_if (c : Bool) (s : State) : s.pwr.Follows (if c then latchEvent s else s).pwr := by
  cases c
  · exact .refl _
  · exact follows_raiseEv _ _ _ _ s

theorem follows_setCeil_unless (c : Bool) (s : State) :
    (Ceiling.car.set (if c then s.pwr.ceilCar else 1) s.pwr).Follows (if c then s else setCeil .car 1 s).pwr := by
  cases c
  · exact setCeil_follows _ _ _
  · exact .refl _

/-- The pads act on the carrier ceiling, and on what follows it. -/
theorem padsAtPower_follows (s : State) :
    (Ceiling.car.set (if s.pwr.pins.prochotExt then s.pwr.ceilCar else 1) s.pwr).Follows (padsAtPower s).pwr :=
  (follows_setCeil_unless _ s).trans (follows_latchEvent_if _ _)

/-! Entry into Standby (03 R39, R52). -/

/-- The power block as Standby is entered from Off, before the pads act. -/
def standbyPwr (p : Pwr) : Pwr :=
  setSt .standby { p with causeHeld := false, coldHeld := false, pins := { p.pins with pwrFaultN := true, thermtripN := true } }

theorem enterStandby_eq (s : State) : enterStandby s = padsAtPower (onPwr standbyPwr s) := rfl

theorem enterStandby_pwr (s : State) : (enterStandby s).pwr.st = .standby ∧ (enterStandby s).pwr.coldHeld = false ∧
    (enterStandby s).pwr.pins.coldResetN = s.pwr.pins.coldResetN ∧ (enterStandby s).pwr.pins.pwrFaultN = true ∧
    (enterStandby s).pwr.pins.thermtripN = true ∧ (enterStandby s).pwr.ceilCar = if s.pwr.pins.prochotExt then s.pwr.ceilCar else 1 := by
  rw [enterStandby_eq, padsAtPower_follows]; exact ⟨rfl, rfl, rfl, rfl, rfl, rfl⟩

theorem enterStandby_quiet {s : State} (hx : s.pwr.pins.prochotExt = true) (hm : s.pwr.pins.modLatchN = false) :
    enterStandby s = onPwr standbyPwr s := padsAtPower_quiet hx hm

/-! The strap latch (03 R48, R59). -/

/-- Eight equal samples of good parity, with STRAP_PCIE in range, are latched as they are. -/
theorem latchStraps_agree {w : BitVec 23} (s : State) (hpar : ((List.range 18).countP fun i => w.getLsbD i) % 2 = 1) (hpcie : w.extractLsb' 21 2 ≠ 3) :
    latchStraps (List.replicate 8 w) s = onBoot (fun b => { b with romReady := true }) (onPwr (fun p => { p with straps := strapsOf w false }) s) := by
  have hall : (List.replicate 8 w).all (· == w) = true := by simp
  have hok : strapParityOk w = true := beq_iff_eq.2 hpar
  have hin : (w.extractLsb' 21 2 == 3) = false := beq_false_of_ne hpcie
  have hhead : (List.replicate 8 w).headD 0 = w := rfl
  unfold latchStraps
  simp only [hhead, hall, hok, hin, if_true, Bool.not_true, Bool.false_or, Bool.false_eq_true, if_false]

/-- Settles O12, by what the pads add as the chip comes up and what eight equal samples latch. -/
theorem powerOnLatchesStrapsAndEvents : Obligations.PowerOnLatchesStrapsAndEvents := by
  unfold Obligations.PowerOnLatchesStrapsAndEvents
  refine ⟨fun s hoff hheld => ?on, fun s hheld => ?released, fun s w hst hlat hpar hpcie => ?straps, fun s hon => next_if_pos (powered_of hon),
    fun s hset => next_if_pos hset⟩
  case on =>
    obtain ⟨hst, -, -, hfault, htherm, hcar⟩ := enterStandby_pwr s
    refine ⟨_, next_if_pos ⟨hoff, hheld⟩, hst, hfault, htherm, fun hx => by rw [hcar, hx]; rfl, fun hx hm => ?_, fun hx hm => ?_⟩
    · rw [enterStandby_quiet hx hm]; exact ⟨rfl, rfl⟩
    · exact ⟨standbyPwr s.pwr, padsAtPower_open (s := onPwr standbyPwr s) hx hm⟩
  case released =>
    obtain ⟨hst, hcold, hreset, hfault, -, hcar⟩ := enterStandby_pwr (onPins (fun p => { p with coldResetN := true }) s)
    refine ⟨_, next_if_pos hheld, hst, hcold, hreset, hfault, fun hx => ?_, fun hx hm => ?_⟩
    · rw [hcar, onPins_pwr]; simp [hx]
    · have hquiet := enterStandby_quiet (s := onPins (fun p => { p with coldResetN := true }) s) hx hm
      rw [hquiet]; rfl
  case straps =>
    exact (next_if_pos ⟨hst, hlat, rfl⟩).trans (congrArg Host.Outcome.next (latchStraps_agree _ hpar hpcie))

end Sys2Proof.Machine
end

section
/-! SUPPORT. What ends work leaves where it stands: the table state of every context, the partitions, and VF Enable (06 Table 6.2,
07 Table 7.5). Completions, the end of runs, queue pairs, sessions, rounds, streams and key operations change none of them. -/

namespace Sys2Proof.Machine

/-- Where contexts and partitions stand: the table state of each context, the partitions, and VF Enable. -/
def standing (s : State) : (Nat → Nat) × Tab Part × Bool := (fun c => (getCtx s c).st, s.host.part, s.host.vfEnable)

theorem ctxSt_of_standing {s t : State} (h : standing t = standing s) (c : Nat) : (getCtx t c).st = (getCtx s c).st :=
  congrFun (congrArg Prod.fst h) c
theorem part_of_standing {s t : State} (h : standing t = standing s) (p : Nat) : getPart t p = getPart s p := by
  have hp : t.host.part = s.host.part := congrArg (fun x => x.2.1) h
  unfold getPart; rw [hp]
theorem vfEnable_of_standing {s t : State} (h : standing t = standing s) : t.host.vfEnable = s.host.vfEnable :=
  congrArg (fun x => x.2.2) h

theorem standing_of_tables {s t : State} (hc : t.host.ctxs = s.host.ctxs) (hp : t.host.part = s.host.part) (hv : t.host.vfEnable = s.host.vfEnable) :
    standing t = standing s := by
  unfold standing getCtx; rw [hc, hp, hv]
theorem standing_of_host {s t : State} (h : t.host = s.host) : standing t = standing s := by
  unfold standing getCtx; rw [h]

@[simp] theorem standing_foldl {α : Type} {f : State → α → State} (hf : ∀ s a, standing (f s a) = standing s) (l : List α) (s : State) :
    standing (l.foldl f s) = standing s :=
  List.foldlRecOn l f (motive := fun t => standing t = standing s) rfl fun t ht a _ => (hf t a).trans ht

@[simp] theorem standing_ite {c : Prop} [Decidable c] (t u : State) : standing (if c then t else u) = if c then standing t else standing u :=
  apply_ite standing c t u

/-! Blocks other than the host's, memories, events and meters. -/

@[simp] theorem standing_onPwr (f : Pwr → Pwr) (s : State) : standing (onPwr f s) = standing s := standing_of_host rfl
@[simp] theorem standing_onBoot (f : Boot → Boot) (s : State) : standing (onBoot f s) = standing s := standing_of_host rfl
@[simp] theorem standing_onLark (f : Lark → Lark) (s : State) : standing (onLark f s) = standing s := standing_of_host rfl
@[simp] theorem standing_onNut (f : Nut → Nut) (s : State) : standing (onNut f s) = standing s := standing_of_host rfl
@[simp] theorem standing_onFab (f : Fab → Fab) (s : State) : standing (onFab f s) = standing s := standing_of_host rfl
@[simp] theorem standing_onLnt (f : Lnt → Lnt) (s : State) : standing (onLnt f s) = standing s := standing_of_host rfl
@[simp] theorem standing_onQtd (f : Qtd → Qtd) (s : State) : standing (onQtd f s) = standing s := standing_of_host rfl
@[simp] theorem standing_onRnd (f : Rounds → Rounds) (s : State) : standing (onRnd f s) = standing s := standing_of_host rfl
@[simp] theorem standing_onWbl (f : Wbl → Wbl) (s : State) : standing (onWbl f s) = standing s := standing_of_host rfl
@[simp] theorem standing_setMem (m : List Host.Cell) (s : State) : standing (setMem m s) = standing s := standing_of_host rfl
@[simp] theorem standing_setHostMem (m : List Host.Cell) (s : State) : standing (setHostMem m s) = standing s := standing_of_host rfl
@[simp] theorem standing_emit (o : Out) (s : State) : standing (emit o s) = standing s := standing_of_host rfl
@[simp] theorem standing_emitAll (os : List Out) (s : State) : standing (emitAll os s) = standing s := standing_of_host rfl
@[simp] theorem standing_putQ (k : Nat) (v : Queue) (s : State) : standing (putQ k v s) = standing s := standing_of_tables rfl rfl rfl
@[simp] theorem standing_putWren (k : Nat) (v : Wren) (s : State) : standing (putWren k v s) = standing s := standing_of_host rfl
@[simp] theorem standing_putThk (k : Nat) (v : Thk) (s : State) : standing (putThk k v s) = standing s := standing_of_host rfl
@[simp] theorem standing_putSkn (k : Nat) (v : Skn) (s : State) : standing (putSkn k v s) = standing s := standing_of_host rfl
@[simp] theorem standing_putQp (k : Nat) (v : Qp) (s : State) : standing (putQp k v s) = standing s := standing_of_host rfl
@[simp] theorem standing_putSess (k : Nat) (v : Sess) (s : State) : standing (putSess k v s) = standing s := standing_of_host rfl
@[simp] theorem standing_putBeat (k : Nat) (v : Beat) (s : State) : standing (putBeat k v s) = standing s := standing_of_host rfl
@[simp] theorem standing_putSlotK (k : Nat) (v : KSlot) (s : State) : standing (putSlotK k v s) = standing s := standing_of_host rfl
@[simp] theorem standing_putStream (k : Nat) (v : Stream) (s : State) : standing (putStream k v s) = standing s := standing_of_host rfl
@[simp] theorem standing_putTbl (k : Nat) (v : WTable) (s : State) : standing (putTbl k v s) = standing s := standing_of_host rfl
@[simp] theorem standing_putLst (k : Nat) (v : Listener) (s : State) : standing (putLst k v s) = standing s := standing_of_host rfl
@[simp] theorem standing_putInst (kind k : Nat) (v : Inst) (s : State) : standing (putInst kind k v s) = standing s := standing_of_host rfl
@[simp] theorem standing_modObj (h : Nat) (f : Obj → Obj) (s : State) : standing (modObj h f s) = standing s := standing_of_tables rfl rfl rfl
@[simp] theorem standing_modRnd (n : Nat) (f : Round → Round) (s : State) : standing (modRnd n f s) = standing s := standing_of_host rfl

@[simp] theorem standing_setScrubs (f : HostSt → List Scrub) (s : State) : standing (onHost (fun h => { h with scrubs := f h }) s) = standing s :=
  standing_of_tables rfl rfl rfl

theorem EventOnly.standing {s t : State} (h : EventOnly s t) : Machine.standing t = Machine.standing s := standing_of_host (by rw [h])
theorem CountOnly.standing {s t : State} (h : CountOnly s t) : Machine.standing t = Machine.standing s := standing_of_host (by rw [h])
theorem MemOnly.standing {s t : State} (h : MemOnly s t) : Machine.standing t = Machine.standing s := standing_of_host (by rw [h])

@[simp] theorem standing_raiseEv (code : Nat) (ctx : Option Nat) (unit detail : Nat) (s : State) :
    standing (raiseEv code ctx unit detail s) = standing s := (raiseEv_frame _ _ _ _ s).standing
@[simp] theorem standing_raisePlain (code : Nat) (ctx : Option Nat) (unit : Nat) (s : State) :
    standing (raisePlain code ctx unit s) = standing s := standing_raiseEv _ _ _ _ s
@[simp] theorem standing_count (c blk inst code n : Nat) (s : State) : standing (count c blk inst code n s) = standing s :=
  (count_frame _ _ _ _ _ s).standing
@[simp] theorem standing_meter (c : Nat) (f : Meter → Meter) (s : State) : standing (meter c f s) = standing s := by
  unfold meter; split <;> rfl
@[simp] theorem standing_meterTx (c n : Nat) (s : State) : standing (meterTx c n s) = standing s := standing_meter _ _ s

/-! Completions (05 R84, R98; 06 R123). -/

@[simp] theorem standing_writeResult (p : Packet) (bs : List Byte) (s : State) : standing (writeResult p bs s) = standing s := by
  unfold writeResult; split
  · rename_i h; exact (dvaWrite_frame h).standing
  · rfl
@[simp] theorem standing_postRec (q : Nat) (r : StatusRec) (irq : Bool) (s : State) : standing (postRec q r irq s) = standing s := by
  simp [postRec, writeCounter]
@[simp] theorem standing_finishPlain (q : Nat) (d : Done) (s : State) : standing (finishPlain q d s) = standing s := by
  unfold finishPlain; split
  · rfl
  · simp
@[simp] theorem standing_finishDesc (q status detail res0 res1 : Nat) (s : State) :
    standing (finishDesc q status detail res0 res1 s) = standing s := by
  unfold finishDesc; split
  · rfl
  · simp [finishEntry]
@[simp] theorem standing_failWaiters (q : Nat) (s : State) : standing (failWaiters q s) = standing s := by
  simp [failWaiters, failWaiter]
@[simp] theorem standing_clearQueue (q mode : Nat) (s : State) : standing (clearQueue q mode s) = standing s := by
  have h : standing (unfence q (putQ q (resetQueue mode (getQ s q)) s)) = standing s := rfl
  unfold clearQueue; dsimp only; split
  · exact (standing_failWaiters q _).trans h
  · exact h
@[simp] theorem standing_finishHost (q : Nat) (d : Done) (s : State) : standing (finishHost q d s) = standing s := by
  unfold finishHost; dsimp only; split <;> simp
@[simp] theorem standing_finishChain (n : Nat) (q : QRef) (d : Done) (s : State) : standing (finishChain n q d s) = standing s := by
  induction n generalizing q d s with
  | zero => cases q <;> rfl
  | succ n ih =>
    cases q with
    | mgmt => unfold finishChain finishMgmt; split <;> rfl
    | host q => unfold finishChain; dsimp only; split <;> simp [ih]
@[simp] theorem standing_finish (q : QRef) (d : Done) (s : State) : standing (finish q d s) = standing s := standing_finishChain _ q d s
@[simp] theorem standing_abortQueue (status q : Nat) (s : State) : standing (abortQueue status q s) = standing s := by
  simp [abortQueue]
@[simp] theorem standing_releaseCommit (by_ : Option QRef) (d : Done) (s : State) : standing (releaseCommit by_ d s) = standing s := by
  cases by_ <;> simp [releaseCommit]

/-! Objects, runs and Wrens (06 R127, 09 R174 to R190). -/

@[simp] theorem standing_unbindFree (t : Nat) (s : State) : standing (unbindFree t s) = standing s := by simp [unbindFree]
@[simp] theorem standing_removeObj (h : Nat) (s : State) : standing (removeObj h s) = standing s := by
  unfold removeObj; split
  · rfl
  · rename_i o _
    have h0 : standing ((objRanges o).foldl (fun s r => setMem (memErase s.mem r.1 r.2) s) s) = standing s := by simp
    have h1 : standing (onHost (fun v => { v with objs := v.objs.filter fun e => e.1 != h })
        ((objRanges o).foldl (fun s r => setMem (memErase s.mem r.1 r.2) s) s)) = standing s := h0
    dsimp only; split
    · exact h1
    · exact (standing_foldl (by simp) _ _).trans h1
    · exact (standing_foldl (by simp) _ _).trans ((standing_foldl (by simp) _ _).trans h1)
@[simp] theorem standing_reap (h : Nat) (s : State) : standing (reap h s) = standing s := by
  unfold reap; split
  · simp
  · rfl
@[simp] theorem standing_dropRef (h : Nat) (s : State) : standing (dropRef h s) = standing s := by simp [dropRef]
@[simp] theorem standing_dropHost (h : Nat) (s : State) : standing (dropHost h s) = standing s := by simp [dropHost]
@[simp] theorem standing_scrubWren (p : Prog) (w : Nat) (s : State) : standing (scrubWren p w s) = standing s := standing_of_host rfl
@[simp] theorem standing_freeWren (w : Nat) (s : State) : standing (freeWren w s) = standing s := standing_of_host rfl
@[simp] theorem standing_closeGroup (r : Roost) (g : Nat) (s : State) : standing (closeGroup r g s) = standing s := by
  simp [closeGroup, putTsw]
@[simp] theorem standing_closeWren (p : Prog) (c w : Nat) (s : State) : standing (closeWren p c w false s) = standing s := by
  simp [closeWren, closeGroups]
@[simp] theorem standing_leaveWren (r : Run) (p : Option Prog) (s : State) (w : Nat) : standing (leaveWren r p s w) = standing s := by
  cases p <;> simp [leaveWren]
@[simp] theorem standing_dropRun (r : Run) (s : State) : standing (dropRun r s) = standing s := by
  obtain ⟨refs, h⟩ := dropRun_eq r s
  rw [h]; simp [releaseAll]
@[simp] theorem standing_stopRun (r : Run) (s : State) : standing (stopRun r s) = standing s := by
  unfold stopRun; dsimp only; split <;> simp
@[simp] theorem standing_abortRun (status : Nat) (r : Run) (s : State) : standing (abortRun status s r) = standing s := by
  unfold abortRun completeRun; split <;> simp

/-! Packets that leave by the fabric (14 R276; 13 R255). -/

@[simp] theorem standing_sendOn (n : Nat) (p : QtdPkt) (rest : List QtdPkt) (s : State) : standing (sendOn n p rest s) = standing s := by
  unfold sendOn; split <;> simp
@[simp] theorem standing_pumpPort (n k : Nat) (s : State) : standing (pumpPort n k s) = standing s := by
  induction k generalizing s with
  | zero => rfl
  | succ k ih =>
    unfold pumpPort; split
    · rename_i s' h
      obtain ⟨e, -, rfl⟩ := Option.map_eq_some_iff.1 h
      rw [ih, standing_sendOn]
    · rfl
@[simp] theorem standing_queueOn (n : Nat) (p : QtdPkt) (s : State) : standing (queueOn n p s) = standing s := by
  simp [queueOn]
theorem standing_originate {p : QtdPkt} {s t : State} (h : originate p s = .ok t) : standing t = standing s := by
  unfold originate at h; dsimp only at h
  repeat' split at h
  all_goals cases h
  all_goals simp [dropFence]
@[simp] theorem standing_originateQ (p : QtdPkt) (s : State) : standing (originateQ p s) = standing s := by
  unfold originateQ; split
  · rename_i h; exact standing_originate h
  · rfl
@[simp] theorem standing_sendLnt (c e dst : Nat) (p : LntPkt) (s : State) : standing (sendLnt c e dst p s) = standing s := by
  simp [sendLnt]

/-! Queue pairs (12 R242 to R249). -/

@[simp] theorem standing_finishSend (n : Nat) (d : SendDesc) (status detail rlen : Nat) (s : State) :
    standing (finishSend n d status detail rlen s) = standing s := by
  simp [finishSend, qpIrq]
@[simp] theorem standing_qpFail (n status detail : Nat) (via : Option Nat) (s : State) : standing (qpFail n status detail via s) = standing s := by
  simp [qpFail, sendTerminate, sendCtl, failSends]
@[simp] theorem standing_removeQp (status n : Nat) (s : State) : standing (removeQp status n s) = standing s := by simp [removeQp]
@[simp] theorem standing_sendMsg (n : Nat) (d : SendDesc) (s : State) : standing (sendMsg n d s) = standing s := by
  unfold sendMsg; dsimp only
  repeat' split
  all_goals simp [queuePkts, markSent, stallSend]
@[simp] theorem standing_startSend (n : Nat) (d : SendDesc) (s : State) : standing (startSend n d s) = standing s := by
  unfold startSend; dsimp only
  repeat' split
  all_goals simp
@[simp] theorem standing_sendFirst (n : Nat) (p : LntPkt) (s : State) : standing (sendFirst n p s) = standing s := by
  unfold sendFirst leftEngine; dsimp only
  repeat' split
  all_goals simp
@[simp] theorem standing_pump (n : Nat) (s : State) : standing (pump n s) = standing s := by
  have hloop (k : Nat) (s : State) : standing (pumpLoop n k s) = standing s := by
    induction k generalizing s with
    | zero => rfl
    | succ k ih =>
      unfold pumpLoop; dsimp only
      repeat' split
      all_goals simp [ih, qpError]
  exact hloop _ s

/-! Sessions, rounds, streams and beats (12 R230; 15 R322; 17 R338; 02 R34). -/

@[simp] theorem standing_closeLst (n : Nat) (s : State) : standing (closeLst n s) = standing s := by
  simp [closeLst, freeSess]
@[simp] theorem standing_tellSess (h kind index : Nat) (payload : List Byte) (s : State) : standing (tellSess h kind index payload s) = standing s := by
  unfold tellSess; split
  · simp [sendSess, sendSessData]
  · rfl
@[simp] theorem standing_endListener (r : Round) (n : Nat) (s : State) : standing (endListener r n s) = standing s := by
  simp [endListener, closeSess, sendSessCtl]
@[simp] theorem standing_guardClear (r : Round) (s : State) : standing (guardClear r s) = standing s := by
  unfold guardClear; split
  · simp [putGuard]
  · rfl
@[simp] theorem standing_clearTiles (r : Round) (s : State) : standing (clearTiles r s) = standing s := by simp [clearTiles, putTsw]
@[simp] theorem standing_unbindSlots (r : Round) (s : State) : standing (unbindSlots r s) = standing s := by simp [unbindSlots]
@[simp] theorem standing_holdChf (part : Nat) (hold : Bool) (s : State) : standing (holdChf part hold s) = standing s := by simp [holdChf]
@[simp] theorem standing_endRound (n phase status detail : Nat) (s : State) : standing (endRound n phase status detail s) = standing s := by
  unfold endRound; split
  · rfl
  · simp [tellRnd]
@[simp] theorem standing_abortRounds (c : Nat) (s : State) : standing (abortRounds c s) = standing s := by simp [abortRounds]
@[simp] theorem standing_reapTbl (i : Nat) (s : State) : standing (reapTbl i s) = standing s := by simp [reapTbl]
@[simp] theorem standing_closeStream (i : Nat) (s : State) : standing (closeStream i s) = standing s := by simp [closeStream]
@[simp] theorem standing_disarmBeat (n : Nat) (s : State) : standing (disarmBeat n s) = standing s := by
  unfold disarmBeat stepIfFree; split
  · simp [stepTime]
  · rfl

/-! What a context holds (06 R128, Table 6.10). -/

@[simp] theorem standing_dropCtxWbl (c : Nat) (s : State) : standing (dropCtxWbl c s) = standing s := by simp [dropCtxWbl]
@[simp] theorem standing_dropCtxQps (status c : Nat) (s : State) : standing (dropCtxQps status c s) = standing s := by simp [dropCtxQps]
@[simp] theorem standing_dropCtxSessions (c : Nat) (s : State) : standing (dropCtxSessions c s) = standing s := by simp [dropCtxSessions]
@[simp] theorem standing_dropCtxKeys (c : Nat) (s : State) : standing (dropCtxKeys c s) = standing s := by simp [dropCtxKeys]

/-- A change of every context that keeps its table state. -/
theorem tabGet_map_st (f : Ctx → Ctx) (hf : ∀ v, (f v).st = v.st) (t : Tab Ctx) (c : Nat) :
    (tabGet Ctx.init (t.map fun e => (e.1, f e.2)) c).st = (tabGet Ctx.init t c).st := by
  induction t with
  | nil => rfl
  | cons e t ih =>
    obtain ⟨k, v⟩ := e
    simp only [List.map_cons, tabGet]; split
    · exact hf v
    · exact ih

theorem standing_of_map (f : Ctx → Ctx) (hf : ∀ v, (f v).st = v.st) {s t : State} (hc : t.host.ctxs = s.host.ctxs.map fun e => (e.1, f e.2))
    (hp : t.host.part = s.host.part) (hv : t.host.vfEnable = s.host.vfEnable) : standing t = standing s := by
  unfold standing getCtx; rw [hc, hp, hv]
  simp only [tabGet_map_st f hf]

theorem standing_putCtx {c : Nat} {v : Ctx} {s : State} (h : v.st = (getCtx s c).st) : standing (putCtx c v s) = standing s := by
  have hc : (fun j => (getCtx (putCtx c v s) j).st) = fun j => (getCtx s j).st := by
    funext j; rw [getCtx_putCtx]; split
    · rename_i e; rw [h, e]
    · rfl
  exact congrArg (·, s.host.part, s.host.vfEnable) hc

@[simp] theorem standing_forgetRef (q : QRef) (s : State) : standing (forgetRef q s) = standing s :=
  standing_of_map (fun v => { v with wait := v.wait.map fun w => { w with by_ := if w.by_ = some q then none else w.by_ } }) (fun _ => rfl) rfl rfl rfl
@[simp] theorem standing_dropMaps (h : Nat) (s : State) : standing (dropMaps h s) = standing s :=
  standing_of_map (fun v => { v with maps := v.maps.filter fun m => m.obj != h }) (fun _ => rfl) rfl rfl rfl

@[simp] theorem standing_abortEntry (status : Nat) (by_ : Option QRef) (s : State) (q : Nat) : standing (abortEntry status by_ s q) = standing s := by
  simp [abortEntry]
@[simp] theorem standing_wrensEnd (c status : Nat) (by_ : Option QRef) (s : State) : standing (wrensEnd c status by_ s) = standing s := by
  simp [wrensEnd]
@[simp] theorem standing_nuthatchEnd (c status : Nat) (s : State) : standing (nuthatchEnd c status s) = standing s := by
  simp [nuthatchEnd]
@[simp] theorem standing_revokeWins (h : Nat) (s : State) : standing (revokeWins h s) = standing s := by
  have hwin (i : Nat) (s : State) : standing (revokeWin i s) = standing s := by
    unfold revokeWin; split
    · rfl
    · rw [standing_reap]; exact standing_of_tables rfl rfl rfl
  simp [revokeWins, hwin]
@[simp] theorem standing_dropObjs (c : Nat) (s : State) : standing (dropObjs c s) = standing s := by
  have h : standing (modCtx c (fun v => { v with maps := [] }) s) = standing s := standing_putCtx rfl
  unfold dropObjs
  exact (standing_foldl (by simp) _ _).trans h
@[simp] theorem standing_emptyCtx (c status : Nat) (s : State) : standing (emptyCtx c status s) = standing s := by
  simp [emptyCtx]

/-! Queues (06 R123; 04 R64). -/

@[simp] theorem standing_endQueue (q mode : Nat) (s : State) : standing (endQueue q mode s) = standing s := by
  simp [endQueue, abortLaunches, pumpFailed]
@[simp] theorem standing_removeQueues (c : Nat) (destroy : Bool) (s : State) : standing (removeQueues c destroy s) = standing s := by
  have h : standing ((ctxQueues s c).foldl (fun s q => endQueue q (if isAdminQueue s q && !destroy then 2 else 1) s) s) = standing s := by simp
  exact (standing_of_tables rfl rfl rfl).trans h
@[simp] theorem standing_discardCtx (c : Nat) (s : State) : standing (discardCtx c s) = standing s := by simp [discardCtx]

/-! A partition's scrub (07 R147). -/

theorem standing_scrubPart (p : Nat) (s : State) : standing (scrubPart p s) = standing s := by
  simp [scrubPart]

end Sys2Proof.Machine
end

section
/-! Contexts, function resets, partitions and CAR_PWR_EN (06 R107, R128 to R130; 04 R64; 07 R144, R147, R148; 03 R51). Settles O33. -/

namespace Sys2Proof.Machine

/-! CTX_CREATE (06 R107). -/

/-- A partition that is taken into use: the partition and its root slots change. -/
theorem holdPart_frame (p : Nat) (s : State) : ∃ t n, holdPart p s = { s with host := { s.host with part := t }, nut := n } := by
  unfold holdPart; dsimp only; split
  · exact ⟨_, _, rfl⟩
  · split <;> exact ⟨_, _, rfl⟩

/-- A fresh channel draws free values. -/
theorem newChannel_frame (gen : Nat) (s : State) : ∃ n, (newChannel gen s).2 = { s with free := n } := by
  unfold newChannel; split <;> exact ⟨_, rfl⟩

/-- What a new context changes: the context table, its order, the partition it is in, that partition's root slots, and free values. -/
theorem addCtx_frame (c p root creator : Nat) (notReady : Bool) (fn : Fn) (s : State) : ∃ v t n f,
    v.st = 1 ∧ v.part = p ∧ v.creator = creator ∧ v.root = root ∧ v.notReady = notReady ∧ v.maps = [] ∧
    addCtx c p root creator notReady fn s = { s with
      host := { s.host with part := t, ctxs := tabPut Ctx.init s.host.ctxs c v, nextOrder := s.host.nextOrder + 1 }, nut := n, free := f } := by
  obtain ⟨t, n, hhold⟩ := holdPart_frame p s
  obtain ⟨f, hchan⟩ := newChannel_frame 0 (holdPart p s)
  refine ⟨{ Ctx.init with st := 1, part := p, notReady := notReady, root := root, creator := creator, fn := fn
                          order := s.host.nextOrder, chan := (newChannel 0 (holdPart p s)).1 }, t, n, f, rfl, rfl, rfl, rfl, rfl, rfl, ?_⟩
  unfold addCtx; dsimp only
  rw [hchan, hhold]; rfl

theorem ctxCreate_creates {s : State} {p : Packet} (q : QRef) (hf : ctxCreateFault s p = none) (hp : (getPart s (ctxPart s p)).st ≠ 2) :
    ctxCreate q p s = (.done (Done.res (lowestFree (ctxNumbers s)) 0),
      addCtx (lowestFree (ctxNumbers s)) (ctxPart s p) (p.w 0) p.ctx (bitOf (p.w 1) 8) (ctxFn s p.ctx) s) := by
  unfold ctxCreate; rw [hf]; exact if_neg hp

/-! CTX_RESET and CTX_DESTROY (06 R107, R128). -/

section
variable {s : State} {q : QRef} {p : Packet} {destroy : Bool}

theorem endCmd_device (h : bits (p.w 0) 0 12 = 0) : endCmd destroy q p s = (.done (Done.fail 0x0201 0), s) := if_pos h
theorem endCmd_gone (h0 : bits (p.w 0) 0 12 ≠ 0) (h : (getCtx s (bits (p.w 0) 0 12)).st = 0 ∨ (getCtx s (bits (p.w 0) 0 12)).st = 3) :
    endCmd destroy q p s = (.done (Done.fail 0x0403 0), s) := (if_neg h0).trans (if_pos h)
theorem endCmd_starts (h0 : bits (p.w 0) 0 12 ≠ 0) (h1 : (getCtx s (bits (p.w 0) 0 12)).st = 1) (hn : mayName s p.ctx (bits (p.w 0) 0 12) = true) :
    endCmd destroy q p s = (.later, startEnd (bits (p.w 0) 0 12) destroy (some q) s) := by
  unfold endCmd; dsimp only
  rw [if_neg h0, if_neg (by omega), if_neg (by simp [hn]), if_neg (by omega)]

end

theorem getCtx_startEnd (c : Nat) (destroy : Bool) (by_ : Option QRef) (s : State) (j : Nat) : getCtx (startEnd c destroy by_ s) j =
    if j = c then { getCtx (abortRounds c s) c with
      st := if destroy then 3 else 2, wait := some { destroy := destroy, acks := engines, by_ := by_, since := s.lark.time, quar := none } }
    else getCtx (abortRounds c s) j := getCtx_putCtx _ _ _ _

theorem startEnd_st (c : Nat) (destroy : Bool) (by_ : Option QRef) (s : State) (j : Nat) :
    (getCtx (startEnd c destroy by_ s) j).st = if j = c then (if destroy then 3 else 2) else (getCtx s j).st := by
  rw [getCtx_startEnd]; split
  · rfl
  · exact ctxSt_of_standing (standing_abortRounds c s) j

/-! Acknowledgements (06 R128, R129). -/

section
variable {s : State} {c : Nat} {e : Engine} {w : ResetWait}

/-- An acknowledgement with others outstanding. -/
theorem ackEngine_others (h : ∃ x ∈ w.acks, x ≠ e) (s : State) :
    (getCtx (ackEngine c e w s) c).wait = some { w with acks := w.acks.filter (· != e) } := by
  have hne : (w.acks.filter (· != e)).isEmpty = false := by
    obtain ⟨x, hx, hxe⟩ := h
    rw [List.isEmpty_eq_false_iff_exists_mem]
    exact ⟨x, List.mem_filter.2 ⟨hx, by simpa using hxe⟩⟩
  unfold ackEngine; dsimp only
  rw [hne]; simp

/-- The last acknowledgement. -/
theorem ackEngine_last (h : w.acks = [e]) (s : State) :
    ackEngine c e w s = endCtx c { w with acks := [] } (engineEnd e c (endStatus w.destroy) w.by_ s) := by
  unfold ackEngine; rw [h]; simp

theorem exec_engineAck (hup : s.up) (hw : (getCtx s c).wait = some w) (he : e ∈ w.acks) :
    exec (.engineAck c e) s = .next (ackEngine c e w s) := by
  show execEngineAck c e s = _
  unfold execEngineAck; rw [hw]
  exact next_if_pos (by simp [regsOpen_of hup, he])

theorem exec_engineAckTimeout (hup : s.up) (hw : (getCtx s c).wait = some w) (he : e ∈ w.acks) : exec (.engineAckTimeout c e) s =
    .next (if w.since + 1000000 ≤ s.lark.time then
      ackEngine c e { w with quar := w.quar.or (some (engineUnit s c e)) }
        (failUnitWork (engineUnit s c e) (quarantine (engineUnit s c e) (raisePlain 0x0C04 (some c) (engineUnit s c e)) s)) else s) := by
  show execEngineAckTimeout c e s = _
  unfold execEngineAckTimeout; rw [hw]; simp [regsOpen_of hup, he]

end

/-! The end of a reset or destroy (06 Table 6.2, R128). -/

/-- A number that a table does not list. -/
theorem tabGet_unlisted {α : Type} (d : α) {t : Tab α} {k : Nat} (h : ∀ e ∈ t, e.1 ≠ k) : tabGet d t k = d := by
  induction t with
  | nil => rfl
  | cons e t ih =>
    rw [List.forall_mem_cons] at h
    rw [tabGet, if_neg h.1]; exact ih h.2

theorem removeCtx_absent (c : Nat) (s : State) : getCtx (removeCtx c s) c = Ctx.init := by
  have hscrub (p : Nat) (u : State) : getCtx (scrubIfLeft p u) c = getCtx u c := by unfold scrubIfLeft; split <;> rfl
  unfold removeCtx; dsimp only
  rw [hscrub]
  refine tabGet_unlisted Ctx.init fun e he => ?_
  obtain ⟨x, hx, rfl⟩ := List.mem_map.1 he
  have hkey := tabDel_keys _ c x hx
  split <;> exact hkey

theorem getCtx_reviveCtx (c : Nat) (s : State) (j : Nat) : ∃ ch, getCtx (reviveCtx c s) j =
    if j = c then { getCtx s c with st := 1, lastFault := 0, maps := [], chan := ch, wait := none } else getCtx s j := by
  refine ⟨(if c = 0 then ((getCtx s c).chan, s) else newChannel (getCtx s c).chan.gen s).1, ?_⟩
  have hother : getCtx (if c = 0 then ((getCtx s c).chan, s) else newChannel (getCtx s c).chan.gen s).2 j = getCtx s j := by
    split
    · rfl
    · obtain ⟨f, h⟩ := newChannel_frame (getCtx s c).chan.gen s
      rw [h]; rfl
  rw [← hother]; exact getCtx_putCtx _ _ _ _

/-- A context ends that no command asked to end. -/
theorem endCtx_unasked {w : ResetWait} (h : w.by_ = none) (c : Nat) (s : State) : endCtx c w s =
    if w.destroy then removeCtx c (removeQueues c w.destroy (emptyCtx c (endStatus w.destroy) s))
    else reviveCtx c (removeQueues c w.destroy (emptyCtx c (endStatus w.destroy) s)) := by
  unfold endCtx; rw [h]; rfl

theorem endCtx_destroyed {w : ResetWait} (h : w.by_ = none) (hd : w.destroy = true) (c : Nat) (s : State) : getCtx (endCtx c w s) c = Ctx.init := by
  rw [endCtx_unasked h, if_pos hd]; exact removeCtx_absent c _

theorem endCtx_reset {w : ResetWait} (h : w.by_ = none) (hd : w.destroy = false) (c : Nat) (s : State) :
    (getCtx (endCtx c w s) c).st = 1 ∧ (getCtx (endCtx c w s) c).maps = [] ∧ (getCtx (endCtx c w s) c).wait = none := by
  rw [endCtx_unasked h, if_neg (by simp [hd])]
  obtain ⟨ch, hget⟩ := getCtx_reviveCtx c (removeQueues c w.destroy (emptyCtx c (endStatus w.destroy) s)) c
  rw [hget, if_pos rfl]; exact ⟨rfl, rfl, rfl⟩

/-! Function resets (04 R64). -/

/-- A function reset of context `a` makes it Resetting where it is Active, and leaves every other but context 0 where it stands. -/
theorem fnResetCtx_st (s : State) (a : Nat) {c : Nat} (hc : c ≠ 0) :
    (getCtx (fnResetCtx s a) c).st = if c = a ∧ (getCtx s c).st = 1 then 2 else (getCtx s c).st := by
  have hd (j : Nat) : (getCtx (discardCtx a s) j).st = (getCtx s j).st := ctxSt_of_standing (standing_discardCtx a s) j
  unfold fnResetCtx; dsimp only
  split
  · rename_i ha
    obtain ⟨ch, hget⟩ := getCtx_reviveCtx 0 (emptyCtx 0 0x0701 (discardCtx a s)) c
    rw [hget, if_neg hc, ctxSt_of_standing (standing_emptyCtx 0 0x0701 _), hd, if_neg (by omega)]
  · rw [hd]; split
    · rename_i h1
      rw [startEnd_st, hd]
      by_cases hca : c = a
      · subst hca; simp [h1]
      · simp [hca]
    · rename_i h1
      rw [hd, if_neg fun ⟨hca, h⟩ => h1 (hca ▸ h)]

theorem mem_ctxNumbers {s : State} {c : Nat} (h : (getCtx s c).st ≠ 0) : c ∈ ctxNumbers s := by
  have hlisted (t : Tab Ctx) (ht : (tabGet Ctx.init t c).st ≠ 0) : (c, tabGet Ctx.init t c) ∈ t := by
    induction t with
    | nil => exact absurd rfl ht
    | cons e t ih =>
      obtain ⟨k, v⟩ := e
      rw [tabGet] at ht ⊢
      split
      · rename_i hk; rw [hk]; exact List.mem_cons_self
      · rename_i hk; rw [if_neg hk] at ht; exact List.mem_cons_of_mem _ (ih ht)
  exact List.mem_map.2 ⟨_, List.mem_filter.2 ⟨hlisted _ h, bne_iff_ne.2 h⟩, rfl⟩

/-- A function reset of the contexts of a list leaves each of them that was Active Resetting. -/
theorem foldl_fnResetCtx_st {s : State} {l : List Nat} {c : Nat} (hmem : c ∈ l) (hc : c ≠ 0) (h : (getCtx s c).st = 1) :
    (getCtx (l.foldl fnResetCtx s) c).st = 2 := by
  refine foldl_establishes (I := fun t => (getCtx t c).st = 1 ∨ (getCtx t c).st = 2) (P := fun a t => a = c → (getCtx t c).st = 2)
    (fun t a ht => ?_) (fun t a b _ hb e => ?_) (fun t a ht e => ?_) l s (.inl h) c hmem rfl
  · rw [fnResetCtx_st t a hc]; split <;> omega
  · rw [fnResetCtx_st t a hc, hb e]; split <;> omega
  · rw [fnResetCtx_st t a hc]; split <;> omega

/-! Virtual functions (07 R148). -/

theorem makeVf_vf (s : State) (v : Nat) : (makeVf s v).host.vfEnable = s.host.vfEnable ∧ (makeVf s v).host.vfNum = s.host.vfNum := by
  unfold makeVf; dsimp only; split
  · exact ⟨rfl, rfl⟩
  · obtain ⟨_, _, _, _, -, -, -, -, -, -, h⟩ := addCtx_frame (lowestFree (ctxNumbers s)) (vfPart s v) 0 0 false (.vf v) s
    rw [h]; exact ⟨rfl, rfl⟩

theorem foldl_makeVf_vf (l : List Nat) (s : State) :
    (l.foldl makeVf s).host.vfEnable = s.host.vfEnable ∧ (l.foldl makeVf s).host.vfNum = s.host.vfNum :=
  List.foldlRecOn l makeVf (motive := fun t => t.host.vfEnable = s.host.vfEnable ∧ t.host.vfNum = s.host.vfNum) ⟨rfl, rfl⟩
    fun t ht v _ => ⟨(makeVf_vf t v).1.trans ht.1, (makeVf_vf t v).2.trans ht.2⟩

theorem vfsOn_of_off {s : State} (h : s.host.vfEnable = false) : vfsOn s = [] := by simp [vfsOn, h]

/-- VF Enable cleared where it is clear. -/
theorem writeVfEnable_off {s : State} (h : s.host.vfEnable = false) (n : Nat) :
    writeVfEnable false n s = { s with host := { s.host with vfNum := 0 } } := by
  have e : writeVfEnable false n s = onHost (fun v => { v with vfEnable := false, vfNum := 0 }) s := by
    unfold writeVfEnable; rw [vfsOn_of_off h]; rfl
  rw [e, ← h]; rfl

theorem writeVfEnable_sole {s : State} (hs : s.host.shared = false) (hv : s.host.vfEnable = false) (n : Nat) :
    writeVfEnable true n s = raisePlain 0x0201 none 0xFFFF s := by
  simp [writeVfEnable, hs, hv]

/-- VF Enable set in Shared tenancy. -/
theorem writeVfEnable_shared {s : State} (hs : s.host.shared = true) (hv : s.host.vfEnable = false) (n : Nat) :
    (writeVfEnable true n s).host.vfEnable = true ∧ (writeVfEnable true n s).host.vfNum = n := by
  have e : writeVfEnable true n s =
      (vfsOn (onHost (fun h => { h with vfEnable := true, vfNum := n }) s)).foldl makeVf (onHost (fun h => { h with vfEnable := true, vfNum := n }) s) := by
    simp [writeVfEnable, hs, hv]
  rw [e]; exact foldl_makeVf_vf _ _

/-- 07 R147: the end of a partition's scrub where no virtual function is enabled. -/
theorem exec_partitionScrubDone {s : State} {p : Nat} (hon : s.pwr.st ≠ .off) (hp : (getPart s p).st = 2) (hv : s.host.vfEnable = false) :
    exec (.partitionScrubDone p) s = .next (putPart p { getPart s p with st := 0, owner := none, scrubSeq := (getPart s p).scrubSeq + 1 } (scrubPart p s)) := by
  have hstand := standing_scrubPart p s
  have hnone : vfsOn (putPart p { getPart s p with st := 0, owner := none, scrubSeq := (getPart s p).scrubSeq + 1 } (scrubPart p s)) = [] :=
    vfsOn_of_off ((vfEnable_of_standing hstand).trans hv)
  refine (next_if_pos (by simp [powered_of hon, hp])).trans ?_
  dsimp only; rw [part_of_standing hstand, hnone]; rfl

/-! Time-sharing and CAR_PWR_EN (07 R144; 03 R51). -/

theorem exec_timeShareSlot_dunnock {s : State} {q : Nat} {v : Queue} (hup : s.up) (hs : s.host.shared = true) (hp : 1 < s.host.parts)
    (hq : (s.host.queues.filter fun e => e.2.typ == 1 && (getCtx s e.2.ctx).part == s.lark.time / 1000 % s.host.parts) = [(q, v)]) :
    exec (.timeShareSlot .dunnock) s = .next (dmaNext s q) := by
  have hrun : exec (.timeShareSlot .dunnock) s = .next (((s.host.queues.filter fun e => e.2.typ == 1 &&
      (getCtx s e.2.ctx).part == s.lark.time / 1000 % s.host.parts).map Prod.fst).foldl dmaNext s) :=
    congrArg Host.Outcome.next (if_neg (by simp [regsOpen_of hup, hs, hp]))
  rw [hrun, hq]; rfl

theorem exec_carPwrEnLow_running {s : State} (held : Bool) (h : s.pwr.st = .idle ∨ s.pwr.st = .run) :
    ∃ t, exec (.carPwrEnLow held) s = .next t ∧ t.pwr.st = .standby ∧ t.pwr.target = none := by
  refine ⟨_, next_if_pos h, powerLeg_arrives rfl rfl nofun⟩

theorem exec_carPwrEnLow_standby {s : State} (held : Bool) (h : s.pwr.st = .standby) :
    exec (.carPwrEnLow held) s = .next (standbyHeld (onPins (fun p => { p with carPwrEn := !held }) s)) :=
  congrArg Host.Outcome.next ((if_neg (by simp [h])).trans (if_pos h))

/-- Settles O33: what a reset leaves of its context is what its last acknowledgement writes, and what ends work leaves every other context
where it stands. -/
theorem contextsResetOnlyThroughTheirEngines : Obligations.ContextsResetOnlyThroughTheirEngines := by
  unfold Obligations.ContextsResetOnlyThroughTheirEngines
  refine ⟨fun s q p c ht hf hp hc => ?create, fun s q p c destroy i hc hi => ?ends, by decide, fun s c e w hup hw he => ?acks,
    fun s c p hon => ⟨next_if_pos (powered_of hon), fun hp hv => ?scrub⟩, fun s hup => ?flr, fun s n hup => ?vf,
    fun s q v hup hs hp => ⟨?other, fun hq hop => ?dma⟩, fun s held => ⟨exec_carPwrEnLow_running held, fun h ht hr => ?quiet, fun q h hr => ?asked⟩⟩
  case create =>
    obtain ⟨v, t, n, f, hst, hpart, hcreator, hroot, hready, hmaps, hadd⟩ :=
      addCtx_frame c (ctxPart s p) (p.w 0) p.ctx (bitOf (p.w 1) 8) (ctxFn s p.ctx) s
    have hget (j : Nat) : getCtx (addCtx c (ctxPart s p) (p.w 0) p.ctx (bitOf (p.w 1) 8) (ctxFn s p.ctx) s) j = if j = c then v else getCtx s j := by
      rw [hadd]; exact tabGet_put _ _ _ _ _
    subst hc
    refine ⟨_, exec_finishes ht rfl (ctxCreate_creates q hf hp) nofun nofun, ?_⟩
    simp only [hget, if_true]
    exact ⟨hst, hpart, hcreator, hroot, hready, hmaps, fun j hj => if_neg hj, by rw [hadd], by rw [hadd]⟩
  case ends =>
    obtain ⟨op, hexec, ht⟩ : ∃ op, exec i s = .next (runCmd op (endCmd destroy) q s) ∧ Turn s q op p := by
      rcases hi with ⟨rfl, rfl, ht⟩ | ⟨rfl, rfl, ht⟩ <;> exact ⟨_, rfl, ht⟩
    subst hc
    refine ⟨fun h0 => ?_, fun h0 h => ?_, fun h0 h1 hn => ?_⟩
    · exact exec_finishes ht hexec (endCmd_device h0) nofun nofun
    · exact exec_finishes ht hexec (endCmd_gone h0 h) nofun nofun
    · refine ⟨_, hexec.trans (congrArg _ (runCmd_later ht (endCmd_starts h0 h1 hn))), ?_⟩
      rw [getCtx_startEnd, if_pos rfl]; exact ⟨rfl, rfl⟩
  case acks =>
    refine ⟨fun h => ⟨_, exec_engineAck hup hw he, ackEngine_others h s⟩,
      fun hlast hby => ⟨_, exec_engineAck hup hw he, fun hd => ?_, fun hd => ?_⟩, fun h => ?_, fun h hx => ?_⟩
    · rw [ackEngine_last hlast]; exact endCtx_destroyed hby hd _ _
    · rw [ackEngine_last hlast]; exact endCtx_reset hby hd _ _
    · rw [exec_engineAckTimeout hup hw he, if_neg (by omega)]
    · obtain ⟨n, hn⟩ : ∃ n, w.quar.or (some (engineUnit s c e)) = some n := by cases w.quar <;> exact ⟨_, rfl⟩
      refine ⟨_, n, (exec_engineAckTimeout hup hw he).trans (next_if_pos h), ?_⟩
      rw [hn]; exact ackEngine_others (w := { w with quar := some n }) hx _
  case scrub =>
    refine ⟨_, exec_partitionScrubDone hon hp hv, ?_⟩
    rw [getPart_putPart_same]; exact ⟨rfl, rfl, rfl⟩
  case flr =>
    refine ⟨_, next_if_pos (regsOpen_of hup), rfl, fun c hc h => ?_⟩
    exact foldl_fnResetCtx_st (mem_ctxNumbers (by omega)) hc h
  case vf =>
    have hopen (on : Bool) : exec (.vfEnableWrite on n) s = .next (writeVfEnable on n s) := next_if_pos (regsOpen_of hup)
    rw [hopen, hopen]
    refine ⟨fun hs hv => ?_, fun hs hv => ⟨Config.eventDetail 0x0201, ?_⟩, fun hv => by rw [writeVfEnable_off hv]⟩
    · exact ⟨_, rfl, writeVfEnable_shared hs hv n⟩
    · rw [writeVfEnable_sole hs hv]; rfl
  case other => exact congrArg Host.Outcome.next (ite_self _)
  case dma =>
    rw [exec_timeShareSlot_dunnock hup hs hp hq]; unfold dmaNext; dsimp only; rw [hop]; rfl
  case quiet =>
    rw [exec_carPwrEnLow_standby held h]; unfold standbyHeld; rw [onPins_pwr, hr]
    show _ = Host.Outcome.next { s with pwr := { s.pwr with pins := { s.pwr.pins with carPwrEn := !held } } }
    rw [← ht]; rfl
  case asked =>
    refine ⟨_, (exec_carPwrEnLow_standby held h).trans ?_, rfl⟩
    unfold standbyHeld; rw [onPins_pwr, hr]; rfl

end Sys2Proof.Machine
end

section
/-! SUPPORT. Rules of the boot ROM (04): the eight checks, what accepting an image and halting leave, and the parts of a run from step 2. -/

namespace Sys2Proof.Machine

/-! The checks of an image (04 R69). -/

/-- A check among others: no fault is found where it passes and no later one finds any. -/
theorem fault_eq_none_iff {α : Type} {c : Prop} [Decidable c] {x : α} {o : Option α} : (if c then some x else o) = none ↔ ¬ c ∧ o = none := by
  by_cases h : c <;> simp [h]

theorem imageFault_eq_none_iff (b : Boot) (floor : Nat) (img : List Byte) : imageFault b floor img = none ↔ ImageOk b floor img := by
  have hzero (l : List Byte) (n : Nat) : ¬ (l.any (· != 0) = true ∨ n ≠ 0) ↔ n = 0 ∧ ∀ x ∈ l, x = 0 := by
    rw [not_or, and_comm]; simp
  have hboth (x y : Bool) : ¬ (!x || !y) = true ↔ x = true ∧ y = true := by simp
  have hrange (n : Nat) : ¬ (n = 0 ∨ 15720448 < n) ↔ 1 ≤ n ∧ n ≤ 15720448 := by omega
  have hdebug (x y : Bool) : ¬ (x && !y) = true ↔ (x = true → y = true) := by simp
  unfold imageFault ImageOk
  simp only [fault_eq_none_iff, hzero, hboth, hrange, hdebug, not_or, Decidable.not_not, ne_eq, Nat.not_lt, Bool.not_eq_true, and_assoc, and_true]

theorem imageCheck_none {b : Boot} {floor : Nat} {img : List Byte} (h : ImageOk b floor img) : imageCheck b floor img = none := by
  unfold imageCheck; rw [(imageFault_eq_none_iff b floor img).2 h]; rfl
theorem imageCheck_some {b : Boot} {floor : Nat} {img : List Byte} {n c : Nat} (h : imageFault b floor img = some (n, c)) :
    imageCheck b floor img = some c := by
  unfold imageCheck; rw [h]; rfl

/-! An accepted image (04 R70, R75; 08 R152). -/

/-- Of the boot block an extend changes the accumulators and the measurement log. -/
theorem extendOr_frame (n : Nat) (digest : List Byte) (s : State) : ∃ a l, extendOr n digest s = { s with boot := { s.boot with accs := a, measLog := l } } := by
  unfold extendOr extendAcc; split <;> exact ⟨_, _, rfl⟩

theorem measureBoot_frame (s : State) : ∃ a l, measureBoot s = { s with boot := { s.boot with accs := a, measLog := l } } := by
  have hcomp {u : State} (hu : ∃ a l, u = { s with boot := { s.boot with accs := a, measLog := l } }) (n : Nat) (digest : List Byte) :
      ∃ a l, extendOr n digest u = { s with boot := { s.boot with accs := a, measLog := l } } := by
    obtain ⟨a, l, rfl⟩ := hu
    exact extendOr_frame n digest _
  unfold measureBoot; dsimp only
  exact hcomp (hcomp (hcomp (hcomp (hcomp (extendOr_frame _ _ s) _ _) _ _) _ _) _ _) _ _

/-- 04 Table 4.2: step 6 is done. -/
theorem acceptImage_accepted (src : Nat) (slot : Bool) (img : List Byte) (s : State) :
    Accepted img src (acceptImage src slot img s) ∧ (acceptImage src slot img s).boot.slot = slot := by
  obtain ⟨a, l, h⟩ := measureBoot_frame (onBoot (fun b => { b with image := img, src := BitVec.ofNat 2 src, slot := slot, stage := 1,
                                                                   step := 5, svn := field img 8 4 }) s)
  unfold acceptImage; dsimp only
  rw [h]
  exact ⟨⟨rfl, rfl, rfl, rfl, rfl, rfl, rfl, rfl⟩, rfl⟩

/-! A halt (04 R67). -/

/-- Events leave MGMT_ALERT_N low in a boot halt. -/
theorem raiseEv_alert {s : State} (h : s.boot.stage = 4) (ha : s.pwr.pins.mgmtAlertN = false) (code : Nat) (ctx : Option Nat) (unit detail : Nat) :
    (raiseEv code ctx unit detail s).pwr.pins.mgmtAlertN = false := by
  unfold raiseEv; dsimp only; split
  · exact ha
  · unfold evNotify; dsimp only
    rw [emit_if_pwr]; simp [syncAlert, h, setEvlog]

theorem bootHalt_halted {s : State} (h : s.boot.stage ≠ 4) : Halted s.boot.code (bootHalt s) := by
  have he := raisePlain_frame 0x0C12 none 0xFFFF (syncAlert (onBoot (fun b => { b with stage := 4 }) s))
  unfold bootHalt; rw [if_neg h]
  refine ⟨by rw [he]; rfl, by rw [he]; rfl, raiseEv_alert rfl ?_ _ _ _ _⟩
  simp [syncAlert, onPins]

/-! An image offered by the host or a fabric manager (04 R66, R69). -/

section
variable {s : State} (hf : s.boot.code ≠ 0x10) (hl : s.boot.code ≠ 0x24)
include hf hl

theorem offerImage_accepted {img : List Byte} (h : ImageOk s.boot s.boot.floor img) (src : Nat) : Accepted img src (offerImage src img s) := by
  have e : offerImage src img s = acceptImage src false img s := by
    unfold offerImage; rw [if_neg (by simp [hf, hl]), imageCheck_none h]
  rw [e]; exact (acceptImage_accepted src false img s).1

theorem offerImage_refused {img : List Byte} {n c : Nat} (h : imageFault s.boot s.boot.floor img = some (n, c)) (hst : s.boot.stage ≠ 4) (src : Nat) :
    Halted c (offerImage src img s) := by
  have e : offerImage src img s = bootHalt (onBoot (fun b => { b with code := c, fallback := true }) s) := by
    unfold offerImage; rw [if_neg (by simp [hf, hl]), imageCheck_some h]
  rw [e]; exact bootHalt_halted (s := onBoot _ s) hst

end

/-- Darkening the boot link ports changes ports only. -/
theorem darkBootPorts_frame (s : State) : ∃ ports, darkBootPorts s = { s with skn := ports } := by
  unfold darkBootPorts
  refine List.foldlRecOn _ _ (motive := fun u : State => ∃ ports, u = { s with skn := ports }) ⟨s.skn, rfl⟩ fun u hu n _ => ?_
  obtain ⟨ports, rfl⟩ := hu
  split <;> exact ⟨_, rfl⟩

/-! A run of the boot ROM from step 2 (04 R66, R72, R77). -/

section
variable {s : State} (hl : s.boot.fuses.lifecycle.getLsbD 4 = false)
include hl

theorem bootRun_fuseFault (h : fusesOk s.boot.fuses = false) : bootRun s = bootHalt (setCode 0x10 s) := by
  have hrma : ¬ s.boot.fuses.lifecycle.getLsbD 4 = true := Bool.eq_false_iff.1 hl
  unfold bootRun; rw [if_neg hrma]
  exact if_pos (by rw [h]; rfl)

variable (hf : fusesOk s.boot.fuses = true) (he : s.boot.fuses.epoch = s.boot.fuses.epochMargin)
include hf he

/-- With good fuses that name one epoch count the record copies decide (04 R77). -/
theorem bootRun_goodFuses : bootRun s = (rollPick s.boot s.boot.fuses.epoch).elim
    (bootHalt (setCode 0x24 (onBoot (fun b => { b with step := 2 }) s)))
    fun i => bootSource (onBoot (fun b => { b with step := 3, floor := (rollCopy b i).floor, updCnt := (rollCopy b i).counter, rollSel := i }) s) := by
  have hrma : ¬ s.boot.fuses.lifecycle.getLsbD 4 = true := Bool.eq_false_iff.1 hl
  have hgood : ¬ (!fusesOk s.boot.fuses) = true := by simp [hf]
  have hepoch : settleEpoch s.boot = some s.boot := if_pos he
  have hstep : rollPick { s.boot with step := 2 } s.boot.fuses.epoch = rollPick s.boot s.boot.fuses.epoch := rfl
  unfold bootRun; rw [if_neg hrma]; dsimp only
  rw [if_neg hgood, hepoch]; dsimp only [onBoot_boot]
  rw [hstep]
  cases rollPick s.boot s.boot.fuses.epoch <;> rfl

end

/-! Sources (04 R66). -/

theorem bootSource_host {s : State} (h : s.pwr.straps.boot = 1) : bootSource s = onBoot (fun b => { b with stage := 2 }) s := by
  unfold bootSource; rw [h]; rfl
theorem bootSource_fabric {s : State} (h : s.pwr.straps.boot = 2) :
    bootSource s = onBoot (fun b => { b with stage := 3, fabricStart := s.lark.time }) s := by
  unfold bootSource; rw [h]; rfl
theorem bootSource_flash {s : State} {a : Bool} (h : s.pwr.straps.boot = 0) (ha : activeSlot s.boot.flash = some a)
    (hok : ImageOk s.boot s.boot.floor (slotImage s.boot a)) : bootSource s = acceptImage 0 a (slotImage s.boot a) s := by
  have htry : tryFlash s = (true, acceptImage 0 a (slotImage s.boot a) s) := by
    unfold tryFlash; rw [ha]; dsimp only; rw [imageCheck_none hok]
  unfold bootSource; rw [h, htry]; rfl

end Sys2Proof.Machine
end

section
/-! The acceptance of images (04 R66, R67, R69). Settles O18. -/

namespace Sys2Proof.Machine

theorem exec_bootMbxGo {s : State} (hon : s.pwr.st ≠ .off) (hw : s.pwr.warmBusy = false) (hh : s.boot.hold = none)
    (hst : s.boot.stage = 2 ∨ s.boot.stage = 4) : exec .bootMbxGo s = .next (offerImage 1 (mailboxImage s.boot) s) :=
  next_if_pos ⟨powered_of hon, hst, hh, hw⟩

theorem exec_fabricBootImage {s : State} (hon : s.pwr.st ≠ .off) (hh : s.boot.hold = none) (hst : s.boot.stage = 3) (img : List Byte) :
    exec (.fabricBootImage img) s = .next (offerImage 2 img (darkBootPorts s)) := next_if_pos ⟨powered_of hon, hst, hh⟩

/-- Settles O18, by what an offered image comes to and what a halt leaves. -/
theorem bootAcceptsExactlyTheCheckedImages : Obligations.BootAcceptsExactlyTheCheckedImages := by
  unfold Obligations.BootAcceptsExactlyTheCheckedImages
  refine ⟨imageFault_eq_none_iff, fun s hon hw hh hst hf hl => ⟨fun hok => ?_, fun n c hbad h2 => ?_⟩,
    fun s img hon hh hst hf hl => ⟨fun hok => ?_, fun n c hbad => ?_⟩, fun s hon hst => next_if_pos ⟨powered_of hon, hst⟩, fun s hon hst ht => ?_⟩
  · exact ⟨_, exec_bootMbxGo hon hw hh hst, offerImage_accepted hf hl hok 1⟩
  · exact ⟨_, exec_bootMbxGo hon hw hh hst, offerImage_refused hf hl hbad (by omega) 1⟩
  all_goals
    obtain ⟨ports, hdark⟩ := darkBootPorts_frame s
    have hrun : s.boot.stage ≠ 4 := by omega
  · refine ⟨_, exec_fabricBootImage hon hh hst img, ?_⟩
    rw [hdark]; exact offerImage_accepted (s := { s with skn := ports }) hf hl hok 2
  · refine ⟨_, exec_fabricBootImage hon hh hst img, ?_⟩
    rw [hdark]; exact offerImage_refused (s := { s with skn := ports }) hf hl hbad hrun 2
  · refine ⟨_, next_if_pos ⟨powered_of hon, hst, ht⟩, ?_⟩
    rw [hdark]; exact bootHalt_halted (s := setCode 0x30 { s with skn := ports }) hrun

end Sys2Proof.Machine
end

section
/-! The run of the boot ROM and of the resident firmware (04 R65, R66, R72, R77). Settles O19. -/

namespace Sys2Proof.Machine

/-- The boot ROM has begun its run (04 Table 4.2). -/
def romStarted (s : State) : State := onBoot (fun b => { b with step := 1 }) s

section
variable {s : State} (hrom : romMayRun s = true)
include hrom

theorem exec_bootSequence (htj : -20 ≤ s.pwr.tj) : exec .bootSequence s = .next (bootRun (romStarted s)) := by
  have hwarm : ¬ (romStarted s).pwr.tj < -20 := Int.not_lt.2 htj
  exact (next_if_pos hrom).trans (congrArg _ (if_neg hwarm))

theorem not_halted_of_romMayRun : s.boot.stage ≠ 4 := by
  simp only [romMayRun, Bool.and_eq_true, decide_eq_true_eq] at hrom
  obtain ⟨⟨⟨⟨-, hst⟩, -⟩, -⟩, -⟩ := hrom
  omega

end

/-- The state in which a boot ROM that has checked fuses and record takes its source (04 Table 4.2). -/
def recordRead (i : Bool) (s : State) : State :=
  onBoot (fun b => { b with step := 3, floor := (rollCopy b i).floor, updCnt := (rollCopy b i).counter, rollSel := i }) s

theorem exec_bootSequence_ready {s : State} {i : Bool} (h : RomReady s i) : exec .bootSequence s = .next (bootSource (recordRead i s)) := by
  obtain ⟨hrom, htj, hl, hf, he, hpick⟩ := h
  rw [exec_bootSequence hrom htj, bootRun_goodFuses (s := romStarted s) hl hf he]
  have hstep : rollPick (romStarted s).boot (romStarted s).boot.fuses.epoch = some i := hpick
  rw [hstep]; rfl

/-- RUNNING (04 R65; 06 R107; 18 R350). -/
theorem firmwareStart_runs (s : State) : (firmwareStart s).boot.stage = 8 ∧ (firmwareStart s).boot.step = 7 ∧
    (∀ c, getCtx (firmwareStart s) c = if c = 0 then { Ctx.init with st := 1 } else getCtx s c) ∧
    (firmwareStart s).mtr = if s.mtr.started then s.mtr else
      { s.mtr with started := true, cur := Period.init 1 s.lark.time, nextMs := s.lark.time + 1000000 } := by
  unfold firmwareStart; dsimp only; split
  · rename_i h; exact ⟨rfl, rfl, fun c => getCtx_putCtx _ _ _ _, (if_pos h).symm⟩
  · rename_i h; exact ⟨rfl, rfl, fun c => getCtx_putCtx _ _ _ _, (if_neg h).symm⟩

/-- Settles O19: with good fuses and a valid record the source follows the straps. -/
theorem bootSequenceFollowsStrapsAndRecord : Obligations.BootSequenceFollowsStrapsAndRecord := by
  unfold Obligations.BootSequenceFollowsStrapsAndRecord
  refine ⟨fun s hrom htj hl => ⟨fun hf => ?fuses, fun hf he hpick => ?record⟩,
    fun s i h => ⟨fun hb => ?host, fun hb => ?fabric, fun a hb ha hok => ?flash⟩, fun s hon hst hstep => ?firmware⟩
  case fuses =>
    have hrun : s.boot.stage ≠ 4 := not_halted_of_romMayRun hrom
    refine ⟨_, exec_bootSequence hrom htj, ?_⟩
    rw [bootRun_fuseFault (s := romStarted s) hl hf]
    exact bootHalt_halted (s := setCode 0x10 (romStarted s)) hrun
  case record =>
    have hrun : s.boot.stage ≠ 4 := not_halted_of_romMayRun hrom
    have hstep : rollPick (romStarted s).boot (romStarted s).boot.fuses.epoch = none := hpick
    refine ⟨_, exec_bootSequence hrom htj, ?_⟩
    rw [bootRun_goodFuses (s := romStarted s) hl hf he, hstep]
    exact bootHalt_halted (s := setCode 0x24 (onBoot (fun b => { b with step := 2 }) (romStarted s))) hrun
  case host =>
    refine ⟨_, exec_bootSequence_ready h, ?_⟩
    rw [bootSource_host (s := recordRead i s) hb]; exact ⟨rfl, rfl, rfl, rfl⟩
  case fabric =>
    refine ⟨_, exec_bootSequence_ready h, ?_⟩
    rw [bootSource_fabric (s := recordRead i s) hb]; exact ⟨rfl, rfl, rfl, rfl⟩
  case flash =>
    refine ⟨_, exec_bootSequence_ready h, ?_⟩
    rw [bootSource_flash (s := recordRead i s) hb ha hok]; exact acceptImage_accepted _ _ _ _
  case firmware =>
    obtain ⟨hstage, hseven, hctx, hmtr⟩ := firmwareStart_runs s
    refine ⟨_, next_if_pos ⟨powered_of hon, hst, hstep⟩, hstage, hseven, by rw [hctx]; rfl, fun c hc => by rw [hctx, if_neg hc], fun h => ?_, fun h => ?_⟩
    · rw [hmtr, h]; rfl
    · rw [hmtr, h]; exact ⟨rfl, rfl⟩

end Sys2Proof.Machine
end

section
/-! The debug pause (04 R73). Settles O20. -/

namespace Sys2Proof.Machine

/-- A token for this device and the nonce of the pause, signed under an unrevoked root (04 R73). -/
def TokenFits (s : State) (k : UnlockToken) (h : DebugPause) : Prop :=
  k.deviceId = deviceIdOf s.boot.fuses ∧ k.nonce = h.nonce ∧
    rootSigned s.boot.fuses k.rootIndex k.mldsaKey k.p384Key (tokenBytes k) k.mldsaSig k.p384Sig = true

section
variable {s : State} {k : UnlockToken} {h : DebugPause} (hh : s.boot.hold = some h)
include hh

theorem exec_debugUnlockToken_fits (hk : TokenFits s k h) : exec (.debugUnlockToken k) s = .next (onBoot (fun b => { b with
    hold := none, debugUnlocked := true, debugScope := k.scope, tokenPrefix := (sha384 (tokenBytes k)).take 7 }) s) := by
  obtain ⟨hid, hnonce, hsig⟩ := hk
  show execDebugUnlockToken k s = _
  unfold execDebugUnlockToken; rw [hh]
  exact next_if_pos (by rw [hid, hnonce, hsig]; simp)

theorem exec_debugUnlockToken_unfit (hk : ¬ TokenFits s k h) :
    exec (.debugUnlockToken k) s = .next (onBoot (fun b => { b with hold := none }) s) := by
  show execDebugUnlockToken k s = _
  unfold execDebugUnlockToken; rw [hh]
  refine congrArg Host.Outcome.next (if_neg fun hok => hk ?_)
  simpa [TokenFits, and_assoc] using hok

end

/-- Settles O20: a pause ends with the token it is offered, or after 10 s. -/
theorem debugUnlocksOnlyByASignedToken : Obligations.DebugUnlocksOnlyByASignedToken := by
  unfold Obligations.DebugUnlocksOnlyByASignedToken
  refine ⟨fun s hon hrom hst hstep hh hlc => ?hold, fun s k h hh => ?token, fun s k hh => ?none, fun s hh ht => next_if_pos ⟨hh, ht⟩⟩
  case hold =>
    refine ⟨_, { nonce := (drawBytes 32 s).1 }, next_if_pos ⟨powered_of hon, hrom, hst, hstep, hh, hlc⟩, rfl, ?_, rfl, rfl⟩
    simp [drawBytes]
  case token =>
    by_cases hk : TokenFits s k h
    · exact ⟨_, exec_debugUnlockToken_fits hh hk, rfl, rfl, fun _ => ⟨rfl, rfl⟩, fun hn => absurd hk hn⟩
    · exact ⟨_, exec_debugUnlockToken_unfit hh hk, rfl, rfl, fun hy => absurd hy hk, fun _ => rfl⟩
  case none =>
    show execDebugUnlockToken k s = _
    unfold execDebugUnlockToken; rw [hh]

end Sys2Proof.Machine
end

section
/-! Anti-rollback (04 R68, R77 to R80). Settles O21. -/

namespace Sys2Proof.Machine

/-! RAISE_SVN_FLOOR (04 R78 to R80). -/

/-- A copy whose MAC is that of its own fields is valid at its epoch. -/
theorem rollValid_of_mac {dus : List Byte} {r : RollCopy} (hm : r.magicOk = true) (hmac : r.mac = rollMac dus r) : rollValid dus r.epoch r = true := by
  unfold rollValid; rw [hm, ← hmac]; simp

/-- The copy that an advance writes (04 R78). -/
def advancedCopy (floor counter : Nat) (b : Boot) : RollCopy :=
  let c : RollCopy := { magicOk := true, epoch := b.fuses.epoch + 1, seq := (rollCopy b b.rollSel).seq + 1, floor := floor, counter := counter, mac := [] }
  { c with mac := rollMac b.fuses.dus c }

theorem rollAdvance_copies (floor counter : Nat) (s : State) :
    rollCopy (rollAdvance floor counter s).boot (!s.boot.rollSel) = advancedCopy floor counter s.boot ∧
    rollCopy (rollAdvance floor counter s).boot s.boot.rollSel = rollCopy s.boot s.boot.rollSel ∧
    (rollAdvance floor counter s).boot.flash.slotA = s.boot.flash.slotA ∧ (rollAdvance floor counter s).boot.flash.slotB = s.boot.flash.slotB := by
  unfold rollAdvance advancedCopy rollCopy
  cases h : s.boot.rollSel <;> exact ⟨by simp [h], by simp [h], by simp [h], by simp [h]⟩

section
variable {s : State} {q : QRef} {p : Packet}

theorem raiseSvnFloor_outside (h : s.boot.svn < bits (p.w 0) 0 32 ∨ bits (p.w 0) 0 32 ≤ s.boot.floor) :
    raiseSvnFloor q p s = (.done (Done.fail 0x0105 0x40), s) := if_pos h
theorem raiseSvnFloor_exhausted (h : s.boot.floor < bits (p.w 0) 0 32 ∧ bits (p.w 0) 0 32 ≤ s.boot.svn) (he : 1023 ≤ s.boot.fuses.epoch) :
    raiseSvnFloor q p s = (.done (Done.fail 0x0614 1023), raisePlain 0x0614 none 0xFFFF s) :=
  (if_neg (by omega)).trans (if_pos (decide_eq_true he))
theorem raiseSvnFloor_raises (h : s.boot.floor < bits (p.w 0) 0 32 ∧ bits (p.w 0) 0 32 ≤ s.boot.svn) (he : s.boot.fuses.epoch < 1023) :
    raiseSvnFloor q p s = (.done (Done.res (s.boot.fuses.epoch + 1) 0), rollAdvance (bits (p.w 0) 0 32) s.boot.updCnt s) :=
  (if_neg (by omega)).trans (if_neg (by simp [epochsGone, he]))

end

/-! FW_UPDATE (04 R68). -/

/-- A descriptor copy with a sequence above both others, in the place of the copy that is not in use, names the active slot (04 Table 4.3). -/
theorem activeSlot_newDesc (f : Flash) (use1 : Bool) (hu : use1 = (f.desc1.crcOk && (!f.desc0.crcOk || decide (f.desc0.seq < f.desc1.seq))))
    (imgA imgB : List Byte) (slot : Bool) (d : DescCopy) (hd : d = { crcOk := true, seq := max f.desc0.seq f.desc1.seq + 1, active := slot }) :
    activeSlot { f with slotA := imgA, slotB := imgB, desc0 := if use1 then d else f.desc0, desc1 := if use1 then f.desc1 else d } = some slot := by
  subst hd
  cases use1 with
  | true =>
    have h1 : f.desc1.crcOk = true := by simp_all
    have hseq : ¬ max f.desc0.seq f.desc1.seq + 1 < f.desc1.seq := by omega
    simp [activeSlot, h1, hseq]
  | false =>
    have hseq : f.desc0.seq < max f.desc0.seq f.desc1.seq + 1 := by omega
    cases h0 : f.desc0.crcOk <;> simp [activeSlot, h0, hseq]

theorem writeFirmware_writes {s : State} {a : Bool} (img : List Byte) (ha : activeSlot s.boot.flash = some a) :
    (writeFirmware img s).1 = !a ∧ slotImage (writeFirmware img s).2.boot (!a) = img ∧
    slotImage (writeFirmware img s).2.boot a = slotImage s.boot a ∧ activeSlot (writeFirmware img s).2.boot.flash = some (!a) := by
  have hslot : (!(activeSlot s.boot.flash).getD true) = !a := by rw [ha]; rfl
  unfold writeFirmware; dsimp only; rw [hslot]
  refine ⟨rfl, ?_, ?_, activeSlot_newDesc _ _ rfl _ _ _ _ rfl⟩
  · cases a <;> rfl
  · cases a <;> rfl

theorem fwUpdate_writes {s : State} {p : Packet} {img : List Byte} (q : QRef) (hu : s.boot.pldmUpd = false) (hlo : 0x2000 ≤ bits (p.w 1) 0 32)
    (hhi : bits (p.w 1) 0 32 ≤ 15728640) (hr : dvaRead s p.ctx (p.w 0) (bits (p.w 1) 0 32) .read true = .ok img) (hok : ImageOk s.boot s.boot.floor img) :
    fwUpdate q p s = (.done (Done.res (b2n (writeFirmware img s).1) 0), (writeFirmware img s).2) := by
  unfold fwUpdate; dsimp only
  rw [if_neg (by simp [hu]), if_neg (by omega), hr]; dsimp only
  rw [(imageFault_eq_none_iff _ _ _).2 hok]

/-! RECOVERY_MESSAGE (04 R77). -/

/-- The copy that a recovery message writes. -/
def recoveredCopy (m : RecoveryMsg) (s : State) : RollCopy :=
  let c : RollCopy := { magicOk := true, epoch := m.epoch, seq := (drawNat s).1 % 2 ^ 64, floor := m.floor, counter := m.counter, mac := [] }
  { c with mac := rollMac s.boot.fuses.dus c }

/-- Settles O21: each writes the copy or slot that is not in use, and what it writes is valid. -/
theorem antiRollbackAdvancesOneEpoch : Obligations.AntiRollbackAdvancesOneEpoch := by
  unfold Obligations.AntiRollbackAdvancesOneEpoch
  refine ⟨fun s q p ht => ⟨fun ⟨hlo, hhi, he⟩ => ?raises, fun h => ?outside, fun ⟨hlo, hhi, he⟩ => ?exhausted⟩,
    fun s m hon hst hcode hid hepoch hsig => ?recovers, fun s q p img a ht hu hlo hhi hr hok ha => ?updates⟩
  case raises =>
    obtain ⟨hnew, hold, hA, hB⟩ := rollAdvance_copies (bits (p.w 0) 0 32) s.boot.updCnt s
    have hsel : (rollAdvance (bits (p.w 0) 0 32) s.boot.updCnt s).boot.rollSel = !s.boot.rollSel := rfl
    refine ⟨_, _, exec_finishes ht rfl (raiseSvnFloor_raises ⟨hlo, hhi⟩ he) nofun nofun, rfl, rfl, rfl, rfl, rfl, hsel, hold, ?_, ?_, hA, hB, rfl⟩
    · rw [hsel, hnew]
      exact rollValid_of_mac (r := advancedCopy (bits (p.w 0) 0 32) s.boot.updCnt s.boot) rfl rfl
    · rw [hsel, hnew]; rfl
  case outside => exact exec_finishes ht rfl (raiseSvnFloor_outside h) nofun nofun
  case exhausted => exact exec_finishes ht rfl (raiseSvnFloor_exhausted ⟨hlo, hhi⟩ he) nofun nofun
  case recovers =>
    refine ⟨_, next_if_pos ⟨powered_of hon, hst, hcode, hid, hepoch, hsig⟩, rfl, rfl, rfl, rfl, ?_, rfl⟩
    have hvalid := rollValid_of_mac (dus := s.boot.fuses.dus) (r := recoveredCopy m s) rfl rfl
    rw [show (recoveredCopy m s).epoch = s.boot.fuses.epoch from hepoch] at hvalid
    exact hvalid
  case updates =>
    obtain ⟨hslot, himg, hkept, hactive⟩ := writeFirmware_writes img ha
    exact ⟨_, _, exec_finishes ht rfl (fwUpdate_writes q hu hlo hhi hr hok) nofun nofun, rfl, congrArg b2n hslot, himg, hkept, hactive, rfl⟩

end Sys2Proof.Machine
end

section
/-! SUPPORT. Rules of a queue's completions (05 R83, R84, R96): where a record goes, what a completion changes, and what it leaves. -/

namespace Sys2Proof.Machine

/-! Byte strings and fields (05 R81). -/

@[simp] theorem natLE_length (n v : Nat) : (natLE n v).length = n := by
  induction n generalizing v with
  | zero => rfl
  | succ n ih => simp [natLE, ih]

@[simp] theorem zeros_length (n : Nat) : (zeros n).length = n := List.length_replicate

/-- A status record takes 32 bytes (05 Table 5.2). -/
@[simp] theorem recBytes_length (r : StatusRec) : (recBytes r).length = 32 := by simp [recBytes]

/-- STATUS stands at byte 4 of a record (05 Table 5.2). -/
theorem field_recBytes_status (r : StatusRec) : field (recBytes r) 4 2 = r.status % 65536 := by
  simp [recBytes, natLE, field, sub, leNat]; omega

/-! Changes of one queue. -/

/-- State `t` is `s` but for queue `q`, host memory and what the chip has sent. -/
structure QueueOnly (q : Nat) (s t : State) : Prop where
  other : ∀ j, j ≠ q → getQ t j = getQ s j
  frame : t = { s with host := { s.host with queues := t.host.queues }, hostMem := t.hostMem, out := t.out }

theorem QueueOnly.trans {q : Nat} {s t u : State} (h : QueueOnly q s t) (k : QueueOnly q t u) : QueueOnly q s u := by
  refine ⟨fun j hj => (k.other j hj).trans (h.other j hj), ?_⟩
  rw [k.frame, h.frame]

theorem QueueOnly.putQ (q : Nat) (v : Queue) (s : State) : QueueOnly q s (putQ q v s) :=
  ⟨fun j hj => by rw [getQ_putQ, if_neg hj], rfl⟩

theorem QueueOnly.update (q : Nat) (v : Queue) (m : List Host.Cell) (os : List Out) (s : State) :
    QueueOnly q s (emitAll os (setHostMem m (Machine.putQ q v s))) :=
  ⟨(QueueOnly.putQ q v s).other, rfl⟩

/-- Where no more than the queue has changed, as the statements write it. -/
theorem QueueOnly.queues {q : Nat} {s t : State} (h : QueueOnly q s t) (hm : t.hostMem = s.hostMem) (ho : t.out = s.out) :
    t = { s with host := { s.host with queues := t.host.queues } } := by
  have hf := h.frame
  rwa [hm, ho] at hf

/-! Records (05 R84). -/

/-- The record as it stands in the ring: PHASE is 1 on even passes. -/
def Queue.phased (v : Queue) (r : StatusRec) : StatusRec := { r with phase := v.written.toNat / 2 ^ v.c % 2 == 0 }

/-- Host memory `m` after queue `v` has posted record `r`: the record in its ring slot, then the counter one higher at its address. -/
def Queue.posted (v : Queue) (r : StatusRec) (m : List Host.Cell) : List Host.Cell :=
  memWrite (memWrite m (v.cq + 32 * (v.written.toNat % 2 ^ v.c)) (recBytes (v.phased r))) v.cntAddr (natLE 4 (v.cnt + 1).toNat ++ zeros 4)

/-- Every byte outside the record and the counter stays. -/
theorem memGet_posted (v : Queue) (r : StatusRec) (m : List Host.Cell) (a : Nat)
    (hr : a < v.cq + 32 * (v.written.toNat % 2 ^ v.c) ∨ v.cq + 32 * (v.written.toNat % 2 ^ v.c) + 32 ≤ a)
    (hc : a < v.cntAddr ∨ v.cntAddr + 8 ≤ a) : memGet (v.posted r m) a = memGet m a := by
  unfold Queue.posted
  rw [memGet_write_outside _ _ _ _ (by simpa using hc), memGet_write_outside _ _ _ _ (by simpa using hr)]

/-- Queue `q` of `s`, standing as `v`, has posted record `r` in `t`, with an interrupt if `irq`; no other queue has changed. -/
structure Posts (q : Nat) (v : Queue) (r : StatusRec) (irq : Bool) (s t : State) : Prop extends QueueOnly q s t where
  hostMem : t.hostMem = v.posted r s.hostMem
  out : t.out = s.out ++ if irq then [Out.msix (ctxFn s v.ctx) v.vec] else []

/-- 05 R84: the queue counts the record, host memory takes it, and the interrupt goes out. -/
theorem postRec_eq (q : Nat) (r : StatusRec) (irq : Bool) (s : State) : postRec q r irq s =
    emitAll (if irq then [Out.msix (ctxFn s (getQ s q).ctx) (getQ s q).vec] else [])
      (setHostMem ((getQ s q).posted r s.hostMem)
        (putQ q { getQ s q with written := (getQ s q).written + 1, cnt := (getQ s q).cnt + 1 } s)) := by
  unfold postRec writeCounter Queue.posted Queue.phased
  cases irq with
  | true => rfl
  | false => simp only [emitAll, List.append_nil, Bool.false_eq_true, if_false]; rfl

theorem postRec_posts (q : Nat) (r : StatusRec) (irq : Bool) (s : State) : Posts q (getQ s q) r irq s (postRec q r irq s) ∧
    getQ (postRec q r irq s) q = { getQ s q with written := (getQ s q).written + 1, cnt := (getQ s q).cnt + 1 } := by
  rw [postRec_eq]
  exact ⟨⟨.update q _ _ _ s, rfl, rfl⟩, getQ_putQ_same q _ s⟩

/-- The queue may change further after its record. -/
theorem Posts.putQ {q : Nat} {v : Queue} {r : StatusRec} {irq : Bool} {s t : State} (h : Posts q v r irq s t) (w : Queue) :
    Posts q v r irq s (putQ q w t) :=
  ⟨h.toQueueOnly.trans (.putQ q w t), h.hostMem, h.out⟩

/-! Completion (05 R84, R96). -/

/-- The window entry of a completion without result data whose packet is not an accepted sealed one. -/
def plainEntry (p : Packet) (d : Done) : DupEntry :=
  { tag := p.tag, digest := p.digest, sealedOut := [],
    rec_ := { tag := p.tag, status := d.status, dup := false, sealed := false, phase := false, detail := d.detail, rlen := 0
              res0 := d.res0, res1 := d.res1 } }

theorem resultOf_plain {p : Packet} {d : Done} (hp : (p.isSealed && p.accepted) = false) (hd : d.data = []) :
    resultOf p d = ((plainEntry p d).rec_, []) := by
  simp [resultOf, hp, hd, plainEntry]

/-- A completion of a queue that no reset waits on. -/
theorem finish_host {q : Nat} {s : State} (hr : (getQ s q).resetBy = none) (d : Done) : finish (.host q) d s = finishPlain q d s := by
  simp [finish, finishChain, finishHost, hr]

/-- 05 R84, R96: a completion without result data posts its record and enters the window. -/
theorem finish_posts {s : State} {q : Nat} {p : Packet} {d : Done} (hc : (getQ s q).cur = some p) (hr : (getQ s q).resetBy = none)
    (hp : (p.isSealed && p.accepted) = false) (hd : d.data = []) :
    Posts q (getQ s q) (plainEntry p d).rec_ (bitOf p.flags 3) s (finish (.host q) d s) ∧
      getQ (finish (.host q) d s) q = (getQ s q).completed (plainEntry p d) := by
  obtain ⟨hpost, hq⟩ := postRec_posts q (plainEntry p d).rec_ (bitOf p.flags 3) s
  have he : finish (.host q) d s = modQ q (fun w => { w with st := (if w.st = .error then .error else .ready), cur := none, edge := none, fault := none
                                                             dup := dupPush w.dup (plainEntry p d) }) (postRec q (plainEntry p d).rec_ (bitOf p.flags 3) s) := by
    rw [finish_host hr]
    simp only [finishPlain, hc, resultOf_plain hp hd, List.isEmpty_nil, if_true, ite_self]; rfl
  rw [he, modQ_eq, getQ_putQ_same, hq]
  exact ⟨hpost.putQ _, rfl⟩

end Sys2Proof.Machine
end

section
/-! Completion records and full status rings (05 R83, R84, R96, R102). Settles O22 and O23. -/

namespace Sys2Proof.Machine

/-- Settles O22: the record, the counter and the interrupt are those of `finish_posts`, and memory outside them is that of `memGet_posted`. -/
theorem completionPostsRecordCounterInterrupt : Obligations.CompletionPostsRecordCounterInterrupt := by
  unfold Obligations.CompletionPostsRecordCounterInterrupt
  rintro s q p d hcur hreset hseal hdata r rfl
  obtain ⟨hpost, hq⟩ := finish_posts hcur hreset (by simp [hseal]) hdata
  refine ⟨_, rfl, hq, hpost.other, hpost.hostMem, hpost.out, hpost.frame, fun a hr hc => ?_⟩
  rw [hpost.hostMem]
  exact memGet_posted _ _ _ _ hr hc

/-! Full status rings (05 R83). -/

theorem canFetch_full {s : State} {q : Nat} (typ : Nat) (h : ringRoom (getQ s q) = false) : canFetch s q typ = false := by
  simp [canFetch, h]

theorem fetchDesc_full {s : State} {q : Nat} (typ : Nat) (malformed : List Byte → Option (Nat × Nat)) (ops : Nat → Bool)
    (h : ringRoom (getQ s q) = false) : fetchDesc typ malformed ops q s = s := by
  simp [fetchDesc, canFetch_full typ h]

/-- A queue that holds no descriptor has none to run. -/
theorem runnable_none {s : State} {q : Nat} (typ : Nat) (h : (getQ s q).desc = none) : runnable s q typ = none := by
  simp [runnable, h]

theorem dmaStep_full {s : State} {q : Nat} (op : Nat) (h : ringRoom (getQ s q) = false) (hd : (getQ s q).desc = none) : dmaStep op q s = s := by
  simp only [dmaStep, fetchDesc_full _ _ _ h, runnable_none _ hd]

theorem launchStep_full {s : State} {q : Nat} (h : ringRoom (getQ s q) = false) (hd : (getQ s q).desc = none) : launchStep q s = s := by
  simp only [launchStep, fetchDesc_full _ _ _ h, runnable_none _ hd]

/-- Two counts that stand less than a ring's length behind one another have different slots in it. -/
theorem ringSlot_ne {c : Nat} (hc : c ≤ 15) {base k w : BitVec 32} (hk : (k - base).toNat < (w - base).toNat) (hw : (w - base).toNat < 2 ^ c) :
    k.toNat % 2 ^ c ≠ w.toNat % 2 ^ c := by
  have hslot (x : BitVec 32) : x.toNat % 2 ^ c = (base.toNat + (x - base).toNat) % 2 ^ c := by
    have hx : base + (x - base) = x := by bv_omega
    calc x.toNat % 2 ^ c = (base + (x - base)).toNat % 2 ^ c := by rw [hx]
      _ = _ := by rw [BitVec.toNat_add, Nat.mod_mod_of_dvd _ (Nat.pow_dvd_pow 2 (by omega))]
  rw [hslot k, hslot w]
  intro he
  have hzero : (base.toNat + (w - base).toNat - (base.toNat + (k - base).toNat)) % 2 ^ c = 0 := Nat.sub_mod_eq_zero_of_mod_eq he.symm
  rw [Nat.add_sub_add_left, Nat.mod_eq_of_lt (by omega)] at hzero
  omega

/-- Settles O23. -/
theorem fullStatusRingStopsFetching : Obligations.FullStatusRingStopsFetching := by
  unfold Obligations.FullStatusRingStopsFetching
  refine ⟨fun v => decide_eq_true_iff, fun s q hfull => ⟨?kcp, fun hd => ?descriptors⟩, fun v k hc hroom hk => ?slots⟩
  case kcp => exact congrArg _ (if_neg (by simp [canFetch_full 0 hfull]))
  case descriptors =>
    refine ⟨congrArg _ (dmaStep_full 1 hfull hd), congrArg _ (dmaStep_full 2 hfull hd), congrArg _ (dmaStep_full 3 hfull hd),
      congrArg _ (launchStep_full hfull hd), ?_⟩
    change execLaunchMarker q s = _
    simp only [execLaunchMarker, fetchDesc_full _ _ _ hfull, runnable_none _ hd]
  case slots => exact ringSlot_ne hc hk (of_decide_eq_true hroom)

end Sys2Proof.Machine
end

section
/-! Doorbells, releases and the admin queue (05 R82, R83, R380; 19 R366). Settles O24. -/

namespace Sys2Proof.Machine

/-! Doorbell pages (05 R82, R83; 19 R366). -/

section
variable {s : State} {f : Fn} {q : Nat} (v : BitVec 32) (hup : s.up)
include hup

/-- 19 R366: a page that the function may not reach. -/
theorem execDoorbell_foreign (hf : mayReach f (queueFn s q) = false) : execDoorbell f q v s = .next (foreignAccess f s) := by
  simp [execDoorbell, regsOpen_of hup, hf]

theorem execStatusRelease_foreign (hf : mayReach f (queueFn s q) = false) : execStatusRelease f q v s = .next (foreignAccess f s) := by
  simp [execStatusRelease, regsOpen_of hup, hf]

variable (hl : queueLive s q = true) (hf : mayReach f (queueFn s q) = true)
include hl hf

theorem execStatusRelease_releases : execStatusRelease f q v s = .next (putQ q { getQ s q with released := v } s) := by
  simp [execStatusRelease, regsOpen_of hup, hl, hf]

theorem execDoorbell_outside (hv : 2 ^ (getQ s q).s < (v - (getQ s q).fetch).toNat) :
    execDoorbell f q v s = .next (raiseDev 0x0107 (v.toNat + q * 2 ^ 32) s) := by
  simp only [execDoorbell, regsOpen_of hup, hl, hf]
  rw [if_neg (by simp), if_neg (by simp), if_pos (by simp only [hv, decide_true, Bool.or_true])]

theorem execDoorbell_inside (ht : (getQ s q).typ ≠ 3) (hv : (v - (getQ s q).fetch).toNat ≤ 2 ^ (getQ s q).s) :
    execDoorbell f q v s = .next (if v = (getQ s q).prod then s else ring q v s) := by
  simp only [execDoorbell, regsOpen_of hup, hl, hf]
  rw [if_neg (by simp), if_neg (by simp), if_neg (by simp only [ht, Nat.not_lt.2 hv, decide_false, Bool.or_self]; simp)]

end

/-- 05 R82: a doorbell moves the producer index and joins the doorbells of its queue; no other queue changes. -/
theorem ring_frame (q : Nat) (v : BitVec 32) (s : State) :
    getQ (ring q v s) q = { getQ s q with prod := v, db := (getQ (ring q v s) q).db } ∧ (∀ j, j ≠ q → getQ (ring q v s) j = getQ s j) ∧
      ring q v s = { s with host := { s.host with queues := (ring q v s).host.queues, dbSerial := s.host.dbSerial + 1 } } := by
  refine ⟨?_, fun j hj => (getQ_putQ _ _ _ _).trans (if_neg hj), rfl⟩
  have h : ∃ db, getQ (ring q v s) q = { getQ s q with prod := v, db := db } := ⟨_, getQ_putQ_same _ _ _⟩
  obtain ⟨db, h⟩ := h
  rw [h]

/-! The admin queue (05 R380). -/

/-- A change of every entry that leaves the default is seen through each key. -/
theorem tabGet_map {α : Type} (d : α) (g : α → α) (hg : g d = d) (t : Tab α) (k : Nat) :
    tabGet d (t.map fun e => (e.1, g e.2)) k = g (tabGet d t k) := by
  induction t with
  | nil => exact hg.symm
  | cons e t ih =>
    simp only [List.map_cons, tabGet, ih]
    split <;> rfl

/-- A queue whose held packet waits no more for queue `q`. -/
def Queue.unfenced (q : Nat) (v : Queue) : Queue :=
  { v with cur := v.cur.map fun p => { p with fence := p.fence.filter fun e => e.1 != q } }

theorem Queue.unfenced_idle (q : Nat) {v : Queue} (h : v.cur = none) : v.unfenced q = v := by
  unfold Queue.unfenced; rw [h, Option.map_none, ← h]

theorem getQ_unfence (q j : Nat) (s : State) : getQ (unfence q s) j = (getQ s j).unfenced q :=
  tabGet_map Queue.init (Queue.unfenced q) rfl s.host.queues j

section
variable {s : State} {a : Admq} {v : Nat} (hs : 6 ≤ bits v 12 4) (hc : 6 ≤ bits v 16 4)
include hs hc

theorem writeAdmq_enables (ha : a.en = false) (hv : bitOf v 0 = true) :
    writeAdmq .pf a v s = enableAdmq 0 (ctlFields a v) (putAdmq .pf (ctlFields a v) s) := by
  simp [writeAdmq, ctlInRange, hs, hc, ha, hv, ctlFields]

theorem writeAdmq_discards (ha : a.en = true) (hv : bitOf v 0 = true) (hb : ctlFields a v ≠ a) :
    writeAdmq .pf a v s = discardWrite 0x30000 s := by
  have hen : (ctlFields a v).en = true := hv
  simp [writeAdmq, ctlInRange, hs, hc, ha, hen, hb]

theorem writeAdmq_disables (ha : a.en = true) (hv : bitOf v 0 = false) :
    writeAdmq .pf a v s = disableAdmq a.q (putAdmq .pf (ctlFields a v) s) := by
  simp [writeAdmq, ctlInRange, hs, hc, ha, hv, ctlFields]

end

theorem execAdmqCtlWrite_pf {s : State} (hup : s.up) (v : BitVec 32) : execAdmqCtlWrite .pf v s = .next (writeAdmq .pf s.host.admq v.toNat s) := by
  simp [execAdmqCtlWrite, regsOpen_of hup, admqOf]

/-- 05 R380: the admin queue starts where nothing runs on it. -/
theorem enableAdmq_idle {s : State} {a : Admq} (c : Nat) (h : (getQ s a.q).cur = none) : ∃ w, enableAdmq c a s = writeCounter w (putQ a.q w s) ∧
    w = { resetQueue 0 (getQ s a.q) with typ := 0, s := a.s, c := a.c, vec := a.vec, sq := a.sq.toNat, cq := a.cq.toNat, cntAddr := a.cnt.toNat, ctx := c } := by
  refine ⟨_, ?_, rfl⟩
  simp only [enableAdmq, h]; rfl

/-- 05 R380: the admin queue stops where nothing runs on it. -/
theorem disableAdmq_idle {s : State} {q : Nat} (h : (getQ s q).cur = none) (ht : (getQ s q).typ ≠ 2) :
    disableAdmq q s = unfence q (putQ q (resetQueue 2 (getQ s q)) s) := by
  simp [disableAdmq, endQueue, clearQueue, h, ht]

/-- Settles O24. -/
theorem doorbellsReleasesAndAdminEnable : Obligations.DoorbellsReleasesAndAdminEnable := by
  unfold Obligations.DoorbellsReleasesAndAdminEnable
  refine ⟨fun s f q v hup hl hf => ⟨?releases, fun ht hv => ⟨?again, ?rings⟩, fun hv => ?outside⟩, fun s f q v hup hf => ?foreign,
    fun s v hup hq hen hv hs hc hcur => ?enables, fun s v hup hen hv hs hc hne => ?discards,
    fun s v hup hq hen hv hs hc hcur ht => ?disables⟩
  case releases =>
    exact ⟨_, execStatusRelease_releases v hup hl hf, getQ_putQ_same _ _ _, (QueueOnly.putQ q _ s).other, rfl⟩
  case again => exact fun e => (execDoorbell_inside v hup hl hf ht hv).trans (congrArg _ (if_pos e))
  case rings => exact fun e => ⟨_, (execDoorbell_inside v hup hl hf ht hv).trans (congrArg _ (if_neg e)), ring_frame q v s⟩
  case outside => exact execDoorbell_outside v hup hl hf hv
  case foreign => exact ⟨execDoorbell_foreign v hup hf, execStatusRelease_foreign v hup hf⟩
  case enables =>
    have hb : bitOf v.toNat 0 = true := (bitOf_toNat v 0).trans hv
    obtain ⟨w, he, hw⟩ := enableAdmq_idle (s := putAdmq .pf (ctlFields s.host.admq v.toNat) s) (a := ctlFields s.host.admq v.toNat) 0
      (show (getQ s s.host.admq.q).cur = none by rw [hq]; exact hcur)
    have hq' : (ctlFields s.host.admq v.toNat).q = 0 := hq
    rw [hq'] at he hw
    refine ⟨_, (execAdmqCtlWrite_pf hup v).trans (congrArg _ ((writeAdmq_enables hs hc hen hb).trans he)), hb, ?_, (QueueOnly.putQ 0 w _).other, ?_, rfl⟩
    · exact (getQ_putQ_same 0 w _).trans hw
    · rw [hw]; rfl
  case discards =>
    have hb : ctlFields s.host.admq v.toNat ≠ s.host.admq := fun e => hne (by
      have hvec := congrArg Admq.vec e
      have hsz := congrArg Admq.s e
      have hcz := congrArg Admq.c e
      exact Prod.ext hvec (Prod.ext hsz hcz))
    exact (execAdmqCtlWrite_pf hup v).trans (congrArg _ (writeAdmq_discards hs hc hen ((bitOf_toNat v 0).trans hv) hb))
  case disables =>
    have hb : bitOf v.toNat 0 = false := (bitOf_toNat v 0).trans hv
    have he := disableAdmq_idle (s := putAdmq .pf (ctlFields s.host.admq v.toNat) s) (q := 0) hcur (fun e => nomatch ht.symm.trans e)
    rw [← hq] at he
    refine ⟨_, (execAdmqCtlWrite_pf hup v).trans (congrArg _ ((writeAdmq_disables hs hc hen hb).trans he)), hb, ?_⟩
    rw [hq, getQ_unfence, getQ_putQ_same, Queue.unfenced_idle 0 rfl]
    exact ⟨rfl, rfl, rfl, rfl⟩

end Sys2Proof.Machine
end

section
/-! Fetching (05 R82, R85, R94, R96, R97, R104): what the duplicate window says of an unsealed packet, and what a fetched packet comes to.
Settles O25. -/

namespace Sys2Proof.Machine

/-! The duplicate window (05 R96, R97). -/

theorem dupCheck_fresh {win : List DupEntry} {p : Packet} (h : ∀ e ∈ win, e.tag ≠ p.tag) : dupCheck win p = .fresh := by
  have hf : (win.filter fun e => e.tag == p.tag) = [] := List.filter_eq_nil_iff.2 fun e he => by simpa using h e he
  simp [dupCheck, hf]

theorem dupCheck_known {win : List DupEntry} {p : Packet} {e : DupEntry} (h : (win.filter fun x => x.tag == p.tag).getLast? = some e) :
    dupCheck win p = if bitOf p.flags 4 && e.digest == p.digest then .cached e else .conflict := by
  simp [dupCheck, h]

section
variable {win : List DupEntry} {p : Packet} (hp : p.isSealed = false) (ctx : Nat) (hdr : List Byte) (s : State)
include hp

theorem openPacket_fresh (h : dupCheck win p = .fresh) : openPacket win ctx hdr p s = .ok p s := by simp [openPacket, hp, h]
theorem openPacket_cached {e : DupEntry} (h : dupCheck win p = .cached e) : openPacket win ctx hdr p s = .dup e := by simp [openPacket, hp, h]
theorem openPacket_conflict (h : dupCheck win p = .conflict) : openPacket win ctx hdr p s = .conflict := by simp [openPacket, hp, h]

end

/-- The checks of a packet look neither at its fence nor at queues. -/
theorem checkPacket_congr (mctp : Bool) (ctx : Nat) (hdr : List Byte) {p p' : Packet} {s u : State} (hp : p' = { p with fence := p'.fence })
    (hh : u.host.confidential = s.host.confidential) (hc : u.host.ctxs = s.host.ctxs) :
    checkPacket mctp ctx hdr p' u = checkPacket mctp ctx hdr p s := by
  generalize p'.fence = f at hp
  subst hp
  simp only [checkPacket, getCtx, hh, hc]; rfl

/-- A result buffer takes bytes of memory and nothing else. -/
theorem writeResult_frame (p : Packet) (bs : List Byte) (s : State) : MemOnly s (writeResult p bs s) := by
  unfold writeResult; split
  · rename_i h; exact dvaWrite_frame h
  · rfl

/-- The record of a repeated tag that the window cannot answer (05 R97). -/
def conflictRec (tag : Nat) : StatusRec :=
  { tag := tag, status := 0x0411, dup := false, sealed := false, phase := false, detail := Config.statusDetail 0x0411, rlen := 0, res0 := 0, res1 := 0 }

/-! A packet at the fetch index (05 R82, R85). -/

/-- The fence with which a packet is fetched (05 R91). -/
def fetchFence (s : State) (q : Nat) (hdr : List Byte) : List (Nat × BitVec 32) :=
  let v := getQ s q
  let serial := ((v.db.find? fun e => reached e.1 (v.fetch + BitVec.ofNat 32 (packetSlots (field hdr 0xC 2 % 512)))).map Prod.snd).getD (s.host.dbSerial + 1)
  if bitOf (field hdr 4 2) 0 then fenceOf s v.ctx serial q else []

/-- The packet that a fetch reads from a queue. -/
def fetchedPacket (s : State) (q : Nat) (hdr : List Byte) : Packet :=
  parsePacket hdr (sub (ringSlots s (getQ s q) (packetSlots (field hdr 0xC 2 % 512))) 64 (8 * (field hdr 0xC 2 % 512))) s.lark.time (fetchFence s q hdr)

/-- The fetch index has moved past `n` slots. -/
def pastSlots (q n : Nat) (s : State) : State :=
  modQ q (fun w => { w with fetch := w.fetch + BitVec.ofNat 32 n, db := w.db.filter fun e => !reached w.fetch e.1 }) s

theorem getQ_pastSlots (q n : Nat) (s : State) : getQ (pastSlots q n s) q =
    { getQ s q with fetch := (getQ s q).fetch + BitVec.ofNat 32 n, db := (getQ s q).db.filter fun e => !reached (getQ s q).fetch e.1 } :=
  getQ_putQ_same _ _ _

theorem pastSlots_queueOnly (q n : Nat) (s : State) : QueueOnly q s (pastSlots q n s) := .putQ q _ s

section
variable {s : State} {q : Nat} {hdr : List Byte}

theorem execKcpFetch_fetches (h : canFetch s q 0 = true) : execKcpFetch q s = .next (fetchPacket q s) := by simp [execKcpFetch, h]

/-- A queue that can fetch is Ready and holds nothing. -/
theorem canFetch_ready {typ : Nat} (h : canFetch s q typ = true) : (getQ s q).st = .ready ∧ (getQ s q).cur = none := by
  simp only [canFetch, Bool.and_eq_true, beq_iff_eq, Option.isNone_iff_eq_none] at h
  obtain ⟨⟨⟨⟨⟨⟨-, hst⟩, hcur⟩, -⟩, -⟩, -⟩, -⟩ := h
  exact ⟨hst, hcur⟩

theorem packetSlots_eq (plen : Nat) : packetSlots plen = (64 + 8 * plen + 63) / 64 := rfl

theorem canFetch_of_fetchable {n : Nat} (h : Fetchable s q hdr n) : canFetch s q 0 = true := by
  obtain ⟨hcan, -⟩ := h
  exact hcan

theorem slots_of_fetchable {n : Nat} (h : Fetchable s q hdr n) : n = packetSlots (field hdr 0xC 2 % 512) := by
  obtain ⟨-, -, -, hn, -⟩ := h
  exact hn

/-- A covered packet is taken. -/
theorem kcpFetch_takes {n : Nat} (h : Fetchable s q hdr n) : execKcpFetch q s = .next (takePacket q hdr s) := by
  have hn := slots_of_fetchable h
  obtain ⟨hcan, -, rfl, -, hver, hlen, hring, hcov⟩ := h
  have hpos : 0 < n := by rw [hn, packetSlots_eq]; omega
  subst hn
  rw [execKcpFetch_fetches hcan, fetchPacket, if_neg (by omega), if_neg (by simp [hver]), if_neg (by omega), if_neg (by omega)]

section
variable {n : Nat} (h : Fetchable s q hdr n)
include h

/-- A packet that opens and passes the checks goes on to its wait (05 R85). -/
theorem kcpFetch_checked {p : Packet} {u : State}
    (ho : openPacket (getQ s q).dup (getQ s q).ctx hdr (fetchedPacket s q hdr) (pastSlots q n s) = .ok p u)
    (hc : checkPacket false (getQ s q).ctx hdr p u = none) : execKcpFetch q s = .next (armPacket q p u) := by
  rw [kcpFetch_takes h]
  obtain rfl := slots_of_fetchable h
  unfold fetchedPacket fetchFence pastSlots at ho
  simp only [takePacket, ho, hc]

/-- 05 R97: the cached record is posted with DUP set; memory changes before it only where sealed result bytes are rewritten. -/
theorem kcpFetch_cached {e : DupEntry}
    (ho : openPacket (getQ s q).dup (getQ s q).ctx hdr (fetchedPacket s q hdr) (pastSlots q n s) = .dup e) :
    ∃ u, MemOnly (pastSlots q n s) u ∧ (e.sealedOut = [] → u = pastSlots q n s) ∧
      execKcpFetch q s = .next (postRec q { e.rec_ with dup := true } (bitOf (field hdr 4 2) 3) u) := by
  rw [kcpFetch_takes h]
  obtain rfl := slots_of_fetchable h
  unfold fetchedPacket fetchFence pastSlots at ho
  simp only [takePacket, ho]
  refine ⟨_, ?_, fun he => if_pos (by simp [he]), rfl⟩
  split
  · rfl
  · exact writeResult_frame _ _ _

theorem kcpFetch_conflict
    (ho : openPacket (getQ s q).dup (getQ s q).ctx hdr (fetchedPacket s q hdr) (pastSlots q n s) = .conflict) :
    execKcpFetch q s = .next (postRec q (conflictRec (field hdr 8 4)) (bitOf (field hdr 4 2) 3) (pastSlots q n s)) := by
  rw [kcpFetch_takes h]
  obtain rfl := slots_of_fetchable h
  unfold fetchedPacket fetchFence pastSlots at ho
  simp only [takePacket, ho]; rfl

end

/-- Something is rung at the fetch index. -/
theorem left_pos {v : Queue} (h : v.prod ≠ v.fetch) : (v.prod - v.fetch).toNat ≠ 0 := fun e => h (by bv_omega)

section
variable (hcan : canFetch s q 0 = true) (hhdr : hdr = ringSlots s (getQ s q) 1) (hleft : (getQ s q).prod ≠ (getQ s q).fetch)
include hcan hhdr hleft

theorem kcpFetch_badVersion (hver : field hdr 0 2 ≠ 0x4B01) : execKcpFetch q s = .next (fatalPacket q hdr 0x0101 0 s) := by
  subst hhdr
  rw [execKcpFetch_fetches hcan, fetchPacket, if_neg (left_pos hleft), if_pos hver]

theorem kcpFetch_badLength (hver : field hdr 0 2 = 0x4B01)
    (hlen : 504 < field hdr 0xC 2 % 512 ∨ 2 ^ (getQ s q).s < packetSlots (field hdr 0xC 2 % 512)) :
    execKcpFetch q s = .next (fatalPacket q hdr 0x0103 0x0C s) := by
  subst hhdr
  rw [execKcpFetch_fetches hcan, fetchPacket, if_neg (left_pos hleft), if_neg (by simp [hver]), if_pos hlen]

theorem kcpFetch_uncovered (hver : field hdr 0 2 = 0x4B01) (hlen : field hdr 0xC 2 % 512 ≤ 504)
    (hring : packetSlots (field hdr 0xC 2 % 512) ≤ 2 ^ (getQ s q).s)
    (hcov : ((getQ s q).prod - (getQ s q).fetch).toNat < packetSlots (field hdr 0xC 2 % 512)) : execKcpFetch q s = .next s := by
  subst hhdr
  rw [execKcpFetch_fetches hcan, fetchPacket, if_neg (left_pos hleft), if_neg (by simp [hver]), if_neg (by omega), if_pos hcov]

end

/-- 05 R85: a packet that cannot be located leaves its queue in Error at it, with one more record counted. -/
theorem fatalPacket_stops (hdr : List Byte) (status detail : Nat) (hr : (getQ s q).resetBy = none) :
    (getQ (fatalPacket q hdr status detail s) q).st = .error ∧ (getQ (fatalPacket q hdr status detail s) q).errStatus = status ∧
      (getQ (fatalPacket q hdr status detail s) q).fetch = (getQ s q).fetch ∧
      (getQ (fatalPacket q hdr status detail s) q).cnt = (getQ s q).cnt + 1 := by
  let p : Packet := { parsePacket hdr [] s.lark.time [] with slots := 0 }
  have hset : getQ (setCur q p .running s) q = { getQ s q with cur := some p, st := .running } := getQ_putQ_same _ _ _
  have hplain : (p.isSealed && p.accepted) = false := Bool.and_false _
  obtain ⟨-, hq⟩ := finish_posts (d := Done.fail status detail) (by rw [hset]) (by rw [hset]; exact hr) hplain rfl
  have hf : getQ (fatalPacket q hdr status detail s) q = _ := getQ_putQ_same _ _ _
  rw [hf, hq, hset]
  exact ⟨rfl, rfl, rfl, rfl⟩

/-! Answers from the window (05 R97). -/

/-- A record posted for a packet whose slots are passed: the queue holds nothing more, its window stays, and it counts one record more. -/
theorem postRec_pastSlots {n : Nat} {u : State} (r : StatusRec) (irq : Bool) (h : canFetch s q 0 = true) (hu : MemOnly (pastSlots q n s) u) :
    (getQ (postRec q r irq u) q).dup = (getQ s q).dup ∧ (getQ (postRec q r irq u) q).cur = none ∧ (getQ (postRec q r irq u) q).st = .ready ∧
      (getQ (postRec q r irq u) q).cnt = (getQ s q).cnt + 1 ∧ (postRec q r irq u).mem = u.mem ∧
      (postRec q r irq u).hostMem = (getQ s q).posted r u.hostMem := by
  obtain ⟨hst, hcur⟩ := canFetch_ready h
  have hq : getQ u q = getQ (pastSlots q n s) q := by rw [hu]; rfl
  obtain ⟨hpost, hpq⟩ := postRec_posts q r irq u
  rw [hpq, hpost.hostMem, hpost.frame, hq, getQ_pastSlots]
  exact ⟨rfl, hcur, hst, rfl, rfl, rfl⟩

end

/-! A packet over MCTP (05 R104). -/

/-- The fence with which a packet is taken over MCTP (05 R91). -/
def mctpFence (s : State) (pkt : List Byte) : List (Nat × BitVec 32) :=
  if bitOf (field (sub pkt 0 64) 4 2) 0 then fenceOf s 0 (s.host.dbSerial + 1) 0x10000 else []

/-- The packet that a message over MCTP spells. -/
def mctpPacket (s : State) (pkt : List Byte) : Packet :=
  parsePacket (sub pkt 0 64) (sub pkt 64 (8 * (field (sub pkt 0 64) 0xC 2 % 512))) s.lark.time (mctpFence s pkt)

theorem takeMctp_holds {s : State} {pkt : List Byte} (hver : field (sub pkt 0 64) 0 2 = 0x4B01) (hlen : field (sub pkt 0 64) 0xC 2 % 512 ≤ 504)
    (ho : openPacket s.host.mgmtDup 0 (sub pkt 0 64) (mctpPacket s pkt) s = .ok (mctpPacket s pkt) s)
    (hc : checkPacket true 0 (sub pkt 0 64) (mctpPacket s pkt) s = none)
    (hwait : bitOf (mctpPacket s pkt).flags 1 = false) :
    takeMctp pkt s = { s with host := { s.host with mgmt := some (mctpPacket s pkt) } } := by
  unfold mctpPacket mctpFence at ho hc hwait ⊢
  unfold takeMctp; dsimp only
  rw [if_neg (by simp [hver]), if_neg (by omega), ho]; dsimp only
  rw [hc]; dsimp only
  rw [if_neg (by simp [hwait])]; rfl

/-! TIMEOUT (05 R94). -/

section
variable {s : State} {q : Nat} {p : Packet} (ht : (getQ s q).typ = 0) (hc : (getQ s q).cur = some p)
include ht hc

theorem startTimeout_early (h : s.lark.time < p.at_ + p.timeout * 1000) : execStartTimeout (.host q) s = .next s := by
  simp [execStartTimeout, heldPacket, ht, hc, Nat.not_le.2 h]

theorem startTimeout_due (hs : p.started = false) (h0 : p.timeout ≠ 0) (hv : serves s (.host q) = true)
    (h : p.at_ + p.timeout * 1000 ≤ s.lark.time) :
    execStartTimeout (.host q) s =
      .next (finish (.host q) (Done.fail 0x0705 (abortDetail s)) (modQ q (fun v => { v with st := .running, edge := none }) s)) := by
  simp [execStartTimeout, heldPacket, ht, hc, hs, h0, hv, h]

end

/-- Settles O25. -/
theorem fetchLocatesChecksAndRetries : Obligations.FetchLocatesChecksAndRetries := by
  unfold Obligations.FetchLocatesChecksAndRetries
  refine ⟨fun s q hdr n hat hseal hfresh hwait p hp hcheck => ?takes,
    fun s q hdr hcan hreset hhdr hleft => ⟨fun hver => ?version, fun hver hlen => ?length, ?uncovered⟩,
    fun s q hdr n e hat hseal hknown => ?repeated,
    fun s q p ht hcur hstart htime hserves => ⟨fun hdue => ?due, fun hearly => ?early⟩,
    fun s pkt hserves hidle hver hlen hseal hwait hfresh p hp hcheck => ?mctp⟩
  case takes =>
    let p' := fetchedPacket s q hdr
    have hp' : p' = { p with fence := p'.fence } := by rw [hp, slots_of_fetchable hat]; rfl
    have hc : checkPacket false (getQ s q).ctx hdr p' (pastSlots q n s) = none :=
      (checkPacket_congr _ _ _ hp' rfl rfl).trans hcheck
    have ho := openPacket_fresh (p := p') hseal (getQ s q).ctx hdr (pastSlots q n s) (dupCheck_fresh hfresh)
    have harm : armPacket q p' (pastSlots q n s) = setCur q p' .running (pastSlots q n s) :=
      if_neg (by rw [show bitOf p'.flags 1 = false from hwait]; decide)
    have hframe : QueueOnly q s (setCur q p' .running (pastSlots q n s)) := (pastSlots_queueOnly q n s).trans (.putQ q _ _)
    refine ⟨_, p', (kcpFetch_checked hat ho hc).trans (congrArg _ harm), hp', ?_, hframe.other, hframe.queues rfl rfl⟩
    have hq : getQ (setCur q p' .running (pastSlots q n s)) q = { getQ (pastSlots q n s) q with cur := some p', st := .running } :=
      getQ_putQ_same _ _ _
    rw [hq, getQ_pastSlots]
  case version => exact ⟨_, kcpFetch_badVersion hcan hhdr hleft hver, fatalPacket_stops hdr 0x0101 0 hreset⟩
  case length => exact ⟨_, kcpFetch_badLength hcan hhdr hleft hver hlen, fatalPacket_stops hdr 0x0103 0x0C hreset⟩
  case uncovered => exact kcpFetch_uncovered hcan hhdr hleft
  case repeated =>
    have hs : (fetchedPacket s q hdr).isSealed = false := hseal
    have hd := dupCheck_known (p := fetchedPacket s q hdr) hknown
    rw [slots_of_fetchable hat]
    by_cases hretry : (bitOf (field hdr 4 2) 4 && e.digest == (fetchedPacket s q hdr).digest) = true
    · obtain ⟨u, hu, hempty, hexec⟩ := kcpFetch_cached hat (openPacket_cached hs _ hdr _ (hd.trans (if_pos hretry)))
      obtain ⟨hdup, hcur, hst, hcnt, hmem, hhost⟩ := postRec_pastSlots { e.rec_ with dup := true } (bitOf (field hdr 4 2) 3) (canFetch_of_fetchable hat) hu
      obtain ⟨hbit, hdig⟩ := Bool.and_eq_true_iff.1 hretry
      refine ⟨_, hexec, hdup, hcur, hst, hcnt, ?_, fun h _ _ => ?_, fun h => ?_⟩
      · split
        · rename_i h; rw [hmem, hempty (List.isEmpty_iff.1 h)]; rfl
        · rfl
      · rw [hhost, hempty h]; rfl
      · rcases h with h | h
        · exact absurd hbit (by simp [h])
        · exact absurd (beq_iff_eq.1 hdig) h
    · obtain ⟨hdup, hcur, hst, hcnt, hmem, hhost⟩ := postRec_pastSlots (conflictRec (field hdr 8 4)) (bitOf (field hdr 4 2) 3) (canFetch_of_fetchable hat)
        (u := pastSlots q n s) rfl
      refine ⟨_, kcpFetch_conflict hat (openPacket_conflict hs _ hdr _ (hd.trans (if_neg hretry))), hdup, hcur, hst, hcnt, ?_,
        fun _ hbit hdig => ?_, fun _ => ⟨field_recBytes_status _, hhost⟩⟩
      · rw [hmem]; split <;> rfl
      · exact absurd (Bool.and_eq_true_iff.2 ⟨hbit, beq_iff_eq.2 hdig⟩) hretry
  case due => exact ⟨_, startTimeout_due ht hcur hstart htime hserves hdue, getQ_putQ_same _ _ _⟩
  case early => exact startTimeout_early ht hcur hearly
  case mctp =>
    let p' := mctpPacket s pkt
    have hp' : p' = { p with fence := p'.fence } := by rw [hp]; rfl
    have hc : checkPacket true 0 (sub pkt 0 64) p' s = none := (checkPacket_congr _ _ _ hp' rfl rfl).trans hcheck
    have ho := openPacket_fresh (p := p') hseal 0 (sub pkt 0 64) s (dupCheck_fresh hfresh)
    exact ⟨p', (next_if_pos (by simp [hserves, hidle])).trans (congrArg _ (takeMctp_holds hver hlen ho hc hwait)), hp'⟩

end Sys2Proof.Machine
end

section
/-! Queries and echo (02 R27, R36; 05 R81, R85, R88, R381). Settles O26. -/

namespace Sys2Proof.Machine

/-! SNAPSHOT (02 R27). -/

/-- State `t` is `s` but for meters. -/
def MeterOnly (s t : State) : Prop := t = { s with mtr := t.mtr }

theorem MeterOnly.refl (s : State) : MeterOnly s s := rfl
theorem MeterOnly.trans {s t u : State} (h : MeterOnly s t) (k : MeterOnly t u) : MeterOnly s u := by
  unfold MeterOnly at *; rw [k, h]

theorem MeterOnly.foldl {α : Type} {f : State → α → State} (hf : ∀ s a, MeterOnly s (f s a)) (l : List α) (s : State) : MeterOnly s (l.foldl f s) :=
  List.foldlRecOn l f (motive := MeterOnly s) (.refl s) fun b hb a _ => hb.trans (hf b a)

theorem meterEdge_frame (s : State) : MeterOnly s (meterEdge s) :=
  .foldl (fun s p => by dsimp only; split <;> rfl) _ s

theorem meterMs_frame (s : State) : MeterOnly s (meterMs s) := by
  unfold meterMs; split
  · exact MeterOnly.trans (t := onMtr _ s) rfl (.foldl (fun s p => by dsimp only; split <;> rfl) _ _)
  · rfl

/-- A reference edge of a powered chip advances Lark and meters, nothing else (log 7). -/
theorem larkTick_frame {s : State} (h : powered s = true) : MeterOnly (onLark larkEdge s) (larkTick s) := by
  unfold larkTick; rw [if_neg (by simp [h])]; dsimp only; split
  · exact (meterEdge_frame _).trans (meterMs_frame _)
  · rfl

/-- A table of distinct keys written, each entry changed, into another: listed keys read the changed entry. -/
theorem tabGet_foldl_put {α : Type} [DecidableEq α] (d : α) (g : α → α) {t : Tab α} (hp : t.Pairwise fun a b => a.1 < b.1) (acc : Tab α) (k : Nat) :
    tabGet d (t.foldl (fun u e => tabPut d u e.1 (g e.2)) acc) k = if k ∈ t.map Prod.fst then g (tabGet d t k) else tabGet d acc k := by
  induction t generalizing acc with
  | nil => rfl
  | cons e t ih =>
    obtain ⟨j, v⟩ := e
    obtain ⟨hlt, hp⟩ := List.pairwise_cons.1 hp
    rw [List.foldl_cons, ih hp, tabGet_put, tabGet, List.map_cons]
    by_cases hk : j = k
    · have hn : k ∉ t.map Prod.fst := fun hm => by
        obtain ⟨x, hx, rfl⟩ := List.mem_map.1 hm
        exact absurd hk (Nat.ne_of_lt (hlt x hx))
      simp [hn, hk]
    · rw [if_neg hk, if_neg (Ne.symm hk)]
      by_cases hm : k ∈ t.map Prod.fst
      · rw [if_pos hm, if_pos (List.mem_cons_of_mem _ hm)]
      · rw [if_neg hm, if_neg fun h => (List.mem_cons.1 h).elim (Ne.symm hk) hm]

/-- 02 R27: every counter slot is frozen. -/
theorem snapshotNow_slots {s : State} (h : tabWf Slot.init s.hsc = true) (k : Nat) :
    tabGet Slot.init (snapshotNow s).hsc k = { tabGet Slot.init s.hsc k with snap := (tabGet Slot.init s.hsc k).cnt } := by
  have hf := tabGet_foldl_put Slot.init (fun v => { v with snap := v.cnt }) ((tabWf_iff _ _).1 h).1 [] k
  refine hf.trans ?_
  split
  · rfl
  · rename_i hk; rw [tabGet_unlisted _ fun e he hek => hk (List.mem_map.2 ⟨e, he, hek⟩)]; rfl

/-! GET_INFO (05 Table 5.5). -/

/-- Part code, chip number and SVN stand in their fields of RES0. -/
theorem infoWord_fields {part pos svn : Nat} (hpart : part < 2 ^ 4) (hpos : pos < 2 ^ 17) :
    bits (part + pos * 2 ^ 4 + svn * 2 ^ 32) 0 4 = part % 16 ∧ bits (part + pos * 2 ^ 4 + svn * 2 ^ 32) 4 17 = pos ∧
      (part + pos * 2 ^ 4 + svn * 2 ^ 32) / 2 ^ 32 = svn := by
  unfold bits; omega

section
variable {s : State} {q : QRef} {p : Packet}

/-! COUNTER_SELECT (05 R381). -/

theorem counterSelect_selects (hslot : bits (p.w 0) 8 8 < slotCount (bits (p.w 0) 0 8)) (hinst : bits (p.w 0) 32 16 < slotInsts s (bits (p.w 0) 0 8))
    (hev : bits (p.w 0) 16 16 = 0 ∨ bits (p.w 0) 16 16 ∈ slotEvents (bits (p.w 0) 0 8)) (hown : s.host.shared = false ∨ p.ctx = 0) :
    counterSelect q p s = (.done Done.ok, selectSlot p.ctx (bits (p.w 0) 0 8) (bits (p.w 0) 32 16) (bits (p.w 0) 8 8) (bits (p.w 0) 16 16) s) := by
  unfold counterSelect; dsimp only
  rw [if_neg (by omega), if_neg (by omega), if_neg (fun h => hev.elim h.1 h.2), if_neg (by omega),
    if_neg (fun h => hown.elim (fun e => by simp [e] at h) h.2.1)]

theorem counterSelect_refused (h : slotCount (bits (p.w 0) 0 8) ≤ bits (p.w 0) 8 8 ∨ slotInsts s (bits (p.w 0) 0 8) ≤ bits (p.w 0) 32 16 ∨
    bits (p.w 0) 16 16 ≠ 0 ∧ bits (p.w 0) 16 16 ∉ slotEvents (bits (p.w 0) 0 8)) :
    ∃ det, counterSelect q p s = (.done (Done.fail 0x0105 det), s) := by
  unfold counterSelect refuse; dsimp only
  split
  · exact ⟨_, rfl⟩
  split
  · exact ⟨_, rfl⟩
  split
  · exact ⟨_, rfl⟩
  rename_i hev
  rcases h with h | h | h
  · contradiction
  · exact ⟨_, if_pos h⟩
  · contradiction

/-! ECHO (05 R85, R88). -/

theorem echo_copies (h : bufErr s q p p.params.length = none) : echo q p s = (.done { Done.ok with data := p.params }, s) := by
  simp [echo, withBuf, h]

theorem echo_short {n : Nat} (hseal : p.isSealed = false) (h : p.rbufLen < p.params.length) :
    echo (.host n) p s = (.done (Done.fail 0x0106 p.params.length), s) := by
  simp [echo, withBuf, bufErr, hseal, h]

theorem Turn.powered {op : Nat} (h : Turn s q op p) : Machine.powered s = true := by
  obtain ⟨-, -, -, hserves, -⟩ := h
  simp only [serves, regsOpen, Bool.and_eq_true] at hserves
  obtain ⟨⟨⟨hpow, -⟩, -⟩, -⟩ := hserves
  exact hpow

end

/-- Settles O26. -/
theorem queriesAndEchoChangeNothing : Obligations.QueriesAndEchoChangeNothing := by
  unfold Obligations.QueriesAndEchoChangeNothing
  refine ⟨fun s q p ht => exec_finishes ht rfl rfl nofun nofun, fun s q p ht => ?info, fun s q p ht => exec_finishes ht rfl rfl nofun nofun,
    fun s q p ht => ?snapshot, fun s q p ht => ?select, fun s q p ht => ⟨fun h => ?echoes, fun n hq hseal hlen => ?short⟩⟩
  case info => exact ⟨_, exec_finishes ht rfl rfl nofun nofun, infoWord_fields s.boot.fuses.part.isLt s.pwr.straps.pos.isLt⟩
  case snapshot =>
    have hf := larkTick_frame ht.powered
    have hlark : (larkTick s).lark = larkEdge s.lark := by rw [hf]; rfl
    have hhsc : (larkTick s).hsc = s.hsc := by rw [hf]; rfl
    have hseq : (takeSnapshot s).lark.snapSeq = s.lark.snapSeq + 1 := by
      change (larkTick s).lark.snapSeq + 1 = _; rw [hlark]; rfl
    refine ⟨takeSnapshot s, ?_, hseq, ?_, ?_, fun hwf k => ?_⟩
    · rw [← hseq]; exact exec_finishes ht rfl rfl nofun nofun
    · change (larkTick s).lark.time = _; rw [hlark]
    · change (larkTick s).host = _; rw [hf]; rfl
    · rw [← hhsc] at hwf ⊢; exact snapshotNow_slots hwf k
  case select =>
    rintro blk slot ev inst rfl rfl rfl rfl
    refine ⟨fun hslot hinst hev hown => ?_, fun h => ?_⟩
    · exact ⟨_, exec_finishes ht rfl (counterSelect_selects hslot hinst hev hown) nofun nofun, rfl, tabGet_put_same _ _ _ _,
        fun k hk => tabGet_put_other _ _ _ hk⟩
    · obtain ⟨det, hdet⟩ := counterSelect_refused (q := q) h
      exact ⟨det, exec_finishes ht rfl hdet nofun nofun⟩
  case echoes => exact exec_finishes ht rfl (echo_copies h) nofun nofun
  case short => subst hq; exact exec_finishes ht rfl (echo_short hseal hlen) nofun nofun

end Sys2Proof.Machine
end

section
/-! SUPPORT. Host objects (06 R106, R125 to R127): what an object's teardown leaves of the host block, when an object stays, and what
revoked windows leave. -/

namespace Sys2Proof.Machine

/-! Erased memory (06 R124, R127). -/

/-- Entries kept by their key read as before, the others as the default. -/
theorem tabGet_filter_key {α : Type} (d : α) (P : Nat → Bool) (t : Tab α) (k : Nat) :
    tabGet d (t.filter fun e => P e.1) k = if P k then tabGet d t k else d := by
  induction t with
  | nil => exact (ite_self _).symm
  | cons e t ih =>
    obtain ⟨j, v⟩ := e
    cases hj : P j with
    | true =>
      by_cases hk : j = k
      · simp [tabGet, hk, ← hk ▸ hj]
      · simp [tabGet, hj, hk, ih]
    | false =>
      by_cases hk : j = k
      · subst hk; simp [hj, ih]
      · simp [tabGet, hj, hk, ih]

theorem memGet_erase (m : List Host.Cell) (a n x : Nat) : memGet (memErase m a n) x = if a ≤ x ∧ x < a + n then 0 else memGet m x := by
  have h := tabGet_filter_key (0 : Byte) (fun k => decide (k < a) || decide (a + n ≤ k)) m x
  refine h.trans ?_
  by_cases hx : a ≤ x ∧ x < a + n
  · rw [if_pos hx, if_neg (by simp; omega)]
  · rw [if_neg hx, if_pos (by simp; omega)]; rfl

/-! Listed objects. -/

theorem getObj?_modObj_same {h : Nat} {s : State} {o : Obj} (ho : getObj? s h = some o) (f : Obj → Obj) : getObj? (modObj h f s) h = some (f o) := by
  unfold getObj? modObj at *
  obtain ⟨e, he, rfl⟩ := Option.map_eq_some_iff.1 ho
  have hk : e.1 = h := by simpa using List.find?_some he
  have hp : ((fun x : Nat × Obj => x.1 == h) ∘ fun e => if e.1 = h then (e.1, f e.2) else e) = fun x => x.1 == h := by
    funext x; by_cases hx : x.1 = h <;> simp [hx]
  rw [onHost_host, List.find?_map, hp, he]
  simp [hk]

/-- An object that a handle names for a new use is listed, of the kind asked for, and has its host reference (06 R106). -/
theorem useObj_ok {s : State} {c h k : Nat} {o : Obj} (hu : useObj s c h k = .ok o) :
    getObj? s h = some o ∧ o.kind.code = k ∧ o.host = true := by
  unfold useObj at hu
  split at hu
  · cases hu
  · rename_i o' ho
    by_cases hk : o'.kind.code = k
    · rw [if_neg (not_not_intro hk)] at hu
      cases hs : inScope s c o'.ctx with
      | false => rw [hs] at hu; cases hu
      | true =>
        cases hh : o'.host with
        | false => rw [hs, hh] at hu; cases hu
        | true => rw [hs, hh] at hu; cases hu; exact ⟨ho, hk, hh⟩
    · rw [if_pos hk] at hu; cases hu

/-- A handle that names no object (06 R106). -/
theorem useObj_missing {s : State} {h : Nat} (hn : getObj? s h = none) (c k : Nat) : useObj s c h k = .error (0x0403, 0) := by
  simp [useObj, hn]

/-- A memory handle names a memory object. -/
theorem mem_of_code {o : Obj} (h : o.kind.code = 1) : ∃ k b n pg, o.kind = .mem k b n pg := by
  cases hk : o.kind with
  | mem k b n pg => exact ⟨k, b, n, pg, rfl⟩
  | prog p => rw [hk] at h; cases h
  | model m => rw [hk] at h; cases h

/-! Removal (06 R127). -/

/-- Of the host block, state `t` differs from `s` in the listed objects at most. -/
def HostKept (s t : State) : Prop := t.host = { s.host with objs := t.host.objs }

theorem HostKept.refl (s : State) : HostKept s s := rfl
theorem HostKept.trans {s t u : State} (h : HostKept s t) (k : HostKept t u) : HostKept s u := by
  unfold HostKept at *; rw [k, h]
theorem HostKept.foldl {α : Type} {f : State → α → State} (hf : ∀ s a, HostKept s (f s a)) (l : List α) (s : State) : HostKept s (l.foldl f s) :=
  List.foldlRecOn l f (motive := HostKept s) (.refl s) fun b hb a _ => hb.trans (hf b a)
theorem HostKept.wins {s t : State} (h : HostKept s t) : t.host.wins = s.host.wins := by rw [h]
theorem HostKept.ctxs {s t : State} (h : HostKept s t) : t.host.ctxs = s.host.ctxs := by rw [h]
theorem HostKept.getCtx {s t : State} (h : HostKept s t) (c : Nat) : getCtx t c = getCtx s c := by unfold Machine.getCtx; rw [h.ctxs]

/-- Steps that leave the host block leave it when folded. -/
theorem foldl_host {α : Type} {f : State → α → State} (hf : ∀ s a, (f s a).host = s.host) (l : List α) (s : State) : (l.foldl f s).host = s.host :=
  List.foldlRecOn l f (motive := fun t => t.host = s.host) rfl fun b hb a _ => (hf b a).trans hb

@[simp] theorem unbindFree_host (t : Nat) (s : State) : (unbindFree t s).host = s.host := by unfold unbindFree; split <;> rfl
@[simp] theorem clearRegions_host (m : Model) (s : State) : (clearRegions m s).host = s.host := by
  unfold clearRegions; apply foldl_host; intros; rfl

/-- A removed object is delisted, and that is all the host block shows of it. -/
theorem removeObj_host (h : Nat) (s : State) : (removeObj h s).host = { s.host with objs := s.host.objs.filter fun e => e.1 != h } := by
  unfold removeObj; split
  · rename_i hn
    have hl : ∀ e ∈ s.host.objs, e.1 ≠ h := by simpa [getObj?] using hn
    rw [List.filter_eq_self.2 fun e he => by simpa using hl e he]
  · rename_i o _
    have he : ((objRanges o).foldl (fun s r => setMem (memErase s.mem r.1 r.2) s) s).host = s.host := by
      apply foldl_host; intros; rfl
    have hd : (onHost (fun v => { v with objs := v.objs.filter fun e => e.1 != h })
        ((objRanges o).foldl (fun s r => setMem (memErase s.mem r.1 r.2) s) s)).host =
        { s.host with objs := s.host.objs.filter fun e => e.1 != h } := by rw [onHost_host, he]
    dsimp only; split
    · exact hd
    · exact (foldl_host (fun s t => unbindFree_host t (modThk t _ s)) _ _).trans hd
    · exact (foldl_host (fun s t => unbindFree_host t s) _ _).trans ((clearRegions_host _ _).trans hd)

theorem removeObj_gone (h : Nat) (s : State) : getObj? (removeObj h s) h = none := by
  simp [getObj?, removeObj_host]

theorem removeObj_other {h k : Nat} (hk : k ≠ h) (s : State) : getObj? (removeObj h s) k = getObj? s k := by
  have hp : (fun e : Nat × Obj => decide ((e.1 != h) = true ∧ (e.1 == k) = true)) = fun e => e.1 == k := by
    funext e; by_cases he : e.1 = k <;> simp [he, hk]
  unfold getObj?; rw [removeObj_host]
  dsimp only; rw [List.find?_filter, hp]

/-- The device storage of a removed memory object reads as zero. -/
theorem removeObj_zero {h : Nat} {s : State} {o : Obj} (ho : getObj? s h = some o) (hk : o.kind.code = 1) :
    ∀ r ∈ objRanges o, ∀ x, r.1 ≤ x → x < r.1 + r.2 → memGet (removeObj h s).mem x = 0 := by
  obtain ⟨k, b, n, pg, hk⟩ := mem_of_code hk
  have hm : (removeObj h s).mem = ((objRanges o).foldl (fun s r => setMem (memErase s.mem r.1 r.2) s) s).mem := by
    simp only [removeObj, ho, hk]; rfl
  rw [hm]
  exact foldl_establishes (I := fun _ => True) (P := fun (r : Nat × Nat) (u : State) => ∀ x, r.1 ≤ x → x < r.1 + r.2 → memGet u.mem x = 0)
    (fun _ _ _ => trivial) (fun u a r _ hr x h1 h2 => by rw [setMem_mem, memGet_erase, hr x h1 h2, ite_self])
    (fun u r _ x h1 h2 => by rw [setMem_mem, memGet_erase, if_pos ⟨h1, h2⟩]) _ s trivial

/-! Reaping (06 R127). -/

theorem reap_hostKept (h : Nat) (s : State) : HostKept s (reap h s) := by
  unfold reap; split
  · split
    · exact (removeObj_host h s).trans (by rw [removeObj_host])
    · exact .refl s
  · exact .refl s

theorem reap_referenced {h : Nat} {s : State} (hd : deviceRefs s h ≠ 0) : reap h s = s := by
  unfold reap; split <;> simp [hd]

theorem reap_unreferenced {h : Nat} {s : State} {o : Obj} (ho : getObj? s h = some o) (hh : o.host = false) (hd : deviceRefs s h = 0) :
    reap h s = removeObj h s := by simp [reap, ho, hh, hd]

/-- An object with its host reference outlives any reaping. -/
theorem getObj?_reap_held {h : Nat} {s : State} {o : Obj} (ho : getObj? s h = some o) (hh : o.host = true) (k : Nat) :
    getObj? (reap k s) h = some o := by
  by_cases hk : h = k
  · subst hk; simp [reap, ho, hh]
  · unfold reap; split
    · split
      · rw [removeObj_other hk, ho]
      · exact ho
    · exact ho

/-! Dropping the host reference. -/

/-- An object that has lost its host reference. -/
def Obj.doomed (o : Obj) : Obj := { o with host := false }

theorem deviceRefs_doomed {h : Nat} {s : State} {o : Obj} (ho : getObj? s h = some o) : deviceRefs (modObj h Obj.doomed s) h = deviceRefs s h := by
  unfold deviceRefs; rw [getObj?_modObj_same ho, ho]; rfl

theorem dropHost_eq (h : Nat) (s : State) : dropHost h s = reap h (modObj h Obj.doomed s) := rfl

/-- With device references left the object stays, Doomed. -/
theorem dropHost_stays {h : Nat} {s : State} {o : Obj} (ho : getObj? s h = some o) (hd : deviceRefs s h ≠ 0) :
    dropHost h s = modObj h Obj.doomed s := by
  rw [dropHost_eq, reap_referenced (by rwa [deviceRefs_doomed ho])]

/-- With none it is removed. -/
theorem dropHost_removes {h : Nat} {s : State} {o : Obj} (ho : getObj? s h = some o) (hd : deviceRefs s h = 0) :
    dropHost h s = removeObj h (modObj h Obj.doomed s) := by
  rw [dropHost_eq, reap_unreferenced (getObj?_modObj_same ho _) rfl (by rwa [deviceRefs_doomed ho])]

/-- No mapping, no live window and no other use: no device reference (06 Table 6.9). -/
theorem deviceRefs_zero {h : Nat} {s : State} {o : Obj} (hm : ∀ e ∈ s.host.ctxs, ∀ m ∈ e.2.maps, m.obj ≠ h)
    (hw : ∀ e ∈ s.host.wins, e.2.obj = h → e.2.live = false) (ho : getObj? s h = some o) (hr : o.refs = 0) : deviceRefs s h = 0 := by
  have hmaps : s.host.ctxs.foldl (fun n e => n + (e.2.maps.filter fun m => m.obj == h).length) 0 = 0 :=
    List.foldlRecOn _ _ (motive := fun n => n = 0) rfl fun n hn e he => by
      rw [hn, List.filter_eq_nil_iff.2 fun m hmem => by simpa using hm e he m hmem]; rfl
  have hwins : s.host.wins.filter (fun e => e.2.live && e.2.obj == h) = [] :=
    List.filter_eq_nil_iff.2 fun e he hc => by
      simp only [Bool.and_eq_true, beq_iff_eq] at hc
      rw [hw e he hc.2] at hc; exact absurd hc.1 (by simp)
  simp [deviceRefs, hmaps, hwins, ho, hr]

/-! Mappings of one object (06 R127). -/

theorem getCtx_dropMaps (h : Nat) (s : State) (c : Nat) :
    getCtx (dropMaps h s) c = { getCtx s c with maps := (getCtx s c).maps.filter fun m => m.obj != h } :=
  tabGet_map Ctx.init (fun v => { v with maps := v.maps.filter fun m => m.obj != h }) rfl s.host.ctxs c

theorem dropMaps_unmaps (h : Nat) (s : State) : ∀ e ∈ (dropMaps h s).host.ctxs, ∀ m ∈ e.2.maps, m.obj ≠ h := by
  intro e he m hm
  obtain ⟨e', -, rfl⟩ := List.mem_map.1 he
  simpa using (List.mem_filter.1 hm).2

/-! Revoked windows (06 R126, R127). -/

/-- What revoking windows leaves: of the host block it changes objects and windows only, no window comes to life, and an object with its
host reference stays as it was. -/
structure Revokes (s t : State) : Prop where
  ctxs : t.host.ctxs = s.host.ctxs
  fades : ∀ e ∈ t.host.wins, e.2.live = true → e ∈ s.host.wins
  held : ∀ h o, getObj? s h = some o → o.host = true → getObj? t h = some o

theorem Revokes.refl (s : State) : Revokes s s := ⟨rfl, fun _ h _ => h, fun _ _ h _ => h⟩
theorem Revokes.trans {s t u : State} (h : Revokes s t) (k : Revokes t u) : Revokes s u :=
  ⟨k.ctxs.trans h.ctxs, fun e he hl => h.fades e (k.fades e he hl) hl, fun x o ho hh => k.held x o (h.held x o ho hh) hh⟩

/-- Every window at the index is revoked at the present fabric time (06 R126). -/
theorem revokeWin_wins (i : Nat) (s : State) : (revokeWin i s).host.wins = s.host.wins.map fun x =>
    if x.1 = i then (x.1, { x.2 with live := false, revokedAt := s.lark.time }) else x := by
  unfold revokeWin; split
  · rename_i hn
    have hl : ∀ e ∈ s.host.wins, e.1 ≠ i := by simpa using hn
    exact (List.map_congr_left fun e he => if_neg (hl e he)).trans (List.map_id' _) |>.symm
  · exact (reap_hostKept _ _).wins

theorem mem_revokeWin_other {i : Nat} {e : Nat × Win} (he : e.1 ≠ i) (s : State) : e ∈ (revokeWin i s).host.wins ↔ e ∈ s.host.wins := by
  rw [revokeWin_wins, List.mem_map]
  constructor
  · rintro ⟨x, hx, rfl⟩
    by_cases hi : x.1 = i
    · rw [if_pos hi] at he; exact absurd hi he
    · rwa [if_neg hi]
  · exact fun h => ⟨e, h, if_neg he⟩

theorem mem_revokeWin_same {i : Nat} {s : State} {e : Nat × Win} (he : e ∈ (revokeWin i s).host.wins) (hi : e.1 = i) :
    e.2.live = false ∧ e.2.revokedAt = s.lark.time := by
  rw [revokeWin_wins] at he
  obtain ⟨x, -, rfl⟩ := List.mem_map.1 he
  by_cases hx : x.1 = i
  · rw [if_pos hx]; exact ⟨rfl, rfl⟩
  · rw [if_neg hx] at hi; exact absurd hi hx

theorem revokeWin_revokes (i : Nat) (s : State) : Revokes s (revokeWin i s) := by
  refine ⟨?_, fun e he hl => ?_, fun h o ho hh => ?_⟩
  · unfold revokeWin; split
    · rfl
    · exact (reap_hostKept _ _).ctxs
  · by_cases hi : e.1 = i
    · rw [(mem_revokeWin_same he hi).1] at hl; cases hl
    · exact (mem_revokeWin_other hi s).1 he
  · unfold revokeWin; split
    · exact ho
    · exact getObj?_reap_held (by exact ho) hh _

theorem revokeWins_revokes (h : Nat) (s : State) : Revokes s (revokeWins h s) :=
  List.foldlRecOn _ _ (motive := Revokes s) (.refl s) fun b hb i _ => hb.trans (revokeWin_revokes i b)

/-- Every window of the object is revoked. -/
theorem revokeWins_ends (h : Nat) (s : State) : ∀ e ∈ (revokeWins h s).host.wins, e.2.obj = h → e.2.live = false := by
  have hends : ∀ i ∈ (s.host.wins.filter fun e => e.2.live && e.2.obj == h).map Prod.fst,
      ∀ e ∈ (revokeWins h s).host.wins, e.1 = i → e.2.live = false :=
    foldl_establishes (I := fun _ => True) (P := fun i (u : State) => ∀ e ∈ u.host.wins, e.1 = i → e.2.live = false) (fun _ _ _ => trivial)
      (fun u j i _ hu e he hi => Bool.eq_false_iff.2 fun hl =>
        Bool.eq_false_iff.1 (hu e ((revokeWin_revokes j u).fades e he hl) hi) hl)
      (fun u i _ e he hi => (mem_revokeWin_same he hi).1) _ s trivial
  refine fun e he ho => Bool.eq_false_iff.2 fun hl => ?_
  have hs := (revokeWins_revokes h s).fades e he hl
  exact Bool.eq_false_iff.1 (hends e.1 (List.mem_map.2 ⟨e, List.mem_filter.2 ⟨hs, by simp [hl, ho]⟩, rfl⟩) e he rfl) hl

end Sys2Proof.Machine
end

section
/-! Memory objects (06 R110, R111, R124, R127): MEM_ALLOC, MEM_MAP, MEM_UNMAP, MEM_FREE and the commands that drop a host reference.
Settles O29. -/

namespace Sys2Proof.Machine

/-! Mappings of a context. -/

theorem mem_insMap (m : Mapping) (l : List Mapping) (x : Mapping) : x ∈ insMap m l ↔ x = m ∨ x ∈ l := by
  induction l with
  | nil => simp [insMap]
  | cons y l ih =>
    by_cases h : m.dva < y.dva
    · simp [insMap, h]
    · simp only [insMap, h, if_false, List.mem_cons, ih]; exact or_left_comm

theorem getCtx_addMap (c j : Nat) (m : Mapping) (s : State) :
    getCtx (addMap c m s) j = if j = c then { getCtx s c with maps := insMap m (getCtx s c).maps } else getCtx s j := getCtx_putCtx _ _ _ s

/-- The tables in use depend on the contexts and the tenancy only (06 Table 6.1). -/
theorem tablesUsed_congr {s t : State} (hc : t.host.ctxs = s.host.ctxs) (hs : t.host.shared = s.host.shared) (p : Nat) :
    tablesUsed t p = tablesUsed s p := by unfold tablesUsed; rw [hc, hs]

theorem overlaps_iff (a b : Nat × Nat) : overlaps a b = true ↔ a.1 < b.1 + b.2 ∧ b.1 < a.1 + a.2 := by simp [overlaps]

/-! MEM_ALLOC (06 R124). -/

@[simp] theorem zeroStorage_host (k : MemKind) (b n : Nat) (s : State) : (zeroStorage k b n s).host = s.host := by cases k <;> rfl

theorem zeroStorage_device {k : MemKind} (hk : k ≠ .host) (b n : Nat) (s : State) : zeroStorage k b n s = setMem (memErase s.mem b n) s := by
  cases k with
  | hbm => rfl
  | thk => rfl
  | host => exact absurd rfl hk

/-- The mapping of a whole new object (06 R124). -/
def wholeMap (h dva len page : Nat) : Mapping := { dva := dva, len := len, page := page, obj := h, off := 0, r := true, w := true, acc := true }

/-- The state after MEM_ALLOC: the object listed, mapped whole, its storage zeroed. -/
def allocated (c : Nat) (k : MemKind) (size page : Nat) (a : Nat × Nat) (s : State) : State :=
  zeroStorage k a.1 size (addMap c (wholeMap (newObj c (.mem k a.1 size page) [] s).1 a.2 size page) (newObj c (.mem k a.1 size page) [] s).2)

section
variable {s : State} {q : QRef} {p : Packet} {k : MemKind} {page : Nat} {a : Nat × Nat}

/-- An object that has a place, and whose tables fit, is made. -/
theorem memAlloc_allocates (hk : memKindOf (bits (p.w 1) 0 2) = some k) (hpage : page = pageOf k (bits (p.w 1) 4 2)) (hp0 : page ≠ 0)
    (hn : p.w 0 ≠ 0) (hal : p.w 0 % page = 0) (hroot : k = .host → (getCtx s p.ctx).root = 0) (hlim : s.host.objs.length < 1048576)
    (hplace : placeMem s p.ctx k (p.w 0) page false = some a)
    (hfit : ∀ m : Mapping, m.dva = a.2 → m.len = p.w 0 → m.page = page → tablesUsed (addMap p.ctx m s) (getCtx s p.ctx).part ≤ tableLimit) :
    memAlloc q p s = (.done (Done.res (newObj p.ctx (.mem k a.1 (p.w 0) page) [] s).1 a.2), allocated p.ctx k (p.w 0) page a s) := by
  have hused : tablesUsed (allocated p.ctx k (p.w 0) page a s) (getCtx s p.ctx).part ≤ tableLimit := by
    have h := hfit (wholeMap (newObj p.ctx (.mem k a.1 (p.w 0) page) [] s).1 a.2 (p.w 0) page) rfl rfl rfl
    rwa [← tablesUsed_congr (t := allocated p.ctx k (p.w 0) page a s)] at h
    · rw [allocated, zeroStorage_host]; rfl
    · rw [allocated, zeroStorage_host]; rfl
  have hmake : makeMem p.ctx k (p.w 0) page a s =
      (.done (Done.res (newObj p.ctx (.mem k a.1 (p.w 0) page) [] s).1 a.2), allocated p.ctx k (p.w 0) page a s) :=
    if_neg (Nat.not_lt.2 hused)
  have hroot' : ¬ (k = .host ∧ (getCtx s p.ctx).root ≠ 0) := fun h => h.2 (hroot h.1)
  have hsize : ¬ (p.w 0 = 0 ∨ p.w 0 % page ≠ 0) := not_or.2 ⟨hn, not_not_intro hal⟩
  have hcount : ¬ objLimit ≤ s.host.objs.length := Nat.not_le.2 hlim
  subst hpage
  simp only [memAlloc, hk, hplace, hmake, if_neg hp0, if_neg hsize, if_neg hroot', if_neg hcount]

theorem getCtx_allocated (c j size : Nat) : getCtx (allocated c k size page a s) j =
    if j = c then { getCtx s c with maps := insMap (wholeMap (newObj c (.mem k a.1 size page) [] s).1 a.2 size page) (getCtx s c).maps } else getCtx s j := by
  have h : getCtx (allocated c k size page a s) j = getCtx (addMap c (wholeMap (newObj c (.mem k a.1 size page) [] s).1 a.2 size page) s) j := by
    unfold getCtx allocated; rw [zeroStorage_host]; rfl
  rw [h, getCtx_addMap]

theorem allocated_frame (c size : Nat) : allocated c k size page a s =
    { s with host := (allocated c k size page a s).host, mem := (allocated c k size page a s).mem, hostMem := (allocated c k size page a s).hostMem } := by
  unfold allocated
  cases k <;> rfl

end

/-! MEM_MAP (06 R110). -/

theorem halfOk_of {k : MemKind} {dva len : Nat} (hl : k = .host → dva + len ≤ 0x800000000000)
    (hu : k ≠ .host → 0x800000000000 ≤ dva ∧ dva + len ≤ 0x1000000000000) : halfOk k dva len = true := by
  by_cases hk : k = .host
  · simpa [halfOk, hk] using hl hk
  · simpa [halfOk, hk] using hu hk

/-- The mapping that MEM_MAP adds. -/
def mapOf (p : Packet) (page : Nat) : Mapping :=
  { dva := p.w 1, len := p.w 2, page := page, obj := p.w 0, off := 0, r := bitOf (p.w 3) 0, w := bitOf (p.w 3) 1, acc := bitOf (p.w 3) 2 }

theorem memMap_maps {s : State} {p : Packet} {o : Obj} {k : MemKind} {base size page : Nat} (q : QRef) (hu : useObj s p.ctx (p.w 0) 1 = .ok o)
    (hk : o.kind = .mem k base size page) (hd : p.w 1 % page = 0) (h0 : p.w 2 ≠ 0) (hl : p.w 2 % page = 0) (hs : p.w 2 ≤ size)
    (hhalf : halfOk k (p.w 1) (p.w 2) = true) (hclear : ∀ m ∈ (getCtx s o.ctx).maps, p.w 1 + p.w 2 ≤ m.dva ∨ m.dva + m.len ≤ p.w 1)
    (hfit : tablesUsed (addMap o.ctx (mapOf p page) s) (getCtx s o.ctx).part ≤ tableLimit) :
    memMap q p s = (.done Done.ok, addMap o.ctx (mapOf p page) s) := by
  have hfree : ¬ (mapRanges (getCtx s o.ctx)).any (overlaps (p.w 1, p.w 2)) = true := by
    simp only [mapRanges, List.any_map, List.any_eq_true, Function.comp, overlaps_iff, not_exists, not_and]
    intro m hm
    have := hclear m hm
    omega
  have hlen : ¬ (p.w 2 = 0 ∨ p.w 2 % page ≠ 0 ∨ size < p.w 2) := by omega
  simp only [memMap, hu, hk, hhalf, if_neg (not_not_intro hd), if_neg hlen, if_neg hfree, Bool.not_true, Bool.false_eq_true, if_false]
  exact if_neg (Nat.not_lt.2 hfit)

/-! MEM_UNMAP (06 R111). -/

/-- Whether a mapping covers an address. -/
def Mapping.covers (a : Nat) (m : Mapping) : Bool := m.dva ≤ a && a < m.dva + m.len

/-- Where a mapping leads an address, and with which rights. -/
def Mapping.view (a : Nat) (m : Mapping) : Nat × Nat × Bool × Bool × Bool := (m.obj, m.off + (a - m.dva), m.r, m.w, m.acc)

theorem covers_iff (a : Nat) (m : Mapping) : m.covers a = true ↔ m.dva ≤ a ∧ a < m.dva + m.len := by simp [Mapping.covers]

/-- The part of a mapping below an address, and the part from an address on. -/
def Mapping.below (a : Nat) (m : Mapping) : List Mapping := if m.dva < a then [{ m with len := min a (m.dva + m.len) - m.dva }] else []
def Mapping.above (b : Nat) (m : Mapping) : List Mapping :=
  if b < m.dva + m.len then [{ m with dva := max b m.dva, len := m.dva + m.len - max b m.dva, off := m.off + (max b m.dva - m.dva) }] else []

theorem cutMap_eq (a b : Nat) (m : Mapping) : cutMap a b m = if overlaps (m.dva, m.len) (a, b - a) then m.below a ++ m.above b else [m] := rfl

/-- What a list of pieces says of an address. -/
def viewIn (x : Nat) (l : List Mapping) : Option (Nat × Nat × Bool × Bool × Bool) := (l.find? (Mapping.covers x)).map (Mapping.view x)

theorem viewIn_append (x : Nat) (l l' : List Mapping) : viewIn x (l ++ l') = (viewIn x l).or (viewIn x l') := by
  simp [viewIn, List.find?_append, Option.map_or]

theorem viewIn_single (x : Nat) (m : Mapping) : viewIn x [m] = if m.covers x then some (m.view x) else none := by
  by_cases h : m.covers x <;> simp [viewIn, h]

theorem viewIn_below (a x : Nat) (m : Mapping) : viewIn x (m.below a) = if m.covers x ∧ x < a then some (m.view x) else none := by
  unfold Mapping.below
  by_cases h : m.dva < a
  · rw [if_pos h, viewIn_single]
    by_cases hc : m.covers x = true ∧ x < a
    · rw [if_pos hc, if_pos (by simp only [covers_iff] at hc ⊢; omega)]; rfl
    · rw [if_neg hc, if_neg (by simp only [covers_iff] at hc ⊢; omega)]
  · rw [if_neg h, if_neg]
    · rfl
    · simp only [covers_iff]; omega

theorem viewIn_above (b x : Nat) (m : Mapping) : viewIn x (m.above b) = if m.covers x ∧ b ≤ x then some (m.view x) else none := by
  unfold Mapping.above
  by_cases h : b < m.dva + m.len
  · rw [if_pos h, viewIn_single]
    by_cases hc : m.covers x = true ∧ b ≤ x
    · have hview : m.off + (max b m.dva - m.dva) + (x - max b m.dva) = m.off + (x - m.dva) := by
        simp only [covers_iff] at hc; omega
      rw [if_pos hc, if_pos (by simp only [covers_iff] at hc ⊢; omega)]
      simp only [Mapping.view, hview]
    · rw [if_neg hc, if_neg (by simp only [covers_iff] at hc ⊢; omega)]
  · rw [if_neg h, if_neg]
    · rfl
    · simp only [covers_iff]; omega

/-- The pieces of a cut mapping lead where the mapping led, except in the range cut out, which none of them covers. -/
theorem viewIn_cutMap {a b : Nat} (hab : a ≤ b) (x : Nat) (m : Mapping) :
    viewIn x (cutMap a b m) = if a ≤ x ∧ x < b then none else viewIn x [m] := by
  rw [cutMap_eq, viewIn_single]
  by_cases ho : overlaps (m.dva, m.len) (a, b - a) = true
  · rw [if_pos ho, viewIn_append, viewIn_below, viewIn_above]
    by_cases hc : m.covers x = true
    · rcases Nat.lt_or_ge x a with h | h
      · simp [hc, h, Nat.not_le.2 h]
      · rcases Nat.lt_or_ge x b with h' | h'
        · simp [h, h', Nat.not_lt.2 h, Nat.not_le.2 h']
        · simp [hc, h', Nat.not_lt.2 h, Nat.not_lt.2 h']
    · simp [hc]
  · rw [if_neg ho, viewIn_single]
    rw [overlaps_iff] at ho
    by_cases hr : a ≤ x ∧ x < b
    · rw [if_pos hr, if_neg]
      simp only [covers_iff]; dsimp only at ho; omega
    · rw [if_neg hr]

theorem viewIn_cutMaps {a b : Nat} (hab : a ≤ b) (x : Nat) (l : List Mapping) :
    viewIn x (l.flatMap (cutMap a b)) = if a ≤ x ∧ x < b then none else viewIn x l := by
  induction l with
  | nil => exact (ite_self _).symm
  | cons m l ih =>
    have hcons : viewIn x (m :: l) = (viewIn x [m]).or (viewIn x l) := viewIn_append x [m] l
    rw [List.flatMap_cons, viewIn_append, viewIn_cutMap hab, ih, hcons]
    by_cases hr : a ≤ x ∧ x < b
    · simp only [if_pos hr]; rfl
    · simp only [if_neg hr]

theorem findMap_view (c : Ctx) (x : Nat) : (findMap c x).map (Mapping.view x) = viewIn x c.maps := rfl

/-- The mappings of a context that share a byte with a range. -/
def hitMaps (s : State) (c a n : Nat) : List Mapping := (getCtx s c).maps.filter fun m => overlaps (m.dva, m.len) (a, n)

/-- The state after MEM_UNMAP: the range cut out of the context's mappings, and objects that were kept by them alone removed. -/
def unmapped (c a n : Nat) (s : State) : State :=
  (hitMaps s c a n).foldl (fun s m => reap m.obj s) (modCtx c (fun v => { v with maps := v.maps.flatMap (cutMap a (a + n)) }) s)

/-- MEM_UNMAP of page-aligned ends that hit mappings at their page boundaries, and no pinned memory. -/
theorem memUnmap_unmaps {s : State} {p : Packet} (q : QRef) (ha : p.w 0 % 4096 = 0) (hn : p.w 1 % 4096 = 0)
    (hcut : ∀ m ∈ hitMaps s p.ctx (p.w 0) (p.w 1), cutOk (p.w 0) m = true ∧ cutOk (p.w 0 + p.w 1) m = true ∧
      ∀ o, getObj? s m.obj = some o → o.refs = 0) :
    memUnmap q p s = (.done Done.ok, unmapped p.ctx (p.w 0) (p.w 1) s) := by
  have hends : (hitMaps s p.ctx (p.w 0) (p.w 1)).any (fun m => !cutOk (p.w 0) m || !cutOk (p.w 0 + p.w 1) m) = false := by
    simp only [List.any_eq_false]
    intro m hm
    obtain ⟨h1, h2, -⟩ := hcut m hm
    simp [h1, h2]
  have hpins : (hitMaps s p.ctx (p.w 0) (p.w 1)).any (fun m => ((getObj? s m.obj).map pinned).getD false) = false := by
    simp only [List.any_eq_false]
    intro m hm
    obtain ⟨-, -, h3⟩ := hcut m hm
    cases ho : getObj? s m.obj with
    | none => simp
    | some o => simp [pinned, h3 o ho]
  unfold hitMaps at hends hpins
  simp only [memUnmap, if_neg (not_not_intro ha), if_neg (not_not_intro hn), hends, hpins, Bool.false_eq_true, if_false]
  rfl

theorem getCtx_unmapped (c a n j : Nat) (s : State) : getCtx (unmapped c a n s) j =
    if j = c then { getCtx s c with maps := (getCtx s c).maps.flatMap (cutMap a (a + n)) } else getCtx s j := by
  have h : HostKept (modCtx c (fun v => { v with maps := v.maps.flatMap (cutMap a (a + n)) }) s) (unmapped c a n s) :=
    .foldl (fun s (m : Mapping) => reap_hostKept m.obj s) _ _
  rw [h.getCtx, modCtx_eq, getCtx_putCtx]

/-- No address of the range is mapped afterwards, and every other leads where it led. -/
theorem findMap_unmapped (c a n x : Nat) (s : State) : (findMap (getCtx (unmapped c a n s) c) x).map (Mapping.view x) =
    if a ≤ x ∧ x < a + n then none else (findMap (getCtx s c) x).map (Mapping.view x) := by
  rw [getCtx_unmapped, if_pos rfl, findMap_view, findMap_view]; exact viewIn_cutMaps (Nat.le_add_right _ _) x _

theorem cutOk_iff (a : Nat) (m : Mapping) : cutOk a m = true ↔ a ≤ m.dva ∨ m.dva + m.len ≤ a ∨ (a - m.dva) % m.page = 0 := by
  simp [cutOk, or_assoc]

theorem mem_hitMaps {s : State} {c a n : Nat} {m : Mapping} : m ∈ hitMaps s c a n ↔ m ∈ (getCtx s c).maps ∧ m.dva < a + n ∧ a < m.dva + m.len := by
  simp [hitMaps, overlaps]

/-! MEM_FREE and the releases (06 R127). -/

theorem memFree_frees {s : State} {p : Packet} {o : Obj} (q : QRef) (hu : useObj s p.ctx (p.w 0) 1 = .ok o) (hr : o.refs = 0) :
    memFree q p s = (.done Done.ok, dropHost (p.w 0) (revokeWins (p.w 0) (dropMaps (p.w 0) s))) := by
  simp [memFree, hu, pinned, hr]

theorem memFree_pinned {s : State} {p : Packet} {o : Obj} (q : QRef) (hu : useObj s p.ctx (p.w 0) 1 = .ok o) (hr : o.refs ≠ 0) :
    memFree q p s = (.done (Done.fail 0x0401 (Config.statusDetail 0x0401)), s) := by
  simp [memFree, hu, pinned, hr, refuse]

theorem memFree_missing {s : State} {p : Packet} (q : QRef) (hn : getObj? s (p.w 0) = none) : memFree q p s = (.done (Done.fail 0x0403 0), s) := by
  simp [memFree, useObj_missing hn, refuse]

/-- With its mappings and windows gone, an object of no other use goes with its host reference. -/
theorem freed_eq {h : Nat} {s : State} {o : Obj} (ho : getObj? s h = some o) (hh : o.host = true) (hr : o.refs = 0) :
    ∃ v, dropHost h (revokeWins h (dropMaps h s)) = removeObj h v ∧ getObj? v h = some o.doomed ∧
      v.host.ctxs = (dropMaps h s).host.ctxs ∧ v.host.wins = (revokeWins h (dropMaps h s)).host.wins := by
  have hrev := revokeWins_revokes h (dropMaps h s)
  have ho' : getObj? (revokeWins h (dropMaps h s)) h = some o := hrev.held h o ho hh
  refine ⟨modObj h Obj.doomed (revokeWins h (dropMaps h s)), dropHost_removes ho' (deviceRefs_zero ?_ (revokeWins_ends h _) ho' hr),
    getObj?_modObj_same ho' _, hrev.ctxs, rfl⟩
  rw [hrev.ctxs]; exact dropMaps_unmaps h s

theorem objRelease_drops {s : State} {p : Packet} {o : Obj} (q : QRef) (hu : useObj s p.ctx (p.w 0) (bits (p.w 0) 12 4) = .ok o) :
    objRelease q p s = (.done (Done.res (deviceRefs s (p.w 0)) 0), dropHost (p.w 0) s) := by simp [objRelease, hu]

theorem unloadObj_drops {s : State} {p : Packet} {o : Obj} {k : Nat} (q : QRef) (hu : useObj s p.ctx (p.w 0) k = .ok o) :
    unloadObj k q p s = (.done Done.ok, dropHost (p.w 0) s) := by simp [unloadObj, hu]

theorem objRelease_missing {s : State} {p : Packet} (q : QRef) (hn : getObj? s (p.w 0) = none) :
    objRelease q p s = (.done (Done.fail 0x0403 0), s) := by simp [objRelease, useObj_missing hn, refuse]

/-- The rows that drop a host reference complete with status 0, and OBJ_RELEASE with the device references that remain. -/
theorem exec_drops {s : State} {q : QRef} {p : Packet} {o : Obj} {c : Instr} {k : Nat}
    (hc : c = .objRelease q ∧ k = bits (p.w 0) 12 4 ∧ Turn s q 0x0107 p ∨ c = .progUnload q ∧ k = 2 ∧ Turn s q 0x0501 p ∨
      c = .modelUnload q ∧ k = 3 ∧ Turn s q 0x0504 p) (hu : useObj s p.ctx (p.w 0) k = .ok o) :
    ∃ d, exec c s = .next (finish q d (dropHost (p.w 0) s)) ∧ d.status = 0 ∧ (c = .objRelease q → d.res0 = deviceRefs s (p.w 0)) := by
  rcases hc with ⟨rfl, rfl, ht⟩ | ⟨rfl, rfl, ht⟩ | ⟨rfl, rfl, ht⟩
  · exact ⟨_, exec_finishes ht rfl (objRelease_drops q hu) nofun nofun, rfl, fun _ => rfl⟩
  · exact ⟨_, exec_finishes ht rfl (unloadObj_drops q hu) nofun nofun, rfl, nofun⟩
  · exact ⟨_, exec_finishes ht rfl (unloadObj_drops q hu) nofun nofun, rfl, nofun⟩

/-- Settles O29. -/
theorem memoryObjectsAllocateMapAndFree : Obligations.MemoryObjectsAllocateMapAndFree := by
  unfold Obligations.MemoryObjectsAllocateMapAndFree
  refine ⟨?alloc, ?map, ?unmap, ?free, ?release, ?missing⟩
  case alloc =>
    intro s q p k page a ht hk hpage hp0 hn hal hroot hlim hplace hfit
    obtain ⟨o, hmem, hkind, hctx, hhost, hrefs, -⟩ := newObj_mem p.ctx (.mem k a.1 (p.w 0) page) [] s
    refine ⟨_, _, exec_finishes ht rfl (memAlloc_allocates hk hpage hp0 hn hal hroot hlim hplace hfit) nofun nofun,
      ⟨o, ?_, hctx, hhost, hrefs, hkind⟩, ⟨_, ?_, rfl⟩, fun c hc => ?_, fun hk => ⟨?_, fun x => ?_⟩, fun hk => ?_, allocated_frame _ _⟩
    · rw [allocated, zeroStorage_host]; exact hmem
    · rw [getCtx_allocated, if_pos rfl]; exact (mem_insMap _ _ _).2 (.inl rfl)
    · rw [getCtx_allocated, if_neg hc]
    · rw [allocated, zeroStorage_device hk]; rfl
    · rw [allocated, zeroStorage_device hk]; exact memGet_erase _ _ _ _
    · subst hk; rfl
  case map =>
    intro s q p o k base size page ht hu hk hd h0 hl hs hlow hup hclear hfit
    refine ⟨_, mapOf p page, exec_finishes ht rfl (memMap_maps q hu hk hd h0 hl hs (halfOk_of hlow hup) hclear (hfit _ rfl rfl rfl)) nofun nofun,
      rfl, fun x => ?_, fun c hc => ?_, rfl⟩
    · rw [getCtx_addMap, if_pos rfl]; exact mem_insMap _ _ _
    · rw [getCtx_addMap, if_neg hc]
  case unmap =>
    intro s q p ht ha hn hcut
    have hhit : ∀ m ∈ hitMaps s p.ctx (p.w 0) (p.w 1), cutOk (p.w 0) m = true ∧ cutOk (p.w 0 + p.w 1) m = true ∧
        ∀ o, getObj? s m.obj = some o → o.refs = 0 := fun m hm => by
      obtain ⟨hmem, hlo, hhi⟩ := mem_hitMaps.1 hm
      obtain ⟨hca, hcb, href⟩ := hcut m hmem hlo hhi
      exact ⟨(cutOk_iff _ _).2 (hca.imp_right .inr), (cutOk_iff _ _).2 (or_left_comm.1 hcb), href⟩
    refine ⟨_, exec_finishes ht rfl (memUnmap_unmaps q ha hn hhit) nofun nofun, fun x h1 h2 => ?_, fun x hx => ?_, fun c hc => ?_⟩
    · exact Option.map_eq_none_iff.1 ((findMap_unmapped _ _ _ x s).trans (if_pos ⟨h1, h2⟩))
    · exact (findMap_unmapped _ _ _ x s).trans (if_neg (by omega))
    · rw [getCtx_unmapped, if_neg hc]
  case free =>
    intro s q p o ht hu
    obtain ⟨ho, hcode, hhost⟩ := useObj_ok hu
    refine ⟨fun hr => ?_, fun hr => ⟨_, exec_finishes ht rfl (memFree_pinned q hu hr) nofun nofun⟩⟩
    obtain ⟨v, hv, hov, hctxs, hwins⟩ := freed_eq ho hhost hr
    refine ⟨_, exec_finishes ht rfl (memFree_frees q hu hr) nofun nofun, ?_, fun c m hm => ?_, fun e he => ?_, ?_⟩
    · rw [hv]; exact removeObj_gone _ _
    · have hc : getCtx (removeObj (p.w 0) v) c = getCtx (dropMaps (p.w 0) s) c := by
        unfold getCtx; rw [removeObj_host]; exact congrArg (tabGet Ctx.init · c) hctxs
      rw [hv, hc, getCtx_dropMaps] at hm
      simpa using (List.mem_filter.1 hm).2
    · rw [hv, removeObj_host] at he
      exact revokeWins_ends _ _ e (hwins ▸ he)
    · rw [hv]; exact removeObj_zero (o := o.doomed) hov hcode
  case release =>
    intro s q p o c k hc hu
    obtain ⟨ho, -, -⟩ := useObj_ok hu
    obtain ⟨d, hexec, hst, hres⟩ := exec_drops hc hu
    refine ⟨d, _, hexec, hst, hres, fun hd => ?_, fun hd => ?_⟩
    · rw [dropHost_stays ho hd]; exact ⟨getObj?_modObj_same ho _, rfl⟩
    · rw [dropHost_removes ho hd]; exact removeObj_gone _ _
  case missing =>
    exact fun s q p hn => ⟨fun ht => exec_finishes ht rfl (memFree_missing q hn) nofun nofun,
      fun ht => exec_finishes ht rfl (objRelease_missing q hn) nofun nofun⟩

end Sys2Proof.Machine
end

section
/-! Windows, context queries, the host pool and cached translations (05 R101; 06 R112, R125, R126). Settles O30. -/

namespace Sys2Proof.Machine

/-! The lowest free number (06 R123). -/

/-- As many numbers as are in use, and one more, hold a free one. -/
theorem lowestFree_spec (used : List Nat) : lowestFree used ∉ used ∧ lowestFree used ≤ used.length := by
  unfold lowestFree
  cases hf : (List.range (used.length + 1)).find? fun i => !used.contains i with
  | some i => exact ⟨by simpa using List.find?_some hf, by have := List.mem_of_find?_eq_some hf; simp at this ⊢; omega⟩
  | none =>
    have hsub : List.range (used.length + 1) ⊆ used := fun i hi => by simpa using List.find?_eq_none.1 hf i hi
    have hle := List.nodup_range.length_le_of_subset hsub
    rw [List.length_range] at hle; omega

/-! Window keys (06 R125). -/

/-- A key spells its index and its generation. -/
theorem bits_key_index {i g : Nat} (hi : i < 2 ^ 20) : bits (i + g * 2 ^ 20) 0 20 = i := by unfold bits; omega
theorem bits_key_gen {i g : Nat} (hi : i < 2 ^ 20) (hg : g < 2 ^ 12) : bits (i + g * 2 ^ 20) 20 12 = g := by unfold bits; omega

theorem winOf_some {s : State} {key i : Nat} {w : Win} (h : winOf s key = some (i, w)) : i = bits key 0 20 ∧ w.live = true := by
  have hp := List.find?_some h
  simp only [Bool.and_eq_true, beq_iff_eq] at hp
  exact ⟨hp.1.1, hp.1.2⟩

/-- A key names no window where its index holds no live one. -/
theorem winOf_none {s : State} {key : Nat} (h : ∀ e ∈ s.host.wins, e.1 = bits key 0 20 → e.2.live = false) : winOf s key = none := by
  refine List.find?_eq_none.2 fun e he hp => ?_
  simp only [Bool.and_eq_true, beq_iff_eq] at hp
  rw [h e he hp.1.1] at hp; exact absurd hp.1.2 (by simp)

/-! WIN_OPEN (06 R125). -/

theorem mem_tabDel_other {α : Type} (t : Tab α) {k : Nat} {e : Nat × α} (he : e.1 ≠ k) : e ∈ tabDel t k ↔ e ∈ t := by
  induction t with
  | nil => rfl
  | cons f t ih =>
    by_cases hf : f.1 = k
    · have hne : e ≠ f := fun h => he (h ▸ hf)
      simp [tabDel, hf, ih, hne]
    · simp [tabDel, hf, ih]

theorem mem_putWin_other {i : Nat} {w : Win} {s : State} {e : Nat × Win} (he : e.1 ≠ i) : e ∈ (putWin i w s).host.wins ↔ e ∈ s.host.wins := by
  have hne : e ≠ (i, w) := fun h => he (congrArg Prod.fst h)
  exact (tabIns_mem _ _ _ _).trans ((or_iff_right hne).trans (mem_tabDel_other _ he))

theorem mem_putWin_same {i : Nat} {w : Win} {s : State} {e : Nat × Win} (he : e ∈ (putWin i w s).host.wins) (hi : e.1 = i) : e = (i, w) :=
  ((tabIns_mem _ _ _ _).1 he).resolve_right fun h => tabDel_keys _ _ e h hi

/-- A window put at an index is the one that its key names. -/
theorem winOf_putWin {i : Nat} {w : Win} {s : State} (hi : i < 2 ^ 20) (hg : w.gen < 2 ^ 12) (hl : w.live = true) :
    winOf (putWin i w s) (i + w.gen * 2 ^ 20) = some (i, w) := by
  unfold winOf
  rw [bits_key_index hi, bits_key_gen hi hg]
  cases hf : (putWin i w s).host.wins.find? fun e => e.1 == i && e.2.live && e.2.gen == w.gen with
  | none =>
    have hmem : (i, w) ∈ (putWin i w s).host.wins := (tabIns_mem _ _ _ _).2 (.inl rfl)
    exact absurd (List.find?_eq_none.1 hf _ hmem) (by simp [hl])
  | some e =>
    have hp := List.find?_some hf
    simp only [Bool.and_eq_true, beq_iff_eq] at hp
    rw [mem_putWin_same (List.mem_of_find?_eq_some hf) hp.1.1]

/-- 06 R126: while windows are fewer than indexes there is a free index: it holds no live window and none revoked within the last second. -/
theorem freeWin_some {s : State} (h : s.host.wins.length < 1048576) : ∃ i, freeWin s = some i ∧ i < 1048576 ∧
    ∀ e ∈ s.host.wins, e.1 = i → e.2.live = false ∧ e.2.revokedAt + 1000000000 ≤ s.lark.time := by
  let busy := (s.host.wins.filter fun e => e.2.live || s.lark.time < e.2.revokedAt + 1000000000).map Prod.fst
  obtain ⟨hfree, hle⟩ := lowestFree_spec busy
  have hlen : busy.length ≤ s.host.wins.length := by rw [List.length_map]; exact List.length_filter_le _ _
  have hi : lowestFree busy < 1048576 := by omega
  refine ⟨lowestFree busy, if_pos hi, hi, fun e he hei => ?_⟩
  have hidle : ¬ (e.2.live || decide (s.lark.time < e.2.revokedAt + 1000000000)) = true := fun hb =>
    hfree (List.mem_map.2 ⟨e, List.mem_filter.2 ⟨he, hb⟩, hei⟩)
  simpa using hidle

/-- The generation of the next window at an index (06 R125). -/
def nextGen (s : State) (i : Nat) : Nat := ((s.host.wins.find? fun e => e.1 == i).map fun e => (e.2.gen + 1) % 4096).getD 0

theorem nextGen_lt (s : State) (i : Nat) : nextGen s i < 4096 := by
  unfold nextGen
  cases s.host.wins.find? fun e => e.1 == i with
  | none => simp
  | some e => exact Nat.mod_lt _ (by simp)

/-- The window that WIN_OPEN with peer set 0 opens on a memory object: any peer of the context's slice may use it. -/
def openedWin (s : State) (p : Packet) (o : Obj) (i : Nat) : Win :=
  { gen := nextGen s i, live := true, obj := p.w 0, off := p.w 1, len := p.w 2, r := bitOf (p.w 3) 0, w := bitOf (p.w 3) 1
    acc := bitOf (p.w 3) 2, peers := 0, ctx := o.ctx, revokedAt := 0 }

theorem bitOf_bits {v n k : Nat} (hk : k < n) : bitOf (bits v 0 n) k = bitOf v k := by
  have h : v % 2 ^ n / 2 ^ k % 2 = v / 2 ^ k % 2 := by
    rw [← Nat.toNat_testBit, ← Nat.toNat_testBit, Nat.testBit_mod_two_pow, decide_eq_true hk, Bool.true_and]
  simp only [bitOf, bits, Nat.pow_zero, Nat.div_one, h]

section
variable {s : State} {q : QRef} {p : Packet} {o : Obj} {k : MemKind} {base size page : Nat}
variable (hcode : bits (p.w 0) 12 4 = 1) (hu : useObj s p.ctx (p.w 0) 1 = .ok o) (hk : o.kind = .mem k base size page)
include hcode hu hk

theorem winOpen_opens {i : Nat} (h0 : p.w 2 ≠ 0) (hin : p.w 1 + p.w 2 ≤ size) (hpeers : bits (p.w 3) 32 32 = 0) (hi : freeWin s = some i) :
    winOpen q p s = (.done (Done.res (i + nextGen s i * 2 ^ 20) 0), putWin i (openedWin s p o i) s) := by
  have hspan : windowSpan o = size := by simp [windowSpan, hk]
  have hrange : ¬ (p.w 2 = 0 ∨ windowSpan o < p.w 1 + p.w 2) := by omega
  simp [winOpen, hcode, hu, hrange, hpeers, hi, peersOk, openedWin, nextGen, bitOf_bits]

theorem winOpen_outside (hout : p.w 2 = 0 ∨ size < p.w 1 + p.w 2) : ∃ det, winOpen q p s = (.done (Done.fail 0x0105 det), s) := by
  have hspan : windowSpan o = size := by simp [windowSpan, hk]
  exact ⟨paramAt (if p.w 2 = 0 then 2 else 1) 0, by simp [winOpen, hcode, hu, hspan, hout, refuse]⟩

end

/-! WIN_REVOKE (06 R126). -/

section
variable {s : State} {p : Packet}

theorem winRevoke_revokes {i : Nat} {w : Win} (q : QRef) (hw : winOf s (bits (p.w 0) 0 32) = some (i, w)) (hs : inScope s p.ctx w.ctx = true) :
    winRevoke q p s = (.done Done.ok, revokeWin i s) := by simp [winRevoke, hw, hs]

theorem winRevoke_missing (q : QRef) (hw : winOf s (bits (p.w 0) 0 32) = none) : winRevoke q p s = (.done (Done.fail 0x0403 0), s) := by
  simp [winRevoke, hw, refuse]

/-! CTX_QUERY (05 R101). -/

theorem ctxQuery_answers (q : QRef) (hn : mayName s p.ctx (bits (p.w 0) 0 12) = true) : ctxQuery q p s =
    (.done (Done.res (getCtx s (bits (p.w 0) 0 12)).st (getCtx s (bits (p.w 0) 0 12)).lastFault), s) := by simp [ctxQuery, hn]

end

/-! The host pool and cached translations (06 R112). -/

/-- The low 21 bits of a length do not count (06 Table 6.11). -/
theorem poolLen_rounds (v : BitVec 64) : v &&& ~~~(0x1FFFFF#64) = BitVec.ofNat 64 (v.toNat / 2 ^ 21 * 2 ^ 21) := by
  refine BitVec.eq_of_getLsbD_eq fun i hi => ?_
  have hmask : (0x1FFFFF#64).getLsbD i = decide (i < 21) := Nat.testBit_two_pow_sub_one 21 i
  have hlow : (v.toNat / 2 ^ 21 * 2 ^ 21).testBit i = (decide (21 ≤ i) && v.toNat.testBit i) := by
    rw [Nat.testBit_mul_two_pow, Nat.testBit_div_two_pow]
    by_cases h : 21 ≤ i
    · rw [Nat.sub_add_cancel h]
    · simp [h]
  rw [BitVec.getLsbD_and, BitVec.getLsbD_not, hmask, BitVec.getLsbD_ofNat, hlow, decide_eq_true hi, Bool.true_and, Bool.true_and,
    ← decide_not, decide_eq_decide.2 Nat.not_lt, Bool.and_comm]; rfl

theorem dnkHpoolLenWrite_stores {s : State} {v : BitVec 64} (hup : s.up) (hp : poolRanges s = []) (hv : v.toNat < 2 ^ 40 + 2 ^ 21) :
    execDnkHpoolLenWrite v s = .next { s with host := { s.host with hpoolLen := BitVec.ofNat 64 (v.toNat / 2 ^ 21 * 2 ^ 21) } } := by
  have hle : ¬ 2 ^ 40 < (v &&& ~~~(0x1FFFFF#64)).toNat := by
    rw [poolLen_rounds, BitVec.toNat_ofNat]; omega
  simp only [execDnkHpoolLenWrite, regsOpen_of hup, hp, if_neg hle, Bool.not_true, Bool.false_eq_true, if_false, List.isEmpty_nil]
  rw [poolLen_rounds]; rfl

theorem dnkHpoolLenWrite_ignored {s : State} (v : BitVec 64) (hup : s.up) (hp : poolRanges s ≠ []) :
    execDnkHpoolLenWrite v s = .next (raisePlain 0x0411 none 0xFFFF s) := by
  simp [execDnkHpoolLenWrite, regsOpen_of hup, hp]

/-- Settles O30. -/
theorem windowsQueriesAndPool : Obligations.WindowsQueriesAndPool := by
  unfold Obligations.WindowsQueriesAndPool
  refine ⟨?opened, ?revoked, fun s q p ht hn => exec_finishes ht rfl (ctxQuery_answers q hn) nofun nofun, ?pool, ?ats⟩
  case opened =>
    intro s q p o k base size page ht hcode hu hk
    refine ⟨fun h0 hin hpeers hlim => ?_, fun hout => ?_⟩
    · obtain ⟨i, hi, hlt, hidle⟩ := freeWin_some hlim
      exact ⟨i, nextGen s i, _, exec_finishes ht rfl (winOpen_opens hcode hu hk h0 hin hpeers hi) nofun nofun, hlt, nextGen_lt s i, hidle,
        winOf_putWin (w := openedWin s p o i) hlt (nextGen_lt s i) rfl, fun e he => mem_putWin_other he, rfl⟩
    · obtain ⟨det, hdet⟩ := winOpen_outside (q := q) hcode hu hk hout
      exact ⟨det, exec_finishes ht rfl hdet nofun nofun⟩
  case revoked =>
    refine fun s q p ht => ⟨fun i w hw hs => ?_, fun hw => exec_finishes ht rfl (winRevoke_missing q hw) nofun nofun⟩
    exact ⟨_, exec_finishes ht rfl (winRevoke_revokes q hw hs) nofun nofun, fun e he hi => mem_revokeWin_same he hi,
      winOf_none fun e he hi => (mem_revokeWin_same he (hi.trans (winOf_some hw).1.symm)).1, fun e he => mem_revokeWin_other he s⟩
  case pool =>
    exact fun s v hup => ⟨fun hp hv => dnkHpoolLenWrite_stores hup hp hv, fun hp => ⟨_, dnkHpoolLenWrite_ignored v hup hp⟩⟩
  case ats =>
    refine fun s a n => ⟨_, rfl, rfl, fun r => ?_⟩
    have hkeep : (!overlaps r (a, n)) = true ↔ r.1 + r.2 ≤ a ∨ a + n ≤ r.1 := by
      rw [Bool.not_eq_true', ← Bool.not_eq_true, overlaps_iff]; omega
    exact List.mem_filter.trans (and_congr_right' hkeep)

end Sys2Proof.Machine
end

section
/-! SUPPORT. Rules of the key store (08): what a change of one slot leaves, the lowest Empty slot, what an accepted blob carries, and how a
KCP command ends on Nuthatch, its counted statuses included. -/

namespace Sys2Proof.Machine

/-! One slot (08 R153). -/

theorem OnlySlot.putSlotK (n : Nat) (v : KSlot) (s : State) : OnlySlot n s (putSlotK n v s) :=
  ⟨fun m hm => by rw [getSlotK_putSlotK, if_neg hm], rfl⟩

theorem partSlots_sorted (s : State) (p : Nat) : (partSlots s p).Pairwise (· < ·) := by
  unfold partSlots
  split
  · exact List.pairwise_map.mpr (List.pairwise_lt_range.imp fun h => Nat.add_lt_add_left h _)
  · exact List.pairwise_lt_range

/-- The free slot of a context is Empty, no root slot, and the lowest of its partition that is both. -/
theorem freeSlot_lowest {s : State} {c n : Nat} (h : freeSlot s c = some n) : (getSlotK s n).st = 0 ∧ isRootSlot s n = false ∧
    ∀ m ∈ partSlots s (getCtx s c).part, m < n → (getSlotK s m).st ≠ 0 ∨ isRootSlot s m = true := by
  obtain ⟨hn, as, bs, hsplit, hbefore⟩ := List.find?_eq_some_iff_append.mp h
  have hfree : (getSlotK s n).st = 0 ∧ isRootSlot s n = false := by simpa using hn
  refine ⟨hfree.1, hfree.2, fun m hm hlt => ?_⟩
  have hsorted := partSlots_sorted s (getCtx s c).part
  rw [hsplit] at hm hsorted
  have hafter : m ∉ n :: bs := fun hmem => by
    rcases List.mem_cons.mp hmem with rfl | hbs
    · exact Nat.lt_irrefl m hlt
    · exact Nat.lt_asymm hlt (List.rel_of_pairwise_cons (List.pairwise_append.mp hsorted).2.1 hbs)
  have hbad := hbefore m ((List.mem_append.mp hm).resolve_right hafter)
  by_cases hst : (getSlotK s m).st = 0
  · exact .inr (by simpa [hst] using hbad)
  · exact .inl hst

/-! Blobs (08 Table 8.4). -/

/-- A blob that passes the checks carries the identifier and version of its header, the version not below the floor. -/
theorem openBlob_carries {s : State} {c len : Nat} {b : List Byte} {k : Key} (h : openBlob s c len b = .ok k) :
    floorOf s.nut k.id ≤ k.version ∧ k.id = sub b 0x10 16 ∧ k.version = field b 0x30 4 := by
  unfold openBlob at h; dsimp only at h
  split at h
  · cases h
  split at h
  · cases h
  split at h
  · cases h
  split at h
  · cases h
  split at h
  · cases h
  next hfloor =>
    cases h
    exact ⟨Nat.le_of_not_lt hfloor, rfl, rfl⟩

theorem withBlob_read {s : State} {c a len : Nat} {b : List Byte} (h : dvaRead s c a len .read false = .ok b) (k : List Byte → Reply × State) :
    withBlob c a len s k = k b := by
  simp only [withBlob, h]

/-! The end of a command (05 R96; 07 Table 7.10; 18 R353). -/

theorem countAuth_frame (status : Nat) (s : State) : countAuth status s =
    { s with host := { s.host with authFail := (countAuth status s).host.authFail, replayCnt := (countAuth status s).host.replayCnt } } := by
  unfold countAuth
  split
  · rfl
  split <;> rfl

theorem countAuth_nut (status : Nat) (s : State) : (countAuth status s).nut = s.nut := by rw [countAuth_frame]

/-- A unit that is not in Quarantine runs the body. -/
theorem onUnit_runs {s : State} {u : Nat} (h : quarantined s u = false) (body : Body) (q : QRef) (p : Packet) : onUnit u body q p s = body q p s := by
  simp [onUnit, h]

section
variable {s t : State} {q : QRef} {op : Nat} {p : Packet} {c : Instr} {u : Nat} {body : Body} {d : Done}
  (ht : Turn s q op p) (hq : quarantined s u = false) (he : exec c s = .next (runCmd op (onUnit u body) q s))
include ht hq he

/-- A command at its turn whose unit runs a body that completes it; what its status counts is counted. -/
theorem exec_unit_counts (hb : body q p s = (.done d, t)) : exec c s = .next (finish q d (countAuth d.status t)) := by
  have hrun := (onUnit_runs hq body q p).trans hb
  obtain ⟨hs, ho, hst, hv, hf, hd, hbuf⟩ := ht
  simp [he, runCmd, hs, ho, hst, hv, hf, hd, hbuf, hrun]

/-- One whose status is not counted. -/
theorem exec_unit_finishes (hb : body q p s = (.done d, t)) (h2 : d.status ≠ 0x0502) (h4 : d.status ≠ 0x0504) :
    exec c s = .next (finish q d t) :=
  exec_finishes ht he ((onUnit_runs hq body q p).trans hb) h2 h4

theorem exec_unit_starts (hb : body q p s = (.later, t)) : exec c s = .next (markStarted q t) := by
  rw [he, runCmd_later ht ((onUnit_runs hq body q p).trans hb)]

end

end Sys2Proof.Machine
end

section
/-! Loading, staging, commit and eviction of key slots (08 R153 to R161, Tables 8.4 and 8.5). Settles O35. -/

namespace Sys2Proof.Machine

section
variable {s : State} {p : Packet} (q : QRef)

/-! KEY_LOAD (08 R156). -/

section
variable {b : List Byte} (hpol : s.nut.policyLost = false) (hread : dvaRead s p.ctx (p.w 0) (bits (p.w 1) 0 16) .read false = .ok b)
  (hmagic : field b 0 4 ≠ 0x4B4C434F)
include hpol hread hmagic

theorem keyLoad_loads {k : Key} {n : Nat} (hk : openBlob s p.ctx (bits (p.w 1) 0 16) b = .ok k) (hnew : holdsKey s p.ctx k.id = false)
    (hn : freeSlot s p.ctx = some n) : keyLoad q p s = (.done (Done.res n 0), takeSlot n p.ctx k s) := by
  simp [keyLoad, withBlob_read hread, hmagic, hpol, hk, hnew, hn]

theorem keyLoad_refused {e : Nat × Nat} (hk : openBlob s p.ctx (bits (p.w 1) 0 16) b = .error e) :
    keyLoad q p s = (.done (Done.fail e.1 e.2), s) := by
  simp [keyLoad, withBlob_read hread, hmagic, hpol, hk, refuse]

end

/-! Commands that name a slot (08 R159 to R161, Table 8.5). -/

section
variable {v : KSlot} (hv : nameSlot s p.ctx (bits (p.w 0) 0 8) = .ok v)
include hv

section
variable {b : List Byte} {k : Key} (hroot : v.root = false) (hst : v.st = 1) (hpol : s.nut.policyLost = false)
  (hread : dvaRead s p.ctx (p.w 1) (bits (p.w 2) 0 16) .read false = .ok b) (hk : openBlob s p.ctx (bits (p.w 2) 0 16) b = .ok k)
include hroot hst hpol hread hk

theorem keyStage_stages (hid : k.id = v.key.id) (hattr : k.attr = v.key.attr) (hver : v.key.version < k.version) :
    keyStage q p s = (.done Done.ok, putSlotK (bits (p.w 0) 0 8) { v with st := 2, staged := some k } s) := by
  simp [keyStage, hv, hroot, hst, hpol, withBlob_read hread, hk, hid, hattr, Nat.not_le.mpr hver]

theorem keyStage_stale (hid : k.id = v.key.id) (hattr : k.attr = v.key.attr) (hver : k.version ≤ v.key.version) :
    keyStage q p s = (.done (Done.fail 0x0504 6), s) := by
  simp [keyStage, hv, hroot, hst, hpol, withBlob_read hread, hk, hid, hattr, hver, refuse]

theorem keyStage_mismatch (h : k.id ≠ v.key.id ∨ k.attr ≠ v.key.attr) :
    keyStage q p s = (.done (Done.fail 0x0203 (k.attr ^^^ v.key.attr).toNat), s) := by
  simp only [keyStage, hv, hroot, hst, hpol, withBlob_read hread, hk, if_pos h]
  rfl

end

theorem keyStage_root (hroot : v.root = true) : keyStage q p s = (.done (Done.fail 0x0201 0), s) := by
  simp [keyStage, hv, hroot, refuse]

theorem keyCommit_drops (hst : v.st = 2) (hbit : bitOf (p.w 0) 8 = true) :
    keyCommit q p s = (.done Done.ok, putSlotK (bits (p.w 0) 0 8) { v with st := 1, staged := none } s) := by
  simp [keyCommit, hv, hst, hbit]

theorem keyCommit_switches (hst : v.st = 2) (hbit : bitOf (p.w 0) 8 = false) :
    keyCommit q p s = (.later, switchKey (bits (p.w 0) 0 8) (some q) s) := by
  simp [keyCommit, hv, hst, hbit]

theorem keyCommit_refused (hst : v.st ≠ 2) (hev : v.evicted = false) : keyCommit q p s = (.done (Done.fail 0x0401 v.st), s) := by
  simp [keyCommit, hv, hst, hev, refuse]

theorem keyEvict_evicts (hroot : v.root = false) (hst : v.st = 1 ∨ v.st = 2) :
    keyEvict q p s = (.done Done.ok, evictSlot (bits (p.w 0) 0 8) s) := by
  have hlive : v.st ≠ 0 ∧ v.st ≠ 3 := by omega
  simp [keyEvict, hv, hroot, hlive]

theorem keyEvict_root (hroot : v.root = true) : keyEvict q p s = (.done (Done.fail 0x0201 0), s) := by
  simp [keyEvict, hv, hroot, refuse]

theorem keyQuery_answers : keyQuery q p s = (.done (Done.res v.key.attr.toNat v.st), s) := by
  simp [keyQuery, hv]

end

theorem switchKey_staged {n : Nat} {k : Key} (hk : (getSlotK s n).staged = some k) (by_ : Option QRef) : switchKey n by_ s =
    putSlotK n { getSlotK s n with st := 3, key := k, staged := none, old := some (getSlotK s n).key, by_ := by_ } s := by
  simp only [switchKey, hk]

/-- The release of the old key of a Switching slot (08 R160). -/
theorem exec_keyOldReleased {n : Nat} (h : (getSlotK s n).st = 3) : exec (.keyOldReleased n) s =
    .next (releaseCommit (getSlotK s n).by_ Done.ok (putSlotK n { getSlotK s n with st := 1, old := none, by_ := none } s)) :=
  next_if_pos h

end

/-- Settles O35. -/
theorem keySlotsLoadStageCommitAndEvict : Obligations.KeySlotsLoadStageCommitAndEvict := by
  unfold Obligations.KeySlotsLoadStageCommitAndEvict
  refine ⟨?load, ?stage, ?commit, ?released, ?evict⟩
  case load =>
    refine fun s q p b ht hq hpol hread hmagic => ⟨fun k n hk hnew hn => ?_, fun e hk => ?_⟩
    · obtain ⟨hempty, hnoroot, hlowest⟩ := freeSlot_lowest hn
      exact ⟨_, exec_unit_finishes ht hq rfl (keyLoad_loads q hpol hread hmagic hk hnew hn) nofun nofun, getSlotK_putSlotK_same _ _ _, hempty,
        hnoroot, hlowest, .putSlotK _ _ _, openBlob_carries hk⟩
    · exact ⟨_, exec_unit_counts ht hq rfl (keyLoad_refused q hpol hread hmagic hk), countAuth_nut _ _, countAuth_frame _ _⟩
  case stage =>
    rintro s q p _ v b k ht hq rfl hv - hroot hst hpol hread hk
    refine ⟨fun hid hattr hver => ?_, fun hid hattr hver => ?_, fun h => ?_⟩
    · exact ⟨_, exec_unit_finishes ht hq rfl (keyStage_stages q hv hroot hst hpol hread hk hid hattr hver) nofun nofun,
        getSlotK_putSlotK_same _ _ _, .putSlotK _ _ _⟩
    · exact ⟨_, exec_unit_counts ht hq rfl (keyStage_stale q hv hroot hst hpol hread hk hid hattr hver), rfl⟩
    · exact ⟨_, exec_unit_finishes ht hq rfl (keyStage_mismatch q hv hroot hst hpol hread hk h) nofun nofun⟩
  case commit =>
    rintro s q p _ v ht hq rfl hv hslot
    refine ⟨fun hst hbit => ?_, fun k hst hbit hk => ?_, fun hst hev => ?_⟩
    · exact ⟨_, exec_unit_finishes ht hq rfl (keyCommit_drops q hv hst hbit) nofun nofun, getSlotK_putSlotK_same _ _ _, .putSlotK _ _ _⟩
    · refine ⟨_, exec_unit_starts ht hq rfl (keyCommit_switches q hv hst hbit), ?_⟩
      subst hslot
      rw [switchKey_staged hk]
      exact ⟨getSlotK_putSlotK_same _ _ _, .putSlotK _ _ _⟩
    · exact exec_unit_finishes ht hq rfl (keyCommit_refused q hv hst hev) nofun nofun
  case released =>
    refine fun s n h => ⟨_, getSlotK_putSlotK_same _ _ _, .putSlotK _ _ _, fun q hby => ?_, fun hby => ?_⟩
    all_goals rw [exec_keyOldReleased h, hby]; rfl
  case evict =>
    rintro s q p _ v hq rfl hv -
    refine ⟨fun ht hroot hst => ?_, fun hroot => ⟨fun ht => ?_, fun ht => ?_⟩, fun ht => ?_⟩
    · exact ⟨_, exec_unit_finishes ht hq rfl (keyEvict_evicts q hv hroot hst) nofun nofun, getSlotK_putSlotK_same _ _ _, .putSlotK _ _ _⟩
    · exact exec_unit_finishes ht hq rfl (keyEvict_root q hv hroot) nofun nofun
    · exact exec_unit_finishes ht hq rfl (keyStage_root q hv hroot) nofun nofun
    · exact exec_unit_finishes ht hq rfl (keyQuery_answers q hv) nofun nofun

end Sys2Proof.Machine
end

section
/-! Derivation and wrapping of keys (08 R157, R158, Table 8.3). Settles O36. -/

namespace Sys2Proof.Machine

/-! KEY_DERIVE (08 R158). -/

theorem deriveKey_measured (ms : List Byte) (parent : Key) (measured : Bool) (attr label : List Byte) :
    (deriveKey ms parent measured attr label).attr.getLsbD 17 = (measured || parent.attr.getLsbD 17) := by
  have hmask : (BitVec.ofNat 64 (2 ^ 17)).getLsbD 17 = true := rfl
  unfold deriveKey; dsimp only
  cases measured || parent.attr.getLsbD 17 with
  | true => rw [if_pos rfl, BitVec.getLsbD_or, hmask, Bool.or_true]
  | false => rw [if_neg Bool.false_ne_true, BitVec.getLsbD_and, BitVec.getLsbD_not, hmask, Bool.not_true, Bool.and_false, Bool.and_false]

section
variable {s : State} {p : Packet} {v : KSlot} (q : QRef) (hv : nameSlot s p.ctx (bits (p.w 0) 0 8) = .ok v)
include hv

section
variable (hw : rsvdWord 1 attrMask (p.w 1) = none) (hst : v.st ≠ 0)
include hw hst

theorem keyDerive_derives {n : Nat} (hm : deriveMissing v.key.attr.toNat (p.w 1) = 0) (hn : freeSlot s p.ctx = some n) :
    keyDerive q p s = (.done (Done.res n 0),
      takeSlot n p.ctx (deriveKey s.nut.msKey v.key (bitOf (p.w 0) 8) (sub p.params 8 8) (sub p.params 16 64)) s) := by
  simp [keyDerive, hv, hw, hst, hm, hn]

theorem keyDerive_missing (hm : deriveMissing v.key.attr.toNat (p.w 1) ≠ 0) :
    keyDerive q p s = (.done (Done.fail 0x0203 (deriveMissing v.key.attr.toNat (p.w 1))), s) := by
  simp [keyDerive, hv, hw, hst, hm, refuse]

end

/-! KEY_WRAP (08 R157). -/

section
variable {w : KSlot} (hw : nameSlot s p.ctx (bits (p.w 0) 8 8) = .ok w) (hroot : v.root = false) (hv0 : v.st ≠ 0) (hw0 : w.st ≠ 0)
include hw hroot hv0 hw0

theorem keyWrap_wraps (hwrap : w.key.attr.getLsbD 13 = true) (hexp : v.key.attr.getLsbD 16 = true)
    (hbuf : bufErr s q p (144 + v.key.material.length) = none) :
    keyWrap q p s = (.done { Done.ok with data := wrapBlob v.key w.key (drawBytes 12 s).1 }, (drawBytes 12 s).2) := by
  simp [keyWrap, hv, hw, hroot, hv0, hw0, hwrap, hexp, withBuf, hbuf, -BitVec.getLsbD_eq_getElem]

theorem keyWrap_refused (h : w.key.attr.getLsbD 13 = false ∨ v.key.attr.getLsbD 16 = false) :
    ∃ d, keyWrap q p s = (.done (Done.fail 0x0203 d), s) := by
  cases hwrap : w.key.attr.getLsbD 13 with
  | false => exact ⟨2 ^ 13, by simp [keyWrap, hv, hw, hroot, hv0, hw0, hwrap, refuse, -BitVec.getLsbD_eq_getElem]⟩
  | true =>
    have hexp : v.key.attr.getLsbD 16 = false := h.resolve_left (by simp [hwrap])
    exact ⟨2 ^ 16, by simp [keyWrap, hv, hw, hroot, hv0, hw0, hwrap, hexp, refuse, -BitVec.getLsbD_eq_getElem]⟩

end
end

theorem drawBytes_length (n : Nat) (s : State) : (drawBytes n s).1.length = n := by simp [drawBytes]

/-! Pieces of a byte string. -/

theorem sub_append_left {a : List Byte} {len : Nat} (h : a.length = len) (b : List Byte) : sub (a ++ b) 0 len = a := by
  rw [sub, List.drop_zero, List.append_assoc, List.take_left' h]

theorem sub_append_right {a : List Byte} {off : Nat} (h : a.length ≤ off) (b : List Byte) (len : Nat) :
    sub (a ++ b) off len = sub b (off - a.length) len := by
  rw [sub, sub, List.drop_append, List.drop_eq_nil_of_le h, List.nil_append]

theorem sub_all {a : List Byte} {len : Nat} (h : a.length = len) : sub a 0 len = a := by
  simpa using sub_append_left h []

theorem leNat_natLE (n v : Nat) : leNat (natLE n v) = v % 256 ^ n := by
  induction n generalizing v with
  | zero => exact (Nat.mod_one v).symm
  | succ n ih => rw [natLE, leNat, ih, BitVec.toNat_ofNat, Nat.pow_succ' (m := 256), Nat.mod_mul]

/-! AES-256-GCM opens what it has sealed (00 R377). -/

theorem ctrBytes_length (key : List Byte) (icb off len : Nat) : (ctrBytes key icb off len).length = len := by simp [ctrBytes]

theorem xorBytes_cancel {a b : List Byte} (h : a.length = b.length) : xorBytes (xorBytes a b) b = a :=
  List.ext_getElem (by simp [xorBytes, h]) fun i _ _ => by
    simp only [xorBytes, List.getElem_zipWith, BitVec.xor_assoc, BitVec.xor_self, BitVec.xor_zero]

theorem gcmCrypt_length (key nonce text : List Byte) : (gcmCrypt key nonce text).length = text.length := by
  simp [gcmCrypt, xorBytes, ctrBytes_length]

theorem gcmTag_length (key nonce aad ct : List Byte) : (gcmTag key nonce aad ct).length = 16 := by simp [gcmTag]

theorem gcmCrypt_gcmCrypt (key nonce text : List Byte) : gcmCrypt key nonce (gcmCrypt key nonce text) = text := by
  have hlen := gcmCrypt_length key nonce text
  unfold gcmCrypt at hlen ⊢
  rw [hlen, xorBytes_cancel (ctrBytes_length ..).symm]

theorem gcmOpen_sealed (key nonce aad text : List Byte) :
    gcmOpen key nonce aad (gcmCrypt key nonce text) (gcmTag key nonce aad (gcmCrypt key nonce text)) = some text :=
  (if_pos rfl).trans (congrArg some (gcmCrypt_gcmCrypt ..))

/-! The blob of KEY_WRAP (08 Table 8.3). -/

/-- Bytes 0x00 to 0x7F of the blob: its header, which the tag covers. -/
def blobHead (k w : Key) (nonce : List Byte) : List Byte :=
  natLE 4 0x4B4C4B42 ++ natLE 2 1 ++ natLE 1 1 ++ natLE 1 0 ++ natLE 8 k.attr.toNat ++ k.id ++ w.id ++ natLE 4 k.version
    ++ natLE 4 k.material.length ++ nonce ++ zeros 60

/-- The material under the wrapping key. -/
def blobText (k w : Key) (nonce : List Byte) : List Byte := gcmCrypt (wrapKey w.material) nonce k.material

theorem wrapBlob_eq (k w : Key) (nonce : List Byte) : wrapBlob k w nonce = blobHead k w nonce ++
    (blobText k w nonce ++ gcmTag (wrapKey w.material) nonce (blobHead k w nonce) (blobText k w nonce)) := List.append_assoc ..

section
variable {k w : Key} {nonce : List Byte} (hk : k.id.length = 16) (hw : w.id.length = 16) (hn : nonce.length = 12)
include hk hw hn

theorem blobHead_length : (blobHead k w nonce).length = 128 := by simp [blobHead, hk, hw, hn]

theorem wrapBlob_length : (wrapBlob k w nonce).length = 144 + k.material.length := by
  rw [wrapBlob_eq, List.length_append, List.length_append, blobHead_length hk hw hn, blobText, gcmCrypt_length, gcmTag_length]; omega

/-- The fields of the header, each at its offset. -/
theorem wrapBlob_fields : field (wrapBlob k w nonce) 0 4 = 0x4B4C4B42 ∧ field (wrapBlob k w nonce) 6 1 = 1 ∧
    sub (wrapBlob k w nonce) 8 8 = natLE 8 k.attr.toNat ∧ sub (wrapBlob k w nonce) 0x10 16 = k.id ∧ sub (wrapBlob k w nonce) 0x20 16 = w.id ∧
    field (wrapBlob k w nonce) 0x30 4 = k.version % 2 ^ 32 ∧ sub (wrapBlob k w nonce) 0x38 12 = nonce := by
  simp [wrapBlob_eq, blobHead, field, sub_append_left, sub_append_right, leNat_natLE, hk, hw, hn]

/-- The header, the ciphertext and the tag. -/
theorem wrapBlob_parts : sub (wrapBlob k w nonce) 0 0x80 = blobHead k w nonce ∧
    sub (wrapBlob k w nonce) 0x80 k.material.length = blobText k w nonce ∧
    sub (wrapBlob k w nonce) (0x80 + k.material.length) 16 = gcmTag (wrapKey w.material) nonce (blobHead k w nonce) (blobText k w nonce) := by
  have hhead := blobHead_length hk hw hn
  have htext : (blobText k w nonce).length = k.material.length := gcmCrypt_length ..
  simp [wrapBlob_eq, sub_append_left, sub_append_right, sub_all, hhead, htext, gcmTag_length]

theorem wrapBlob_opens : gcmOpen (wrapKey w.material) (sub (wrapBlob k w nonce) 0x38 12) (sub (wrapBlob k w nonce) 0 0x80)
    (sub (wrapBlob k w nonce) 0x80 k.material.length) (sub (wrapBlob k w nonce) (0x80 + k.material.length) 16) = some k.material := by
  obtain ⟨-, -, -, -, -, -, hnonce⟩ := wrapBlob_fields hk hw hn
  obtain ⟨hhead, htext, htag⟩ := wrapBlob_parts hk hw hn
  rw [hnonce, hhead, htext, htag, blobText, gcmOpen_sealed]

end

/-- Settles O36. -/
theorem keysDeriveAndWrapAsStated : Obligations.KeysDeriveAndWrapAsStated := by
  unfold Obligations.KeysDeriveAndWrapAsStated
  refine ⟨?derive, ?wrap, ?opens⟩
  case derive =>
    refine fun s q p v ht hq hv hw hst => ⟨fun n prk hm hn hprk => ?_, fun hm => ?_⟩
    · refine ⟨_, exec_unit_finishes ht hq rfl (keyDerive_derives q hv hw hst hm hn) nofun nofun, .putSlotK _ _ _, ?_⟩
      subst hprk
      rw [takeSlot, getSlotK_putSlotK_same]
      exact ⟨rfl, rfl, rfl, rfl, rfl, deriveKey_measured ..⟩
    · exact exec_unit_finishes ht hq rfl (keyDerive_missing q hv hw hst hm) nofun nofun
  case wrap =>
    refine fun s q p v w ht hq hv hw hroot hv0 hw0 => ⟨fun hwrap hexp hbuf => ?_, fun h => ?_⟩
    · exact ⟨_, drawBytes_length 12 s, exec_unit_finishes ht hq rfl (keyWrap_wraps q hv hw hroot hv0 hw0 hwrap hexp hbuf) nofun nofun⟩
    · obtain ⟨d, hd⟩ := keyWrap_refused q hv hw hroot hv0 hw0 h
      exact ⟨d, exec_unit_finishes ht hq rfl hd nofun nofun⟩
  case opens =>
    rintro k w nonce _ hk hw hn rfl
    obtain ⟨hmagic, hkind, hattr, hkid, hwid, hver, -⟩ := wrapBlob_fields hk hw hn
    exact ⟨wrapBlob_length hk hw hn, hmagic, hkind, hattr, hkid, hwid, hver, wrapBlob_opens hk hw hn⟩

end Sys2Proof.Machine
end

section
/-! SUPPORT. Rules of Starling's tiles (10 R192 to R213): what each operation of the roost leaves where it stands, what it stores, and what a
run of them over the tiles of one instruction comes to. -/

namespace Sys2Proof.Machine

/-! Rows and tiles (10 R192, Table 10.1; 09 R169). -/

theorem granules_pos (f : AccFmt) : 0 < granules f := by cases f <;> decide
theorem tileBytes_eq (f : AccFmt) : tileBytes f = 256 * granules f := by cases f <;> rfl

@[simp] theorem decRow_length (f : AccFmt) (bs : List Byte) : (decRow f bs).length = 64 := by simp [decRow]
@[simp] theorem getTile_length (r : Roost) (f : AccFmt) (t : Nat) (s : State) : (getTile r f t s).length = 64 := decRow_length ..

theorem flatMap_length_const {α β : Type} {g : α → List β} {n : Nat} {l : List α} (h : ∀ e ∈ l, (g e).length = n) :
    (l.flatMap g).length = l.length * n := by
  rw [List.length_flatMap, List.map_congr_left h, List.map_const', List.sum_replicate_nat]

/-- A row of sums is no longer than what it is added to. -/
theorem zipWith_length_le {α β γ : Type} (g : α → β → γ) {n : Nat} {l : List α} (h : l.length ≤ n) (l' : List β) : (List.zipWith g l l').length ≤ n := by
  rw [List.length_zipWith]; exact Nat.le_trans (Nat.min_le_left ..) h

theorem encRow_length (f : AccFmt) (es : List Elem) : (encRow f es).length = es.length * elemBytes f :=
  flatMap_length_const fun _ _ => natLE_length ..

theorem encRow_tile {es : List Elem} (h : es.length = 64) (f : AccFmt) : (encRow f es).length = tileBytes f := by rw [encRow_length, h, tileBytes]

/-- Bytes that no change reaches read the same. -/
theorem memRead_congr {m m' : List Host.Cell} {a n : Nat} (h : ∀ x, a ≤ x → x < a + n → memGet m x = memGet m' x) : memRead m a n = memRead m' a n :=
  List.map_congr_left fun i hi => h _ (by omega) (by have := List.mem_range.1 hi; omega)

/-- A run of stored bytes of known length reads back. -/
theorem memRead_memWrite {bs : List Byte} {n : Nat} (h : bs.length = n) (m : List Host.Cell) (a : Nat) : memRead (memWrite m a bs) a n = bs := by
  rw [← h, memRead_memWrite_same]

/-- The tiles from `j` and `k` share no granule. -/
def TilesApart (f : AccFmt) (j k : Nat) : Prop := j + granules f ≤ k ∨ k + granules f ≤ j

theorem TilesApart.ne {f : AccFmt} {j k : Nat} (h : TilesApart f j k) : j ≠ k := by
  have := granules_pos f
  unfold TilesApart at h; omega

theorem tswKey_inj {r : Roost} {j k : Nat} : tswKey r j = tswKey r k ↔ j = k := by unfold tswKey; omega

/-- The leaves pending on a tile (10 R200). -/
def getPend (r : Roost) (t : Nat) (s : State) : List (List Byte) := tabGet [] (getWren s r.w).pend (tswKey r t)

/-! What Starling leaves alone. -/

/-- State `t` is `s` but for memory, what Starling holds of Wren `w`, and counter slots and events. -/
structure StlOnly (w : Nat) (s t : State) : Prop where
  wren : getWren t w = { getWren s w with
    tsw := (getWren t w).tsw, pend := (getWren t w).pend, groups := (getWren t w).groups, sExh := (getWren t w).sExh
    sTl := (getWren t w).sTl, sBl := (getWren t w).sBl, sNan := (getWren t w).sNan }
  others : ∀ v, v ≠ w → getWren t v = getWren s v
  rest : t = { s with
    mem := t.mem, fab := { s.fab with wrens := t.fab.wrens }, pwr := { s.pwr with pins := t.pwr.pins }, hsc := t.hsc
    evlog := t.evlog, glb := t.glb, out := t.out }

theorem StlOnly.refl (w : Nat) (s : State) : StlOnly w s s := ⟨rfl, fun _ _ => rfl, rfl⟩
theorem StlOnly.trans {w : Nat} {s t u : State} (h : StlOnly w s t) (k : StlOnly w t u) : StlOnly w s u :=
  ⟨by rw [k.wren, h.wren], fun v hv => (k.others v hv).trans (h.others v hv), by rw [k.rest, h.rest]⟩
theorem StlOnly.foldl {α : Type} {w : Nat} {g : State → α → State} (hg : ∀ s a, StlOnly w s (g s a)) (l : List α) (s : State) :
    StlOnly w s (l.foldl g s) :=
  List.foldlRecOn l g (motive := StlOnly w s) (.refl w s) fun b hb a _ => hb.trans (hg b a)

theorem CountOnly.stlOnly {s t : State} (h : CountOnly s t) (w : Nat) : StlOnly w s t :=
  ⟨by rw [h.getWren], fun v _ => h.getWren v, by rw [h]⟩

theorem StlOnly.setMem (w : Nat) (m : List Host.Cell) (s : State) : StlOnly w s (setMem m s) := ⟨rfl, fun _ _ => rfl, rfl⟩

/-- A change of what Starling holds of its Wren. -/
theorem StlOnly.modWren {w : Nat} {g : Wren → Wren} {s : State}
    (hg : g (getWren s w) = { getWren s w with
      tsw := (g (getWren s w)).tsw, pend := (g (getWren s w)).pend, groups := (g (getWren s w)).groups, sExh := (g (getWren s w)).sExh
      sTl := (g (getWren s w)).sTl, sBl := (g (getWren s w)).sBl, sNan := (g (getWren s w)).sNan }) : StlOnly w s (modWren w g s) :=
  ⟨by rw [modWren_eq, getWren_putWren_same]; exact hg, fun v hv => (getWren_putWren _ _ _ _).trans (if_neg hv), rfl⟩

/-- Work on tiles `T` of a format: nothing but their bytes, status words and pending leaves changes on the Wren, in memory and besides. -/
structure TilesWork (r : Roost) (f : AccFmt) (T : List Nat) (s t : State) : Prop where
  only : StlOnly r.w s t
  mem : ∀ a, (∀ k ∈ T, a < r.at_ k ∨ r.at_ k + tileBytes f ≤ a) → memGet t.mem a = memGet s.mem a
  tsw : ∀ k, k ∉ T → getTsw r k t = getTsw r k s
  pend : ∀ k, k ∉ T → getPend r k t = getPend r k s
  groups : (getWren t r.w).groups = (getWren s r.w).groups

section
variable {r : Roost} {f : AccFmt} {T T' : List Nat} {s t u : State}

theorem TilesWork.refl (r : Roost) (f : AccFmt) (T : List Nat) (s : State) : TilesWork r f T s s :=
  ⟨.refl _ _, fun _ _ => rfl, fun _ _ => rfl, fun _ _ => rfl, rfl⟩

theorem TilesWork.trans (h : TilesWork r f T s t) (k : TilesWork r f T t u) : TilesWork r f T s u :=
  ⟨h.only.trans k.only, fun a ha => (k.mem a ha).trans (h.mem a ha), fun j hj => (k.tsw j hj).trans (h.tsw j hj),
    fun j hj => (k.pend j hj).trans (h.pend j hj), k.groups.trans h.groups⟩

theorem TilesWork.mono (h : TilesWork r f T s t) (hT : T ⊆ T') : TilesWork r f T' s t :=
  ⟨h.only, fun a ha => h.mem a fun k hk => ha k (hT hk), fun j hj => h.tsw j fun hk => hj (hT hk), fun j hj => h.pend j fun hk => hj (hT hk), h.groups⟩

theorem TilesWork.group (h : TilesWork r f T s t) (g : Nat) : getGroup t r.w g = getGroup s r.w g := by unfold getGroup; rw [h.groups]

theorem CountOnly.tilesWork (h : CountOnly s t) (r : Roost) (f : AccFmt) (T : List Nat) : TilesWork r f T s t :=
  ⟨h.stlOnly _, fun _ _ => by rw [h.mem], fun _ _ => by unfold getTsw; rw [h.getWren], fun _ _ => by unfold getPend; rw [h.getWren], by rw [h.getWren]⟩

/-- Steps that each work on one tile. -/
theorem TilesWork.foldl {α : Type} {tile : α → Nat} {step : State → α → State} (hstep : ∀ b e, TilesWork r f [tile e] b (step b e)) (l : List α) (s : State) :
    TilesWork r f (l.map tile) s (l.foldl step s) :=
  List.foldlRecOn l step (motive := TilesWork r f (l.map tile) s) (.refl ..) fun b hb e he =>
    hb.trans ((hstep b e).mono (by simpa using ⟨e, he, rfl⟩))

/-- The local SRAM below the roost is no tile's (09 R168, R169). -/
theorem TilesWork.readLocal_below (h : TilesWork r f T s t) {off len : Nat} (hin : off + len + r.size ≤ 1048576) :
    readLocal t r.w off len = readLocal s r.w off len :=
  memRead_congr fun x _ hx => h.mem x fun k _ => by unfold Roost.at_; omega

/-- A tile's bytes and status word are the same in both states. -/
structure SameTile (r : Roost) (f : AccFmt) (k : Nat) (s t : State) : Prop where
  mem : memRead t.mem (r.at_ k) (tileBytes f) = memRead s.mem (r.at_ k) (tileBytes f)
  tsw : getTsw r k t = getTsw r k s

theorem SameTile.trans {k : Nat} (h : SameTile r f k s t) (h2 : SameTile r f k t u) : SameTile r f k s u := ⟨h2.mem.trans h.mem, h2.tsw.trans h.tsw⟩

theorem SameTile.tile {k : Nat} (h : SameTile r f k s t) : getTile r f k t = getTile r f k s := by unfold getTile; rw [h.mem]

/-- Work on other tiles leaves a tile. -/
theorem TilesWork.sameTile (h : TilesWork r f T s t) {k : Nat} (hk : ∀ j ∈ T, TilesApart f k j) : SameTile r f k s t :=
  ⟨memRead_congr fun x _ _ => h.mem x fun j hj => by
      have := hk j hj
      have := tileBytes_eq f
      unfold TilesApart at *; unfold Roost.at_ at *; omega,
    h.tsw k fun hj => (hk k hj).ne rfl⟩

/-- Of steps over tiles apart, the step of one tile finds the tile as it was before all, and what it makes of it stays. -/
theorem foldl_at_tile {α : Type} {tile : α → Nat} {step : State → α → State} (hstep : ∀ b e, TilesWork r f [tile e] b (step b e)) {l : List α}
    (hl : l.Pairwise fun d e => TilesApart f (tile d) (tile e)) {e : α} (he : e ∈ l) (s : State) :
    ∃ b, TilesWork r f (l.map tile) s b ∧ SameTile r f (tile e) s b ∧ SameTile r f (tile e) (step b e) (l.foldl step s) := by
  obtain ⟨l₁, l₂, rfl⟩ := List.append_of_mem he
  obtain ⟨-, hl₂, hl₁⟩ := List.pairwise_append.1 hl
  have before := TilesWork.foldl hstep l₁ s
  have after := TilesWork.foldl hstep l₂ (step (l₁.foldl step s) e)
  refine ⟨l₁.foldl step s, before.mono (by simp), before.sameTile ?_, ?_⟩
  · rintro _ hj
    obtain ⟨d, hd, rfl⟩ := List.mem_map.1 hj
    exact (hl₁ d hd e (by simp)).symm
  · rw [List.foldl_append, List.foldl_cons]
    refine after.sameTile fun _ hj => ?_
    obtain ⟨d, hd, rfl⟩ := List.mem_map.1 hj
    exact (List.pairwise_cons.1 hl₂).1 d hd

end

/-! One rule for each operation on a tile. -/

theorem countStl_frame (r : Roost) (code n : Nat) (s : State) : CountOnly s (countStl r code n s) := by
  unfold countStl; split <;> exact count_frame ..

@[simp] theorem getTsw_countStl (r q : Roost) (code n t : Nat) (s : State) : getTsw r t (countStl q code n s) = getTsw r t s := by
  unfold getTsw; rw [(countStl_frame q code n s).getWren]
@[simp] theorem getPend_countStl (r q : Roost) (code n t : Nat) (s : State) : getPend r t (countStl q code n s) = getPend r t s := by
  unfold getPend; rw [(countStl_frame q code n s).getWren]
@[simp] theorem countStl_mem (q : Roost) (code n : Nat) (s : State) : (countStl q code n s).mem = s.mem := (countStl_frame q code n s).mem

@[simp] theorem putTsw_mem (r : Roost) (t : Nat) (v : Tsw) (s : State) : (putTsw r t v s).mem = s.mem := rfl
@[simp] theorem stick_mem (r : Roost) (v : Tsw) (es : List Elem) (s : State) : (stick r v es s).mem = s.mem := rfl
@[simp] theorem putTile_mem (r : Roost) (f : AccFmt) (t : Nat) (es : List Elem) (s : State) :
    (putTile r f t es s).mem = memWrite s.mem (r.at_ t) (encRow f es) := rfl

@[simp] theorem getTsw_putTsw (r : Roost) (t : Nat) (v : Tsw) (s : State) : getTsw r t (putTsw r t v s) = v := by simp [getTsw, putTsw]
@[simp] theorem getTsw_stick (r : Roost) (t : Nat) (v : Tsw) (es : List Elem) (s : State) : getTsw r t (stick r v es s) = getTsw r t s := by simp [getTsw, stick]
@[simp] theorem getTsw_putTile (r : Roost) (f : AccFmt) (j t : Nat) (es : List Elem) (s : State) : getTsw r j (putTile r f t es s) = getTsw r j s := rfl
@[simp] theorem getPend_putTsw (r : Roost) (j t : Nat) (v : Tsw) (s : State) : getPend r j (putTsw r t v s) = getPend r j s := by simp [getPend, putTsw]
@[simp] theorem getPend_stick (r : Roost) (t : Nat) (v : Tsw) (es : List Elem) (s : State) : getPend r t (stick r v es s) = getPend r t s := by
  simp [getPend, stick]
@[simp] theorem getPend_putTile (r : Roost) (f : AccFmt) (j t : Nat) (es : List Elem) (s : State) : getPend r j (putTile r f t es s) = getPend r j s := rfl

section
variable (r : Roost) (f : AccFmt) (t : Nat) (s : State)

theorem putTsw_work (v : Tsw) : TilesWork r f [t] s (putTsw r t v s) := by
  refine ⟨.modWren rfl, fun _ _ => rfl, fun k hk => ?_, fun k _ => by simp, by simp [putTsw]⟩
  simp only [getTsw, putTsw, modWren_eq, getWren_putWren_same]
  exact tabGet_put_other _ _ _ fun h => hk (by simpa using tswKey_inj.1 h)

theorem stick_work (v : Tsw) (es : List Elem) (T : List Nat) : TilesWork r f T s (stick r v es s) :=
  ⟨.modWren rfl, fun _ _ => rfl, fun _ _ => getTsw_stick .., fun _ _ => getPend_stick .., by simp [stick]⟩

/-- Bytes stored within a tile. -/
theorem writeTile_work {bs : List Byte} (h : bs.length ≤ tileBytes f) : TilesWork r f [t] s (setMem (memWrite s.mem (r.at_ t) bs) s) :=
  ⟨.setMem .., fun a ha => memGet_write_outside _ _ _ _ (by have := ha t (by simp); omega), fun _ _ => rfl, fun _ _ => rfl, rfl⟩

theorem putTile_work {es : List Elem} (h : es.length ≤ 64) : TilesWork r f [t] s (putTile r f t es s) :=
  writeTile_work r f t s (by rw [encRow_length, tileBytes]; exact Nat.mul_le_mul_right _ h)

/-- The pending leaves of a tile set or dropped. -/
theorem pend_work {g : Tab (List (List Byte)) → Tab (List (List Byte))} (hg : ∀ p j, j ≠ tswKey r t → tabGet [] (g p) j = tabGet [] p j) :
    TilesWork r f [t] s (modWren r.w (fun x => { x with pend := g x.pend }) s) := by
  refine ⟨.modWren rfl, fun _ _ => rfl, fun _ _ => by simp [getTsw], fun k hk => ?_, by simp⟩
  simp only [getPend, modWren_eq, getWren_putWren_same]
  exact hg _ _ fun h => hk (by simpa using tswKey_inj.1 h)

theorem dropPend_work : TilesWork r f [t] s (modWren r.w (fun x => { x with pend := tabDel x.pend (tswKey r t) }) s) :=
  pend_work r f t s fun _ _ h => tabGet_del_other _ _ h

theorem storeTile_work {es : List Elem} (h : es.length ≤ 64) (v : Tsw) : TilesWork r f [t] s (storeTile r f t es v s) :=
  ((putTile_work r f t s h).trans (putTsw_work r f t _ v)).trans (stick_work ..)

theorem storeTile_tile {es : List Elem} (h : es.length = 64) (v : Tsw) : TileIs r f t es (storeTile r f t es v s) :=
  memRead_memWrite (encRow_tile h f) ..

@[simp] theorem getTsw_storeTile (es : List Elem) (v : Tsw) : getTsw r t (storeTile r f t es v s) = v := by simp [storeTile]

/-- A tile left as it is and marked, with an event. -/
theorem mark_work (code : Nat) (ctx : Option Nat) (unit : Nat) (v : Tsw) : TilesWork r f [t] s (raisePlain code ctx unit (stick r v [] (putTsw r t v s))) :=
  ((putTsw_work r f t s v).trans (stick_work ..)).trans ((raisePlain_frame code ctx unit _).count.tilesWork ..)

theorem mark_mem (code : Nat) (ctx : Option Nat) (unit : Nat) (v : Tsw) : (raisePlain code ctx unit (stick r v [] (putTsw r t v s))).mem = s.mem :=
  (raisePlain_frame code ctx unit _).count.mem

theorem getTsw_mark (code : Nat) (ctx : Option Nat) (unit : Nat) (v : Tsw) :
    getTsw r t (raisePlain code ctx unit (stick r v [] (putTsw r t v s))) = v := by
  unfold getTsw; rw [(raisePlain_frame code ctx unit _).count.getWren]
  exact (getTsw_stick ..).trans (getTsw_putTsw ..)

theorem markLimit_work : TilesWork r f [t] s (markLimit r t s) := mark_work ..
theorem markExhausted_work : TilesWork r f [t] s (markExhausted r t s) := mark_work ..
@[simp] theorem markLimit_mem : (markLimit r t s).mem = s.mem := mark_mem ..
@[simp] theorem markExhausted_mem : (markExhausted r t s).mem = s.mem := mark_mem ..
@[simp] theorem getTsw_markLimit : getTsw r t (markLimit r t s) = { getTsw r t s with termLimit := true } := getTsw_mark ..
@[simp] theorem getTsw_markExhausted : getTsw r t (markExhausted r t s) = { getTsw r t s with exhausted := true } := getTsw_mark ..

/-- Limit or store: what every add but those of I64S ends in. -/
theorem limit_or_store_work {es : List Elem} (h : es.length ≤ 64) (v : Tsw) :
    TilesWork r f [t] s (if overLimit es then markLimit r t s else storeTile r f t es v s) := by
  split
  · exact markLimit_work ..
  · exact storeTile_work r f t s h v

theorem countStl_then {u : State} {code n : Nat} {T : List Nat} (h : TilesWork r f T (countStl r code n s) u) : TilesWork r f T s u :=
  ((countStl_frame r code n s).tilesWork ..).trans h

end

/-! Adds in sequence (10 R194, R200, R203 to R205, R212). -/

theorem addFixed_length {term : Nat → Option (List Int)} {fuel sigma retries n : Nat} {pre : List Int} {q : List Int × Nat × Nat × Nat}
    (h : addFixed term fuel pre sigma retries n = some q) : q.1.length ≤ pre.length := by
  induction fuel generalizing pre sigma retries n with
  | zero => simp [addFixed] at h
  | succ fuel ih =>
    rw [addFixed] at h
    split at h
    · cases h
    · dsimp only at h
      split at h
      · cases h; exact zipWith_length_le _ (Nat.le_refl _) _
      · split at h
        · cases h
        · simpa using ih h

theorem addFixed_no_term {term : Nat → Option (List Int)} {sigma : Nat} (h : term sigma = none) (fuel : Nat) (pre : List Int) (retries n : Nat) :
    addFixed term fuel pre sigma retries n = none := by cases fuel <;> simp [addFixed, h]

theorem addFixed_fits {term : Nat → Option (List Int)} {sigma : Nat} {ts pre : List Int} (h : term sigma = some ts)
    (hq : ∀ q ∈ List.zipWith (· + ·) pre ts, -(2 : Int) ^ 63 ≤ q ∧ q < (2 : Int) ^ 63) (fuel retries n : Nat) :
    addFixed term (fuel + 1) pre sigma retries n = some (List.zipWith (· + ·) pre ts, sigma, retries, n) := by
  have hall : (List.zipWith (· + ·) pre ts).all inI64 = true := List.all_eq_true.2 fun q hm => by simpa [inI64] using hq q hm
  simp [addFixed, h, hall]

theorem addFixedTile_work (r : Roost) (t : Nat) (term : Nat → Option (List Int)) {pre : List Int} (hp : pre.length ≤ 64) (sigma : Nat) (o : Option Tsw) (s : State) :
    TilesWork r .i64s [t] s (addFixedTile r t term pre sigma o s) := by
  unfold addFixedTile; dsimp only; split
  · exact .refl ..
  · split
    · exact markExhausted_work ..
    · rename_i qs sg rt n hq
      have hlen : (qs.map Elem.fixed).length ≤ 64 := by rw [List.length_map]; exact Nat.le_trans (addFixed_length hq) hp
      split
      · exact storeTile_work _ _ _ _ hlen _
      · exact countStl_then _ _ _ (storeTile_work _ _ _ _ hlen _)

/-- An I64S add that needs no rescale stores its sums. -/
theorem addFixedTile_fits {r : Roost} {t sigma : Nat} {term : Nat → Option (List Int)} {pre qs : List Int} {s : State} (he : (getTsw r t s).exhausted = false)
    (hq : addFixed term 9 pre sigma (getTsw r t s).retries 0 = some (qs, (getTsw r t s).scale, (getTsw r t s).retries, 0)) (o : Option Tsw) :
    addFixedTile r t term pre sigma o s = storeTile r .i64s t (qs.map Elem.fixed) (tswEnter .i64s o (getTsw r t s)) s := by
  unfold addFixedTile; dsimp only
  rw [if_neg (by simp [he]), hq]
  rfl

theorem addRow_work (r : Roost) (f : AccFmt) (k t : Nat) (row : List Elem) (s : State) : TilesWork r f [t] s (addRow r f k t row s) := by
  unfold addRow; dsimp only; split
  · rename_i hf; subst hf
    exact countStl_then _ _ _ (addFixedTile_work r t _ (by simp [fixedOf]) _ _ _)
  · exact countStl_then _ _ _ (limit_or_store_work _ _ _ _ (zipWith_length_le _ (Nat.le_of_eq (getTile_length ..)) _) _)

theorem combineRow_work (r : Roost) (f : AccFmt) (t : Nat) (swap : Bool) (row : List Elem) (o : Tsw) (s : State) :
    TilesWork r f [t] s (combineRow r f t swap row o s) := by
  unfold combineRow; dsimp only; split
  · rename_i hf; subst hf
    exact countStl_then _ _ _ (addFixedTile_work r t _ (by simp [fixedOf]) _ _ _)
  · exact countStl_then _ _ _ (limit_or_store_work _ _ _ _ (zipWith_length_le _ (Nat.le_of_eq (getTile_length ..)) _) _)

theorem setIdentity_work (r : Roost) (f : AccFmt) (sigma : Nat) (g : Option Nat) (t : Nat) (s : State) : TilesWork r f [t] s (setIdentity r f sigma g t s) :=
  (putTile_work r f t s (by simp)).trans (putTsw_work ..)

/-- Where no X704 limit is passed, the sums are stored. -/
theorem combineRow_adds {r : Roost} {f : AccFmt} {t : Nat} {swap : Bool} {row : List Elem} {o : Tsw} {s : State} {new : List Elem} (hf : f ≠ .i64s)
    (hrow : row.length = 64)
    (hn : new = List.zipWith (fun e v => if swap then addElem (f == .p255) v e else addElem (f == .p255) e v) (getTile r f t s) row)
    (hl : overLimit new = false) :
    TileIs r f t new (combineRow r f t swap row o s) ∧ getTsw r t (combineRow r f t swap row o s) = tswEnter f (some o) (getTsw r t s) := by
  have he : combineRow r f t swap row o s = storeTile r f t new (tswEnter f (some o) (getTsw r t s)) (countStl r (rowEvent f) 1 s) := by
    simp only [combineRow, if_neg hf, ← hn, hl, Bool.false_eq_true, if_false]
  rw [he]
  exact ⟨storeTile_tile _ _ _ _ (by simp [hn, hrow]) _, getTsw_storeTile ..⟩

theorem ingressAdd_work (r : Roost) (f : AccFmt) (t : Nat) (raw : List Byte) (s : State) : TilesWork r f [t] s (ingressAdd r f t raw s) :=
  countStl_then _ _ _ (limit_or_store_work _ _ _ _ (zipWith_length_le _ (Nat.le_of_eq (getTile_length ..)) _) _)

theorem ingressAdd_adds {r : Roost} {f : AccFmt} {t : Nat} {raw : List Byte} {s : State} {new : List Elem}
    (hn : new = List.zipWith (addElem (f == .p255)) (getTile r f t s) ((decRow f raw).map (ingressElem f))) (hl : overLimit new = false) :
    TileIs r f t new (ingressAdd r f t raw s) ∧ getTsw r t (ingressAdd r f t raw s) = tswEnter f none (getTsw r t s) := by
  have he : ingressAdd r f t raw s = storeTile r f t new (tswEnter f none (getTsw r t s)) (countStl r (rowEvent f) 1 s) := by
    simp only [ingressAdd, ← hn, hl, Bool.false_eq_true, if_false]
  rw [he]
  exact ⟨storeTile_tile _ _ _ _ (by simp [hn]) _, getTsw_storeTile ..⟩

theorem fixedRow_length {row : List Elem} {sigma : Nat} {ts : List Int} (h : fixedRow row sigma = some ts) : ts.length = row.length := by
  induction row generalizing ts with
  | nil => cases h; rfl
  | cons e row ih =>
    simp only [fixedRow, List.mapM_cons, Option.bind_eq_bind, Option.bind_eq_some_iff] at h
    obtain ⟨t, -, us, hus, hts⟩ := h
    cases hts
    simp [ih hus]

/-- 10 R200, R203, R205: one row added in sequence. -/
theorem addRow_adds (r : Roost) (f : AccFmt) (k t : Nat) {row : List Elem} (hrow : row.length = 64) (s : State) :
    TermsAdded r f k t 1 (fun _ => row) s (addRow r f k t row s) := by
  intro i t' old new v hi ht hold hv hnew
  obtain rfl : i = 0 := by omega
  obtain rfl : t' = t := by simpa using ht
  subst hold hv
  refine ⟨fun hf hl => ?_, fun hf hl => ?_, fun hf he => ?_, fun hf he hnone => ?_, fun ts hf he hts hq => ?_⟩
  · have hadd : addRow r f k t' row s = storeTile r f t' new (tswEnter f none (getTsw r t' s)) (countStl r (rowEvent f) 1 s) := by
      simp only [addRow, if_neg hf, ← hnew, hl, Bool.false_eq_true, if_false]
    rw [hadd]
    exact ⟨storeTile_tile _ _ _ _ (by simp [hnew, hrow]) _, getTsw_storeTile ..⟩
  · have hadd : addRow r f k t' row s = markLimit r t' (countStl r (rowEvent f) 1 s) := by
      simp only [addRow, if_neg hf, ← hnew, hl, if_true]
    simp [hadd, TileKept]
  · subst hf
    have hadd : addRow r .i64s k t' row s = countStl r 0x26 1 s := by simp [addRow, rowEvent, addFixedTile, he]
    simp [hadd, TileKept]
  · subst hf
    have hadd : addRow r .i64s k t' row s = markExhausted r t' (countStl r 0x26 1 s) := by
      simp [addRow, rowEvent, addFixedTile, he, addFixed_no_term hnone]
    simp [hadd, TileKept]
  · subst hf
    have hadd : addRow r .i64s k t' row s = storeTile r .i64s t' ((List.zipWith (· + ·) (fixedOf (getTile r .i64s t' s)) ts).map .fixed)
        (tswEnter .i64s none (getTsw r t' s)) (countStl r 0x26 1 s) := by
      have hc := getTsw_countStl r r 0x26 1 t' s
      have := addFixedTile_fits (s := countStl r 0x26 1 s) (hc ▸ he) (by rw [hc]; exact addFixed_fits hts hq ..) none
      rwa [hc] at this
    rw [hadd]
    exact ⟨storeTile_tile _ _ _ _ (by simp [fixedOf, fixedRow_length hts, hrow]) _, getTsw_storeTile ..⟩

/-- What is added to a tile depends on that tile alone. -/
theorem TermsAdded.congr {r : Roost} {f : AccFmt} {k t : Nat} {row : List Elem} {s b c u : State} (h : TermsAdded r f k t 1 (fun _ => row) b c)
    (hs : SameTile r f t s b) (hu : SameTile r f t c u) : TermsAdded r f k t 1 (fun _ => row) s u := by
  intro i t' old new v hi ht hold hv hnew
  obtain rfl : i = 0 := by omega
  obtain rfl : t' = t := by simpa using ht
  have := h 0 t' old new v hi ht (by rw [hold, hs.tile]) (by rw [hv, hs.tsw]) hnew
  simpa only [TileIs, TileKept, hu.mem, hu.tsw, hs.mem] using this

theorem TermsAdded.of_each {r : Roost} {f : AccFmt} {k tile n : Nat} {row : Nat → List Elem} {s u : State}
    (h : ∀ i, i < n → TermsAdded r f k (tile + i * granules f) 1 (fun _ => row i) s u) : TermsAdded r f k tile n row s u :=
  fun i t old new v hi ht hold hv hnew => h i hi 0 t old new v (by omega) (by simpa using ht) hold hv hnew

/-! Tree blocks (10 R200). -/

theorem flushTile_empty {r : Roost} {t : Nat} {s : State} (h : getPend r t s = []) (f : AccFmt) : flushTile r f t s = s := by
  unfold getPend at h; simp [flushTile, h]

theorem treeLevel_rows {l : List (List Elem)} (h : ∀ a ∈ l, a.length = 64) (hl : l ≠ []) : treeLevel false l ≠ [] ∧ ∀ a ∈ treeLevel false l, a.length = 64 := by
  induction l using treeLevel.induct with
  | case1 a b t ih =>
    simp only [List.mem_cons, forall_eq_or_imp] at h
    refine ⟨by simp [treeLevel], fun c hc => ?_⟩
    rw [treeLevel] at hc
    rcases List.mem_cons.1 hc with rfl | hc
    · simp [h.1, h.2.1]
    · by_cases ht : t = []
      · subst ht; simp [treeLevel] at hc
      · exact (ih h.2.2 ht).2 c hc
  | case2 l hne =>
    rw [treeLevel]
    · exact ⟨hl, h⟩
    · exact hne

theorem treeSum_length (fuel : Nat) {l : List (List Elem)} (h : ∀ a ∈ l, a.length = 64) (hl : l ≠ []) : (treeSum fuel l).length = 64 := by
  induction fuel generalizing l with
  | zero =>
    match l, hl with
    | [a], _ => simpa [treeSum] using h
    | a :: b :: l, _ => simpa [treeSum] using h a (by simp)
  | succ fuel ih =>
    match l, hl with
    | [a], _ => simpa [treeSum] using h
    | a :: b :: l, hl =>
      obtain ⟨h0, hrows⟩ := treeLevel_rows h hl
      exact ih hrows h0

section
variable (r : Roost) (f : AccFmt) (t : Nat) (s : State)

theorem flushTile_work : TilesWork r f [t] s (flushTile r f t s) := by
  unfold flushTile; dsimp only; split
  · exact .refl ..
  · exact (((dropPend_work r f t s).trans (putTile_work _ _ _ _ (zipWith_length_le _ (Nat.le_of_eq (getTile_length ..)) _))).trans (stick_work ..)).trans ((countStl_frame ..).tilesWork ..)

/-- A block adds its tree sum to its tile and is gone. -/
theorem flushTile_adds (h : getPend r t s ≠ []) : getPend r t (flushTile r f t s) = [] ∧
    TileIs r f t (List.zipWith (addElem false) (getTile r f t s) (treeSum 5 ((getPend r t s).map (decRow f)))) (flushTile r f t s) := by
  have hlen := treeSum_length 5 (l := (getPend r t s).map (decRow f)) (by simp) (by simpa using h)
  have he : (tabGet [] (getWren s r.w).pend (tswKey r t)).isEmpty = false := by simpa [getPend] using h
  simp only [flushTile, he, Bool.false_eq_true, if_false]
  refine ⟨?_, ?_⟩
  · simp only [getPend_countStl, getPend_stick, getPend_putTile]
    simp [getPend]
  · simp only [TileIs, countStl_mem, stick_mem, putTile_mem]
    exact memRead_memWrite (encRow_tile (by rw [List.length_zipWith, getTile_length]; unfold getPend at hlen; rw [hlen]; rfl) f) ..

/-- A leaf kept for its block, before any flush (10 R200). -/
def keepLeaf (row : List Elem) (o : Option Tsw) : State :=
  let u := countStl r (rowEvent f) 1 s
  let v := tswEnter f o (getTsw r t u)
  stick r (v.since (getTsw r t u)) []
    (modWren r.w (fun x => { x with pend := tabPut [] x.pend (tswKey r t) (getPend r t s ++ [encRow f (leafOf f row)]) }) (putTsw r t v u))

theorem pushLeaf_eq (order : Nat) (row : List Elem) (o : Option Tsw) : pushLeaf r f order t row o s =
    if (getPend r t s ++ [encRow f (leafOf f row)]).length = treeSize order then flushTile r f t (keepLeaf r f t s row o) else keepLeaf r f t s row o := rfl

theorem keepLeaf_work (row : List Elem) (o : Option Tsw) : TilesWork r f [t] s (keepLeaf r f t s row o) :=
  countStl_then _ _ _ (((putTsw_work r f t _ _).trans (pend_work _ _ _ _ fun _ _ h => tabGet_put_other _ _ _ h)).trans (stick_work ..))

@[simp] theorem keepLeaf_mem (row : List Elem) (o : Option Tsw) : (keepLeaf r f t s row o).mem = s.mem := countStl_mem ..

@[simp] theorem getPend_keepLeaf (row : List Elem) (o : Option Tsw) :
    getPend r t (keepLeaf r f t s row o) = getPend r t s ++ [encRow f (leafOf f row)] := by
  simp only [keepLeaf, getPend_stick]
  simp [getPend]

theorem pushLeaf_work (order : Nat) (row : List Elem) (o : Option Tsw) : TilesWork r f [t] s (pushLeaf r f order t row o s) := by
  rw [pushLeaf_eq]; split
  · exact (keepLeaf_work ..).trans (flushTile_work ..)
  · exact keepLeaf_work ..

/-- A leaf that does not fill its block is kept; one that does has the block added. -/
theorem pushLeaf_adds {rows : List (List Byte)} (order : Nat) (row : List Elem) (o : Option Tsw) (h : rows = getPend r t s ++ [encRow f (leafOf f row)]) :
    (rows.length < treeSize order → getPend r t (pushLeaf r f order t row o s) = rows ∧ (pushLeaf r f order t row o s).mem = s.mem) ∧
    (rows.length = treeSize order → getPend r t (pushLeaf r f order t row o s) = [] ∧
      TileIs r f t (List.zipWith (addElem false) (getTile r f t s) (treeSum 5 (rows.map (decRow f)))) (pushLeaf r f order t row o s)) := by
  rw [pushLeaf_eq, ← h]
  refine ⟨fun hlt => ?_, fun hfull => ?_⟩
  · rw [if_neg (by omega)]
    exact ⟨(getPend_keepLeaf ..).trans h.symm, keepLeaf_mem ..⟩
  · have := flushTile_adds r f t (keepLeaf r f t s row o) (by simp)
    simp only [getPend_keepLeaf, ← h, getTile, keepLeaf_mem] at this
    rw [if_pos hfull]
    exact this

theorem addUnder_work (g k : Nat) (row : List Elem) : TilesWork r f [t] s (addUnder r g f k t row s) := by
  unfold addUnder; dsimp only; split
  · exact pushLeaf_work ..
  · exact addRow_work ..

end

/-! Groups (10 R199). -/

theorem getGroup_openGroup (r : Roost) (g : Nat) (f : AccFmt) (order t n : Nat) (s : State) : getGroup (openGroup r g f order t n s) r.w g =
    { opn := true, fmt := f, order := if ordered f then order else 0, tile := t, n := n } := by simp [getGroup, openGroup]

theorem openGroup_mem (r : Roost) (g : Nat) (f : AccFmt) (order t n : Nat) (s : State) : (openGroup r g f order t n s).mem = s.mem := rfl

theorem openGroup_only (r : Roost) (g : Nat) (f : AccFmt) (order t n : Nat) (s : State) : StlOnly r.w s (openGroup r g f order t n s) := by
  unfold openGroup; exact .modWren rfl

theorem closeGroup_only (r : Roost) (g : Nat) (s : State) : StlOnly r.w s (closeGroup r g s) := by
  unfold closeGroup; dsimp only
  exact (StlOnly.foldl (fun s t => ((dropPend_work r .f32 t s).trans (putTsw_work r .f32 t _ _)).only) _ s).trans (.modWren rfl)

theorem closeGroup_mem (r : Roost) (g : Nat) (s : State) : (closeGroup r g s).mem = s.mem :=
  List.foldlRecOn _ _ (motive := fun b : State => b.mem = s.mem) rfl fun _ hb _ _ => hb

theorem getGroup_closeGroup (r : Roost) (g : Nat) (s : State) : (getGroup (closeGroup r g s) r.w g).opn = false := by
  simp [getGroup, closeGroup]; rfl

theorem flushGroup_only (r : Roost) (g : Nat) (s : State) : StlOnly r.w s (flushGroup r g s) := by
  unfold flushGroup; dsimp only; split
  · exact (StlOnly.foldl (fun s t => (flushTile_work r _ t s).only) _ s).trans (closeGroup_only ..)
  · exact .refl ..

theorem getGroup_flushGroup (r : Roost) (g : Nat) (s : State) : (getGroup (flushGroup r g s) r.w g).opn = false := by
  unfold flushGroup; dsimp only; split
  · exact getGroup_closeGroup ..
  · simp_all

/-- The flush of a group changes memory only at tiles with leaves pending. -/
theorem flushGroup_mem {r : Roost} {g : Nat} {f : AccFmt} {T : List Nat} {s : State} (hf : (getGroup s r.w g).opn = true → (getGroup s r.w g).fmt = f)
    (hT : ∀ k, k ∉ T → getPend r k s = []) (a : Nat) (ha : ∀ k ∈ T, a < r.at_ k ∨ r.at_ k + tileBytes f ≤ a) :
    memGet (flushGroup r g s).mem a = memGet s.mem a := by
  unfold flushGroup; dsimp only; split
  · rename_i ho
    rw [closeGroup_mem, hf ho]
    refine (List.foldlRecOn _ _ (motive := fun b : State => (∀ k, k ∉ T → getPend r k b = []) ∧ memGet b.mem a = memGet s.mem a) ⟨hT, rfl⟩ fun b hb t _ => ?_).2
    by_cases ht : t ∈ T
    · have hw := (flushTile_work r f t b).mono (T' := T) (by simpa using ht)
      exact ⟨fun k hk => (hw.pend k hk).trans (hb.1 k hk), (hw.mem a ha).trans hb.2⟩
    · rw [flushTile_empty (hb.1 t ht)]; exact hb
  · rfl

end Sys2Proof.Machine
end

section
/-! Starling's instructions and ingress (10 R194 to R200, R209 to R213): what each comes to at its site, by the rules of its tiles. Settles O43. -/

namespace Sys2Proof.Machine

/-! Where a Wren stands at a Starling instruction, and where it stands after. -/

@[simp] theorem retire_mem (x : Site) (u : State) : (retire x u).mem = u.mem := by
  obtain ⟨-, -, ⟨-, -, h⟩, -⟩ := passed_retire x u
  rw [h]

/-- A retired instruction leaves what Starling holds of its Wren. -/
theorem getWren_retire (x : Site) (u : State) : getWren (retire x u) x.w = { getWren u x.w with
    ix := (nextIx (getWren u x.w).ix (getWren u x.w).loops).1, loops := (nextIx (getWren u x.w).ix (getWren u x.w).loops).2, block := 0
    blockedAt := none } :=
  (passed_retire x u).1

@[simp] theorem getTsw_retire (x : Site) (t : Nat) (u : State) : getTsw x.roost t (retire x u) = getTsw x.roost t u := by
  unfold getTsw; rw [show x.roost.w = x.w from rfl, getWren_retire]
@[simp] theorem getPend_retire (x : Site) (t : Nat) (u : State) : getPend x.roost t (retire x u) = getPend x.roost t u := by
  unfold getPend; rw [show x.roost.w = x.w from rfl, getWren_retire]
@[simp] theorem getGroup_retire (x : Site) (g : Nat) (u : State) : getGroup (retire x u) x.w g = getGroup u x.w g := by
  unfold getGroup; rw [getWren_retire]

theorem SameTile.retire (x : Site) (f : AccFmt) (k : Nat) (u : State) : SameTile x.roost f k u (retire x u) := ⟨by simp, by simp⟩

/-- An instruction that works as Starling does and retires. -/
theorem StlOnly.retires {x : Site} {s u : State} (h : StlOnly x.w s u) : WrenWork x.w s (retire x u) := by
  obtain ⟨hw, ho, ⟨hf, hp, hs⟩, -⟩ := passed_retire x u
  have hfab : u.fab = { s.fab with wrens := u.fab.wrens } := by rw [h.rest]
  have hpwr : u.pwr = { s.pwr with pins := u.pwr.pins } := by rw [h.rest]
  refine ⟨?_, ?_, ?_, ?_, ?_, fun v hv => (ho v hv).trans (h.others v hv), ?_, ?_, ?_⟩
  · rw [hw, h.wren]
  · rw [hw, h.wren]
  · rw [hw]
  · rw [hw, h.wren]
  · rw [hw, h.wren]
  · rw [hf, hfab]
  · rw [hp, hpwr]
  · rw [hs, h.rest]

section
variable {s : State} {w op : Nat} {x : Site} {a : StlIns} (h : StlAt s w op x a)
include h

theorem stlAt_w : x.w = w := h.stands.w_eq

/-- An instruction whose body retires: the fields are in range. -/
theorem stlAt_retires {c : Instr} {body : Site → StlIns → State → WOut} {u : State} (hc : exec c s = .next (runInsn 4 op (stlIns body) w s))
    (hb : body x a s = .retire u) : exec c s = .next (retire x u) := by
  have hsec : (a.f == .i64s && x.prog.secret) = false := by
    by_cases hf : a.f = .i64s
    · simp [h.open_ hf]
    · simp [hf]
  rw [hc, runInsn_stands h.stands]
  simp [stlIns, h.fields, h.fits, hsec, hb, settle]

/-- Rows of the working area lie below the roost (09 R168). -/
theorem stlAt_below {off len : Nat} (hin : off + len ≤ x.prog.wsize) : off + len + x.roost.size ≤ 1048576 := by have := h.apart; omega

end

/-! The tiles of an instruction. -/

section
variable (a : StlIns)

theorem StlIns.mem_tiles {e : Nat × Nat} : e ∈ a.tiles ↔ e.1 < a.n ∧ e.2 = a.tile + e.1 * granules a.f := by
  obtain ⟨i, t⟩ := e
  simp only [StlIns.tiles, List.mem_map, List.mem_range, Prod.mk.injEq]
  constructor
  · rintro ⟨j, hj, rfl, rfl⟩; exact ⟨hj, rfl⟩
  · rintro ⟨hi, rfl⟩; exact ⟨i, hi, rfl, rfl⟩

theorem StlIns.tile_mem {i : Nat} (hi : i < a.n) : (i, a.tile + i * granules a.f) ∈ a.tiles := a.mem_tiles.2 ⟨hi, rfl⟩

theorem StlIns.tiles_apart : a.tiles.Pairwise fun d e => TilesApart a.f d.2 e.2 := by
  refine List.pairwise_map.2 (List.pairwise_lt_range.imp fun {i j} hij => .inl ?_)
  have := Nat.mul_le_mul_right (granules a.f) (Nat.succ_le_of_lt hij)
  rw [Nat.succ_mul] at this
  show a.tile + i * granules a.f + granules a.f ≤ a.tile + j * granules a.f
  omega

/-- Outside the bytes of all of them, an address is outside each. -/
theorem StlIns.outside_tiles {r : Roost} {b : Nat} (hb : b < r.at_ a.tile ∨ r.at_ a.tile + a.n * tileBytes a.f ≤ b) :
    ∀ k ∈ a.tiles.map Prod.snd, b < r.at_ k ∨ r.at_ k + tileBytes a.f ≤ b := by
  intro k hk
  obtain ⟨e, he, rfl⟩ := List.mem_map.1 hk
  obtain ⟨hi, ht⟩ := a.mem_tiles.1 he
  have := Nat.mul_le_mul_right (granules a.f) (Nat.succ_le_of_lt hi)
  rw [Nat.succ_mul] at this
  rw [tileBytes_eq, Nat.mul_left_comm] at hb
  rw [tileBytes_eq]
  unfold Roost.at_ at *; omega

theorem TilesWork.memOutside {r : Roost} {a : StlIns} {s t : State} (h : TilesWork r a.f (a.tiles.map Prod.snd) s t) :
    MemOutside (r.at_ a.tile) (a.n * tileBytes a.f) s t := fun _ hb => h.mem _ (a.outside_tiles hb)

end

/-- The row of `n` that a row number names lies in the working area with all of them. -/
theorem row_in {i n loc b m : Nat} (hi : i < n) (h : loc + n * b ≤ m) : loc + i * b + b ≤ m := by
  have := Nat.mul_le_mul_right b (Nat.succ_le_of_lt hi)
  rw [Nat.succ_mul] at this; omega

/-- An I64S scale of at most 62 is no range breach (10 R198). -/
theorem scale_in {a : StlIns} (h : a.f = .i64s → a.sigma ≤ 62) : (a.f == .i64s && decide (62 < a.sigma)) = false := by
  rw [Bool.and_eq_false_imp, beq_iff_eq, decide_eq_false_iff_not, Nat.not_lt]
  exact h

/-! LAST (10 R199). -/

/-- The end of an instruction that may have LAST. -/
def lastOf (r : Roost) (g : Nat) (last : Bool) (s : State) : State := if last then flushGroup r g s else s

theorem lastOf_only (r : Roost) (g : Nat) (last : Bool) (s : State) : StlOnly r.w s (lastOf r g last s) := by
  cases last
  · exact .refl ..
  · exact flushGroup_only ..

theorem lastOf_false {r : Roost} {g : Nat} {last : Bool} (h : last = false) (s : State) : lastOf r g last s = s := by subst h; rfl

theorem lastOf_closes (x : Site) (g : Nat) {last : Bool} (h : last = true) (s : State) : (getGroup (retire x (lastOf x.roost g last s)) x.w g).opn = false := by
  subst h
  rw [getGroup_retire]; exact getGroup_flushGroup x.roost g s

/-- A group that an instruction may add to has its format and order. -/
theorem groupOk_open {s : State} {w g : Nat} {f : AccFmt} {order t n : Nat} (h : groupOk s w g f order t n = true) (ho : (getGroup s w g).opn = true) :
    (getGroup s w g).fmt = f ∧ (ordered f = true → (getGroup s w g).order = order) := by
  simp only [groupOk, ho, if_true, Bool.and_eq_true, beq_iff_eq, Bool.or_eq_true, Bool.not_eq_true'] at h
  obtain ⟨-, ⟨hf, hord⟩, -⟩ := h
  exact ⟨hf, fun h1 => hord.resolve_left (by simp [h1])⟩

section
variable {s b : State} {x : Site} {a : StlIns} (hb : TilesWork x.roost a.f (a.tiles.map Prod.snd) s b) (last : Bool)
include hb

theorem TilesWork.last_retires : WrenWork x.w s (retire x (lastOf x.roost a.grp last b)) := (hb.only.trans (lastOf_only ..)).retires

/-- Without leaves pending on other tiles, memory changes at the tiles only. -/
theorem TilesWork.last_memOutside (hg : groupOk s x.w a.grp a.f a.order a.tile a.n = true) (hp : last = false ∨ (getWren s x.w).pend = []) :
    MemOutside (x.roost.at_ a.tile) (a.n * tileBytes a.f) s (retire x (lastOf x.roost a.grp last b)) := by
  intro i hi
  rw [retire_mem, ← hb.memOutside i hi]
  rcases hp with rfl | hp
  · rfl
  · cases last
    · rfl
    · refine flushGroup_mem (fun ho => ?_) (fun k hk => ?_) i (a.outside_tiles hi)
      · rw [hb.group] at ho ⊢; exact (groupOk_open hg ho).1
      · rw [hb.pend k hk, getPend, show x.roost.w = x.w from rfl, hp]; rfl

end

/-! VADD (10 R194). -/

@[simp] theorem srcRow_length (f : AccFmt) (bs : List Byte) : (srcRow f bs).length = 64 := by simp [srcRow]

@[simp] theorem vaddRow_length (x : Site) (a : StlIns) (s : State) (i : Nat) : (vaddRow x a s i).length = 64 := by
  unfold vaddRow; dsimp only; split <;> split <;> simp

/-- The step of one row, and all rows. -/
def vaddStep (x : Site) (a : StlIns) (s : State) (e : Nat × Nat) : State := addUnder x.roost a.grp a.f 1 e.2 (vaddRow x a s e.1) s
def vaddAll (x : Site) (a : StlIns) (len : Nat) (s : State) : State := a.tiles.foldl (vaddStep x a) (countLines x len 0 s)

theorem vaddStep_work (x : Site) (a : StlIns) (s : State) (e : Nat × Nat) : TilesWork x.roost a.f [e.2] s (vaddStep x a s e) := addUnder_work ..

theorem vaddAll_work (x : Site) (a : StlIns) (len : Nat) (s : State) : TilesWork x.roost a.f (a.tiles.map Prod.snd) s (vaddAll x a len s) :=
  ((countLines_frame ..).tilesWork ..).trans (.foldl (vaddStep_work x a) ..)

theorem vadd_retires {s : State} {x : Site} {a : StlIns} {len : Nat} (hm : bitOf a.epi 1 = true → valued a.f = true)
    (hg : groupOk s x.w a.grp a.f a.order a.tile a.n = true) (hlen : len = a.n * srcRowBytes a.f * (if bitOf a.epi 1 then 2 else 1))
    (hin : a.loc + len ≤ x.prog.wsize) (hi : interlocked (getWren s x.w) [(a.loc, len)] [a.range x] = false) :
    vadd x a s = .retire (lastOf x.roost a.grp (bitOf a.epi 2) (vaddAll x a len s)) := by
  have hmul : (bitOf a.epi 1 && !valued a.f) = false := by
    by_cases h : bitOf a.epi 1 = true
    · simp [hm h]
    · simp [h]
  have hw : inWork x.prog a.loc len = true := (inWork_iff _ _ _).2 (.inr hin)
  simp only [vadd, ← hlen, hmul, hg, hw, hi, Bool.not_true, Bool.or_self, Bool.false_eq_true, if_false]
  rfl

/-- Source rows do not change while tiles do. -/
theorem vaddRow_of_work {s b : State} {w op : Nat} {x : Site} {a : StlIns} (h : StlAt s w op x a) {T : List Nat} (hb : TilesWork x.roost a.f T s b) {i len : Nat}
    (hi : i < a.n) (hlen : len = a.n * srcRowBytes a.f * (if bitOf a.epi 1 then 2 else 1)) (hin : a.loc + len ≤ x.prog.wsize) : vaddRow x a b i = vaddRow x a s i := by
  rw [hlen] at hin
  have hread (j : Nat) (hj : a.loc + j * srcRowBytes a.f + srcRowBytes a.f ≤ x.prog.wsize) :
      readLocal b x.w (a.loc + j * srcRowBytes a.f) (srcRowBytes a.f) = readLocal s x.w (a.loc + j * srcRowBytes a.f) (srcRowBytes a.f) :=
    hb.readLocal_below (stlAt_below h hj)
  have hone : a.loc + a.n * srcRowBytes a.f ≤ x.prog.wsize := by split at hin <;> omega
  by_cases hmul : bitOf a.epi 1 = true
  · have htwo : a.loc + (a.n + a.n) * srcRowBytes a.f ≤ x.prog.wsize := by rw [if_pos hmul] at hin; rw [Nat.add_mul]; omega
    simp only [vaddRow, hread i (row_in hi hone), hread (a.n + i) (row_in (by omega) htwo)]
  · simp only [vaddRow, hread i (row_in hi hone), hmul, Bool.false_eq_true, if_false]

/-- A closed group, a format without order, or ORDER 0: no tree order. -/
theorem no_tree_order {g : Group} {f : AccFmt} (h : g.opn = true → ordered f = true → g.order = 0) : (g.opn && ordered f && g.order != 0) = false := by
  rw [Bool.and_eq_false_imp, Bool.and_eq_true]
  rintro ⟨ho, hord⟩
  simp [h ho hord]

/-- Outside a tree group, a term is added in sequence. -/
theorem addUnder_seq {r : Roost} {g : Nat} {f : AccFmt} {s : State} (h : (getGroup s r.w g).opn = true → ordered f = true → (getGroup s r.w g).order = 0)
    (k t : Nat) (row : List Elem) : addUnder r g f k t row s = addRow r f k t row s := by
  simp only [addUnder, no_tree_order h, Bool.false_eq_true, if_false]

theorem vaddAll_adds {s : State} {w op len : Nat} {x : Site} {a : StlIns} (h : StlAt s w op x a)
    (hseq : (getGroup s x.w a.grp).opn = true → ordered a.f = true → (getGroup s x.w a.grp).order = 0)
    (hlen : len = a.n * srcRowBytes a.f * (if bitOf a.epi 1 then 2 else 1)) (hin : a.loc + len ≤ x.prog.wsize) :
    TermsAdded x.roost a.f 1 a.tile a.n (vaddRow x a s) s (retire x (vaddAll x a len s)) := by
  refine .of_each fun i hi => ?_
  have hcount := (countLines_frame x len 0 s).tilesWork x.roost a.f []
  obtain ⟨b, hb, hbefore, hafter⟩ := foldl_at_tile (vaddStep_work x a) a.tiles_apart (a.tile_mem hi) (countLines x len 0 s)
  have hsb := hcount.sameTile (k := a.tile + i * granules a.f) (by simp)
  have hwork := (hcount.mono (List.nil_subset _)).trans hb
  have hstep : vaddStep x a b (i, a.tile + i * granules a.f) = addRow x.roost a.f 1 (a.tile + i * granules a.f) (vaddRow x a s i) b := by
    rw [vaddStep, vaddRow_of_work h hwork hi hlen hin]
    exact addUnder_seq (by rw [hwork.group]; exact hseq) ..
  rw [hstep] at hafter
  exact ((addRow_adds x.roost a.f 1 _ (vaddRow_length ..) b).congr (hsb.trans hbefore) (hafter.trans (.retire ..)))

/-- One row in a tree group is a leaf of its tile's block. -/
theorem vaddAll_leaf {s : State} {w op len : Nat} {x : Site} {a : StlIns} (h : StlAt s w op x a) (ho : (getGroup s x.w a.grp).opn = true)
    (hord : ordered a.f = true) (hgo : (getGroup s x.w a.grp).order = a.order) (h0 : a.order ≠ 0) (hn : a.n = 1)
    (hlen : len = a.n * srcRowBytes a.f * (if bitOf a.epi 1 then 2 else 1)) (hin : a.loc + len ≤ x.prog.wsize) :
    vaddAll x a len s = pushLeaf x.roost a.f a.order a.tile (vaddRow x a s 0) none (countLines x len 0 s) := by
  have hcount := (countLines_frame x len 0 s).tilesWork x.roost a.f []
  have hg : getGroup (countLines x len 0 s) x.roost.w a.grp = getGroup s x.w a.grp := hcount.group _
  have htiles : a.tiles = [(0, a.tile)] := by simp [StlIns.tiles, hn]
  have hrow := vaddRow_of_work h hcount (i := 0) (by omega) hlen hin
  simp [vaddAll, htiles, vaddStep, addUnder, hg, ho, hord, hgo, h0, hrow]

/-- The leaf stays pending, or fills its block, which is added. -/
theorem vaddAll_block {s : State} {w op len : Nat} {x : Site} {a : StlIns} {rows : List (List Byte)} (h : StlAt s w op x a)
    (ho : (getGroup s x.w a.grp).opn = true) (hord : ordered a.f = true) (hgo : (getGroup s x.w a.grp).order = a.order) (h0 : a.order ≠ 0) (hn : a.n = 1)
    (hlen : len = a.n * srcRowBytes a.f * (if bitOf a.epi 1 then 2 else 1)) (hin : a.loc + len ≤ x.prog.wsize)
    (hrows : rows = getPend x.roost a.tile s ++ [encRow a.f (leafOf a.f (vaddRow x a s 0))]) :
    (rows.length < treeSize a.order →
      getPend x.roost a.tile (retire x (vaddAll x a len s)) = rows ∧ (retire x (vaddAll x a len s)).mem = s.mem) ∧
    (rows.length = treeSize a.order → getPend x.roost a.tile (retire x (vaddAll x a len s)) = [] ∧ TileIs x.roost a.f a.tile
      (List.zipWith (addElem false) (getTile x.roost a.f a.tile s) (treeSum 5 (rows.map (decRow a.f)))) (retire x (vaddAll x a len s))) := by
  have hcount := countLines_frame x len 0 s
  have hpend : getPend x.roost a.tile (countLines x len 0 s) = getPend x.roost a.tile s := (hcount.tilesWork x.roost a.f []).pend _ (by simp)
  have htile : getTile x.roost a.f a.tile (countLines x len 0 s) = getTile x.roost a.f a.tile s := by rw [getTile, hcount.mem]; rfl
  rw [← hpend] at hrows
  have hpush := pushLeaf_adds x.roost a.f a.tile _ a.order (vaddRow x a s 0) none hrows
  rw [htile, hcount.mem] at hpush
  rw [vaddAll_leaf h ho hord hgo h0 hn hlen hin, getPend_retire, TileIs, retire_mem]
  exact hpush

/-! PRELOAD (10 R196, R199). -/

/-- The step of one row, and all rows. -/
def preloadStep (x : Site) (a : StlIns) (s : State) (e : Nat × Nat) : State :=
  addRow x.roost a.f 1 e.2 (srcRow a.f (readLocal s x.w (a.loc + e.1 * srcRowBytes a.f) (srcRowBytes a.f)))
    (setIdentity x.roost a.f a.sigma (some a.grp) e.2 s)
def preloadOpen (x : Site) (a : StlIns) (s : State) : State := openGroup x.roost a.grp a.f a.order a.tile a.n (countLines x (a.n * srcRowBytes a.f) 0 s)
def preloadAll (x : Site) (a : StlIns) (s : State) : State := a.tiles.foldl (preloadStep x a) (preloadOpen x a s)

theorem preloadStep_work (x : Site) (a : StlIns) (s : State) (e : Nat × Nat) : TilesWork x.roost a.f [e.2] s (preloadStep x a s e) :=
  (setIdentity_work ..).trans (addRow_work ..)

theorem preloadOpen_only (x : Site) (a : StlIns) (s : State) : StlOnly x.w s (preloadOpen x a s) :=
  ((countLines_frame ..).stlOnly _).trans (openGroup_only x.roost ..)
theorem preloadOpen_mem (x : Site) (a : StlIns) (s : State) : (preloadOpen x a s).mem = s.mem :=
  (openGroup_mem ..).trans (countLines_frame ..).mem

theorem preloadAll_work (x : Site) (a : StlIns) (s : State) : TilesWork x.roost a.f (a.tiles.map Prod.snd) (preloadOpen x a s) (preloadAll x a s) :=
  .foldl (preloadStep_work x a) ..

theorem preload_retires {s : State} {x : Site} {a : StlIns} (hm : mayOpen s x.w a.grp a.f a.order a.n = true) (hs : a.f = .i64s → a.sigma ≤ 62) (h0 : a.n ≠ 0)
    (hin : a.loc + a.n * srcRowBytes a.f ≤ x.prog.wsize)
    (hi : interlocked (getWren s x.w) [(a.loc, a.n * srcRowBytes a.f)] [a.range x] = false) : preload x a s = .retire (preloadAll x a s) := by
  have hw : inWork x.prog a.loc (a.n * srcRowBytes a.f) = true := (inWork_iff _ _ _).2 (.inr hin)
  simp only [preload, hm, scale_in hs, hw, h0, hi, Bool.not_true, Bool.or_self, Bool.false_eq_true, if_false]
  rfl

theorem setIdentity_tile (r : Roost) (f : AccFmt) (sigma : Nat) (g : Option Nat) (t : Nat) (s : State) :
    getTile r f t (setIdentity r f sigma g t s) = decRow f (encRow f (List.replicate 64 (identElem f))) := by
  have : memRead (setIdentity r f sigma g t s).mem (r.at_ t) (tileBytes f) = encRow f (List.replicate 64 (identElem f)) :=
    memRead_memWrite (encRow_tile (by simp) f) ..
  rw [getTile, this]

theorem overLimit_zipWith {g : Elem → Elem → Elem} {l l' : List Elem} (h : ∀ a ∈ l, ∀ b, overLimit [g a b] = false) : overLimit (List.zipWith g l l') = false := by
  refine List.any_eq_false.2 fun c hc => ?_
  obtain ⟨i, hi, rfl⟩ := List.getElem_of_mem hc
  rw [List.getElem_zipWith]
  simpa [overLimit] using h _ (List.getElem_mem _) _

/-- One term never passes the X704 limit of a tile at its identity. -/
theorem ident_no_limit (f : AccFmt) (row : List Elem) :
    overLimit (List.zipWith (fun e v => addTerm 1 e v (f == .p255)) (decRow f (encRow f (List.replicate 64 (identElem f)))) row) = false := by
  refine overLimit_zipWith fun e he v => ?_
  cases f with
  | x704 =>
    have hz : decRow .x704 (encRow .x704 (List.replicate 64 (identElem .x704))) = List.replicate 64 (.wide 0 0 0) := by decide +kernel
    rw [hz] at he
    rw [List.eq_of_mem_replicate he]
    cases v <;> rfl
  | _ =>
    obtain ⟨i, -, rfl⟩ := List.mem_map.1 he
    cases v <;> rfl

theorem preloadAll_adds {s : State} {w op : Nat} {x : Site} {a : StlIns} (h : StlAt s w op x a) (hf : a.f ≠ .i64s)
    (hin : a.loc + a.n * srcRowBytes a.f ≤ x.prog.wsize) {i : Nat} (hi : i < a.n) : TileIs x.roost a.f (a.tile + i * granules a.f)
      (List.zipWith (fun e v => addTerm 1 e v (a.f == .p255)) (decRow a.f (encRow a.f (List.replicate 64 (identElem a.f))))
        (srcRow a.f (readLocal s x.w (a.loc + i * srcRowBytes a.f) (srcRowBytes a.f)))) (preloadAll x a s) := by
  obtain ⟨b, hb, -, hafter⟩ := foldl_at_tile (preloadStep_work x a) a.tiles_apart (a.tile_mem hi) (preloadOpen x a s)
  have hrow : readLocal b x.w (a.loc + i * srcRowBytes a.f) (srcRowBytes a.f) = readLocal s x.w (a.loc + i * srcRowBytes a.f) (srcRowBytes a.f) :=
    (hb.readLocal_below (stlAt_below h (row_in hi hin))).trans (by unfold readLocal; rw [preloadOpen_mem]; rfl)
  have hadd := addRow_adds x.roost a.f 1 (a.tile + i * granules a.f) (srcRow_length a.f (readLocal b x.w (a.loc + i * srcRowBytes a.f) (srcRowBytes a.f)))
    (setIdentity x.roost a.f a.sigma (some a.grp) (a.tile + i * granules a.f) b)
  obtain ⟨hstored, -⟩ := hadd 0 _ _ _ _ (by omega) rfl rfl rfl rfl
  rw [Nat.zero_mul, Nat.add_zero, setIdentity_tile] at hstored
  have htile := (hstored hf (ident_no_limit ..)).1
  rw [hrow] at htile
  exact hafter.mem.trans (by simpa only [preloadStep, hrow, TileIs] using htile)

/-! TREAD (10 R197). -/

/-- A row written to the working area. -/
theorem writeLocal_only (w off : Nat) (bs : List Byte) (s : State) : StlOnly w s (writeLocal w off bs s) := .setMem ..

/-- The bytes that an instruction leaves in the working area, and memory besides. -/
theorem retire_written {x : Site} {loc n : Nat} {bs : List Byte} {s u : State} (hlen : bs.length = n) (hu : u.mem = (writeLocal x.w loc bs s).mem) :
    MemOutside (wrenBase x.w + loc) n s (retire x u) ∧ memRead (retire x u).mem (wrenBase x.w + loc) n = bs := by
  have hm : (retire x u).mem = memWrite s.mem (wrenBase x.w + loc) bs := (retire_mem x u).trans hu
  refine ⟨fun i hi => ?_, ?_⟩
  · rw [hm]; exact memGet_write_outside _ _ _ _ (by omega)
  · rw [hm]; exact memRead_memWrite hlen ..

theorem encOut_length (o : Nat) (v : Fl) (f : AccFmt) (h : o ≠ 0) : 64 * (encOut o v).length = outBytes f o := by
  unfold encOut outBytes
  rw [if_neg h]
  repeat' split
  all_goals simp

theorem readTile_length (x : Site) (a : StlIns) (s : State) (t : Nat) : (readTile x a s t).length = outBytes a.f a.outfmt := by
  unfold readTile
  split
  · rename_i h; simp [h, outBytes]
  · rename_i h
    have hlen := encOut_length a.outfmt .nan a.f h
    rw [flatMap_length_const (n := (encOut a.outfmt .nan).length), getTile_length, hlen]
    intro e _
    have := encOut_length a.outfmt (plusZero (if bitOf a.epi 0 then relu (elemValue (getTsw x.roost t s).scale e) else elemValue (getTsw x.roost t s).scale e)) a.f h
    dsimp only; omega

/-- What TREAD writes: the rows, and with STATUS the status words. -/
def treadBytes (x : Site) (a : StlIns) (s : State) : List Byte :=
  (a.tiles.flatMap fun t => readTile x a s t.2) ++ (if bitOf a.epi 3 then a.tiles.flatMap fun t => natLE 8 (tswWord (getTsw x.roost t.2 s)) else [])

theorem StlIns.tiles_length (a : StlIns) : a.tiles.length = a.n := by simp [StlIns.tiles]

theorem treadBytes_length (x : Site) (a : StlIns) (s : State) :
    (treadBytes x a s).length = a.n * (outBytes a.f a.outfmt + (if bitOf a.epi 3 then 8 else 0)) := by
  rw [treadBytes, List.length_append, flatMap_length_const fun t _ => readTile_length x a s t.2, a.tiles_length, Nat.mul_add]
  split
  · rw [flatMap_length_const fun t _ => natLE_length .., a.tiles_length]
  · rfl

theorem tread_retires {s : State} {x : Site} {a : StlIns} {len : Nat} (ho : a.outfmt ≤ 5) (hv : a.outfmt ≠ 0 → valued a.f = true)
    (hr : inOpenRange s x.w a.f a.tile a.n = false) (hlen : len = a.n * (outBytes a.f a.outfmt + (if bitOf a.epi 3 then 8 else 0)))
    (hin : a.loc + len ≤ x.prog.wsize) (hi : interlocked (getWren s x.w) [a.range x] [(a.loc, len)] = false) :
    tread x a s = .retire (countLines x 0 len (writeLocal x.w a.loc (treadBytes x a s) s)) := by
  have ho' : decide (5 < a.outfmt) = false := by simpa using ho
  have hv' : (a.outfmt != 0 && !valued a.f) = false := by
    by_cases h : a.outfmt = 0
    · simp [h]
    · simp [hv h]
  have hw : inWork x.prog a.loc len = true := (inWork_iff _ _ _).2 (.inr hin)
  simp only [tread, ← hlen, ho', hv', hr, hw, hi, Bool.not_true, Bool.or_self, Bool.false_eq_true, if_false]
  rfl

/-! TWRITE (10 R198). -/

/-- The step of one row; rows are those of the state `s` before all. -/
def twriteStep (x : Site) (a : StlIns) (s b : State) (e : Nat × Nat) : State :=
  let v := getTsw x.roost e.2 b
  putTsw x.roost e.2 { v with
      empty := false, exhausted := false, termLimit := false, boundLost := false, retries := 0, terms := 0, fmt := fmtCode a.f
      scale := if a.f = .i64s then a.sigma else v.scale }
    (setMem (memWrite b.mem (x.roost.at_ e.2) (readLocal s x.w (a.loc + e.1 * tileBytes a.f) (tileBytes a.f))) b)
def twriteAll (x : Site) (a : StlIns) (s : State) : State := a.tiles.foldl (twriteStep x a s) (countLines x (a.n * tileBytes a.f) 0 s)

theorem twriteStep_work (x : Site) (a : StlIns) (s b : State) (e : Nat × Nat) : TilesWork x.roost a.f [e.2] b (twriteStep x a s b e) :=
  (writeTile_work _ _ _ _ (by simp [readLocal])).trans (putTsw_work ..)

theorem twriteAll_work (x : Site) (a : StlIns) (s : State) : TilesWork x.roost a.f (a.tiles.map Prod.snd) s (twriteAll x a s) :=
  ((countLines_frame ..).tilesWork ..).trans (.foldl (twriteStep_work x a s) ..)

theorem twrite_retires {s : State} {x : Site} {a : StlIns} (hr : inOpenRange s x.w a.f a.tile a.n = false) (hs : a.f = .i64s → a.sigma ≤ 62)
    (hin : a.loc + a.n * tileBytes a.f ≤ x.prog.wsize) (hi : interlocked (getWren s x.w) [(a.loc, a.n * tileBytes a.f)] [a.range x] = false)
    (hraw : ∀ i, i < a.n → (decRow a.f (readLocal s x.w (a.loc + i * tileBytes a.f) (tileBytes a.f))).any (badRaw a.f) = false) :
    twrite x a s = .retire (twriteAll x a s) := by
  have hw : inWork x.prog a.loc (a.n * tileBytes a.f) = true := (inWork_iff _ _ _).2 (.inr hin)
  have hany : (a.tiles.any fun t => (decRow a.f (readLocal s x.w (a.loc + t.1 * tileBytes a.f) (tileBytes a.f))).any (badRaw a.f)) = false :=
    List.any_eq_false.2 fun t ht => by rw [hraw _ (a.mem_tiles.1 ht).1]; exact Bool.false_ne_true
  simp only [twrite, hr, hw, scale_in hs, hany, hi, Bool.not_true, Bool.or_self, Bool.false_eq_true, if_false]
  rfl

theorem twriteStep_tile (x : Site) (a : StlIns) (s b : State) (i t : Nat) :
    memRead (twriteStep x a s b (i, t)).mem (x.roost.at_ t) (tileBytes a.f) = readLocal s x.w (a.loc + i * tileBytes a.f) (tileBytes a.f) :=
  memRead_memWrite (by simp [readLocal]) ..

theorem twriteAll_tile (x : Site) (a : StlIns) (s : State) {i : Nat} (hi : i < a.n) : ∃ b, SameTile x.roost a.f (a.tile + i * granules a.f)
    (twriteStep x a s b (i, a.tile + i * granules a.f)) (twriteAll x a s) := by
  obtain ⟨b, -, -, hafter⟩ := foldl_at_tile (twriteStep_work x a s) a.tiles_apart (a.tile_mem hi) (countLines x (a.n * tileBytes a.f) 0 s)
  exact ⟨b, hafter⟩

/-! TOPK, MAXI and MINI (10 R209, R210). -/

theorem topk_retires {s : State} {x : Site} {a : StlIns} {k : Nat} (hv : valued a.f = true) (hr : inOpenRange s x.w a.f a.tile a.n = false) (hk : k = a.k1 + 1)
    (hin : a.loc + 4 * k ≤ x.prog.wsize) (hi : interlocked (getWren s x.w) [a.range x] [(a.loc, 4 * k)] = false) :
    topk x a s = .retire (countLines x 0 (4 * k)
      (writeLocal x.w a.loc (((ranked (vector x a s) ++ List.replicate k 0xFFFFFFFF).take k).flatMap fun p => natLE 4 p) s)) := by
  have hw : inWork x.prog a.loc (4 * k) = true := (inWork_iff _ _ _).2 (.inr hin)
  simp only [topk, ← hk, hv, hr, hw, hi, Bool.not_true, Bool.or_self, Bool.false_eq_true, if_false]

/-- The line on which values compare (10 R209): NaN, −Inf, the finite values among themselves, +Inf. -/
def flRank : Fl → Nat
  | .nan => 0
  | .inf true => 1
  | .fin _ _ => 2
  | .inf false => 3

theorem flLt_iff (x y : Fl) : flLt x y = true ↔ flRank x < flRank y ∨ flRank x = flRank y ∧ x.exact < y.exact := by
  rcases x with _ | ⟨_ | _⟩ | ⟨p, m⟩ <;> rcases y with _ | ⟨_ | _⟩ | ⟨q, n⟩ <;> simp [flLt, flRank, Fl.exact]

theorem flLt_eq_false (x y : Fl) : flLt x y = false ↔ flRank y < flRank x ∨ flRank y = flRank x ∧ y.exact ≤ x.exact := by
  rw [← Bool.not_eq_true, flLt_iff]; omega

theorem flLt_of_lt_of_not_lt {x y z : Fl} (h : flLt x y = true) (k : flLt z y = false) : flLt x z = true := by
  rw [flLt_iff] at h ⊢; rw [flLt_eq_false] at k; omega

theorem flLt_of_not_lt_of_lt {x y z : Fl} (h : flLt x y = true) (k : flLt x z = false) : flLt z y = true := by
  rw [flLt_iff] at h ⊢; rw [flLt_eq_false] at k; omega

@[simp] theorem flLt_irrefl (x : Fl) : flLt x x = false := (flLt_eq_false x x).2 (.inr ⟨rfl, Int.le_refl _⟩)

theorem flLt_asymm {x y : Fl} (h : flLt x y = true) : flLt y x = false := by
  rw [flLt_iff] at h; rw [flLt_eq_false]; omega

/-- The values of a vector with their positions. -/
def placed (vs : List Fl) : List (Nat × Fl) := vs.zipIdx.map fun e => (e.2, e.1)

theorem placed_positions (vs : List Fl) : (placed vs).map Prod.fst = List.range vs.length := by
  rw [placed, List.map_map, List.range_eq_range']
  exact List.zipIdx_map_snd 0 vs

theorem placed_length (vs : List Fl) : (placed vs).length = vs.length := by simp [placed]

theorem placed_increasing (vs : List Fl) : (placed vs).Pairwise fun d e => d.1 < e.1 :=
  List.pairwise_map.1 (placed_positions vs ▸ List.pairwise_lt_range)

theorem mem_placed {vs : List Fl} {e : Nat × Fl} : e ∈ placed vs ↔ vs[e.1]? = some e.2 := by
  simp only [placed, List.mem_map]
  constructor
  · rintro ⟨d, hd, rfl⟩; exact List.mem_zipIdx_iff_getElem?.1 hd
  · exact fun h => ⟨(e.2, e.1), List.mem_zipIdx_iff_getElem?.2 h, rfl⟩

theorem placed_value {vs : List Fl} {e : Nat × Fl} (h : e ∈ placed vs) : vs.getD e.1 .nan = e.2 := by simp [List.getD, mem_placed.1 h]

/-- Larger, or not smaller and at a lower position (10 R209). -/
def RanksBefore (d e : Nat × Fl) : Prop := flLt e.2 d.2 = true ∨ flLt d.2 e.2 = false ∧ d.1 < e.1

theorem rankIn_perm (e : Nat × Fl) (l : List (Nat × Fl)) : (rankIn e l).Perm (e :: l) := by
  induction l with
  | nil => exact .refl _
  | cons d l ih =>
    rw [rankIn]; split
    · exact .refl _
    · exact (ih.cons d).trans (.swap ..)

/-- A later position put in its place. -/
theorem rankIn_ranks {e : Nat × Fl} {l : List (Nat × Fl)} (hl : l.Pairwise RanksBefore) (he : ∀ d ∈ l, d.1 < e.1) : (rankIn e l).Pairwise RanksBefore := by
  induction l with
  | nil => simp [rankIn]
  | cons d l ih =>
    obtain ⟨hd, hl'⟩ := List.pairwise_cons.1 hl
    rw [rankIn]; split
    · rename_i hlt
      refine List.pairwise_cons.2 ⟨fun g hg => .inl ?_, hl⟩
      rcases List.mem_cons.1 hg with rfl | hg
      · exact hlt
      · rcases hd g hg with h | ⟨h, -⟩
        · exact flLt_of_lt_of_not_lt h (flLt_asymm hlt)
        · exact flLt_of_not_lt_of_lt hlt h
    · rename_i hge
      refine List.pairwise_cons.2 ⟨fun g hg => ?_, ih hl' fun g hg => he g (by simp [hg])⟩
      rcases List.mem_cons.1 ((rankIn_perm e l).mem_iff.1 hg) with rfl | hg
      · exact .inr ⟨Bool.of_not_eq_true hge, he d (by simp)⟩
      · exact hd g hg

theorem foldl_rankIn {l acc : List (Nat × Fl)} (hl : l.Pairwise fun d e => d.1 < e.1) (hacc : acc.Pairwise RanksBefore)
    (hlt : ∀ d ∈ acc, ∀ e ∈ l, d.1 < e.1) :
    (l.foldl (fun acc e => rankIn e acc) acc).Perm (l ++ acc) ∧ (l.foldl (fun acc e => rankIn e acc) acc).Pairwise RanksBefore := by
  induction l generalizing acc with
  | nil => exact ⟨.refl _, hacc⟩
  | cons e l ih =>
    obtain ⟨he, hl'⟩ := List.pairwise_cons.1 hl
    have hin := rankIn_perm e acc
    obtain ⟨hp, hr⟩ := ih hl' (rankIn_ranks hacc fun d hd => hlt d hd e (by simp)) fun d hd g hg => by
      rcases List.mem_cons.1 (hin.mem_iff.1 hd) with rfl | hd
      · exact he g hg
      · exact hlt d hd g (by simp [hg])
    exact ⟨hp.trans ((hin.append_left l).trans List.perm_middle), hr⟩

theorem ranked_ranks (vs : List Fl) : (ranked vs).Perm (List.range vs.length) ∧ (ranked vs).Pairwise fun i j =>
    flLt (vs.getD j .nan) (vs.getD i .nan) = true ∨ (flLt (vs.getD i .nan) (vs.getD j .nan) = false ∧ i < j) := by
  obtain ⟨hp, hr⟩ := foldl_rankIn (placed_increasing vs) .nil (by simp)
  rw [List.append_nil] at hp
  refine ⟨placed_positions vs ▸ hp.map Prod.fst, List.pairwise_map.2 (hr.imp_of_mem fun {d e} hd he h => ?_)⟩
  rwa [placed_value (hp.mem_iff.1 hd), placed_value (hp.mem_iff.1 he)]

/-- 10 R210: what MINI, or MAXI, prefers. -/
def prefers (least : Bool) (x y : Fl) : Bool := if least then flLt x y else flLt y x

theorem prefers_of_not_preferred {least : Bool} {x y z : Fl} (h : prefers least x y = true) (k : prefers least z y = false) : prefers least x z = true := by
  cases least
  · exact flLt_of_not_lt_of_lt h k
  · exact flLt_of_lt_of_not_lt h k

@[simp] theorem prefers_irrefl (least : Bool) (x : Fl) : prefers least x x = false := by cases least <;> exact flLt_irrefl x

theorem prefers_asymm {least : Bool} {x y : Fl} (h : prefers least x y = true) : prefers least y x = false := by cases least <;> exact flLt_asymm h

/-- Element `e` does not win against `b`: `e` is NaN, or `b` is a number, no worse, and better if `e` comes first. -/
def Beaten (least : Bool) (b e : Nat × Fl) : Prop := e.2 ≠ .nan → b.2 ≠ .nan ∧ prefers least e.2 b.2 = false ∧ (e.1 < b.1 → prefers least b.2 e.2 = true)

theorem Beaten.self (least : Bool) (b : Nat × Fl) : Beaten least b b := fun h => ⟨h, by simp, by simp⟩

theorem winner_exists (least : Bool) {l : List (Nat × Fl)} (h : l ≠ []) : ∃ b, winner least l = some b := by
  obtain ⟨e, l, rfl⟩ := List.exists_cons_of_ne_nil h
  rw [winner]
  repeat' split
  all_goals exact ⟨_, rfl⟩

theorem winner_cons (least : Bool) (e : Nat × Fl) {l : List (Nat × Fl)} {c : Nat × Fl} (h : winner least l = some c) : winner least (e :: l) =
    if c.2 = .nan then some e else if e.2 = .nan then some c else if prefers least c.2 e.2 then some c else some e := by
  rw [winner, h]; rfl

theorem winner_wins {least : Bool} {l : List (Nat × Fl)} (hl : l.Pairwise fun d e => d.1 < e.1) {b : Nat × Fl} (h : winner least l = some b) :
    b ∈ l ∧ ∀ e ∈ l, Beaten least b e := by
  induction l generalizing b with
  | nil => cases h
  | cons e l ih =>
    obtain ⟨he, hl'⟩ := List.pairwise_cons.1 hl
    by_cases h0 : l = []
    · subst h0
      cases h
      simpa using Beaten.self least e
    obtain ⟨c, hc⟩ := winner_exists least h0
    obtain ⟨hcl, hbeat⟩ := ih hl' hc
    rw [winner_cons least e hc] at h
    simp only [List.mem_cons, forall_eq_or_imp]
    split at h
    · rename_i hnan
      cases h
      exact ⟨.inl rfl, .self _ _, fun g hg hgn => absurd hnan (hbeat g hg hgn).1⟩
    · rename_i hcn
      split at h
      · rename_i hnan
        cases h
        exact ⟨.inr hcl, fun hen => absurd hnan hen, hbeat⟩
      · rename_i hen
        split at h
        · rename_i hbetter
          cases h
          exact ⟨.inr hcl, fun _ => ⟨hcn, prefers_asymm hbetter, fun _ => hbetter⟩, hbeat⟩
        · rename_i hworse
          cases h
          refine ⟨.inl rfl, .self _ _, fun g hg hgn => ⟨hen, ?_, fun hlt => absurd (he g hg) (by omega)⟩⟩
          refine Bool.eq_false_iff.2 fun hg' => ?_
          have := prefers_of_not_preferred hg' (Bool.of_not_eq_true hworse)
          rw [(hbeat g hg hgn).2.1] at this
          cases this

theorem vector_length (x : Site) (a : StlIns) (s : State) : (vector x a s).length = 64 * a.n := by
  rw [vector, flatMap_length_const (n := 64), a.tiles_length, Nat.mul_comm]
  intro t _
  dsimp only; split <;> simp

theorem extreme_retires {s : State} {x : Site} {a : StlIns} {least : Bool} {b : Nat} {e : Nat × Fl} (hv : valued a.f = true)
    (hr : inOpenRange s x.w a.f a.tile a.n = false) (hb : b = elemBytes a.f) (hin : a.loc + (4 + b) ≤ x.prog.wsize)
    (hi : interlocked (getWren s x.w) [a.range x] [(a.loc, 4 + b)] = false) (he : winner least (placed (vector x a s)) = some e) :
    extreme least x a s = .retire (writeLocal x.w a.loc
      (natLE 4 e.1 ++ memRead s.mem (x.roost.at_ (a.tile + e.1 / 64 * granules a.f) + e.1 % 64 * b) b) s) := by
  have hw : inWork x.prog a.loc (4 + b) = true := (inWork_iff _ _ _).2 (.inr hin)
  have he' : winner least ((vector x a s).zipIdx.map fun e => (e.2, e.1)) = some e := he
  simp only [extreme, ← hb, hv, hr, hw, hi, he', Bool.not_true, Bool.or_self, Bool.false_eq_true, if_false]

/-- The winning position is one of the vector, and no other value wins against it. -/
theorem winner_of_vector {least : Bool} {vs : List Fl} {e : Nat × Fl} (he : winner least (placed vs) = some e) : e.1 < vs.length ∧
    ∀ j, j < vs.length → Beaten least (e.1, vs.getD e.1 .nan) (j, vs.getD j .nan) := by
  obtain ⟨hm, hbeat⟩ := winner_wins (placed_increasing vs) he
  refine ⟨(List.getElem?_eq_some_iff.1 (mem_placed.1 hm)).1, fun j hj => ?_⟩
  rw [placed_value hm]
  exact hbeat _ (mem_placed.2 (by simp [List.getD, hj]))

/-! COMBINE (10 R212). -/

/-- A row and its status word as COMBINE finds them (log 34). -/
def combineSrc (x : Site) (a : StlIns) (s : State) (i : Nat) : List Elem := decRow a.f (readLocal s x.w (a.loc + i * tileBytes a.f) (tileBytes a.f))
def combineTsw (x : Site) (a : StlIns) (s : State) (i : Nat) : Tsw := tswOf (leNat (readLocal s x.w (a.loc + a.n * tileBytes a.f + 8 * i) 8))

/-- The step of one row, and all rows; status words and the group are those of the state `s` before all. -/
def combineStep (x : Site) (a : StlIns) (s b : State) (e : Nat × Nat) : State :=
  if (getGroup s x.w a.grp).opn && ordered a.f && (getGroup s x.w a.grp).order != 0 then
    pushLeaf x.roost a.f (getGroup s x.w a.grp).order e.2 (combineSrc x a b e.1) (some (combineTsw x a s e.1)) b
  else combineRow x.roost a.f e.2 (bitOf a.epi 0) (combineSrc x a b e.1) (combineTsw x a s e.1) b
def combineAll (x : Site) (a : StlIns) (len : Nat) (s : State) : State := a.tiles.foldl (combineStep x a s) (countLines x len 0 s)

theorem combineStep_work (x : Site) (a : StlIns) (s b : State) (e : Nat × Nat) : TilesWork x.roost a.f [e.2] b (combineStep x a s b e) := by
  unfold combineStep; split
  · exact pushLeaf_work ..
  · exact combineRow_work ..

theorem combineAll_work (x : Site) (a : StlIns) (len : Nat) (s : State) : TilesWork x.roost a.f (a.tiles.map Prod.snd) s (combineAll x a len s) :=
  ((countLines_frame ..).tilesWork ..).trans (.foldl (combineStep_work x a s) ..)

theorem combine_retires {s : State} {x : Site} {a : StlIns} {len : Nat} (hg : groupOk s x.w a.grp a.f a.order a.tile a.n = true)
    (hlen : len = a.n * (tileBytes a.f + 8)) (hin : a.loc + len ≤ x.prog.wsize) (hf : a.f ≠ .i64s)
    (hi : interlocked (getWren s x.w) [(a.loc, len)] [a.range x] = false) :
    combine x a s = .retire (lastOf x.roost a.grp (bitOf a.epi 2) (combineAll x a len s)) := by
  have hw : inWork x.prog a.loc len = true := (inWork_iff _ _ _).2 (.inr hin)
  have hf' : (a.f == .i64s) = false := by simpa using hf
  simp only [combine, ← hlen, hg, hw, hf', hi, Bool.not_true, Bool.false_and, Bool.or_self, Bool.false_eq_true, if_false]
  rfl

theorem combineAll_adds {s : State} {w op len : Nat} {x : Site} {a : StlIns} (h : StlAt s w op x a) (hf : a.f ≠ .i64s)
    (hseq : (getGroup s x.w a.grp).opn = true → ordered a.f = true → (getGroup s x.w a.grp).order = 0)
    (hin : a.loc + a.n * tileBytes a.f ≤ x.prog.wsize) {i t : Nat} {new : List Elem} (hi : i < a.n) (ht : t = a.tile + i * granules a.f)
    (hn : new = List.zipWith (fun e v => if bitOf a.epi 0 then addElem (a.f == .p255) v e else addElem (a.f == .p255) e v) (getTile x.roost a.f t s)
      (combineSrc x a s i)) (hl : overLimit new = false) :
    TileIs x.roost a.f t new (combineAll x a len s) ∧
      getTsw x.roost t (combineAll x a len s) = tswEnter a.f (some (combineTsw x a s i)) (getTsw x.roost t s) := by
  have hcount := (countLines_frame x len 0 s).tilesWork x.roost a.f []
  obtain ⟨b, hb, hbefore, hafter⟩ := foldl_at_tile (combineStep_work x a s) a.tiles_apart (a.tile_mem hi) (countLines x len 0 s)
  have hsb := (hcount.sameTile (k := t) (by simp)).trans (ht ▸ hbefore)
  have hrow : combineSrc x a b i = combineSrc x a s i :=
    congrArg (decRow a.f) (((hcount.mono (List.nil_subset _)).trans hb).readLocal_below (stlAt_below h (row_in hi hin)))
  have hstep : combineStep x a s b (i, t) = combineRow x.roost a.f t (bitOf a.epi 0) (combineSrc x a s i) (combineTsw x a s i) b := by
    simp only [combineStep, no_tree_order hseq, hrow, Bool.false_eq_true, if_false]
  rw [← ht, hstep] at hafter
  obtain ⟨htile, htsw⟩ := combineRow_adds (o := combineTsw x a s i) hf (by simp [combineSrc]) (hsb.tile ▸ hn) hl
  exact ⟨hafter.mem.trans htile, by rw [← hsb.tsw]; exact hafter.tsw.trans htsw⟩

/-- Settles O43: each instruction retires at the state of its row-by-row fold, of which every row finds its tile as it was before all. -/
theorem starlingAccumulatesReadsAndRanks : Obligations.StarlingAccumulatesReadsAndRanks := by
  unfold Obligations.StarlingAccumulatesReadsAndRanks
  refine ⟨?vadd, fun _ => rfl, ?row, ?preload, ?tread, ?raw, ?twrite, ?topk, ranked_ranks, ?extreme, ?combine, ?ingress⟩
  case vadd =>
    intro s w len x a h hm hg hlen hin hi
    obtain rfl := stlAt_w h
    have hwork := vaddAll_work x a len s
    refine ⟨_, stlAt_retires h rfl (vadd_retires hm hg hlen hin hi), hwork.last_retires _, hwork.last_memOutside _ hg,
      fun hl => lastOf_closes x a.grp hl _, fun hseq hl => ?_, fun rows ho hord h0 hn hl hrows => ?_⟩
    · rw [lastOf_false hl]
      exact vaddAll_adds h hseq hlen hin
    · have hblock := vaddAll_block h ho hord ((groupOk_open hg ho).2 hord) h0 hn hlen hin hrows
      rw [lastOf_false hl]
      exact hblock
  case row =>
    intro x a s i hneg hmul
    simp only [vaddRow, hneg, hmul, Bool.false_eq_true, if_false]
    rfl
  case preload =>
    rintro s w _ x a h hm hs rfl h0 hin hi
    obtain rfl := stlAt_w h
    have hwork := preloadAll_work x a s
    refine ⟨_, stlAt_retires h rfl (preload_retires hm hs h0 hin hi), ((preloadOpen_only x a s).trans hwork.only).retires, fun i ho => ?_, ?_, fun hf i hlt => ?_⟩
    · rw [retire_mem, hwork.memOutside i ho, preloadOpen_mem]
    · rw [getGroup_retire]
      exact (hwork.group a.grp).trans (getGroup_openGroup x.roost ..)
    · exact (SameTile.retire ..).mem.trans (preloadAll_adds h hf hin hlt)
  case tread =>
    rintro s w len x a h ho hv hr hlen hin hi
    obtain rfl := stlAt_w h
    have hcount := countLines_frame x 0 len (writeLocal x.w a.loc (treadBytes x a s) s)
    obtain ⟨hout, hread⟩ := retire_written ((treadBytes_length x a s).trans hlen.symm) hcount.mem
    refine ⟨_, stlAt_retires h rfl (tread_retires ho hv hr hlen hin hi), ((writeLocal_only ..).trans (hcount.stlOnly _)).retires, hout, ?_, hread⟩
    rw [getWren_retire, hcount.getWren]; rfl
  case raw =>
    intro x a s t ho
    rw [readTile, if_pos ho]
  case twrite =>
    rintro s w _ x a h hr hs rfl hin hi hraw
    obtain rfl := stlAt_w h
    have hwork := twriteAll_work x a s
    refine ⟨_, stlAt_retires h rfl (twrite_retires hr hs hin hi hraw), hwork.only.retires, fun i ho => (by rw [retire_mem, hwork.memOutside i ho]), ?_⟩
    rintro i t hlt rfl
    obtain ⟨b, hsame⟩ := twriteAll_tile x a s hlt
    have hend := hsame.trans (.retire ..)
    rw [hend.tsw]
    refine ⟨hend.mem.trans (twriteStep_tile ..), ?_⟩
    simp +contextual [twriteStep]
  case topk =>
    rintro s w k x a h hv hr hk hin hi
    obtain rfl := stlAt_w h
    have hcount := countLines_frame x 0 (4 * k)
      (writeLocal x.w a.loc (((ranked (vector x a s) ++ List.replicate k 0xFFFFFFFF).take k).flatMap fun p => natLE 4 p) s)
    have hlen : (((ranked (vector x a s) ++ List.replicate k 0xFFFFFFFF).take k).flatMap fun p => natLE 4 p).length = 4 * k := by
      rw [flatMap_length_const fun _ _ => natLE_length .., List.length_take, List.length_append, List.length_replicate]; omega
    exact ⟨_, stlAt_retires h rfl (topk_retires hv hr hk hin hi), ((writeLocal_only ..).trans (hcount.stlOnly _)).retires, retire_written hlen hcount.mem⟩
  case extreme =>
    rintro s w op b x a c least h hc hv hr hb hin hi h0
    obtain rfl := stlAt_w h
    have hvec : placed (vector x a s) ≠ [] := fun he => by
      have := congrArg List.length he
      rw [placed_length, vector_length, List.length_nil] at this; omega
    obtain ⟨e, he⟩ := winner_exists least hvec
    obtain ⟨hp, hbeat⟩ := winner_of_vector he
    rw [vector_length] at hp hbeat
    have hexec : exec c s = .next (runInsn 4 op (stlIns (extreme least)) x.w s) := by
      rcases hc with ⟨rfl, rfl, rfl⟩ | ⟨rfl, rfl, rfl⟩ <;> rfl
    obtain ⟨hout, hread⟩ := retire_written (x := x) (loc := a.loc) (s := s) (n := 4 + b)
      (bs := natLE 4 e.1 ++ memRead s.mem (x.roost.at_ (a.tile + e.1 / 64 * granules a.f) + e.1 % 64 * b) b) (by simp) rfl
    refine ⟨_, e.1, stlAt_retires h hexec (extreme_retires hv hr hb hin hi he), (writeLocal_only ..).retires, hout, hread, hp, ?_⟩
    rintro j _ _ hj rfl rfl hnan
    exact hbeat j hj hnan
  case combine =>
    rintro s w _ len x a h hg rfl hlen hin hf hi
    obtain rfl := stlAt_w h
    have hwork := combineAll_work x a len s
    refine ⟨_, stlAt_retires h rfl (combine_retires hg hlen hin hf hi), hwork.last_retires _, hwork.last_memOutside _ hg, ?_⟩
    rintro hseq hl i t _ _ new hlt ht rfl rfl hn hlim
    obtain ⟨htile, htsw⟩ := combineAll_adds (len := len) h hf hseq (by rw [hlen, Nat.mul_add] at hin; omega) hlt ht hn hlim
    rw [lastOf_false hl, getTsw_retire]
    exact ⟨(SameTile.retire ..).mem.trans htile, htsw⟩
  case ingress =>
    rintro s w tile f row r hp rfl
    refine ⟨fun hw hq hfault new hn hlim => ?_, fun hfault => ?_⟩
    · have hwork := ingressAdd_work { w := w, size := wrenRoost s w, ctx := wrenCtx s w, ingress := true } f tile row s
      obtain ⟨htile, htsw⟩ := ingressAdd_adds hn hlim
      refine ⟨_, ?_, htile, htsw, fun i ho => hwork.mem i (by simpa using ho), hwork.only.others⟩
      show execIngressRowAdd w tile f row s = _
      simp only [execIngressRowAdd, hp, hq, hfault, Nat.not_le.2 hw]
      rfl
    · show ∃ t, execIngressRowAdd w tile f row s = _ ∧ _
      obtain ⟨e, he⟩ := Option.ne_none_iff_exists'.1 hfault
      unfold execIngressRowAdd; dsimp only
      rw [he]
      split
      · exact ⟨_, rfl, rfl, rfl⟩
      · exact ⟨_, rfl, countStl_mem .., (countStl_frame ..).fab⟩

end Sys2Proof.Machine
end

section
/-! SUPPORT. Rules of Thrush's operands (11 R214, R215): the primes of the parameter sets, runs of 64-bit elements read and written in
local SRAM, and what an operation leaves that writes one run and retires. -/

namespace Sys2Proof.Machine

/-! Parameter sets (11 R214, Table 11.1). -/

section
variable {p : Nat} {t : ThrSet} (h : thrSet p = some t)
include h

theorem thrSet_listed : p = 0 ∧ t = ⟨4096, 2, 0⟩ ∨ p = 1 ∧ t = ⟨8192, 3, 1⟩ ∨ p = 2 ∧ t = ⟨16384, 6, 2⟩ ∨ p = 3 ∧ t = ⟨32768, 12, 4⟩ := by
  match p, h with
  | 0, h | 1, h | 2, h | 3, h => cases h; simp

/-- A limb is a whole number of words. -/
theorem thrSet_words : 256 * (t.n / 256) = t.n ∧ 0 < t.n / 256 ∧ 0 < t.l := by
  rcases thrSet_listed h with ⟨-, rfl⟩ | ⟨-, rfl⟩ | ⟨-, rfl⟩ | ⟨-, rfl⟩ <;> decide

theorem thrPrime_range {l : Nat} (hl : l < t.l + t.k) :
    thrPrime p l % 2 ^ 17 = 1 ∧ thrPrime p l < 2 ^ (if p = 3 then 55 else 54) ∧ 2 ^ 53 < thrPrime p l := by
  rcases thrSet_listed h with ⟨rfl, rfl⟩ | ⟨rfl, rfl⟩ | ⟨rfl, rfl⟩ | ⟨rfl, rfl⟩ <;> revert l <;> decide

theorem thrPrime_descends {l m : Nat} (hm : m < l) (hl : l < t.l + t.k) : thrPrime p l < thrPrime p m := by
  rcases thrSet_listed h with ⟨rfl, rfl⟩ | ⟨rfl, rfl⟩ | ⟨rfl, rfl⟩ | ⟨rfl, rfl⟩ <;> revert m <;> revert l <;> decide

/-- A residue of a limb is a 64-bit word. -/
theorem thrPrime_word {l : Nat} (hl : l < t.l + t.k) : 0 < thrPrime p l ∧ thrPrime p l < 2 ^ 64 := by
  obtain ⟨-, hlt, hgt⟩ := thrPrime_range h hl
  refine ⟨by omega, Nat.lt_trans hlt ?_⟩
  split <;> decide

end

/-! Lists of elements. -/

/-- A piece lies in what `m` pieces of its length make. -/
theorem piece_in {l m n k : Nat} (hl : l < m) (h : m * n = k) : l * n + n ≤ k := by
  rw [← h, ← Nat.succ_mul]; exact Nat.mul_le_mul_right n hl

theorem getD_append_of_lt {α : Type} {as bs : List α} {k : Nat} (h : k < as.length) (d : α) : (as ++ bs).getD k d = as.getD k d := by
  rw [List.getD_eq_getElem?_getD, List.getElem?_append_left h, List.getD_eq_getElem?_getD]

theorem getD_append_of_le {α : Type} {as bs : List α} {k : Nat} (h : as.length ≤ k) (d : α) : (as ++ bs).getD k d = bs.getD (k - as.length) d := by
  rw [List.getD_eq_getElem?_getD, List.getElem?_append_right h, List.getD_eq_getElem?_getD]

/-- Pieces of one length, one after another. -/
theorem flatMap_range_getD {α : Type} {g : Nat → List α} {n m l j : Nat} (hg : ∀ l < m, (g l).length = n) (hl : l < m) (hj : j < n) (d : α) :
    ((List.range m).flatMap g).getD (l * n + j) d = (g l).getD j d := by
  induction m with
  | zero => omega
  | succ m ih =>
    have hlen : ((List.range m).flatMap g).length = m * n := by
      rw [flatMap_length_const (n := n) fun l hl => hg l (Nat.lt_succ_of_lt (List.mem_range.1 hl)), List.length_range]
    rw [List.range_succ, List.flatMap_append, List.flatMap_singleton]
    rcases Nat.lt_succ_iff_lt_or_eq.1 hl with hl | rfl
    · have hin := piece_in hl (rfl : m * n = _)
      rw [getD_append_of_lt (by omega), ih (fun l hl => hg l (Nat.lt_succ_of_lt hl)) hl]
    · rw [getD_append_of_le (by rw [hlen]; omega), hlen, Nat.add_sub_cancel_left]

theorem range_map_getD {α : Type} (g : Nat → α) {n j : Nat} (hj : j < n) (d : α) : ((List.range n).map g).getD j d = g j := by
  simp [hj]

/-- Elements as stored bytes. -/
theorem elemBytes_length (vs : List Nat) : (vs.flatMap (natLE 8)).length = 8 * vs.length := by
  rw [flatMap_length_const fun _ _ => natLE_length .., Nat.mul_comm]

theorem memWrite_append (as bs : List Byte) (m : List Host.Cell) (a : Nat) :
    memWrite m a (as ++ bs) = memWrite (memWrite m a as) (a + as.length) bs := by
  induction as generalizing m a with
  | nil => rfl
  | cons b as ih => rw [List.cons_append, memWrite, memWrite, ih, List.length_cons, Nat.add_right_comm, Nat.add_assoc]

/-- An element written to memory reads back. -/
theorem memRead_elem {vs : List Nat} {e : Nat} (he : e < vs.length) (m : List Host.Cell) (a : Nat) :
    memRead (memWrite m a (vs.flatMap (natLE 8))) (a + 8 * e) 8 = natLE 8 (vs.getD e 0) := by
  induction vs generalizing m a e with
  | nil => simp at he
  | cons v vs ih =>
    rw [List.flatMap_cons, memWrite_append, natLE_length]
    cases e with
    | zero =>
      rw [memRead_congr (m' := memWrite m a (natLE 8 v)) fun x _ _ => memGet_write_outside _ _ _ _ (by omega)]
      exact memRead_memWrite (natLE_length ..) m a
    | succ e =>
      rw [show a + 8 * (e + 1) = a + 8 + 8 * e by omega, ih (by simpa using he), List.getD_cons_succ]

/-! Operands (11 R215). -/

section
variable {s t : State} (x : Site) {w off n k m e : Nat}

theorem elemAt_congr (h : t.mem = s.mem) (w off e : Nat) : elemAt t w off e = elemAt s w off e := by unfold elemAt; rw [h]

theorem readElems_congr (h : t.mem = s.mem) (x : Site) (off n : Nat) : readElems t x off n = readElems s x off n := by unfold readElems; rw [h]

theorem readElems_eq (s : State) (off n : Nat) : readElems s x off n = (List.range (256 * n)).map (elemAt s x.w off) := rfl

theorem readElems_length (s : State) (off n : Nat) : (readElems s x off n).length = 256 * n := by simp [readElems]

theorem readElems_getD (h : e < 256 * n) : (readElems s x off n).getD e 0 = elemAt s x.w off e := range_map_getD _ h 0

/-- A slice of an operand, as one limb is. -/
theorem readElems_slice (h : k + m ≤ 256 * n) :
    ((readElems s x off n).drop k).take m = (List.range m).map fun j => elemAt s x.w off (k + j) := by
  refine List.ext_getElem ?_ fun j _ _ => ?_
  · rw [List.length_take, List.length_drop, readElems_length, List.length_map, List.length_range]; omega
  · simp [readElems_eq]

theorem writeElems_mem (off : Nat) (vs : List Nat) (s : State) :
    (writeElems x off vs s).mem = memWrite s.mem (wrenBase x.w + off) (vs.flatMap (natLE 8)) := rfl

/-- Two runs, one after the other, are one run. -/
theorem writeElems_append (off : Nat) (vs us : List Nat) (s : State) :
    writeElems x (off + 8 * vs.length) us (writeElems x off vs s) = writeElems x off (vs ++ us) s := by
  unfold writeElems writeLocal
  rw [List.flatMap_append, memWrite_append, elemBytes_length, setMem_mem, Nat.add_assoc]
  rfl

theorem writeElems_only (off : Nat) (vs : List Nat) (s : State) : StlOnly x.w s (writeElems x off vs s) := writeLocal_only ..

/-- Steps that each write their own piece after the pieces before it. -/
theorem foldl_writeElems {step : State → Nat → State} {g : Nat → List Nat} {m n off : Nat} (hg : ∀ l < m, (g l).length = n)
    (hstep : ∀ vs l, l < m → vs.length = l * n →
      step (writeElems x off vs s) l = writeElems x (off + 8 * (l * n)) (g l) (writeElems x off vs s)) :
    (List.range m).foldl step s = writeElems x off ((List.range m).flatMap g) s := by
  induction m with
  | zero => rfl
  | succ m ih =>
    have hlen : ((List.range m).flatMap g).length = m * n := by
      rw [flatMap_length_const (n := n) fun l hl => hg l (Nat.lt_succ_of_lt (List.mem_range.1 hl)), List.length_range]
    rw [List.range_succ, List.foldl_append, List.foldl_cons, List.foldl_nil, List.flatMap_append, List.flatMap_singleton,
      ih (fun l hl => hg l (Nat.lt_succ_of_lt hl)) fun vs l hl => hstep vs l (Nat.lt_succ_of_lt hl), hstep _ _ (Nat.lt_succ_self m) hlen, ← hlen,
      writeElems_append]

end

/-- What a run of elements leaves in memory, and where. -/
theorem retire_elems {x : Site} {off n : Nat} {vs : List Nat} {s u : State} (hn : 8 * vs.length = n) (hu : u.mem = (writeElems x off vs s).mem) :
    MemOutside (wrenBase x.w + off) n s (retire x u) ∧ ∀ e, e < vs.length → elemAt (retire x u) x.w off e = vs.getD e 0 % 2 ^ 64 := by
  refine ⟨(retire_written ((elemBytes_length vs).trans hn) hu).1, fun e he => ?_⟩
  have hm : (retire x u).mem = memWrite s.mem (wrenBase x.w + off) (vs.flatMap (natLE 8)) := by
    rw [retire_mem, hu, writeElems_mem]
  rw [elemAt, hm, memRead_elem he]; exact leNat_natLE 8 _

/-! Draws (11 Table 11.2, R219). -/

theorem CountOnly.free {s t : State} (h : CountOnly s t) : t.free = s.free := by rw [h]

/-- What is drawn is a function of the draws before it. -/
theorem CountOnly.drawn {s t : State} (h : CountOnly s t) (n : Nat) : (drawBytes n t).1 = (drawBytes n s).1 := by unfold drawBytes; rw [h.free]

/-- State `s` with `k` draws made. -/
def drawnState (k : Nat) (s : State) : State := { s with free := s.free + k }

@[simp] theorem drawnState_mem (k : Nat) (s : State) : (drawnState k s).mem = s.mem := rfl

theorem CountOnly.drawnState {s t : State} (h : CountOnly s t) (k : Nat) : CountOnly (drawnState k s) (drawnState k t) := by
  unfold CountOnly Machine.drawnState at *; rw [h]

/-- A Wren's work that draws is a Wren's work but for the draws. -/
theorem WrenWork.of_drawn {w k : Nat} {s t : State} (h : WrenWork w (drawnState k s) t) :
    WrenWork w s { t with free := s.free } ∧ t.free = s.free + k := by
  obtain ⟨hix, hl, hb, hsr, ha, ho, hf, hp, ht⟩ := h
  exact ⟨⟨hix, hl, hb, hsr, ha, ho, hf, hp, congrArg (fun v : State => { v with free := s.free }) ht⟩, by rw [ht]; rfl⟩

/-! Where a Wren stands at a Thrush instruction, and where it stands after (09 Table 9.7, R175). -/

section
variable {s : State} {w op : Nat} {x : Site} {i : ThrIns} (h : ThrAt s w op x i)
include h

theorem thrAt_w : x.w = w := h.stands.w_eq

/-- The fields that the instruction reads are those of the statement. -/
theorem thrAt_settles {c : Instr} {body : Site → ThrIns → State → WOut} (hc : exec c s = .next (runInsn 5 op (thrIns body) w s)) :
    exec c s = .next (settle x s (body x i s)) := by
  have hi : ({ a := x.sr s 20, b := x.sr s 25, d := x.sr s 30, p := bits x.insn 35 4, t := i.t, len := bits x.insn 39 12 } : ThrIns) = i := by
    rw [Site.sr, Site.sr, Site.sr, thrAt_w h, ← h.a, ← h.b, ← h.d, ← h.pset, ← h.len]
  have hset : thrSet (bits x.insn 35 4) = some i.t := by rw [← h.pset, h.set]
  rw [hc, runInsn_stands h.stands, thrIns]
  simp only [hset, hi]

/-- An operation that waits for nothing, writes one run of elements at `off` after `draws` draws, and retires. -/
theorem thrAt_writes {c : Instr} {body : Site → ThrIns → State → WOut} {reads writes : List (Nat × Nat)} {k : State → WOut} {draws off n : Nat}
    {vs : List Nat} (hc : exec c s = .next (runInsn 5 op (thrIns body) w s)) (hb : body x i s = thrRun x reads writes s k)
    (hi : interlocked (getWren s w) reads writes = false) (hn : 8 * vs.length = n)
    (hk : ∀ b, CountOnly s b → ∃ u, k b = .retire u ∧ CountOnly (writeElems x off vs (drawnState draws b)) u) :
    ∃ t, exec c s = .next t ∧ WrenWork w (drawnState draws s) t ∧ MemOutside (wrenBase w + off) n s t ∧
      ∀ e, e < vs.length → elemAt t w off e = vs.getD e 0 % 2 ^ 64 := by
  obtain rfl := thrAt_w h
  have hlines := countLines_frame x (reads.foldl (fun n r => n + r.2) 0) (writes.foldl (fun n r => n + r.2) 0) s
  obtain ⟨u, hu, hcount⟩ := hk _ hlines
  have honly := (((hlines.drawnState draws).stlOnly x.w).trans (writeElems_only x off vs _)).trans (hcount.stlOnly x.w)
  have hmem : u.mem = (writeElems x off vs s).mem := by
    rw [hcount.mem, writeElems_mem, writeElems_mem, drawnState_mem, hlines.mem]
  refine ⟨retire x u, ?_, honly.retires, retire_elems hn hmem⟩
  rw [thrAt_settles h hc, hb, thrRun, hi, if_neg (by simp), hu, settle]

end

end Sys2Proof.Machine
end

section
/-! Thrush's instructions (11 R214 to R219): what each computes at its site and writes to D. -/

namespace Sys2Proof.Machine

/-! Elementwise operations (11 Table 11.2). -/

/-- The results of an elementwise operation: an operand that the operation does not name is read as A. -/
def wordResults (useB useD : Bool) (f : Nat → Nat → Nat → Nat → Nat) (x : Site) (i : ThrIns) (s : State) : List Nat :=
  (List.range (256 * i.len)).map fun e => f (i.q e) (elemAt s x.w i.a e)
    (if useB then elemAt s x.w i.b e else elemAt s x.w i.a e) (if useD then elemAt s x.w i.d e else elemAt s x.w i.a e)

theorem wordResults_length (useB useD : Bool) (f : Nat → Nat → Nat → Nat → Nat) (x : Site) (i : ThrIns) (s : State) :
    (wordResults useB useD f x i s).length = 256 * i.len := by rw [wordResults, List.length_map, List.length_range]

theorem wordResults_zip (f : Nat → Nat → Nat → Nat → Nat) (x : Site) (i : ThrIns) (s : State) (useB useD : Bool) :
    (((readElems s x i.a i.len).zip ((if useB then readElems s x i.b i.len else readElems s x i.a i.len).zip
      (if useD then readElems s x i.d i.len else readElems s x i.a i.len))).zipIdx).map (fun e => f (i.q e.2) e.1.1 e.1.2.1 e.1.2.2) =
    wordResults useB useD f x i s := by
  have hread (c : Bool) (o : Nat) : (if c then readElems s x o i.len else readElems s x i.a i.len) =
      (List.range (256 * i.len)).map fun e => if c then elemAt s x.w o e else elemAt s x.w i.a e := by cases c <;> rfl
  rw [hread, hread]
  refine List.ext_getElem (by simp [wordResults, readElems_length]) fun e _ _ => ?_
  simp [wordResults, readElems_eq]

theorem thrWords_runs {useB useD : Bool} {x : Site} {i : ThrIns} (ha : opOk x i.a i.len = true) (hd : opOk x i.d i.len = true)
    (had : opsApart (wordRange i.a i.len) (wordRange i.d i.len) = true)
    (hb : useB = true → opOk x i.b i.len = true ∧ opsApart (wordRange i.a i.len) (wordRange i.b i.len) = true ∧
      opsApart (wordRange i.b i.len) (wordRange i.d i.len) = true) (f : Nat → Nat → Nat → Nat → Nat) (s : State) :
    thrWords useB useD f x i s = thrRun x
      (wordRange i.a i.len :: (if useB then [wordRange i.b i.len] else []) ++ if useD then [wordRange i.d i.len] else [])
      [wordRange i.d i.len] s fun b => .retire (countWords x i.len (writeElems x i.d (wordResults useB useD f x i b) b)) := by
  have hB : (useB && !opOk x i.b i.len) = false ∧
      (useB && (!opsApart (wordRange i.a i.len) (wordRange i.b i.len) || !opsApart (wordRange i.b i.len) (wordRange i.d i.len))) = false := by
    cases useB with
    | false => exact ⟨rfl, rfl⟩
    | true => obtain ⟨h1, h2, h3⟩ := hb rfl; simp [h1, h2, h3]
  simp only [thrWords, ha, hd, had, hB, Bool.not_true, Bool.or_self, Bool.false_eq_true, if_false, wordResults_zip]

/-- An elementwise row computes `f` of the operands it names where its effect `g` agrees with `f` and is a residue. -/
theorem thrRule_of {c : Nat → Instr} {op : Nat} {useB useD : Bool} {ok : ThrIns → Prop} {f g : ThrIns → Nat → Nat → Nat → Nat → Nat}
    {body : Site → ThrIns → State → WOut} (hc : ∀ w s, exec (c w) s = .next (runInsn 5 op (thrIns body) w s))
    (hbody : ∀ x i s, ok i → body x i s = thrWords useB useD (g i) x i s)
    (hg : ∀ i q a b d, 0 < q → g i q a (if useB then b else a) (if useD then d else a) = f i q a b d ∧ f i q a b d < q) :
    ThrRule c op useB useD ok f := by
  intro s w x i h hok ha hd had hb hi
  obtain rfl := thrAt_w h
  obtain ⟨t, ht, hwork, hout, helem⟩ := thrAt_writes (draws := 0) (off := i.d) (n := 2048 * i.len) (vs := wordResults useB useD (g i) x i s) h (hc _ s)
    ((hbody x i s hok).trans (thrWords_runs ha hd had hb _ s)) hi (by rw [wordResults_length]; omega) fun b hb => ⟨_, rfl, by
      rw [show wordResults useB useD (g i) x i s = wordResults useB useD (g i) x i b by simp only [wordResults, elemAt_congr hb.mem]]
      exact count_frame ..⟩
  refine ⟨t, ht, hwork, hout, fun e he => ?_⟩
  obtain ⟨hpos, hword⟩ := thrPrime_word h.set (Nat.mod_lt (e / i.t.n) (by have := (thrSet_words h.set).2.2; omega))
  obtain ⟨hval, hlt⟩ := hg i (thrPrime i.p (e / i.t.n % (i.t.l + i.t.k))) (elemAt s x.w i.a e) (elemAt s x.w i.b e) (elemAt s x.w i.d e) hpos
  rw [helem e (by rwa [wordResults_length]), wordResults, range_map_getD _ he, ← hval]
  exact Nat.mod_eq_of_lt (hval ▸ Nat.lt_trans hlt hword)

/-! The effects modulo q: reducing the operands first (R215) changes no result. -/

theorem modSub_eq {q : Nat} (hq : 0 < q) (a b d : Nat) : modSub q a b d = (((a : Int) - b) % q).toNat := by
  have hb : b % q ≤ q := Nat.le_of_lt (Nat.mod_lt b hq)
  have hdiff : (a % q : Int) + (q - b % q) = a - b + q * (1 + b / q - a / q) := by
    rw [Int.emod_def, Int.emod_def, Int.mul_sub, Int.mul_add, Int.mul_one]; omega
  rw [← Int.natCast_inj, Int.toNat_of_nonneg (Int.emod_nonneg _ (by omega)), modSub]
  rw [Int.natCast_emod, Int.natCast_add, Int.natCast_sub hb, Int.natCast_emod, Int.natCast_emod, hdiff, Int.add_mul_emod_self_left]

theorem modSub_lt {q : Nat} (hq : 0 < q) (a b : Nat) : (((a : Int) - b) % q).toNat < q := by
  have := Int.emod_lt_of_pos ((a : Int) - b) (show (0 : Int) < q by omega)
  omega

theorem modMul_eq (q a b d : Nat) : modMul q a b d = a * b % q := (Nat.mul_mod a b q).symm
theorem modScale_eq (k q a b d : Nat) : modScale k q a b d = a * k % q := (Nat.mul_mod a k q).symm
theorem modMac_eq (q a b d : Nat) : modMac q a b d = (d + a * b) % q := by simp [modMac, Nat.add_mod, Nat.mul_mod]
theorem modLift_eq (delta lt q a b d : Nat) : modLift delta lt q a b d = (d + delta * (a % q % 2 ^ lt)) % q := by
  simp [modLift, Nat.add_mod, Nat.mul_mod]

theorem thrDelta_eq (p : Nat) (t : ThrSet) (lt : Nat) : thrDelta p t lt = ((List.range t.l).map (thrPrime p)).prod / 2 ^ lt := by
  rw [thrDelta, List.prod_eq_foldl]

/-! NTT and INTT (11 R215, Table 11.2). -/

section
variable {x : Site} {i : ThrIns} {s : State}

theorem ThrIns.lw_eq (i : ThrIns) : i.lw = i.t.n / 256 := rfl

/-- The words of whole limbs. -/
theorem limb_elems (hset : thrSet i.p = some i.t) (hlen : i.len % (i.t.n / 256) = 0) : i.len / (i.t.n / 256) * i.t.n = 256 * i.len := by
  have hw := (thrSet_words hset).1
  calc i.len / (i.t.n / 256) * i.t.n = i.len / (i.t.n / 256) * (256 * (i.t.n / 256)) := by rw [hw]
    _ = 256 * (i.t.n / 256 * (i.len / (i.t.n / 256))) := by rw [Nat.mul_left_comm, Nat.mul_comm (i.len / _)]
    _ = 256 * i.len := by rw [Nat.mul_div_cancel' (Nat.dvd_of_mod_eq_zero hlen)]

/-- A value of a limb's transform. -/
def limbTransform (inv : Bool) (t : ThrSet) (q psi : Nat) (cs : List Nat) (j : Nat) : Nat := if inv then inttAt t q psi cs j else nttAt t q psi cs j

theorem foldl_mod_lt {α : Type} {q : Nat} (hq : 0 < q) (g : Nat → α → Nat) (l : List α) : l.foldl (fun a e => g a e % q) 0 < q :=
  List.foldlRecOn l _ (motive := (· < q)) hq fun _ _ _ _ => Nat.mod_lt _ hq

theorem limbTransform_lt (inv : Bool) (t : ThrSet) {q : Nat} (hq : 0 < q) (psi : Nat) (cs : List Nat) (j : Nat) : limbTransform inv t q psi cs j < q := by
  cases inv with
  | false => exact foldl_mod_lt hq ..
  | true => exact Nat.mod_lt _ hq

/-- The limbs' transforms, one after another. -/
def transformResults (inv : Bool) (x : Site) (i : ThrIns) (s : State) : List Nat :=
  (List.range (i.len / i.lw)).flatMap fun l => (List.range i.t.n).map fun j =>
    limbTransform inv i.t (i.q (l * i.t.n)) (Config.thrRoot i.p (i.limb (l * i.t.n))) (((readElems s x i.a i.len).drop (l * i.t.n)).take i.t.n) j

theorem thrTransform_runs (hlen : i.len % (i.t.n / 256) = 0) (ha : opOk x i.a i.len = true) (hd : opOk x i.d i.len = true)
    (had : opsApart (wordRange i.a i.len) (wordRange i.d i.len) = true) (inv : Bool) :
    thrTransform inv x i s = thrRun x [wordRange i.a i.len] [wordRange i.d i.len] s fun b =>
      .retire (countLimbs x (i.len / i.lw) (writeElems x i.d (transformResults inv x i b) b)) := by
  have hlen' : i.len % i.lw = 0 := hlen
  simp [thrTransform, hlen', ha, hd, had, transformResults, limbTransform]

theorem transformResults_getD (hset : thrSet i.p = some i.t) (hlen : i.len % (i.t.n / 256) = 0) (inv : Bool) {l j : Nat}
    (hl : l < i.len / (i.t.n / 256)) (hj : j < i.t.n) : (transformResults inv x i s).getD (l * i.t.n + j) 0 =
      limbTransform inv i.t (thrPrime i.p (l % (i.t.l + i.t.k))) (Config.thrRoot i.p (l % (i.t.l + i.t.k)))
        ((List.range i.t.n).map fun k => elemAt s x.w i.a (l * i.t.n + k)) j := by
  have hlimb : i.limb (l * i.t.n) = l % (i.t.l + i.t.k) := by rw [ThrIns.limb, Nat.mul_div_cancel _ (by omega)]
  rw [transformResults, i.lw_eq, flatMap_range_getD (fun _ _ => by simp) hl hj, range_map_getD _ hj, ThrIns.q, hlimb,
    readElems_slice x (piece_in hl (limb_elems hset hlen))]

end

/-- NTT and INTT write the transform of each limb. -/
theorem transform_writes {s : State} {w op : Nat} {x : Site} {i : ThrIns} {c : Instr} (inv : Bool) (h : ThrAt s w op x i)
    (hc : exec c s = .next (runInsn 5 op (thrIns (thrTransform inv)) w s)) (hlen : i.len % (i.t.n / 256) = 0) (ha : opOk x i.a i.len = true)
    (hd : opOk x i.d i.len = true) (had : opsApart (wordRange i.a i.len) (wordRange i.d i.len) = true)
    (hi : interlocked (getWren s w) [wordRange i.a i.len] [wordRange i.d i.len] = false) :
    ∃ t, exec c s = .next t ∧ WrenWork w s t ∧ MemOutside (wrenBase w + i.d) (2048 * i.len) s t ∧
      ∀ l j, l < i.len / (i.t.n / 256) → j < i.t.n → elemAt t w i.d (l * i.t.n + j) =
        limbTransform inv i.t (thrPrime i.p (l % (i.t.l + i.t.k))) (Config.thrRoot i.p (l % (i.t.l + i.t.k)))
          ((List.range i.t.n).map fun k => elemAt s w i.a (l * i.t.n + k)) j := by
  obtain rfl := thrAt_w h
  have hsize := limb_elems h.set hlen
  have hres : (transformResults inv x i s).length = i.len / (i.t.n / 256) * i.t.n := by
    rw [transformResults, flatMap_length_const (n := i.t.n) (by simp), List.length_range]; rfl
  obtain ⟨t, ht, hwork, hout, helem⟩ := thrAt_writes (draws := 0) (off := i.d) (n := 2048 * i.len) (vs := transformResults inv x i s) h hc
    (thrTransform_runs hlen ha hd had inv) hi (by omega) fun b hb => ⟨_, rfl, by
      rw [show transformResults inv x i s = transformResults inv x i b by simp only [transformResults, readElems_congr hb.mem]]
      exact count_frame ..⟩
  refine ⟨t, ht, hwork, hout, fun l j hl hj => ?_⟩
  obtain ⟨hpos, hword⟩ := thrPrime_word h.set (Nat.mod_lt l (by have := (thrSet_words h.set).2.2; omega))
  rw [helem _ (by have := piece_in hl hsize; omega), transformResults_getD h.set hlen inv hl hj]
  exact Nat.mod_eq_of_lt (Nat.lt_trans (limbTransform_lt inv i.t hpos _ _ j) hword)

/-! SAMPLE (11 Table 11.2). -/

/-- The values of a draw. -/
def sampleResults (i : ThrIns) (s : State) : List Nat :=
  (List.range (256 * i.len)).map fun e => field (drawBytes (2048 * i.len) s).1 (8 * e) 8 % 2 ^ (i.b % 64)

theorem sampleResults_length (i : ThrIns) (s : State) : (sampleResults i s).length = 256 * i.len := by
  rw [sampleResults, List.length_map, List.length_range]

theorem insSample_runs {x : Site} {i : ThrIns} {s : State} (hk : i.b % 64 ≤ 48) (hd : opOk x i.d i.len = true) :
    insSample x i s = thrRun x [] [wordRange i.d i.len] s fun b =>
      .retire (countWords x i.len (writeElems x i.d (sampleResults i b) (drawnState 1 b))) := by
  have hk' : ¬ 48 < i.b % 64 := by omega
  simp only [insSample, hk', hd, decide_false, Bool.not_true, Bool.or_self, Bool.false_eq_true, if_false]
  rfl

theorem sample_writes {s : State} {w : Nat} {x : Site} {i : ThrIns} (h : ThrAt s w 9 x i) (hk : i.b % 64 ≤ 48) (hd : opOk x i.d i.len = true)
    (hi : interlocked (getWren s w) [] [wordRange i.d i.len] = false) :
    ∃ t, exec (.sample w) s = .next t ∧ WrenWork w (drawnState 1 s) t ∧ MemOutside (wrenBase w + i.d) (2048 * i.len) s t ∧
      ∀ e, e < 256 * i.len → elemAt t w i.d e < 2 ^ (i.b % 64) := by
  obtain ⟨t, ht, hwork, hout, helem⟩ := thrAt_writes (c := .sample w) (draws := 1) (off := i.d) (n := 2048 * i.len) (vs := sampleResults i s) h rfl
    (insSample_runs hk hd) hi (by rw [sampleResults_length]; omega) fun b hb => ⟨_, rfl, by
      rw [show sampleResults i s = sampleResults i b by simp only [sampleResults, hb.drawn]]
      exact count_frame ..⟩
  refine ⟨t, ht, hwork, hout, fun e he => ?_⟩
  rw [helem e (by rwa [sampleResults_length]), sampleResults, range_map_getD _ he]
  exact Nat.lt_of_le_of_lt (Nat.mod_le ..) (Nat.mod_lt _ (Nat.two_pow_pos _))

/-! MODSW (11 Table 11.2). -/

/-- The residues of one polynomial's coefficients after its top `d` of `m` limbs are dropped, limb after limb. -/
def modswResults (m d : Nat) (x : Site) (i : ThrIns) (s : State) : List Nat :=
  (List.range (m - d)).flatMap fun l => (List.range i.t.n).map fun c =>
    (dropLimbs i.p m d ((List.range m).map fun j => (readElems s x i.a i.len).getD (j * i.t.n + c) 0)).getD l 0

theorem insModsw_runs {x : Site} {i : ThrIns} {s : State} {m d : Nat} (hset : thrSet i.p = some i.t) (hm : i.len = m * (i.t.n / 256)) (hd : d = i.b % 32)
    (hdm : d < m) (hml : m ≤ i.t.l + i.t.k) (ha : opOk x i.a i.len = true) (hdo : opOk x i.d ((m - d) * (i.t.n / 256)) = true)
    (had : opsApart (wordRange i.a i.len) (wordRange i.d ((m - d) * (i.t.n / 256))) = true) :
    insModsw x i s = thrRun x [wordRange i.a i.len] [wordRange i.d ((m - d) * (i.t.n / 256))] s fun b =>
      .retire (countWords x i.len (writeElems x i.d (modswResults m d x i b) b)) := by
  obtain ⟨hw, hpos, -⟩ := thrSet_words hset
  rw [← i.lw_eq] at hw hpos hm hdo had
  have hcount : i.len / i.lw = m := by rw [hm, Nat.mul_div_cancel _ hpos]
  have hle : i.len ≤ (i.t.l + i.t.k) * i.lw := hm ▸ Nat.mul_le_mul_right _ hml
  have hm0 : m ≠ 0 := by omega
  have hlen0 : i.len ≠ 0 := by rw [hm]; exact Nat.mul_ne_zero hm0 (Nat.ne_of_gt hpos)
  have hone : i.len / (m * i.lw) = 1 := by rw [← hm]; exact Nat.div_self (by omega)
  have hmod : i.len % i.lw = 0 := by rw [hm, Nat.mul_mod_left]
  have hmod' : i.len % (m * i.lw) = 0 := by rw [← hm, Nat.mod_self]
  have hnot : ¬ m ≤ d := by omega
  simp only [insModsw, ← hd, ← i.lw_eq, if_pos hle, hcount, hm0, hlen0, hone, hmod, hmod', hnot, ha, hdo, had, Nat.one_mul, false_and, if_false, ne_eq,
    not_true_eq_false, decide_false, Bool.not_true, Bool.or_self, Bool.false_eq_true]
  simp only [modswResults, List.range_one, List.flatMap_singleton, List.map_map, Nat.zero_mul, Nat.zero_add, Function.comp_def]

/-- The residues that are left lie below their limbs' primes. -/
theorem dropLimbs_getD {p m d l : Nat} (hl : l < m - d) (hq : 0 < thrPrime p l) (rs : List Nat) : (dropLimbs p m d rs).getD l 0 < thrPrime p l := by
  rw [dropLimbs, range_map_getD _ hl]; exact Nat.mod_lt _ hq

theorem modsw_writes {s : State} {w m d : Nat} {x : Site} {i : ThrIns} (h : ThrAt s w 0xA x i) (hm : i.len = m * (i.t.n / 256)) (hd : d = i.b % 32)
    (hdm : d < m) (hml : m ≤ i.t.l + i.t.k) (ha : opOk x i.a i.len = true) (hdo : opOk x i.d ((m - d) * (i.t.n / 256)) = true)
    (had : opsApart (wordRange i.a i.len) (wordRange i.d ((m - d) * (i.t.n / 256))) = true)
    (hi : interlocked (getWren s w) [wordRange i.a i.len] [wordRange i.d ((m - d) * (i.t.n / 256))] = false) :
    ∃ t, exec (.modsw w) s = .next t ∧ WrenWork w s t ∧ MemOutside (wrenBase w + i.d) (2048 * ((m - d) * (i.t.n / 256))) s t ∧
      ∀ l c, l < m - d → c < i.t.n → elemAt t w i.d (l * i.t.n + c) =
        (dropLimbs i.p m d ((List.range m).map fun j => elemAt s w i.a (j * i.t.n + c))).getD l 0 := by
  obtain rfl := thrAt_w h
  obtain ⟨hw, -, -⟩ := thrSet_words h.set
  have hsize (k : Nat) : k * i.t.n = 256 * (k * (i.t.n / 256)) := by rw [Nat.mul_left_comm, hw]
  have hres : (modswResults m d x i s).length = (m - d) * i.t.n := by
    rw [modswResults, flatMap_length_const (n := i.t.n) (by simp), List.length_range]
  obtain ⟨t, ht, hwork, hout, helem⟩ := thrAt_writes (c := .modsw x.w) (draws := 0) (off := i.d) (n := 2048 * ((m - d) * (i.t.n / 256)))
    (vs := modswResults m d x i s) h rfl (insModsw_runs h.set hm hd hdm hml ha hdo had) hi (by rw [hres, hsize]; omega) fun b hb => ⟨_, rfl, by
      rw [show modswResults m d x i s = modswResults m d x i b by simp only [modswResults, readElems_congr hb.mem]]
      exact count_frame ..⟩
  refine ⟨t, ht, hwork, hout, fun l c hl hc => ?_⟩
  have hcol : ((List.range m).map fun j => (readElems s x i.a i.len).getD (j * i.t.n + c) 0) =
      (List.range m).map fun j => elemAt s x.w i.a (j * i.t.n + c) := List.map_congr_left fun j hj => by
    have hlimb := piece_in (List.mem_range.1 hj) (show m * i.t.n = 256 * i.len by rw [hsize, hm])
    rw [readElems_getD x (by omega)]
  obtain ⟨hpos, hword⟩ := thrPrime_word h.set (show l < i.t.l + i.t.k by omega)
  rw [helem _ (by have := piece_in hl hres.symm; omega), modswResults, flatMap_range_getD (fun _ _ => by simp) hl hc, range_map_getD _ hc, hcol]
  exact Nat.mod_eq_of_lt (Nat.lt_trans (dropLimbs_getD hl hpos _) hword)

/-! EXTRACT (11 Table 11.2). -/

theorem lweOf_length (n q : Nat) (c0 c1 : List Nat) (k : Nat) : (lweOf n q c0 c1 k).length = n + 1 := by simp [lweOf]

theorem lweOf_getD {n q e : Nat} (hq : 0 < q) (he : e ≤ n) (c0 c1 : List Nat) (k : Nat) : (lweOf n q c0 c1 k).getD e 0 < q := by
  rw [lweOf]
  rcases Nat.lt_or_eq_of_le he with he | rfl
  · rw [getD_append_of_lt (by rwa [List.length_map, List.length_range]), range_map_getD _ he]
    split <;> exact Nat.mod_lt _ hq
  · rw [getD_append_of_le (Nat.le_of_eq (by rw [List.length_map, List.length_range])), List.length_map, List.length_range, Nat.sub_self]
    exact Nat.mod_lt _ hq

/-- The records of `cnt` coefficients from `first`, one after another. -/
def extractResults (first cnt : Nat) (x : Site) (i : ThrIns) (s : State) : List Nat :=
  (List.range cnt).flatMap fun k => lweOf i.t.n (thrPrime i.p 0) ((readElems s x i.a i.len).take i.t.n) ((readElems s x i.a i.len).drop i.t.n) (first + k)

theorem insExtract_runs {x : Site} {i : ThrIns} {s : State} {first cnt : Nat} (hset : thrSet i.p = some i.t) (hf : first = i.b % 65536)
    (hc : cnt = i.b / 65536 % 65536) (hc0 : cnt ≠ 0) (hn : first + cnt ≤ i.t.n) (hlen : i.len = 2 * (i.t.n / 256)) (ha : opOk x i.a i.len = true)
    (hd : i.d % 2048 = 0) (hin : i.d + cnt * (i.t.n + 1) * 8 ≤ x.prog.wsize)
    (had : overlaps (wordRange i.a i.len) (i.d, cnt * (i.t.n + 1) * 8) = false) :
    insExtract x i s = thrRun x [wordRange i.a i.len] [(i.d, cnt * (i.t.n + 1) * 8)] s fun b =>
      .retire (countWords x i.len (writeElems x i.d (extractResults first cnt x i b) b)) := by
  have hlen0 : i.len ≠ 0 := by have := (thrSet_words hset).2.1; omega
  have hlen' : (i.len != 2 * (i.t.n / 256)) = false := by simp [hlen]
  have hw : inWork x.prog i.d (cnt * (i.t.n + 1) * 8) = true := (inWork_iff _ _ _).2 (.inr hin)
  have hn' : ¬ i.t.n < first + cnt := by omega
  simp only [insExtract, i.lw_eq, ← hf, ← hc, hc0, hlen', hlen0, hn', ha, hd, hw, had, bne_self_eq_false, Bool.and_false, decide_false, Bool.not_true,
    Bool.or_self, Bool.false_eq_true, if_false]
  rfl

theorem extract_writes {s : State} {w first cnt : Nat} {x : Site} {i : ThrIns} (h : ThrAt s w 0xC x i) (hf : first = i.b % 65536)
    (hc : cnt = i.b / 65536 % 65536) (hc0 : cnt ≠ 0) (hn : first + cnt ≤ i.t.n) (hlen : i.len = 2 * (i.t.n / 256)) (ha : opOk x i.a i.len = true)
    (hd : i.d % 2048 = 0) (hin : i.d + cnt * (i.t.n + 1) * 8 ≤ x.prog.wsize)
    (had : overlaps (wordRange i.a i.len) (i.d, cnt * (i.t.n + 1) * 8) = false)
    (hi : interlocked (getWren s w) [wordRange i.a i.len] [(i.d, cnt * (i.t.n + 1) * 8)] = false) :
    ∃ t, exec (.extract w) s = .next t ∧ WrenWork w s t ∧ MemOutside (wrenBase w + i.d) (cnt * (i.t.n + 1) * 8) s t ∧
      ∀ k e, k < cnt → e ≤ i.t.n → elemAt t w i.d (k * (i.t.n + 1) + e) = (lweOf i.t.n (thrPrime i.p 0)
        ((List.range i.t.n).map fun j => elemAt s w i.a j) ((List.range i.t.n).map fun j => elemAt s w i.a (i.t.n + j)) (first + k)).getD e 0 := by
  obtain rfl := thrAt_w h
  obtain ⟨hw, -, hl⟩ := thrSet_words h.set
  have hres : (extractResults first cnt x i s).length = cnt * (i.t.n + 1) := by
    rw [extractResults, flatMap_length_const fun _ _ => lweOf_length .., List.length_range]
  have hc0 : (readElems s x i.a i.len).take i.t.n = (List.range i.t.n).map fun j => elemAt s x.w i.a j := by
    have := readElems_slice (s := s) x (off := i.a) (n := i.len) (k := 0) (m := i.t.n) (by omega)
    simpa using this
  have hc1 : (readElems s x i.a i.len).drop i.t.n = (List.range i.t.n).map fun j => elemAt s x.w i.a (i.t.n + j) := by
    rw [← readElems_slice x (show i.t.n + i.t.n ≤ 256 * i.len by omega), List.take_of_length_le]
    rw [List.length_drop, readElems_length]; omega
  obtain ⟨t, ht, hwork, hout, helem⟩ := thrAt_writes (c := .extract x.w) (draws := 0) (off := i.d) (n := cnt * (i.t.n + 1) * 8)
    (vs := extractResults first cnt x i s) h rfl (insExtract_runs h.set hf hc ‹_› hn hlen ha hd hin had) hi (by rw [hres]; omega) fun b hb => ⟨_, rfl, by
      rw [show extractResults first cnt x i s = extractResults first cnt x i b by simp only [extractResults, readElems_congr hb.mem]]
      exact count_frame ..⟩
  refine ⟨t, ht, hwork, hout, fun k e hk he => ?_⟩
  obtain ⟨hpos, hword⟩ := thrPrime_word h.set (show 0 < i.t.l + i.t.k by omega)
  have he' : e < i.t.n + 1 := by omega
  rw [helem _ (by have := piece_in hk hres.symm; omega), extractResults, flatMap_range_getD (fun _ _ => lweOf_length ..) hk he', hc0, hc1]
  exact Nat.mod_eq_of_lt (Nat.lt_trans (lweOf_getD hpos he _ _ _) hword)

/-! PDEC (11 R219). -/

/-- The smudging noise of a draw: uniform in [−2^σ, 2^σ). -/
def smudge (sig n : Nat) (s : State) : List Int :=
  (List.range n).map fun k => ((field (drawBytes (8 * n) s).1 (8 * k) 8 % 2 ^ (sig + 1) : Nat) : Int) - (2 ^ sig : Nat)

theorem smudge_bounds {sig n : Nat} {s : State} : ∀ e ∈ smudge sig n s, -(2 : Int) ^ sig ≤ e ∧ e < (2 : Int) ^ sig := by
  intro e he
  obtain ⟨k, -, rfl⟩ := List.mem_map.1 he
  have hlt := Nat.mod_lt (field (drawBytes (8 * n) s).1 (8 * k) 8) (Nat.two_pow_pos (sig + 1))
  rw [Nat.pow_succ] at hlt
  have hpow : ((2 ^ sig : Nat) : Int) = (2 : Int) ^ sig := Int.natCast_pow 2 sig
  omega

theorem pdecLimb_length (n q : Nat) (c0 c1 : List Nat) (seed : List Byte) (es : List Int) : (pdecLimb n q c0 c1 seed es).length = n := by simp [pdecLimb]

theorem pdecLimb_getD {n q k : Nat} (hq : 0 < q) (hk : k < n) (c0 c1 : List Nat) (seed : List Byte) (es : List Int) :
    (pdecLimb n q c0 c1 seed es).getD k 0 < q := by
  rw [pdecLimb, range_map_getD _ hk]
  have := Int.emod_lt_of_pos (((c0.getD k 0 % q + negaMul n q c1 ((List.range n).map fun i => shareCoeff seed i % q) k : Nat) : Int) + es.getD k 0)
    (show (0 : Int) < q by omega)
  omega

/-- What PDEC writes, limb after limb. -/
def pdecResults (seed : List Byte) (x : Site) (i : ThrIns) (es : List Int) (s : State) : List Nat :=
  (List.range (i.len / (i.t.n / 256))).flatMap fun l => pdecLimb i.t.n (i.q (l * i.t.n))
    (((readElems s x (i.a + 2048 * i.len) i.len).drop (l * i.t.n)).take i.t.n) (((readElems s x i.a i.len).drop (l * i.t.n)).take i.t.n) seed es

theorem insPdec_runs {x : Site} {i : ThrIns} {s : State} {sig : Nat} {v : KSlot} {key : Key} (hlen : i.len % (i.t.n / 256) = 0)
    (hs : sig = i.b / 256 % 256) (hlo : 20 ≤ sig) (hhi : sig ≤ 60) (ha : opOk x i.a (2 * i.len) = true) (hd : opOk x i.d i.len = true)
    (h1 : opsApart (wordRange i.a i.len) (wordRange i.d i.len) = true)
    (h0 : opsApart (wordRange (i.a + 2048 * i.len) i.len) (wordRange i.d i.len) = true) (hv : nameSlot s x.run.ctx (i.b % 256) = .ok v)
    (hb : v.bound = false) (hk : keyUse v none 0x208 [7] = .ok key) :
    insPdec x i s = thrRun x [wordRange i.a i.len, wordRange (i.a + 2048 * i.len) i.len] [wordRange i.d i.len] s fun b =>
      .retire (count x.run.ctx 5 0 0x35 (i.len / (i.t.n / 256))
        (writeElems x i.d (pdecResults key.material x i (smudge sig i.t.n b) b) (drawnState 1 b))) := by
  have hlo' : ¬ sig < 20 := by omega
  have hhi' : ¬ 60 < sig := by omega
  simp only [insPdec, i.lw_eq, ← hs, hlen, hlo', hhi', ha, hd, h1, h0, hv, hb, hk, ne_eq, not_true_eq_false, decide_false, Bool.not_true, Bool.or_self,
    Bool.false_eq_true, if_false]
  rfl

theorem pdec_writes {s : State} {w sig : Nat} {x : Site} {i : ThrIns} {v : KSlot} {key : Key} (h : ThrAt s w 0xD x i) (hlen : i.len % (i.t.n / 256) = 0)
    (hs : sig = i.b / 256 % 256) (hlo : 20 ≤ sig) (hhi : sig ≤ 60) (ha : opOk x i.a (2 * i.len) = true) (hd : opOk x i.d i.len = true)
    (h1 : opsApart (wordRange i.a i.len) (wordRange i.d i.len) = true)
    (h0 : opsApart (wordRange (i.a + 2048 * i.len) i.len) (wordRange i.d i.len) = true) (hv : nameSlot s x.run.ctx (i.b % 256) = .ok v)
    (hb : v.bound = false) (hk : keyUse v none 0x208 [7] = .ok key)
    (hi : interlocked (getWren s w) [wordRange i.a i.len, wordRange (i.a + 2048 * i.len) i.len] [wordRange i.d i.len] = false) :
    ∃ t, exec (.pdec w) s = .next t ∧ WrenWork w (drawnState 1 s) t ∧ MemOutside (wrenBase w + i.d) (2048 * i.len) s t ∧
      ∀ l k, l < i.len / (i.t.n / 256) → k < i.t.n → elemAt t w i.d (l * i.t.n + k) = (pdecLimb i.t.n (thrPrime i.p (l % (i.t.l + i.t.k)))
        ((List.range i.t.n).map fun j => elemAt s w (i.a + 2048 * i.len) (l * i.t.n + j)) ((List.range i.t.n).map fun j => elemAt s w i.a (l * i.t.n + j))
        key.material (smudge sig i.t.n s)).getD k 0 := by
  obtain rfl := thrAt_w h
  have hsize := limb_elems h.set hlen
  have hres : (pdecResults key.material x i (smudge sig i.t.n s) s).length = i.len / (i.t.n / 256) * i.t.n := by
    rw [pdecResults, flatMap_length_const fun _ _ => pdecLimb_length .., List.length_range]
  obtain ⟨t, ht, hwork, hout, helem⟩ := thrAt_writes (c := .pdec x.w) (draws := 1) (off := i.d) (n := 2048 * i.len)
    (vs := pdecResults key.material x i (smudge sig i.t.n s) s) h rfl (insPdec_runs hlen hs hlo hhi ha hd h1 h0 hv hb hk) hi (by omega)
    fun b hb => ⟨_, rfl, by
      rw [show pdecResults key.material x i (smudge sig i.t.n s) s = pdecResults key.material x i (smudge sig i.t.n b) b by
        simp only [pdecResults, smudge, readElems_congr hb.mem, hb.drawn]]
      exact count_frame ..⟩
  refine ⟨t, ht, hwork, hout, fun l k hl hk => ?_⟩
  obtain ⟨hpos, hword⟩ := thrPrime_word h.set (Nat.mod_lt l (by have := (thrSet_words h.set).2.2; omega))
  have hin := piece_in hl hsize
  have hlimb : i.q (l * i.t.n) = thrPrime i.p (l % (i.t.l + i.t.k)) := by rw [ThrIns.q, ThrIns.limb, Nat.mul_div_cancel _ (by omega)]
  rw [helem _ (by omega), pdecResults, flatMap_range_getD (fun _ _ => pdecLimb_length ..) hl hk, hlimb, readElems_slice x hin, readElems_slice x hin]
  exact Nat.mod_eq_of_lt (Nat.lt_trans (pdecLimb_getD hpos hk _ _ _ _) hword)

end Sys2Proof.Machine
end

section
/-! Key switching (11 R217, R218): a thicket's pass, which waits for every Wren of the run and, for a lone one, writes the whole output. -/

namespace Sys2Proof.Machine

/-! The whole output on one Wren (11 R217). -/

/-- The output words of a limb, of a polynomial and of a batch, as one Wren writes them; `c1 b` is ciphertext `b`'s polynomial. -/
def kswLimb (i : ThrIns) (key c1 : List Byte) (poly l : Nat) : List Nat :=
  (List.range i.t.n).map fun e => Config.kswResidue i.p key c1 poly l e % thrPrime i.p l
def kswPoly (i : ThrIns) (key c1 : List Byte) (poly : Nat) : List Nat := (List.range i.t.l).flatMap (kswLimb i key c1 poly)
def kswPair (i : ThrIns) (key c1 : List Byte) : List Nat := (List.range 2).flatMap (kswPoly i key c1)

/-- Ciphertext `b` of a batch: its c1 polynomial in the working area. -/
def kswInput (x : Site) (i : ThrIns) (s : State) (b : Nat) : List Byte := readLocal s x.w (i.a + 2048 * (b * i.t.l * i.lw)) (2048 * i.t.l * i.lw)
def kswResults (x : Site) (i : ThrIns) (key : List Byte) (s : State) : List Nat := (List.range i.len).flatMap fun b => kswPair i key (kswInput x i s b)

theorem kswLimb_length (i : ThrIns) (key c1 : List Byte) (poly l : Nat) : (kswLimb i key c1 poly l).length = i.t.n := by simp [kswLimb]
theorem kswPoly_length (i : ThrIns) (key c1 : List Byte) (poly : Nat) : (kswPoly i key c1 poly).length = i.t.l * i.t.n := by
  rw [kswPoly, flatMap_length_const fun _ _ => kswLimb_length .., List.length_range]
theorem kswPair_length (i : ThrIns) (key c1 : List Byte) : (kswPair i key c1).length = 2 * (i.t.l * i.t.n) := by
  rw [kswPair, flatMap_length_const fun _ _ => kswPoly_length .., List.length_range]
theorem kswResults_length (x : Site) (i : ThrIns) (key : List Byte) (s : State) : (kswResults x i key s).length = i.len * (2 * (i.t.l * i.t.n)) := by
  rw [kswResults, flatMap_length_const fun _ _ => kswPair_length .., List.length_range]

/-- Where a coefficient of the output stands among its elements. -/
theorem kswIndex_eq (b poly l e L n : Nat) : ((2 * b + poly) * L + l) * n + e = b * (2 * (L * n)) + (poly * (L * n) + (l * n + e)) := by grind

/-! Where the words of a limb, of a polynomial and of a pair begin, in a set of `W` words each limb. -/

theorem limbOffset_eq (d b poly l L W : Nat) :
    d + 2048 * (((2 * b + poly) * L + l) * W) = d + 2048 * ((2 * b + poly) * L * W) + 8 * (l * (256 * W)) := by grind
theorem polyOffset_eq (d b poly L W : Nat) : d + 2048 * ((2 * b + poly) * L * W) = d + 2048 * (2 * b * L * W) + 8 * (poly * (L * (256 * W))) := by grind
theorem pairOffset_eq (d b L W : Nat) : d + 2048 * (2 * b * L * W) = d + 8 * (b * (2 * (L * (256 * W)))) := by grind
theorem batchBytes_eq {n W : Nat} (hw : 256 * W = n) (b L : Nat) : 8 * (b * (2 * (L * n))) = 4096 * (b * (L * W)) := by subst hw; grind

theorem kswResults_getD {x : Site} {i : ThrIns} {key : List Byte} {s : State} {b poly l e : Nat} (hb : b < i.len) (hp : poly < 2)
    (hl : l < i.t.l) (he : e < i.t.n) :
    (kswResults x i key s).getD (((2 * b + poly) * i.t.l + l) * i.t.n + e) 0 = Config.kswResidue i.p key (kswInput x i s b) poly l e % thrPrime i.p l := by
  have hlimb := piece_in hl (rfl : i.t.l * i.t.n = _)
  have hpoly := piece_in hp (rfl : 2 * (i.t.l * i.t.n) = _)
  rw [kswIndex_eq, kswResults,
    flatMap_range_getD (fun _ _ => kswPair_length ..) hb (by omega), kswPair, flatMap_range_getD (fun _ _ => kswPoly_length ..) hp (by omega), kswPoly,
    flatMap_range_getD (fun _ _ => kswLimb_length ..) hl he, kswLimb, range_map_getD _ he]

section
variable {x : Site} {i : ThrIns} {key : List Byte} {s : State} (hset : thrSet i.p = some i.t)
include hset

/-- One polynomial's limbs are written one after another. -/
theorem kswPoly_written (c1 : List Byte) (b poly : Nat) (u : State) :
    (List.range i.t.l).foldl (fun s l => writeElems x (i.d + 2048 * (((2 * b + poly) * i.t.l + l) * i.lw)) (kswLimb i key c1 poly l) s) u =
      writeElems x (i.d + 2048 * ((2 * b + poly) * i.t.l * i.lw)) (kswPoly i key c1 poly) u := by
  refine foldl_writeElems x (fun _ _ => kswLimb_length ..) fun vs l _ _ => ?_
  rw [← (thrSet_words hset).1, ← i.lw_eq, limbOffset_eq]

theorem kswPair_written (c1 : List Byte) (b : Nat) (u : State) :
    (List.range 2).foldl (fun s poly => writeElems x (i.d + 2048 * ((2 * b + poly) * i.t.l * i.lw)) (kswPoly i key c1 poly) s) u =
      writeElems x (i.d + 2048 * (2 * b * i.t.l * i.lw)) (kswPair i key c1) u := by
  refine foldl_writeElems x (fun _ _ => kswPoly_length ..) fun vs poly _ _ => ?_
  rw [← (thrSet_words hset).1, ← i.lw_eq, polyOffset_eq]

/-- Rank 0 of 1 has every word of each limb: it writes the pairs of a batch one after another. -/
theorem kswRank_pairs (s : State) : kswRank x i key 0 1 s = (List.range i.len).foldl (fun s b =>
    writeElems x (i.d + 2048 * (2 * b * i.t.l * i.lw)) (kswPair i key (kswInput x i s b)) s) s := by
  have hw := (thrSet_words hset).1
  rw [← i.lw_eq] at hw
  simp only [← kswPair_written hset, ← kswPoly_written hset]
  simp only [kswRank, Nat.zero_mul, Nat.zero_add, Nat.one_mul, Nat.div_one, Nat.mul_zero, Nat.add_zero, Nat.sub_zero, hw]
  rfl

/-- A lone Wren writes the whole output; its input stays while it writes. -/
theorem kswRank_lone (had : overlaps (wordRange i.a (i.len * i.t.l * i.lw)) (wordRange i.d (2 * (i.len * i.t.l * i.lw))) = false) :
    kswRank x i key 0 1 s = writeElems x i.d (kswResults x i key s) s := by
  have hw := (thrSet_words hset).1
  rw [← i.lw_eq] at hw
  have hnot := mt (overlaps_iff ..).2 (Bool.eq_false_iff.1 had)
  dsimp only [wordRange] at hnot
  rw [kswRank_pairs hset]
  refine foldl_writeElems x (n := 2 * (i.t.l * i.t.n)) (fun _ _ => kswPair_length ..) fun vs b hb hvs => ?_
  have hread : b * (i.t.l * i.lw) + i.t.l * i.lw ≤ i.len * i.t.l * i.lw := piece_in hb (Nat.mul_assoc ..).symm
  have hwritten : (vs.flatMap (natLE 8)).length = 4096 * (b * (i.t.l * i.lw)) := by rw [elemBytes_length, hvs, batchBytes_eq hw]
  have hin : kswInput x i (writeElems x i.d vs s) b = kswInput x i s b := memRead_congr fun a _ _ => memGet_write_outside _ _ _ _ (by
    rw [Nat.mul_assoc b, Nat.mul_assoc 2048] at *
    omega)
  rw [hin, ← hw, pairOffset_eq]

end

/-! Where a Wren waits in KSW. -/

theorem siteOf_running {s : State} {w : Nat} {x : Site} (h : siteOf s w = some x) : (getWren s w).ended = false := by
  unfold siteOf at h; dsimp only at h
  repeat' split at h
  all_goals cases h
  rename_i hc; simpa using hc.2.2.1

/-- A block changes where no Wren stands. -/
theorem Blocks.site {x : Site} {code : Nat} {s t : State} (h : Blocks x code s t) : siteOf t x.w = siteOf s x.w := by
  obtain ⟨hw, -, ⟨-, hp, hs⟩, hr⟩ := h
  have hhost : t.host = s.host := by rw [hs]
  have hst : t.pwr.st = s.pwr.st := by rw [hp]
  unfold siteOf runOf progOf getRun? getObj?
  rw [hw, hr, hhost, hst]

theorem Blocks.mem {x : Site} {code : Nat} {s t : State} (h : Blocks x code s t) : t.mem = s.mem := by
  obtain ⟨-, -, ⟨-, -, hs⟩, -⟩ := h; rw [hs]

theorem Blocks.kswKey {x y : Site} {code : Nat} {s t : State} (h : Blocks x code s t) (i : ThrIns) : Machine.kswKey t y i = Machine.kswKey s y i := by
  obtain ⟨-, -, ⟨-, -, hs⟩, -⟩ := h
  rw [hs]; rfl

theorem atKsw_elsewhere {s : State} {v : Nat} (h : (getWren s v).block ≠ 7) : atKsw s v = none := by simp [atKsw, h]

/-- A Wren that has issued KSW waits in it. -/
theorem atKsw_issued {s : State} {w : Nat} {x : Site} {i : ThrIns} (h : ThrAt s w 0xB x i)
    (hi : interlocked (getWren s w) [wordRange i.a (i.len * i.t.l * i.lw)] [wordRange i.d (2 * (i.len * i.t.l * i.lw))] = false) :
    atKsw (blockOn x 7 s) w = some (x, i) := by
  obtain rfl := thrAt_w h
  have hb := blocks_blockOn x 7 s
  obtain ⟨hsite, hclass, hop, hskip⟩ := h.stands
  have hsr (n : Nat) : getSr (blockOn x 7 s) x.w n = getSr s x.w n := by unfold getSr; rw [hb.1]
  have hsk : skipped x (blockOn x 7 s) = false := by rw [← hskip]; unfold skipped Site.sr; rw [hsr]
  have hi' : interlocked (getWren (blockOn x 7 s) x.w) [wordRange i.a (i.len * i.t.l * i.lw)] [wordRange i.d (2 * i.len * i.t.l * i.lw)] = false := by
    rw [hb.1, Nat.mul_assoc 2, Nat.mul_assoc 2]; exact hi
  have ha : x.sr (blockOn x 7 s) 20 = i.a := (hsr _).trans h.a.symm
  have hb' : x.sr (blockOn x 7 s) 25 = i.b := (hsr _).trans h.b.symm
  have hd : x.sr (blockOn x 7 s) 30 = i.d := (hsr _).trans h.d.symm
  have hblock : (getWren (blockOn x 7 s) x.w).block = 7 := by rw [hb.1]
  simp only [atKsw, hblock, hb.site, hsite, hclass, hop, hsk, ← h.pset, ← h.len, h.set, ha, hb', hd, hi']
  simp

/-! What KSW comes to at its issue (11 R216, R217). -/

/-- A KSW in range: its key, and what the Wrens that wait have issued, decide. -/
def kswIssue (x : Site) (i : ThrIns) (s : State) : WOut :=
  match kswKey s x i with
  | .error e => .fault e.1 e.2 none
  | .ok _ =>
    if ((x.run.wrens.filter fun w => w / 24 == x.w / 24 && w != x.w && !(getWren s w).ended).filterMap (atKsw s)).any (fun e => e.2.pass != i.pass)
    then rangeBreach s else .hold (releaseKsw x.run (x.w / 24) (blockOn x 7 s))

section
variable {x : Site} {i : ThrIns} {s : State} (hp : i.p ≠ 0) (h1 : 1 ≤ i.len) (h64 : i.len ≤ 64) (ha : i.a % 2048 = 0) (hd : i.d % 2048 = 0)
  (hla : i.a + 2048 * (i.len * i.t.l * i.lw) ≤ x.prog.wsize) (hld : i.d + 2048 * (2 * (i.len * i.t.l * i.lw)) ≤ x.prog.wsize)
  (had : overlaps (wordRange i.a (i.len * i.t.l * i.lw)) (wordRange i.d (2 * (i.len * i.t.l * i.lw))) = false)
include hp h1 h64 ha hd hla hld had

theorem insKsw_in_range : insKsw x i s = kswIssue x i s := by
  have hlen0 : i.len ≠ 0 := by omega
  have h64' : ¬ 64 < i.len := by omega
  have hra : inWork x.prog i.a (2048 * (i.len * i.t.l * i.lw)) = true := (inWork_iff _ _ _).2 (.inr hla)
  have hrd : inWork x.prog i.d (2048 * (2 * (i.len * i.t.l * i.lw))) = true := (inWork_iff _ _ _).2 (.inr hld)
  have hsize : 2 * i.len * i.t.l * i.lw = 2 * (i.len * i.t.l * i.lw) := by rw [Nat.mul_assoc 2, Nat.mul_assoc 2]
  simp only [insKsw, hsize, hp, h64', ha, hd, had, hlen0, bne_self_eq_false, decide_false, Bool.or_false, if_false]
  simp only [wordRange, hra, hrd, Bool.not_true, Bool.or_self, Bool.false_eq_true, if_false]
  rfl

theorem insKsw_refused {e : Nat × Nat} (hk : kswKey s x i = .error e) : insKsw x i s = .fault e.1 e.2 none := by
  rw [insKsw_in_range hp h1 h64 ha hd hla hld had, kswIssue, hk]

/-- With no other Wren of the thicket in KSW, the Wren waits until the pass can start. -/
theorem insKsw_holds {base : Nat} (hk : kswKey s x i = .ok base)
    (ho : ∀ v ∈ x.run.wrens, v ≠ x.w → v / 24 = x.w / 24 → (getWren s v).ended = false → atKsw s v = none) :
    insKsw x i s = .hold (releaseKsw x.run (x.w / 24) (blockOn x 7 s)) := by
  have hnone : (x.run.wrens.filter fun w => w / 24 == x.w / 24 && w != x.w && !(getWren s w).ended).filterMap (atKsw s) = [] :=
    List.filterMap_eq_nil_iff.2 fun v hv => by
      obtain ⟨hmem, hc⟩ := List.mem_filter.1 hv
      simp only [Bool.and_eq_true, beq_iff_eq, bne_iff_ne, Bool.not_eq_true'] at hc
      obtain ⟨⟨hthk, hne⟩, hlive⟩ := hc
      exact ho v hmem hne hthk hlive
  rw [insKsw_in_range hp h1 h64 ha hd hla hld had, kswIssue, hk, hnone]
  rfl

end

/-! The pass (11 R217). -/

/-- A Wren of the thicket that has not issued KSW keeps the pass waiting. -/
theorem releaseKsw_waits {r : Run} {t v : Nat} {s : State} (hv : v ∈ r.wrens) (ht : v / 24 = t) (hlive : (getWren s v).ended = false)
    (hn : atKsw s v = none) : releaseKsw r t s = s := by
  have hfew : ((r.wrens.filter fun w => w / 24 == t && !(getWren s w).ended).filterMap (atKsw s)).length <
      (r.wrens.filter fun w => w / 24 == t && !(getWren s w).ended).length :=
    List.length_filterMap_lt_length_iff_exists.2 ⟨v, by simp [hv, ht, hlive], hn⟩
  unfold releaseKsw; dsimp only
  split
  · rfl
  · exact if_pos (by rw [decide_eq_true hfew, Bool.true_or])

theorem wrens_nodup {r : Run} (h : r.thks.Nodup) : r.wrens.Nodup := by
  refine List.pairwise_flatMap.2 ⟨fun t _ => List.pairwise_map.2 (List.nodup_range.imp fun hjk => by omega), h.imp fun htu w ht v hv => ?_⟩
  obtain ⟨j, hj, rfl⟩ := List.mem_map.1 ht
  obtain ⟨k, hk, rfl⟩ := List.mem_map.1 hv
  have := List.mem_range.1 hj
  have := List.mem_range.1 hk
  omega

/-- The one element of a list that a test keeps. -/
theorem filter_eq_singleton {α : Type} {l : List α} {a : α} {p : α → Bool} (hl : l.Nodup) (ha : a ∈ l) (hp : p a = true)
    (ho : ∀ b ∈ l, b ≠ a → p b = false) : l.filter p = [a] := by
  induction l with
  | nil => cases ha
  | cons b l ih =>
    obtain ⟨hb, hl⟩ := List.nodup_cons.1 hl
    have hrest (c : α) (hc : c ∈ l) (hne : c ≠ a) : p c = false := ho c (List.mem_cons_of_mem _ hc) hne
    rcases List.mem_cons.1 ha with rfl | ha
    · rw [List.filter_cons_of_pos hp, List.filter_eq_nil_iff.2 fun c hc => Bool.eq_false_iff.1 (hrest c hc fun e => hb (e ▸ hc))]
    · have hne : b ≠ a := fun e => hb (e ▸ ha)
      rw [List.filter_cons_of_neg (Bool.eq_false_iff.1 (ho b List.mem_cons_self hne)), ih hl ha hrest]

/-- The state after the pass of a lone Wren, before it retires: its output, one pass more, and what is counted. -/
def passDone (x : Site) (i : ThrIns) (base : Nat) (s : State) : State :=
  count x.run.ctx 5 0 0x34 (kswKeyBytes i.t) (count x.run.ctx 5 0 0x33 1 (modThk (x.w / 24) (fun v => { v with passes := v.passes + 1 })
    (writeElems x i.d (kswResults x i (memRead s.mem base (kswKeyBytes i.t)) s) s)))

theorem passDone_frame (x : Site) (i : ThrIns) (base : Nat) (s : State) : CountOnly (modThk (x.w / 24) (fun v => { v with passes := v.passes + 1 })
    (writeElems x i.d (kswResults x i (memRead s.mem base (kswKeyBytes i.t)) s) s)) (passDone x i base s) :=
  (count_frame ..).trans (count_frame ..)

theorem releaseKsw_lone {x : Site} {i : ThrIns} {base : Nat} {s : State} (hset : thrSet i.p = some i.t) (hw : x.w ∈ x.run.wrens) (hnd : x.run.thks.Nodup)
    (hlive : (getWren s x.w).ended = false) (ho : ∀ v ∈ x.run.wrens, v ≠ x.w → v / 24 = x.w / 24 → (getWren s v).ended = true)
    (hat : atKsw s x.w = some (x, i)) (hk : kswKey s x i = .ok base)
    (had : overlaps (wordRange i.a (i.len * i.t.l * i.lw)) (wordRange i.d (2 * (i.len * i.t.l * i.lw))) = false) :
    releaseKsw x.run (x.w / 24) s = retire x (passDone x i base s) := by
  have hone : (x.run.wrens.filter fun w => w / 24 == x.w / 24 && !(getWren s w).ended) = [x.w] :=
    filter_eq_singleton (wrens_nodup hnd) hw (by simp [hlive]) fun v hv hne => by
      by_cases ht : v / 24 = x.w / 24
      · simp [ho v hv hne ht]
      · simp [ht]
  simp only [releaseKsw, hone, List.filterMap_cons, hat, List.filterMap_nil, hk, List.length_cons, List.length_nil, List.any_cons, List.any_nil,
    bne_self_eq_false, Bool.or_false, Nat.lt_irrefl, decide_false, Bool.false_eq_true, if_false]
  simp only [List.zipIdx_cons, List.zipIdx_nil, List.foldl_cons, List.foldl_nil, Nat.zero_add, kswRank_lone hset had]
  rfl

theorem getThk_retire (x : Site) (t : Nat) (u : State) : getThk (retire x u) t = getThk u t := by
  obtain ⟨-, -, ⟨hf, -⟩, -⟩ := passed_retire x u
  unfold getThk; rw [hf]

theorem Blocks.getThk {x : Site} {code : Nat} {s t : State} (h : Blocks x code s t) (k : Nat) : getThk t k = Machine.getThk s k := by
  obtain ⟨-, -, ⟨hf, -⟩, -⟩ := h
  unfold Machine.getThk; rw [hf]

theorem passDone_mem (x : Site) (i : ThrIns) (base : Nat) (s : State) :
    (passDone x i base s).mem = (writeElems x i.d (kswResults x i (memRead s.mem base (kswKeyBytes i.t)) s) s).mem :=
  (passDone_frame x i base s).mem

theorem getWren_passDone (x : Site) (i : ThrIns) (base : Nat) (s : State) (v : Nat) : getWren (passDone x i base s) v = getWren s v :=
  (passDone_frame x i base s).getWren v

theorem passes_passDone (x : Site) (i : ThrIns) (base : Nat) (s : State) :
    (getThk (passDone x i base s) (x.w / 24)).passes = (getThk s (x.w / 24)).passes + 1 := by
  unfold getThk
  rw [(passDone_frame x i base s).fab]
  exact congrArg Thk.passes (getThk_putThk_same ..)

theorem kswResults_congr {s t : State} (h : t.mem = s.mem) (x : Site) (i : ThrIns) (key : List Byte) : kswResults x i key t = kswResults x i key s := by
  simp only [kswResults, kswInput, readLocal, h]

/-- What the pass of a lone Wren leaves once it has waited for it. -/
theorem pass_effect {x : Site} {i : ThrIns} {base : Nat} {s b : State} (hset : thrSet i.p = some i.t) (hb : Blocks x 7 s b) :
    (getWren (retire x (passDone x i base b)) x.w).ix = (nextIx (getWren s x.w).ix (getWren s x.w).loops).1 ∧
      (getThk (retire x (passDone x i base b)) (x.w / 24)).passes = (getThk s (x.w / 24)).passes + 1 ∧
      MemOutside (wrenBase x.w + i.d) (2048 * (2 * (i.len * i.t.l * (i.t.n / 256)))) s (retire x (passDone x i base b)) ∧
      ∀ c poly l e, c < i.len → poly < 2 → l < i.t.l → e < i.t.n →
        elemAt (retire x (passDone x i base b)) x.w i.d (((2 * c + poly) * i.t.l + l) * i.t.n + e) =
          Config.kswResidue i.p (memRead s.mem base (kswKeyBytes i.t)) (kswInput x i s c) poly l e % thrPrime i.p l := by
  have hsize : 8 * (kswResults x i (memRead s.mem base (kswKeyBytes i.t)) s).length = 2048 * (2 * (i.len * i.t.l * (i.t.n / 256))) := by
    rw [kswResults_length, batchBytes_eq (thrSet_words hset).1, Nat.mul_assoc i.len]; omega
  have hmem : (passDone x i base b).mem = (writeElems x i.d (kswResults x i (memRead s.mem base (kswKeyBytes i.t)) s) s).mem := by
    rw [passDone_mem, hb.mem, kswResults_congr hb.mem, writeElems_mem, writeElems_mem, hb.mem]
  obtain ⟨hout, helem⟩ := retire_elems hsize hmem
  refine ⟨?_, ?_, hout, fun c poly l e hc hp hl he => ?_⟩
  · rw [getWren_retire, getWren_passDone, hb.1]
  · rw [getThk_retire, passes_passDone, hb.getThk]
  · obtain ⟨hpos, hword⟩ := thrPrime_word hset (show l < i.t.l + i.t.k by omega)
    have hlimb := piece_in hl (rfl : i.t.l * i.t.n = _)
    have hpoly := piece_in hp (rfl : 2 * (i.t.l * i.t.n) = _)
    have hpair := piece_in hc (rfl : i.len * (2 * (i.t.l * i.t.n)) = _)
    rw [helem _ (by rw [kswResults_length, kswIndex_eq]; omega), kswResults_getD hc hp hl he]
    exact Nat.mod_eq_of_lt (Nat.lt_trans (Nat.mod_lt _ hpos) hword)

section
variable {s : State} {x : Site} {i : ThrIns} (h : ThrAt s x.w 0xB x i) (hp : i.p ≠ 0) (h1 : 1 ≤ i.len) (h64 : i.len ≤ 64) (ha : i.a % 2048 = 0)
  (hd : i.d % 2048 = 0) (hla : i.a + 2048 * (i.len * i.t.l * i.lw) ≤ x.prog.wsize) (hld : i.d + 2048 * (2 * (i.len * i.t.l * i.lw)) ≤ x.prog.wsize)
  (had : overlaps (wordRange i.a (i.len * i.t.l * i.lw)) (wordRange i.d (2 * (i.len * i.t.l * i.lw))) = false)
include h hp h1 h64 ha hd hla hld had

theorem ksw_faults (hk : getObj? s i.b = none) : ∃ t, exec (.ksw x.w) s = .next t ∧ Faulted x 0x0403 s t :=
  faults_of (thrAt_settles (c := .ksw x.w) h rfl) h.stands.active
    (insKsw_refused hp h1 h64 ha hd hla hld had (e := (0x0403, Config.statusDetail 0x0403)) (by rw [kswKey, hk]))

/-- With another Wren of the thicket that has not issued KSW, the Wren waits. -/
theorem ksw_waits {base v : Nat} (hk : kswKey s x i = .ok base) (hv : v ∈ x.run.wrens) (hne : v ≠ x.w) (hthk : v / 24 = x.w / 24)
    (hlive : (getWren s v).ended = false) (hno : ∀ v ∈ x.run.wrens, v ≠ x.w → v / 24 = x.w / 24 → (getWren s v).block ≠ 7) :
    ∃ t, exec (.ksw x.w) s = .next t ∧ Blocks x 7 s t := by
  have hb := blocks_blockOn x 7 s
  have hv' : getWren (blockOn x 7 s) v = getWren s v := hb.2.1 v hne
  have hhold := insKsw_holds hp h1 h64 ha hd hla hld had hk fun u hu hune huthk _ => atKsw_elsewhere (hno u hu hune huthk)
  have hwait : releaseKsw x.run (x.w / 24) (blockOn x 7 s) = blockOn x 7 s :=
    releaseKsw_waits hv hthk (by rw [hv', hlive]) (atKsw_elsewhere (by rw [hv']; exact hno v hv hne hthk))
  exact ⟨blockOn x 7 s, by rw [thrAt_settles (c := .ksw x.w) h rfl, hhold, settle, hwait], hb⟩

/-- The thicket's only Wren that has not ended makes the pass at once. -/
theorem ksw_passes {base : Nat} (hk : kswKey s x i = .ok base) (hw : x.w ∈ x.run.wrens) (hnd : x.run.thks.Nodup)
    (hend : ∀ v ∈ x.run.wrens, v ≠ x.w → v / 24 = x.w / 24 → (getWren s v).ended = true)
    (hi : interlocked (getWren s x.w) [wordRange i.a (i.len * i.t.l * i.lw)] [wordRange i.d (2 * (i.len * i.t.l * i.lw))] = false) :
    exec (.ksw x.w) s = .next (retire x (passDone x i base (blockOn x 7 s))) := by
  have hb := blocks_blockOn x 7 s
  have hhold := insKsw_holds hp h1 h64 ha hd hla hld had hk fun v hv hne hthk hlive => absurd (hend v hv hne hthk) (by simp [hlive])
  have hpass := releaseKsw_lone h.set hw hnd (by rw [hb.1]; exact siteOf_running h.stands.1)
    (fun v hv hne hthk => by rw [hb.2.1 v hne]; exact hend v hv hne hthk) (atKsw_issued h hi) (by rw [hb.kswKey, hk]) had
  rw [thrAt_settles (c := .ksw x.w) h rfl, hhold, settle, hpass]

end

end Sys2Proof.Machine
end

section
/-! Settles O44, from what each Thrush instruction writes. -/

namespace Sys2Proof.Machine

/-- The rows of Thrush run their bodies on the fields of their instruction. -/
theorem exec_thrIns {c : Nat → Instr} {op : Nat} (h : WrenRow c 5 op) :
    ∃ body, ∀ w s, exec (c w) s = .next (runInsn 5 op (thrIns body) w s) := by
  simp only [WrenRow, Nat.reduceEqDiff, false_and, true_and, false_or, or_false] at h
  rcases h with ⟨rfl, rfl⟩ | ⟨rfl, rfl⟩ | ⟨rfl, rfl⟩ | ⟨rfl, rfl⟩ | ⟨rfl, rfl⟩ | ⟨rfl, rfl⟩ | ⟨rfl, rfl⟩ | ⟨rfl, rfl⟩ | ⟨rfl, rfl⟩ | ⟨rfl, rfl⟩ |
    ⟨rfl, rfl⟩ | ⟨rfl, rfl⟩ | ⟨rfl, rfl⟩
  all_goals exact ⟨_, fun _ _ => rfl⟩

/-- A reserved PSET faults (R216). -/
theorem reservedSet_faults {c : Nat → Instr} {s : State} {w op : Nat} {x : Site} (hr : WrenRow c 5 op) (h : Stands s w 5 op x)
    (hset : thrSet (bits x.insn 35 4) = none) : ∃ t, exec (c w) s = .next t ∧ Faulted x 0x0105 s t := by
  obtain ⟨body, hc⟩ := exec_thrIns hr
  refine faults_of (o := thrIns body x s) ?_ h.active (by rw [thrIns, hset]; rfl)
  rw [hc, runInsn_stands h]

/-- Settles O44: each row's rule, from the run of elements that it writes to D. -/
theorem thrushComputesModuloItsPrimes : Obligations.ThrushComputesModuloItsPrimes := by
  refine ⟨?madd, ?msub, ?mmul, ?mmac, ?mscal, ?plift, ?transform, ?sample, ?modsw, ?extract, ?ksw, ?pdec, fun s w op x c => reservedSet_faults,
    fun p t l hset => thrPrime_range hset, fun p t l m hset => thrPrime_descends hset⟩
  case madd =>
    exact thrRule_of (g := fun _ => modAdd) (fun _ _ => rfl) (fun _ _ _ _ => rfl) fun _ _ _ _ _ hq => ⟨rfl, Nat.mod_lt _ hq⟩
  case msub =>
    exact thrRule_of (g := fun _ => modSub) (fun _ _ => rfl) (fun _ _ _ _ => rfl) fun _ _ a b d hq => ⟨modSub_eq hq a b _, modSub_lt hq a b⟩
  case mmul =>
    exact thrRule_of (g := fun _ => modMul) (fun _ _ => rfl) (fun _ _ _ _ => rfl) fun _ q a b d hq => ⟨modMul_eq q a b _, Nat.mod_lt _ hq⟩
  case mmac =>
    exact thrRule_of (g := fun _ => modMac) (fun _ _ => rfl) (fun _ _ _ _ => rfl) fun _ q a b d hq => ⟨modMac_eq q a b d, Nat.mod_lt _ hq⟩
  case mscal =>
    exact thrRule_of (g := fun i => modScale i.b) (fun _ _ => rfl) (fun _ _ _ _ => rfl) fun i q a _ _ hq => ⟨modScale_eq i.b q a _ _, Nat.mod_lt _ hq⟩
  case plift =>
    refine thrRule_of (g := fun i => modLift (thrDelta i.p i.t (i.b % 64)) (i.b % 64)) (fun _ _ => rfl) (fun x i s hok => if_neg (by omega))
      fun i q a b d hq => ⟨?_, Nat.mod_lt _ hq⟩
    rw [modLift_eq, thrDelta_eq]; rfl
  case transform =>
    rintro s w op x i c inv h hc hlen ha hd had hi
    have hexec : exec c s = .next (runInsn 5 op (thrIns (thrTransform inv)) w s) := by
      rcases hc with ⟨rfl, rfl, rfl⟩ | ⟨rfl, rfl, rfl⟩ <;> rfl
    obtain ⟨t, ht, hwork, hout, helem⟩ := transform_writes inv h hexec hlen ha hd had hi
    refine ⟨t, ht, hwork, hout, ?_⟩
    rintro l j _ _ hl hj rfl rfl
    exact helem l j hl hj
  case sample =>
    rintro s w x i h hk hd hi
    obtain ⟨t, ht, hwork, hout, hlt⟩ := sample_writes h hk hd hi
    exact ⟨t, _, ht, rfl, hwork.of_drawn.2, hwork.of_drawn.1, hout, hlt⟩
  case modsw =>
    rintro s w m d x i h - hd hm hdm hml ha hdo had hi
    exact modsw_writes h hm hd hdm hml ha hdo had hi
  case extract =>
    rintro s w cnt first x i h hf hc hc0 hn hlen ha hd hin had hi
    exact extract_writes h hf hc hc0 hn hlen ha hd hin had hi
  case ksw =>
    rintro s w _ _ x i h hp h1 h64 ha hd rfl rfl hla hld had hi
    obtain rfl := thrAt_w h
    refine ⟨ksw_faults h hp h1 h64 ha hd hla hld had, fun base hk hw hnd => ⟨?_, fun hend => ?_⟩⟩
    · rintro ⟨v, hv, hne, hthk, hlive⟩ hno
      exact ksw_waits h hp h1 h64 ha hd hla hld had hk hv hne hthk hlive hno
    · exact ⟨_, ksw_passes h hp h1 h64 ha hd hla hld had hk hw hnd hend hi, pass_effect h.set (blocks_blockOn x 7 s)⟩
  case pdec =>
    rintro s w sig x i v key h hlen hs hlo hhi ha hd h1 h0 hv hb hk hi
    obtain ⟨t, ht, hwork, hout, helem⟩ := pdec_writes h hlen hs hlo hhi ha hd h1 h0 hv hb hk hi
    exact ⟨t, smudge sig i.t.n s, _, ht, rfl, hwork.of_drawn.2, hwork.of_drawn.1, hout, by simp [smudge], smudge_bounds, helem⟩

end Sys2Proof.Machine
end

section
/-! An S_HELLO repeated on a listener (12 R232). Refutes O46. -/

namespace Sys2Proof.Machine

/-- An S_HELLO of a listener's session that repeats its identifier and random is answered with S_READY, whatever the session's state. -/
theorem exec_sHello_repeat {s : State} {p : LntPkt} {n i : Nat} (ha : Arrives s p 0x20) (hl : helloLst s p = some n) (hok : helloOk p.payload = true)
    (hf : (sessOfLst s n).find? (fun j => (getSess s j).ident == sub p.payload 0x460 16) = some i)
    (hr : (getSess s i).random = sub p.payload 0x478 16) : exec (.sHello p) s = .next (sendReady p i s) := by
  obtain ⟨he, hup, hip, ht⟩ := ha
  show execSHello p s = _
  simp [execSHello, rxPkt, helloIn, lntTyp, he, hup, hip, ht, hl, hok, hf, hr]

/-- A chip in Run with port 0 Up, where the one session of a listener, with identifier and random zero, is Closed. -/
def closedSessionState : State :=
  { State.reset with
    pwr := { Pwr.init with st := .run }
    host := { HostSt.init with ctxs := [(0, { Ctx.init with st := 1 })] }
    lnt := { Lnt.init with
      ports := [(0, { EthPort.init with st := 1 })]
      listeners := [(0, { Listener.init with live := true, udp := 0x4B35 })]
      sess := [(0, { Sess.init with st := 2, ident := zeros 16, random := zeros 16 })] } }

/-- The S_HELLO of that session's contributor, sent again. -/
def repeatedHello : LntPkt :=
  { engine := 0, ipOk := true, srcAddr := 1, srcPort := 9, dstPort := 0x4B35, typ := 0x20, flags := 3, len := 0, dest := 0, src := 0, psn := 0, apsn := 0
    msn := 0, ts := 0, offset := 0, wkey := 0, imm := 0, payload := zeros 0x488 ++ natLE 2 1184 ++ zeros 14, tag := [] }

theorem repeatedHello_arrives : Arrives closedSessionState repeatedHello 0x20 := by
  unfold Arrives; decide +kernel

theorem repeatedHello_found : helloLst closedSessionState repeatedHello = some 0 ∧ helloOk repeatedHello.payload = true ∧
    (sessOfLst closedSessionState 0).find? (fun j => (getSess closedSessionState j).ident == sub repeatedHello.payload 0x460 16) = some 0 ∧
    (getSess closedSessionState 0).random = sub repeatedHello.payload 0x478 16 ∧ (getSess closedSessionState 0).st = 2 := by
  decide +kernel

/-- Refutes O46: clause (2) wants S_CLOSE DUPLICATE for an S_HELLO that repeats the identifier and random of a session that is not Open. The
model's `helloIn` does not look at the state of the session that it finds, so it answers S_READY for a Closed one too. -/
theorem not_sessionsOpenDeliverAndClose : ¬ Obligations.SessionsOpenDeliverAndClose := by
  unfold Obligations.SessionsOpenDeliverAndClose
  rintro ⟨-, -, hello, -⟩
  obtain ⟨hl, hok, hf, hr, hst⟩ := repeatedHello_found
  obtain ⟨pkt, he, -, hclose⟩ := (hello _ _ _ repeatedHello_arrives hl hok).2 _ hf
  obtain ⟨htyp, -⟩ := hclose (.inl (by rw [hst]; decide))
  have hready := (exec_sHello_repeat repeatedHello_arrives hl hok hf hr).symm.trans he
  have hout : (sendReady repeatedHello 0 closedSessionState).out = closedSessionState.out ++ [Out.lnt 0 1 pkt] :=
    congrArg State.out (Host.Outcome.next.inj hready)
  have hpkt := (List.append_cancel_left hout : [Out.lnt 0 1 _] = [Out.lnt 0 1 pkt])
  simp only [List.cons.injEq, Out.lnt.injEq, and_true, true_and] at hpkt
  rw [← hpkt] at htyp
  exact absurd htyp (by decide)

end Sys2Proof.Machine
end

section
/-! SUPPORT. Rules of Linnet's queue pairs (12 R237 to R252): what sends, meters and events leave, and what each operation on one queue
pair makes of its record and sends. -/

namespace Sys2Proof.Machine

/-! What is sent is kept: outputs only grow. -/

/-- What `s` has sent stands first in what `t` has. -/
def OutGrows (s t : State) : Prop := s.out <+: t.out

theorem OutGrows.of_eq {s t : State} (h : t.out = s.out) : OutGrows s t := by unfold OutGrows; rw [h]
theorem OutGrows.refl (s : State) : OutGrows s s := .of_eq rfl
theorem OutGrows.trans {s t u : State} (h : OutGrows s t) (k : OutGrows t u) : OutGrows s u := List.IsPrefix.trans h k
theorem outGrows_emitAll (os : List Out) (s : State) : OutGrows s (emitAll os s) := List.prefix_append _ _
theorem outGrows_emit (o : Out) (s : State) : OutGrows s (emit o s) := outGrows_emitAll [o] s

theorem emitAll_nothing (s : State) : emitAll [] s = s := by rw [emitAll, List.append_nil]

/-- Steps that keep what is sent. -/
theorem OutGrows.foldl {α : Type} {f : State → α → State} (hf : ∀ s a, OutGrows s (f s a)) (l : List α) (s : State) : OutGrows s (l.foldl f s) :=
  List.foldlRecOn l f (motive := OutGrows s) (.refl s) fun t ht a _ => ht.trans (hf t a)

theorem OutGrows.emit_if {s t : State} (c : Bool) (o : Out) (h : OutGrows s t) : OutGrows s (if c then emit o t else t) := by
  cases c
  · exact h
  · exact h.trans (outGrows_emit o t)

theorem evNotify_grows (code g seq : Nat) (s : State) : OutGrows s (evNotify code g seq s) := OutGrows.emit_if _ _ (.of_eq rfl)

theorem raiseEv_grows (code : Nat) (ctx : Option Nat) (unit detail : Nat) (s : State) : OutGrows s (raiseEv code ctx unit detail s) := by
  unfold raiseEv; dsimp only; split
  · exact .of_eq rfl
  · exact OutGrows.trans (t := setEvlog _ s) (.of_eq (by rfl)) (evNotify_grows ..)

theorem slotAdd_grows (blk inst slot n : Nat) (s : State) : OutGrows s (slotAdd blk inst slot n s) := by
  unfold slotAdd; dsimp only; split
  · exact OutGrows.trans (t := setSlots _ s) (.of_eq (by rfl)) (raiseEv_grows ..)
  · exact .of_eq rfl

theorem countFrom_grows (c blk inst code n k : Nat) (s : State) : OutGrows s (countFrom c blk inst code n k s) := by
  induction k with
  | zero => exact .refl s
  | succ k ih =>
    unfold countFrom; dsimp only; split
    · exact ih.trans (slotAdd_grows ..)
    · exact ih

theorem count_grows (c blk inst code n : Nat) (s : State) : OutGrows s (count c blk inst code n s) := by
  unfold count; split
  · exact .refl s
  · exact countFrom_grows ..

/-! Sends, meters and events. -/

/-- State `t` is `s` but for what was sent, meters, free values, the fabric's ports and counters, counter slots and events. -/
def SendOnly (s t : State) : Prop :=
  t = { s with pwr := { s.pwr with pins := t.pwr.pins }, out := t.out, mtr := t.mtr, free := t.free, skn := t.skn, qtd := t.qtd, hsc := t.hsc
               evlog := t.evlog, glb := t.glb }

theorem SendOnly.refl (s : State) : SendOnly s s := rfl
theorem SendOnly.trans {s t u : State} (h : SendOnly s t) (k : SendOnly t u) : SendOnly s u := by
  unfold SendOnly at *; rw [k, h]
theorem CountOnly.sendOnly {s t : State} (h : CountOnly s t) : SendOnly s t := by
  unfold CountOnly at h; unfold SendOnly; rw [h]
theorem EventOnly.sendOnly {s t : State} (h : EventOnly s t) : SendOnly s t := h.count.sendOnly

theorem meter_sendOnly (c : Nat) (f : Meter → Meter) (s : State) : SendOnly s (meter c f s) := by
  unfold meter; split <;> rfl
@[simp] theorem meter_out (c : Nat) (f : Meter → Meter) (s : State) : (meter c f s).out = s.out := by
  unfold meter; split <;> rfl

/-- Sends, and nothing that was sent is lost. -/
def Sends (s t : State) : Prop := SendOnly s t ∧ OutGrows s t

theorem Sends.refl (s : State) : Sends s s := ⟨.refl s, .refl s⟩
theorem Sends.trans {s t u : State} (h : Sends s t) (k : Sends t u) : Sends s u := ⟨h.1.trans k.1, h.2.trans k.2⟩
theorem sends_count (c blk inst code n : Nat) (s : State) : Sends s (count c blk inst code n s) := ⟨(count_frame ..).sendOnly, count_grows ..⟩
theorem sends_raiseEv (code : Nat) (ctx : Option Nat) (unit detail : Nat) (s : State) : Sends s (raiseEv code ctx unit detail s) :=
  ⟨(raiseEv_frame ..).sendOnly, raiseEv_grows ..⟩

/-! Packets that leave by the fabric (14 R276; 13 R255). -/

theorem sends_sendOn (n : Nat) (p : QtdPkt) (rest : List QtdPkt) (s : State) : Sends s (sendOn n p rest s) := by
  unfold sendOn; split
  · exact .refl s
  · rename_i shared v _
    have h : ∀ os v', Sends s (emitAll os (putSkn n v' s)) := fun os v' => ⟨rfl, outGrows_emitAll _ _⟩
    dsimp only; split
    · exact (h _ _).trans (sends_count ..)
    · exact h _ _

theorem sends_pumpPort (n k : Nat) (s : State) : Sends s (pumpPort n k s) := by
  induction k generalizing s with
  | zero => exact .refl s
  | succ k ih =>
    unfold pumpPort; split
    · rename_i s' h
      obtain ⟨e, -, rfl⟩ := Option.map_eq_some_iff.1 h
      exact (sends_sendOn ..).trans (ih _)
    · exact .refl s

theorem sends_originate {p : QtdPkt} {s t : State} (h : originate p s = .ok t) : Sends s t := by
  unfold originate at h; dsimp only at h
  repeat' split at h
  all_goals cases h
  · exact Sends.trans (t := onQtd _ s) ⟨rfl, .of_eq rfl⟩ (sends_raiseEv ..)
  · exact Sends.trans (t := modSkn _ _ s) ⟨rfl, .of_eq rfl⟩ (sends_pumpPort ..)

theorem sends_originateQ (p : QtdPkt) (s : State) : Sends s (originateQ p s) := by
  unfold originateQ; split
  · rename_i h; exact sends_originate h
  · exact .refl s

theorem sends_sendLnt (c e dst : Nat) (p : LntPkt) (s : State) : Sends s (sendLnt c e dst p s) := by
  unfold sendLnt; split
  · exact (sends_originateQ ..).trans ⟨rfl, outGrows_emit _ _⟩
  · exact ⟨rfl, outGrows_emit _ _⟩

/-- On an Ethernet engine the packet is all that leaves. -/
theorem sendLnt_ethernet {e : Nat} (he : e ≠ 4) (c dst : Nat) (p : LntPkt) (s : State) : sendLnt c e dst p s = emit (.lnt e dst p) s := by
  simp [sendLnt, he]

theorem lntRefused_ethernet {e : Nat} (he : e ≠ 4) (s : State) (c dst : Nat) : lntRefused s c e dst = none := by
  simp [lntRefused, he]

/-! Work on one queue pair. -/

/-- From `s` to `t` queue pair `n` becomes `v`, `os` is sent, and besides only what sends, meters and events touch changes. -/
structure QpWork (n : Nat) (v : Qp) (os : List Out) (s t : State) : Prop where
  qp : getQp t n = v
  others : ∀ m, m ≠ n → getQp t m = getQp s m
  out : t.out = s.out ++ os
  rest : SendOnly { s with lnt := { s.lnt with qps := t.lnt.qps } } t

theorem QpWork.refl (n : Nat) (s : State) : QpWork n (getQp s n) [] s s := ⟨rfl, fun _ _ => rfl, (List.append_nil _).symm, rfl⟩

section
variable {n : Nat} {v w : Qp} {os os' : List Out} {s t u : State} (h : QpWork n v os s t)
include h

theorem QpWork.mem : t.mem = s.mem := by rw [h.rest]
theorem QpWork.hostMem : t.hostMem = s.hostMem := by rw [h.rest]
theorem QpWork.host : t.host = s.host := by rw [h.rest]
theorem QpWork.lark : t.lark = s.lark := by rw [h.rest]
theorem QpWork.lnt : t.lnt = { s.lnt with qps := t.lnt.qps } := by rw [h.rest]
theorem QpWork.port (e : Nat) : getEth t e = getEth s e := by unfold getEth; rw [h.lnt]
theorem QpWork.up (e : Nat) : linkUp t e = linkUp s e := by rw [h.rest]; rfl

theorem QpWork.trans (k : QpWork n w os' t u) : QpWork n w (os ++ os') s u :=
  ⟨k.qp, fun m hm => (k.others m hm).trans (h.others m hm), by rw [k.out, h.out, List.append_assoc], by
    have hr := h.rest; have kr := k.rest
    unfold SendOnly at *; rw [kr, hr]⟩

/-- Work from a state that `s` differs from in nothing that counts. -/
theorem QpWork.only : OnlyQp n s t := ⟨h.others, h.mem, h.hostMem⟩

theorem QpWork.change {f : Qp → Qp} (hw : f v = w) : QpWork n w os s (modQp n f t) := by
  refine ⟨by rw [modQp_eq, getQp_putQp_same, h.qp, hw], fun m hm => ?_, h.out, ?_⟩
  · rw [modQp_eq, getQp_putQp, if_neg hm, h.others m hm]
  · have hr := h.rest
    unfold SendOnly at *; rw [hr]; rfl

/-- What only sends leaves the queue pair. -/
theorem QpWork.sends (k : Sends t u) : ∃ os', QpWork n v (os ++ os') s u := by
  obtain ⟨hk, os', ho⟩ := k
  have hl : u.lnt = t.lnt := by rw [hk]
  refine ⟨os', by unfold getQp; rw [hl]; exact h.qp, fun m hm => by rw [← h.others m hm]; unfold getQp; rw [hl], ?_, ?_⟩
  · rw [← ho, h.out, List.append_assoc]
  · have hr := h.rest
    rw [hl]; exact SendOnly.trans hr hk

theorem QpWork.emits (os' : List Out) : QpWork n v (os ++ os') s (emitAll os' t) :=
  h.trans ⟨h.qp, fun _ _ => rfl, rfl, rfl⟩

theorem QpWork.metered (c : Nat) (f : Meter → Meter) : QpWork n v os s (meter c f t) := by
  have k := meter_sendOnly c f t
  have hl : (meter c f t).lnt = t.lnt := by rw [k]
  have hw : QpWork n v [] t (meter c f t) :=
    ⟨by unfold getQp; rw [hl]; exact h.qp, fun m _ => by unfold getQp; rw [hl], by simp, by rw [hl]; exact k⟩
  simpa using h.trans hw

theorem QpWork.meteredTx (c k : Nat) : QpWork n v os s (meterTx c k t) := h.metered c _

theorem QpWork.send {e : Nat} (he : e ≠ 4) (c dst : Nat) (p : LntPkt) : QpWork n v (os ++ [.lnt e dst p]) s (sendLnt c e dst p t) := by
  rw [sendLnt_ethernet he]; exact h.emits [.lnt e dst p]

end

/-! Control packets (12 R228). -/

/-- The control packet that `sendCtl` sends. -/
def ctlPkt (s : State) (n e typ imm msn ts : Nat) (psn : Option Nat) : LntPkt :=
  let v := getQp s n
  let p := { qpPkt s n typ with engine := e, imm := imm, msn := msn % 2 ^ 32, ts := ts, psn := (psn.getD v.ctlTx) % 2 ^ 32
                                offset := if typ = 8 then ackBitmap v.rxPsn v.reorder else 0 }
  if v.prot then { p with tag := ctlTag v.kTx (txDir v) v.ctlTx p } else p

theorem sendCtl_eq (n e typ imm msn ts : Nat) (psn : Option Nat) (s : State) : sendCtl n e typ imm msn ts psn s =
    sendLnt (getQp s n).ctx e (getQp s n).peer (ctlPkt s n e typ imm msn ts psn) (modQp n (fun v => { v with ctlTx := v.ctlTx + 1 }) s) := rfl

section
variable (s : State) (n e typ imm msn ts : Nat) (psn : Option Nat)

/-- A tag changes no field of the header. -/
theorem ctlPkt_header : ∃ tag off, ctlPkt s n e typ imm msn ts psn = { qpPkt s n typ with
    engine := e, imm := imm, msn := msn % 2 ^ 32, ts := ts, psn := (psn.getD (getQp s n).ctlTx) % 2 ^ 32, offset := off, tag := tag } := by
  unfold ctlPkt; dsimp only; split <;> exact ⟨_, _, rfl⟩

@[simp] theorem ctlPkt_typ : (ctlPkt s n e typ imm msn ts psn).typ = typ := by
  obtain ⟨tag, off, h⟩ := ctlPkt_header s n e typ imm msn ts psn; rw [h]; rfl
@[simp] theorem ctlPkt_imm : (ctlPkt s n e typ imm msn ts psn).imm = imm := by
  obtain ⟨tag, off, h⟩ := ctlPkt_header s n e typ imm msn ts psn; rw [h]
@[simp] theorem ctlPkt_msn : (ctlPkt s n e typ imm msn ts psn).msn = msn % 2 ^ 32 := by
  obtain ⟨tag, off, h⟩ := ctlPkt_header s n e typ imm msn ts psn; rw [h]
@[simp] theorem ctlPkt_ts : (ctlPkt s n e typ imm msn ts psn).ts = ts := by
  obtain ⟨tag, off, h⟩ := ctlPkt_header s n e typ imm msn ts psn; rw [h]
@[simp] theorem ctlPkt_psn : (ctlPkt s n e typ imm msn ts psn).psn = (psn.getD (getQp s n).ctlTx) % 2 ^ 32 := by
  obtain ⟨tag, off, h⟩ := ctlPkt_header s n e typ imm msn ts psn; rw [h]
@[simp] theorem ctlPkt_dest : (ctlPkt s n e typ imm msn ts psn).dest = (getQp s n).peerQp.getD 0 := by
  obtain ⟨tag, off, h⟩ := ctlPkt_header s n e typ imm msn ts psn; rw [h]; rfl
@[simp] theorem ctlPkt_src : (ctlPkt s n e typ imm msn ts psn).src = n := by
  obtain ⟨tag, off, h⟩ := ctlPkt_header s n e typ imm msn ts psn; rw [h]; rfl
@[simp] theorem ctlPkt_apsn : (ctlPkt s n e typ imm msn ts psn).apsn = apsnOf (getQp s n).rxPsn := by
  obtain ⟨tag, off, h⟩ := ctlPkt_header s n e typ imm msn ts psn; rw [h]; rfl

end

/-! The end of a descriptor (12 R241). -/

/-- The record of a send descriptor. -/
def sendRec (d : SendDesc) (status detail rlen : Nat) : StatusRec :=
  { tag := d.tag, status := status, dup := false, sealed := false, phase := false, detail := detail, rlen := rlen, res0 := d.msn, res1 := 0 }

/-- A queue pair whose descriptor has completed. -/
def sentQp (v : Qp) (d : SendDesc) (status detail rlen : Nat) : Qp :=
  { v with sq := v.sq.erase d, cq := v.cq ++ [sendRec d status detail rlen], sendCnt := v.sendCnt + 1 }

/-- The interrupts of a completed descriptor (log 41). -/
def sendIrqs (s : State) (n : Nat) (d : SendDesc) : List Out :=
  if bitOf d.flags 3 then (mirrorsOf s n false).map fun e => .msix (ctxFn s e.2.ctx) e.2.vec else []

theorem sendIrqs_none {d : SendDesc} (hd : bitOf d.flags 3 = false) (s : State) (n : Nat) : sendIrqs s n d = [] := by simp [sendIrqs, hd]

theorem finishSend_eq (n : Nat) (d : SendDesc) (status detail rlen : Nat) (s : State) :
    finishSend n d status detail rlen s = emitAll (sendIrqs s n d) (modQp n (fun v => sentQp v d status detail rlen) s) := by
  unfold finishSend sendIrqs; dsimp only; split
  · rfl
  · exact (emitAll_nothing _).symm

section
variable {n : Nat} {v : Qp} {os : List Out} {s t : State} (h : QpWork n v os s t)
include h

theorem QpWork.control {e : Nat} (he : e ≠ 4) (typ imm msn ts : Nat) (psn : Option Nat) :
    QpWork n { v with ctlTx := v.ctlTx + 1 } (os ++ [.lnt e v.peer (ctlPkt t n e typ imm msn ts psn)]) s (sendCtl n e typ imm msn ts psn t) := by
  rw [sendCtl_eq, h.qp]
  exact (h.change (w := { v with ctlTx := v.ctlTx + 1 }) (by rfl)).send he ..

theorem QpWork.irqs (d : SendDesc) : sendIrqs t n d = sendIrqs s n d := by unfold sendIrqs mirrorsOf ctxFn getCtx; rw [h.host]

theorem QpWork.complete (d : SendDesc) (status detail rlen : Nat) :
    QpWork n (sentQp v d status detail rlen) (os ++ sendIrqs s n d) s (finishSend n d status detail rlen t) := by
  rw [finishSend_eq, h.irqs]
  exact (h.change (by rfl)).emits _

end

/-! Sending (12 R242, R250). -/

/-- With nothing to send and no descriptor to start nothing happens. -/
theorem pumpLoop_idle {n : Nat} {s : State} (htx : (getQp s n).txq = []) (hsq : ∀ d ∈ (getQp s n).sq, d.started = true) (k : Nat) :
    pumpLoop n k s = s := by
  cases k with
  | zero => rfl
  | succ k =>
    have hf : ((getQp s n).sq.find? fun d => !d.started) = none := by simpa using hsq
    simp [pumpLoop, htx, hf]

/-- Nor where the queue pair may not transmit. -/
theorem pumpLoop_shut {n : Nat} {s : State} (hm : maySend s (getQp s n) = false) (k : Nat) : pumpLoop n k s = s := by
  cases k with
  | zero => rfl
  | succ k => simp [pumpLoop, hm]

theorem pumpLoop_start {n : Nat} {s : State} {d : SendDesc} (hm : maySend s (getQp s n) = true) (htx : (getQp s n).txq = [])
    (hd : ((getQp s n).sq.find? fun d => !d.started) = some d) (hf : (getQp s n).sfault = none) (he : (getQp s n).edge = none) (k : Nat) :
    pumpLoop n (k + 1) s = pumpLoop n k (startSend n d s) := by
  simp [pumpLoop, hm, htx, hd, hf, he]

theorem pumpLoop_send {n : Nat} {s : State} {p : LntPkt} {ps : List LntPkt} (hm : maySend s (getQp s n) = true) (htx : (getQp s n).txq = p :: ps)
    (hr : sendRoom (getQp s n) = true) (he : (getQp s n).engine ≠ 4) (k : Nat) :
    pumpLoop n (k + 1) s = pumpLoop n k (sendFirst n p s) := by
  simp [pumpLoop, hm, htx, hr, lntRefused_ethernet he]

theorem pump_idle {n : Nat} {s : State} (htx : (getQp s n).txq = []) (hsq : ∀ d ∈ (getQp s n).sq, d.started = true) : pump n s = s :=
  pumpLoop_idle htx hsq _

section
variable {n : Nat} {v : Qp} {os : List Out} {s t : State} (h : QpWork n v os s t)
include h

theorem QpWork.idle (htx : v.txq = []) (hsq : ∀ d ∈ v.sq, d.started = true) : pump n t = t :=
  pump_idle (by rw [h.qp, htx]) (by rw [h.qp]; exact hsq)

theorem QpWork.may : maySend t v = maySend s v := by unfold maySend; rw [h.up]

/-- Packets sent again leave one by one (12 R228). -/
theorem QpWork.resendAll (he : v.engine ≠ 4) (es : List Sent) : QpWork n v (os ++ resent s v es) s
    (es.foldl (fun s e => meterTx v.ctx e.pkt.len (sendLnt v.ctx v.engine v.peer (resendPkt s v e.pkt) s)) t) := by
  induction es generalizing os t with
  | nil => simpa [resent] using h
  | cons e es ih =>
    have hp : resendPkt t v e.pkt = resendPkt s v e.pkt := by unfold resendPkt; rw [h.lark]
    have h1 := ih ((h.send he v.ctx v.peer (resendPkt t v e.pkt)).meteredTx v.ctx e.pkt.len)
    rw [hp, List.append_assoc] at h1
    rw [List.foldl_cons, hp]; exact h1

theorem QpWork.resend (he : v.engine ≠ 4) (psn : Nat) :
    QpWork n { v with unacked := v.unacked.map fun e => if psn ≤ e.psn then { e with at_ := s.lark.time } else e }
      (os ++ resent s v (v.unacked.filter fun e => decide (psn ≤ e.psn))) s (resendFrom n psn t) := by
  have hr := h.resendAll he (v.unacked.filter fun e => decide (psn ≤ e.psn))
  unfold resendFrom; dsimp only
  rw [h.qp, hr.lark]; exact hr.change (by rfl)

end

/-! The end of a queue pair (12 R251). -/

theorem foldl_erase_self {α : Type} [BEq α] [LawfulBEq α] (l : List α) : l.foldl List.erase l = [] := by
  induction l with
  | nil => rfl
  | cons a l ih => rw [List.foldl_cons, List.erase_cons_head, ih]

/-- A queue pair whose descriptors have all completed with a status. -/
def failedQp (v : Qp) (status detail : Nat) : Qp :=
  { v with sq := [], cq := v.cq ++ v.sq.map (fun d => sendRec d status detail d.moved), sendCnt := v.sendCnt + BitVec.ofNat 32 v.sq.length }

theorem QpWork.completeAll {n : Nat} {v : Qp} {os : List Out} {s t : State} (h : QpWork n v os s t) (status detail : Nat) (l : List SendDesc) :
    ∃ os', QpWork n { v with sq := l.foldl List.erase v.sq, cq := v.cq ++ l.map (fun d => sendRec d status detail d.moved)
                             sendCnt := v.sendCnt + BitVec.ofNat 32 l.length } os' s
      (l.foldl (fun s d => finishSend n d status detail d.moved s) t) := by
  induction l generalizing v os t with
  | nil => exact ⟨os, by simpa using h⟩
  | cons d l ih =>
    obtain ⟨os', h'⟩ := ih (h.complete d status detail d.moved)
    refine ⟨os', ?_⟩
    have hc : v.sendCnt + 1 + BitVec.ofNat 32 l.length = v.sendCnt + BitVec.ofNat 32 (d :: l).length := by
      rw [List.length_cons, BitVec.ofNat_add, BitVec.add_assoc, BitVec.add_comm 1]; rfl
    simpa only [sentQp, hc, List.append_assoc, List.singleton_append, List.map_cons, List.foldl_cons] using h'

theorem failSends_work (n status detail : Nat) (s : State) : ∃ os, QpWork n (failedQp (getQp s n) status detail) os s (failSends n status detail s) := by
  have h := (QpWork.refl n s).completeAll status detail (getQp s n).sq
  rwa [foldl_erase_self] at h

/-- TERMINATE to the peer of a queue pair. -/
def IsTerminate (n status peer : Nat) (p : LntPkt) : Prop := p.typ = 0x0F ∧ p.imm = status ∧ p.dest = peer ∧ p.src = n

theorem QpWork.terminate {n : Nat} {v : Qp} {os : List Out} {s t : State} (h : QpWork n v os s t) (status : Nat) (via : Option Nat) :
    ∃ k os', QpWork n { v with ctlTx := k } (os ++ os') s (sendTerminate n status via t) ∧
      (via = none → ∀ peer, v.peerQp = some peer → v.engine ≠ 4 → linkUp s v.engine = true →
        ∃ p, Out.lnt v.engine v.peer p ∈ os' ∧ IsTerminate n status peer p) := by
  unfold sendTerminate; dsimp only; rw [h.qp, h.up]; split
  · by_cases he : via.getD v.engine = 4
    · have hm := h.change (f := fun v => { v with ctlTx := v.ctlTx + 1 }) rfl
      obtain ⟨os', h'⟩ := hm.sends (sends_sendLnt v.ctx (via.getD v.engine) v.peer (ctlPkt t n (via.getD v.engine) 0x0F status 0 t.lark.time none) _)
      refine ⟨v.ctlTx + 1, os', ?_, ?_⟩
      · rw [sendCtl_eq, h.qp]; exact h'
      · rintro rfl peer - he' -; exact absurd he he'
    · refine ⟨v.ctlTx + 1, _, h.control he 0x0F status 0 t.lark.time none, ?_⟩
      rintro rfl peer hp - -
      exact ⟨_, List.mem_singleton.2 rfl, by simp [IsTerminate, h.qp, hp]⟩
  · rename_i hc
    refine ⟨v.ctlTx, [], by rw [List.append_nil]; exact h, ?_⟩
    rintro rfl peer hp - hl; exact absurd (by simp [hp, hl]) hc

/-- A queue pair that has ended with a status (12 R251). -/
def endedQp (v : Qp) (status detail k : Nat) : Qp :=
  { dropTransfers (failedQp v status detail) with st := 5, errStatus := status, ctlTx := k }

theorem qpFail_work (n status detail : Nat) (via : Option Nat) (s : State) :
    ∃ k os, QpWork n (endedQp (getQp s n) status detail k) os s (qpFail n status detail via s) ∧ (via = none → TellsPeer n status s (qpFail n status detail via s)) := by
  obtain ⟨os, h⟩ := failSends_work n status detail s
  obtain ⟨k, os', h', ht⟩ := h.terminate status via
  have hw : QpWork n (endedQp (getQp s n) status detail k) (os ++ os') s (qpFail n status detail via s) :=
    h'.change (f := fun v => { dropTransfers v with st := 5, errStatus := status }) (by rfl)
  refine ⟨k, _, hw, fun hv peer hp he hl => ?_⟩
  obtain ⟨p, hmem, hterm⟩ := ht hv peer hp (by show (getQp s n).engine ≠ 4; omega) hl
  refine ⟨p, ?_, hterm⟩
  rw [hw.out]; exact List.mem_append_right _ (List.mem_append_right _ hmem)

theorem QpWork.ended {n status detail k : Nat} {os : List Out} {s t : State} (h : QpWork n (endedQp (getQp s n) status detail k) os s t) :
    QpEnded n status s t := by
  refine ⟨by rw [h.qp]; rfl, by rw [h.qp]; rfl, by rw [h.qp]; rfl, by rw [h.qp]; rfl, by rw [h.qp]; rfl, by rw [h.qp]; rfl,
    ⟨(getQp s n).sq.map fun d => sendRec d status detail d.moved, by rw [h.qp]; rfl, by rw [List.map_map]; rfl⟩, by rw [h.qp]; rfl, h.others, h.mem, h.hostMem⟩

theorem qpFail_ended (n status detail : Nat) (via : Option Nat) (s : State) : QpEnded n status s (qpFail n status detail via s) := by
  obtain ⟨k, os, h, -⟩ := qpFail_work n status detail via s; exact h.ended

theorem qpFail_tells (n status detail : Nat) (s : State) : TellsPeer n status s (qpFail n status detail none s) := by
  obtain ⟨k, os, -, h⟩ := qpFail_work n status detail none s; exact h rfl

/-- 12 Table 12.5: in Connecting, Connected and Held a cause ends the queue pair. -/
theorem qpError_live {n : Nat} {s : State} (h : (getQp s n).st = 2 ∨ (getQp s n).st = 3 ∨ (getQp s n).st = 4) (status : Nat) :
    qpError n status s = qpFail n status (qpDetail s (getQp s n) status) none s := if_pos h

section
variable {n status : Nat} {v : Qp} {os : List Out} {s t u : State} (h : QpWork n v os s t)
include h

/-- Work before the end that leaves descriptors and their records. -/
theorem QpWork.thenEnded (hq : (v.sq, v.cq, v.sendCnt) = ((getQp s n).sq, (getQp s n).cq, (getQp s n).sendCnt)) (k : QpEnded n status t u) : QpEnded n status s u := by
  simp only [Prod.mk.injEq] at hq
  obtain ⟨hsq, hcq, hcnt⟩ := hq
  obtain ⟨hst, herr, hs, htx, hun, hre, ⟨rs, hc, hrs⟩, hn, ho, hm, hh⟩ := k
  rw [h.qp] at hc hrs hn
  exact ⟨hst, herr, hs, htx, hun, hre, ⟨rs, by rw [hc, hcq], by rw [hrs, hsq]⟩, by rw [hn, hcnt, hsq], fun m hm => (ho m hm).trans (h.others m hm),
    hm.trans h.mem, hh.trans h.hostMem⟩

/-- Work before the end that leaves the binding. -/
theorem QpWork.thenTells (hp : (v.peerQp, v.engine, v.peer) = ((getQp s n).peerQp, (getQp s n).engine, (getQp s n).peer)) (k : TellsPeer n status t u) :
    TellsPeer n status s u := by
  simp only [Prod.mk.injEq] at hp
  obtain ⟨hpq, hpe, hpp⟩ := hp
  unfold TellsPeer at *
  rw [h.qp, hpq, hpe, hpp] at k
  simpa only [h.up] using k

end

end Sys2Proof.Machine
end

section
/-! O47. Queue pairs: creation, connection, the flap hold and the end (12 R237 to R240, R250 to R252). -/

namespace Sys2Proof.Machine

/-! Packets at a port. -/

/-- A good packet of a known type reaches the command of its type. -/
theorem rxPkt_arrives {s : State} {p : LntPkt} {typ : Nat} (h : Arrives s p typ) (hk : lntTyp typ = true) (body : LntPkt → State → State) :
    rxPkt typ body p s = body p s := by
  obtain ⟨-, hl, hi, rfl⟩ := h
  simp [rxPkt, hl, hi, hk]

section
variable {n : Nat} {v : Qp} {os : List Out} {s t : State} (h : QpWork n v os s t)
include h

theorem QpWork.drawn (k : Nat) : QpWork n v os s (drawBytes k t).2 := by
  have hd : QpWork n v [] t (drawBytes k t).2 := ⟨h.qp, fun _ _ => rfl, (List.append_nil _).symm, rfl⟩
  simpa using h.trans hd

end

/-! The commands (12 R237, R239, Table 12.5, Table 12.8). -/

section
variable {s : State} {p : Packet} {n : Nat}

theorem withQp_live (hst : (getQp s (bits (p.w 0) 0 24)).st ≠ 0) (hsc : inScope s p.ctx (getQp s (bits (p.w 0) 0 24)).ctx = true)
    (k : Nat → Reply × State) : withQp p s k = k (bits (p.w 0) 0 24) := by
  simp [withQp, hst, hsc]

theorem qpCreate_makes (q : QRef) {base : Nat} (he : bits (p.w 0) 0 3 ≤ 4) (hq : quarantined s (unitId 9 (bits (p.w 0) 0 3)) = false)
    (hs : 4 ≤ bits (p.w 3) 0 4 ∧ bits (p.w 3) 0 4 ≤ 12) (hr : 4 ≤ bits (p.w 3) 4 4 ∧ bits (p.w 3) 4 4 ≤ 12)
    (h4 : bits (p.w 0) 0 3 = 4 → p.w 1 < 2 ^ 17 ∧ p.w 2 = 0)
    (hn : nextNumber (qpRange s (getCtx s p.ctx).part).1 (qpRange s (getCtx s p.ctx).part).2 ((s.lnt.qps.filter fun x => x.2.st != 0).map Prod.fst)
      s.lnt.freedQp = some n)
    (hb : firstFit (hbmWindow s (getCtx s p.ctx).part).1 (hbmWindow s (getCtx s p.ctx).part).2 4096 (ringBytes (bits (p.w 3) 0 4) (bits (p.w 3) 4 4))
      (usedRanges s ++ scrubRanges s) = some base) :
    qpCreate q p s = (.done (Done.res n 0), putQp n { Qp.init with
      st := 1, ctx := p.ctx, engine := bits (p.w 0) 0 3, notReady := bitOf (p.w 0) 8, peer := p.w 1 + p.w 2 * 2 ^ 64, s := bits (p.w 3) 0 4
      r := bits (p.w 3) 4 4, base := base, cc := ccFor s p.ctx (bits (p.w 0) 0 3) } (onLnt (fun l => { l with freedQp := l.freedQp.filter (· != n) }) s)) := by
  have h1 : ¬ (bits (p.w 3) 0 4 < 4 ∨ 12 < bits (p.w 3) 0 4) := by omega
  have h2 : ¬ (bits (p.w 3) 4 4 < 4 ∨ 12 < bits (p.w 3) 4 4) := by omega
  have h3 : ¬ (bits (p.w 0) 0 3 = 4 ∧ 2 ^ 17 ≤ p.w 1) := fun ⟨e, hw⟩ => by have := (h4 e).1; omega
  have h5 : ¬ (bits (p.w 0) 0 3 = 4 ∧ p.w 2 ≠ 0) := fun ⟨e, hw⟩ => hw (h4 e).2
  unfold qpCreate; dsimp only
  rw [if_neg (by omega), if_neg (by simp [hq]), if_neg h1, if_neg h2, if_neg h3, if_neg h5]
  simp only [hn, hb]; rfl

theorem qpCreate_refused (q : QRef) (he : bits (p.w 0) 0 3 ≤ 4) (hq : quarantined s (unitId 9 (bits (p.w 0) 0 3)) = false)
    (h : bits (p.w 3) 0 4 < 4 ∨ 12 < bits (p.w 3) 0 4 ∨ bits (p.w 3) 4 4 < 4 ∨ 12 < bits (p.w 3) 4 4) :
    ∃ d, qpCreate q p s = (.done (Done.fail 0x0105 d), s) := by
  unfold qpCreate; dsimp only
  rw [if_neg (by omega), if_neg (by simp [hq])]
  by_cases hs : bits (p.w 3) 0 4 < 4 ∨ 12 < bits (p.w 3) 0 4
  · exact ⟨_, if_pos hs⟩
  · exact ⟨paramAt 3 4, by rw [if_neg hs, if_pos (by omega)]; rfl⟩

/-- A queue pair in Connecting with a nonce (12 R240). -/
def connectingQp (v : Qp) (k : Option Key) (nonce : List Byte) (now : Nat) : Qp :=
  { v with st := 2, linkId := keyIdOf k, link := (match k with | some k => k.material | none => []), prot := k.isSome, nonceI := nonce, connSince := now }

/-- CONNECT of a queue pair. -/
def connectPkt (s : State) (n : Nat) : LntPkt := { qpPkt s n 0x0B with dest := 0, len := 32, payload := (getQp s n).linkId ++ (getQp s n).nonceI }

theorem sendConnect_ethernet (he : (getQp s n).engine < 4) : sendConnect n s =
    if linkUp s (getQp s n).engine then emit (.lnt (getQp s n).engine (getQp s n).peer (connectPkt s n)) s else s := by
  unfold sendConnect; simp only [sendLnt_ethernet (show (getQp s n).engine ≠ 4 by omega)]; rfl

theorem QpWork.connects {v : Qp} {os : List Out} {t : State} (h : QpWork n v os s t) (he : v.engine < 4) :
    QpWork n v (os ++ if linkUp s v.engine then [.lnt v.engine v.peer (connectPkt t n)] else []) s (sendConnect n t) := by
  rw [sendConnect_ethernet (by rw [h.qp]; exact he), h.qp, h.up]; split
  · exact h.emits _
  · simpa using h

/-- A queue pair in Connecting whose CONNECT has not left. -/
def connecting (n : Nat) (k : Option Key) (s : State) : State :=
  modQp n (fun v => connectingQp v k (drawBytes 16 s).1 s.lark.time) (drawBytes 16 s).2

theorem connecting_work (s : State) (n : Nat) (k : Option Key) :
    QpWork n (connectingQp (getQp s n) k (drawBytes 16 s).1 s.lark.time) [] s (connecting n k s) :=
  ((QpWork.refl n s).drawn 16).change (by rfl)

theorem startConnect_ethernet (he : (getQp s n).engine < 4) (k : Option Key) : startConnect n k s = sendConnect n (connecting n k s) := by
  have hq := (connecting_work s n k).qp
  have hr : lntRefused (connecting n k s) (getQp (connecting n k s) n).ctx (getQp (connecting n k s) n).engine (getQp (connecting n k s) n).peer = none :=
    lntRefused_ethernet (by rw [hq]; exact Nat.ne_of_lt he) ..
  show (match lntRefused (connecting n k s) (getQp (connecting n k s) n).ctx (getQp (connecting n k s) n).engine (getQp (connecting n k s) n).peer with
    | some st => qpError n st (connecting n k s) | none => sendConnect n (connecting n k s)) = _
  rw [hr]

/-- 12 Table 12.5: from Init to Connecting. -/
theorem startConnect_work (he : (getQp s n).engine < 4) (k : Option Key) :
    QpWork n (connectingQp (getQp s n) k (drawBytes 16 s).1 s.lark.time)
      (if linkUp s (getQp s n).engine then [.lnt (getQp s n).engine (getQp s n).peer (connectPkt (connecting n k s) n)] else []) s (startConnect n k s) := by
  rw [startConnect_ethernet he]; exact (connecting_work s n k).connects he

/-- What Connecting asks of the link key (12 R240). -/
theorem qpModify_connects (q : QRef) (hst : (getQp s (bits (p.w 0) 0 24)).st = 1)
    (hsc : inScope s p.ctx (getQp s (bits (p.w 0) 0 24)).ctx = true) (ht : bits (p.w 1) 0 4 = 2) (he : (getQp s (bits (p.w 0) 0 24)).engine < 4) :
    qpModify q p s = if (linkKeyOf s (getQp s (bits (p.w 0) 0 24)).ctx).isNone ∧ s.host.confidential = true then refuse s 0x0203 (2 + 2 ^ 10 + 2 * 2 ^ 20)
      else (.done Done.ok, startConnect (bits (p.w 0) 0 24) (linkKeyOf s (getQp s (bits (p.w 0) 0 24)).ctx) s) := by
  have hk : qpKey s (getQp s (bits (p.w 0) 0 24)).engine (getQp s (bits (p.w 0) 0 24)).ctx = linkKeyOf s (getQp s (bits (p.w 0) 0 24)).ctx := by
    simp [qpKey, show (getQp s (bits (p.w 0) 0 24)).engine ≠ 4 by omega]
  unfold qpModify
  rw [withQp_live (by omega) hsc]; dsimp only
  rw [if_pos ⟨ht, hst⟩, hk]
  simp [show (getQp s (bits (p.w 0) 0 24)).engine ≠ 4 by omega]

theorem qpModify_errs (q : QRef) (hst : (getQp s (bits (p.w 0) 0 24)).st = 3)
    (hsc : inScope s p.ctx (getQp s (bits (p.w 0) 0 24)).ctx = true) (ht : bits (p.w 1) 0 4 = 5) :
    qpModify q p s = (.done Done.ok, qpError (bits (p.w 0) 0 24) 0x0401 s) := by
  unfold qpModify
  rw [withQp_live (by omega) hsc]; simp [ht, hst]

theorem qpModify_reinits (q : QRef) (hst : (getQp s (bits (p.w 0) 0 24)).st = 5)
    (hsc : inScope s p.ctx (getQp s (bits (p.w 0) 0 24)).ctx = true) (ht : bits (p.w 1) 0 4 = 1) :
    qpModify q p s = (.done Done.ok, modQp (bits (p.w 0) 0 24) qpReinit s) := by
  unfold qpModify
  rw [withQp_live (by omega) hsc]; simp [ht, hst]

theorem qpModify_refused (q : QRef) (hst : (getQp s (bits (p.w 0) 0 24)).st ≠ 0) (hsc : inScope s p.ctx (getQp s (bits (p.w 0) 0 24)).ctx = true)
    (ht : bits (p.w 1) 0 4 = 0 ∨ 5 < bits (p.w 1) 0 4 ∨ bits (p.w 1) 0 4 = 3 ∨ bits (p.w 1) 0 4 = 4 ∨
      bits (p.w 1) 0 4 = 2 ∧ (getQp s (bits (p.w 0) 0 24)).st ≠ 1 ∨ bits (p.w 1) 0 4 = 1 ∧ (getQp s (bits (p.w 0) 0 24)).st ≠ 5) :
    qpModify q p s = (.done (Done.fail 0x0401 (getQp s (bits (p.w 0) 0 24)).st), s) := by
  unfold qpModify
  rw [withQp_live hst hsc]; dsimp only
  rw [if_neg (by omega), if_neg (by omega), if_neg (by omega)]; rfl

theorem removeQp_eq (hst : (getQp s n).st ≠ 0) (status : Nat) : removeQp status n s =
    onLnt (fun l => { l with qps := tabDel l.qps n, freedQp := l.freedQp ++ [n] }) (qpFail n status (qpDetail s (getQp s n) status) none s) := if_neg hst

theorem ccConfig_named (q : QRef) (hst : (getQp s (bits (p.w 0) 0 24)).st ≠ 0) (hsc : inScope s p.ctx (getQp s (bits (p.w 0) 0 24)).ctx = true)
    (hn : bits (p.w 0) 0 24 ≠ 0xFFFFFF) (h2 : rsvdWord 2 (0xFFFF + (2 ^ 64 - 2 ^ 32)) (p.w 2) = none)
    (h4 : rsvdWord 4 (2 ^ 36 - 1 + 7 * 2 ^ 60) (p.w 4) = none) :
    ccConfig q p s = match ccFault p with
      | some e => refuse s 0x0105 (paramAt e.1 e.2)
      | none => (.done Done.ok, modQp (bits (p.w 0) 0 24) (fun v => { v with cc := ccOf p }) s) := by
  unfold ccConfig; dsimp only
  rw [if_neg hn, withQp_live hst hsc, h2, h4]; rfl

/-- 12 Table 12.8: what a block in range meets. -/
theorem ccFault_none (h : ccFault p = none) : 1000 ≤ (ccOf p).target ∧ 8192 ≤ (ccOf p).cwndMin ∧ (ccOf p).cwndMin ≤ (ccOf p).cwndInit ∧
    (ccOf p).cwndInit ≤ (ccOf p).cwndMax ∧ (ccOf p).cwndMax ≤ 16777216 ∧ 1 ≤ (ccOf p).retry := by
  unfold ccFault at h; dsimp only at h
  repeat' split at h
  all_goals cases h
  simp only [ccOf]; omega

end

/-! Connection (12 R240). -/

section
variable {s : State} {p : LntPkt}

/-- The queue pair that CONNECT binds provisionally. -/
def provQp (s : State) (v : Qp) (n : Nat) (p : LntPkt) : Qp :=
  let k := if v.st = 2 then (if v.prot then some v.link else none) else (qpKey s v.engine v.ctx).map Key.material
  let ks := linkKeys (k.getD []) (sub p.payload 16 16) (drawBytes 16 s).1 (p.src % 2 ^ 24) n
  { v with
    prov := some (p.src % 2 ^ 24, s.lark.time), prot := k.isSome, link := k.getD [], linkId := sub p.payload 0 16, nonceI := sub p.payload 16 16
    nonceR := (drawBytes 16 s).1, kTx := ks.2, kRx := ks.1, initiator := false }

theorem sendAccept_work {n : Nat} (he : (getQp s n).engine ≠ 4) : ∃ pkt, QpWork n (provQp s (getQp s n) n p)
    [.lnt (getQp s n).engine (getQp s n).peer pkt] s (sendAccept n p s) ∧ pkt.typ = 0x0C ∧ pkt.dest = p.src % 2 ^ 24 ∧ pkt.src = n ∧
      pkt.payload = (drawBytes 16 s).1 := by
  have h : QpWork n (provQp s (getQp s n) n p) [] s (modQp n (fun _ => provQp s (getQp s n) n p) (drawBytes 16 s).2) :=
    ((QpWork.refl n s).drawn 16).change (by rfl)
  exact ⟨_, h.send he (getQp s n).ctx _ _, rfl, rfl, rfl, rfl⟩

theorem connectIn_binds {n : Nat} {v : Qp} (hr : tabFind (fun _ v => rebinds p v) s.lnt.qps = none)
    (ha : tabFind (fun _ v => accepts s p v) s.lnt.qps = some (n, v)) : connectIn p s = sendAccept n p s := by
  unfold connectIn; rw [hr, ha]; rfl

theorem connectIn_rejects (hr : tabFind (fun _ v => rebinds p v) s.lnt.qps = none) (ha : tabFind (fun _ v => accepts s p v) s.lnt.qps = none)
    (he : p.engine ≠ 4) : ∃ pkt, connectIn p s = { s with out := s.out ++ [.lnt p.engine p.srcAddr pkt] } ∧ pkt.typ = 0x0E ∧ pkt.dest = p.src % 2 ^ 24 := by
  refine ⟨{ mkPkt s p.engine 0x0E (p.src % 2 ^ 24) with srcPort := 0xC000, dstPort := 0x4B35 }, ?_, rfl, rfl⟩
  unfold connectIn; rw [hr, ha]
  simp only [Option.or, sendLnt_ethernet he, if_neg he]; rfl

/-- What a qualifying queue pair meets. -/
theorem accepts_true {v : Qp} (h : accepts s p v = true) : v.engine = p.engine ∧ v.peer = p.srcAddr := by
  simp only [accepts, Bool.and_eq_true, beq_iff_eq] at h
  exact ⟨h.1.1.1.1.1.1, h.1.1.1.1.1.2⟩

/-- A queue pair that has just become Connected. -/
def connectedQp (v : Qp) (peer : Nat) : Qp := { v with st := 3, peerQp := some peer, prov := none, cwnd := v.cc.cwndInit, ctlTx := 1, ctlRx := 1 }

/-- With no descriptor queued nothing leaves. -/
theorem connected_idle {n : Nat} (htx : (getQp s n).txq = []) (hsq : (getQp s n).sq = []) (peer : Nat) :
    connected n peer s = modQp n (fun v => connectedQp v peer) s :=
  pump_idle (by rw [modQp_eq, getQp_putQp_same]; exact htx) (by rw [modQp_eq, getQp_putQp_same]; simp [hsq])

/-- The initiator's queue pair under the keys of an ACCEPT. -/
def keyedQp (v : Qp) (p : LntPkt) (ks : List Byte × List Byte) : Qp :=
  { v with nonceR := sub p.payload 0 16, kTx := ks.1, kRx := ks.2, initiator := true, peerQp := some (p.src % 2 ^ 24) }

/-- 12 R240: a good ACCEPT connects the initiator, and CONFIRM leaves. -/
theorem acceptIn_connects {n : Nat} {ks : List Byte × List Byte} (hn : n = p.dest % 2 ^ 24) (he : (getQp s n).engine = p.engine)
    (hp : (getQp s n).peer = p.srcAddr) (hc : ctxActive s (getQp s n).ctx = true) (hst : (getQp s n).st = 2) (h4 : p.engine ≠ 4)
    (hks : ks = linkKeys (getQp s n).link (getQp s n).nonceI (sub p.payload 0 16) n (p.src % 2 ^ 24))
    (htag : (getQp s n).prot = true → handTag ks.2 6 (getQp s n).linkId (getQp s n).nonceI (sub p.payload 0 16) = p.tag)
    (hsq : (getQp s n).sq = []) (htx : (getQp s n).txq = []) :
    ∃ pkt, QpWork n (connectedQp (keyedQp (getQp s n) p ks) (p.src % 2 ^ 24)) [.lnt p.engine p.srcAddr pkt] s (acceptIn p s) ∧ pkt.typ = 0x0D := by
  have h0 : QpWork n (keyedQp (getQp s n) p ks) [] s (modQp n (fun v => keyedQp v p ks) s) := (QpWork.refl n s).change rfl
  let pkt : LntPkt := { qpPkt (modQp n (fun v => keyedQp v p ks) s) n 0x0D with
    tag := if (getQp s n).prot then handTag ks.1 5 (getQp s n).linkId (getQp s n).nonceI (sub p.payload 0 16) else [] }
  have h1 := h0.send h4 (getQp s n).ctx p.srcAddr pkt
  have hg : ((getQp s n).prot && handTag ks.2 6 (getQp s n).linkId (getQp s n).nonceI (sub p.payload 0 16) != p.tag) = false := by
    cases hb : (getQp s n).prot
    · rfl
    · simp [htag hb]
  refine ⟨pkt, ?_, rfl⟩
  unfold acceptIn; dsimp only
  rw [← hn, ← hks, if_neg (by simp [hst, he, hp, hc]), hg, if_neg nofun, he, hp]
  have hi := connected_idle (by rw [h1.qp]; exact htx) (by rw [h1.qp]; exact hsq) (p.src % 2 ^ 24)
  exact hi ▸ h1.change rfl

theorem acceptIn_drops {n : Nat} (hn : n = p.dest % 2 ^ 24) (he : (getQp s n).engine = p.engine)
    (hp : (getQp s n).peer = p.srcAddr) (hc : ctxActive s (getQp s n).ctx = true) (hst : (getQp s n).st = 2) (hprot : (getQp s n).prot = true)
    (htag : handTag (linkKeys (getQp s n).link (getQp s n).nonceI (sub p.payload 0 16) n (p.src % 2 ^ 24)).2 6 (getQp s n).linkId (getQp s n).nonceI
      (sub p.payload 0 16) ≠ p.tag) : acceptIn p s = dropLnt p.engine s := by
  unfold acceptIn; dsimp only
  rw [← hn, if_neg (by simp [hst, he, hp, hc]), if_pos (by simp only [hprot, Bool.true_and, bne_iff_ne]; exact htag)]

/-- 12 R240: a CONFIRM for the bound source at the responder. -/
theorem confirmIn_eq {n at_ : Nat} (hn : n = p.dest % 2 ^ 24) (he : (getQp s n).engine = p.engine) (hp : (getQp s n).peer = p.srcAddr)
    (hst : (getQp s n).st = 1 ∨ (getQp s n).st = 2) (hb : (getQp s n).prov = some (p.src % 2 ^ 24, at_)) : confirmIn p s =
      if (getQp s n).prot && handTag (getQp s n).kRx 5 (getQp s n).linkId (getQp s n).nonceI (getQp s n).nonceR != p.tag then dropLnt p.engine s
      else connected n (p.src % 2 ^ 24) s := by
  unfold confirmIn; dsimp only
  rw [← hn, if_neg]
  rcases hst with hst | hst <;> simp [hst, he, hp, hb]

section
variable {n : Nat} (hn : n = p.dest % 2 ^ 24) (hst : (getQp s n).st = 3 ∨ (getQp s n).st = 4) (hp : (getQp s n).peerQp = some (p.src % 2 ^ 24))
  (hc : ctxActive s (getQp s n).ctx = true)
include hn hst hp hc

/-- 12 R251: what TERMINATE does at a queue pair that is bound to its sender. -/
theorem terminateIn_drops (hpr : (getQp s n).prot = true) (hs : ctlSeq (getQp s n).kRx (rxDir (getQp s n)) (getQp s n).ctlRx p = none) :
    terminateIn p s = dropLnt p.engine s := by
  unfold terminateIn; dsimp only
  rw [← hn, if_neg (by rcases hst with hst | hst <;> simp [hst, hp, hc]), if_pos hpr, hs]

theorem terminateIn_verified {c : Nat} (hpr : (getQp s n).prot = true) (hs : ctlSeq (getQp s n).kRx (rxDir (getQp s n)) (getQp s n).ctlRx p = some c) :
    terminateIn p s = qpError n (p.imm % 2 ^ 16) (modQp n (fun v => { v with ctlRx := c + 1 }) s) := by
  unfold terminateIn; dsimp only
  rw [← hn, if_neg (by rcases hst with hst | hst <;> simp [hst, hp, hc]), if_pos hpr, hs]

theorem terminateIn_plain (hpr : (getQp s n).prot = false) (he : p.engine = (getQp s n).engine ∧ p.srcAddr = (getQp s n).peer) :
    terminateIn p s = qpError n (p.imm % 2 ^ 16) s := by
  unfold terminateIn; dsimp only
  rw [← hn, if_neg (by rcases hst with hst | hst <;> simp [hst, hp, hc]), if_neg (by simp [hpr]), if_pos he]

end

/-- A cause ends a live queue pair with its status (12 R251). -/
theorem qpError_ended {n : Nat} (h : (getQp s n).st = 2 ∨ (getQp s n).st = 3 ∨ (getQp s n).st = 4) (status : Nat) : QpEnded n status s (qpError n status s) := by
  rw [qpError_live h]; exact qpFail_ended ..

theorem qpError_tells {n : Nat} (h : (getQp s n).st = 2 ∨ (getQp s n).st = 3 ∨ (getQp s n).st = 4) (status : Nat) : TellsPeer n status s (qpError n status s) := by
  rw [qpError_live h]; exact qpFail_tells n status _ s

theorem terminateIn_ends {n : Nat} (hn : n = p.dest % 2 ^ 24) (hst : (getQp s n).st = 3 ∨ (getQp s n).st = 4)
    (hp : (getQp s n).peerQp = some (p.src % 2 ^ 24)) (hc : ctxActive s (getQp s n).ctx = true)
    (h : (∃ c, (getQp s n).prot = true ∧ ctlSeq (getQp s n).kRx (rxDir (getQp s n)) (getQp s n).ctlRx p = some c) ∨
      (getQp s n).prot = false ∧ p.engine = (getQp s n).engine ∧ p.srcAddr = (getQp s n).peer) : QpEnded n (p.imm % 2 ^ 16) s (terminateIn p s) := by
  rcases h with ⟨c, hpr, hs⟩ | ⟨hpr, he⟩
  · have hw : QpWork n { getQp s n with ctlRx := c + 1 } [] s (modQp n (fun v => { v with ctlRx := c + 1 }) s) := (QpWork.refl n s).change rfl
    rw [terminateIn_verified hn hst hp hc hpr hs]
    exact hw.thenEnded rfl (qpError_ended (by rw [hw.qp]; exact .inr hst) _)
  · rw [terminateIn_plain hn hst hp hc hpr he]; exact qpError_ended (.inr hst) _

end

/-! What sending leaves of a queue pair (12 R242, R250). -/

/-- A queue pair stays on its engine, and by an Ethernet engine it keeps its state and its window. -/
def QpStays (v w : Qp) : Prop := w.engine = v.engine ∧ (v.engine ≠ 4 → w.st = v.st ∧ w.cwnd = v.cwnd)

theorem QpStays.refl (v : Qp) : QpStays v v := ⟨rfl, fun _ => ⟨rfl, rfl⟩⟩
theorem QpStays.trans {u v w : Qp} (h : QpStays u v) (k : QpStays v w) : QpStays u w :=
  ⟨k.1.trans h.1, fun he => ⟨(k.2 (h.1 ▸ he)).1.trans (h.2 he).1, (k.2 (h.1 ▸ he)).2.trans (h.2 he).2⟩⟩

/-- Only queue pair `n` and what sends touch changes, and the queue pair stays. -/
def Sending (n : Nat) (s t : State) : Prop := ∃ v os, QpWork n v os s t ∧ QpStays (getQp s n) v

theorem Sending.refl (n : Nat) (s : State) : Sending n s s := ⟨_, _, .refl n s, .refl _⟩

section
variable {n : Nat} {s t u : State} (h : Sending n s t)
include h

theorem Sending.trans (k : Sending n t u) : Sending n s u := by
  obtain ⟨v, os, hv, hk⟩ := h
  obtain ⟨w, os', hw, hk'⟩ := k
  exact ⟨w, _, hv.trans hw, hk.trans (hv.qp ▸ hk')⟩

theorem Sending.change {f : Qp → Qp} (hf : ∀ v, QpStays v (f v)) : Sending n s (modQp n f t) := by
  obtain ⟨v, os, hv, hk⟩ := h
  exact ⟨_, _, hv.change rfl, hk.trans (hf v)⟩

theorem Sending.sends (k : Sends t u) : Sending n s u := by
  obtain ⟨v, os, hv, hk⟩ := h
  obtain ⟨os', hu⟩ := hv.sends k
  exact ⟨v, _, hu, hk⟩

theorem Sending.complete (d : SendDesc) (status detail rlen : Nat) : Sending n s (finishSend n d status detail rlen t) := by
  obtain ⟨v, os, hv, hk⟩ := h
  exact ⟨_, _, hv.complete d status detail rlen, hk.trans ⟨rfl, fun _ => ⟨rfl, rfl⟩⟩⟩

theorem Sending.markSent (d : SendDesc) : Sending n s (markSent n d t) := h.change fun _ => ⟨rfl, fun _ => ⟨rfl, rfl⟩⟩

theorem Sending.queuePkts (ps : List LntPkt) : Sending n s (queuePkts n ps t) := h.change fun _ => ⟨rfl, fun _ => ⟨rfl, rfl⟩⟩

end

theorem sends_meter (c : Nat) (f : Meter → Meter) (s : State) : Sends s (meter c f s) := ⟨meter_sendOnly c f s, .of_eq (meter_out c f s)⟩

section
variable (n : Nat) (s : State)

theorem stallSend_sending (dva : Nat) : Sending n s (stallSend n dva s) := by
  unfold stallSend
  refine Sending.sends ?_ (sends_raiseEv ..)
  exact (Sending.refl n s).change fun _ => ⟨rfl, fun _ => ⟨rfl, rfl⟩⟩

theorem sendMsg_sending (d : SendDesc) : Sending n s (sendMsg n d s) := by
  have hm := (Sending.refl n s).markSent d
  unfold sendMsg
  dsimp only; split
  · refine Sending.complete ?_ ..
    exact (Sending.refl n s).change fun _ => ⟨rfl, fun _ => ⟨rfl, rfl⟩⟩
  split
  · exact hm.queuePkts _
  split
  · exact hm.queuePkts _
  split
  · exact hm.queuePkts _
  · exact stallSend_sending ..
  · exact (Sending.refl n s).complete ..

theorem startSend_sending (d : SendDesc) : Sending n s (startSend n d s) := by
  unfold startSend; dsimp only
  repeat' split
  · refine Sending.complete ?_ ..
    exact (Sending.refl n s).change fun _ => ⟨rfl, fun _ => ⟨rfl, rfl⟩⟩
  · exact (Sending.refl n s).complete ..
  · exact (Sending.refl n s).complete ..
  · exact sendMsg_sending ..
  · exact (Sending.refl n s).change fun _ => ⟨rfl, fun _ => ⟨rfl, rfl⟩⟩
  · exact sendMsg_sending ..

theorem leftEngine_sending (p : LntPkt) : Sending n s (leftEngine n p s) := by
  unfold leftEngine
  repeat' split
  · exact (Sending.refl n s).complete ..
  · exact .refl n s
  · exact .refl n s

theorem sendFirst_sending (p : LntPkt) : Sending n s (sendFirst n p s) := by
  unfold sendFirst
  refine Sending.trans ?_ (leftEngine_sending ..)
  refine Sending.sends (Sending.sends ?_ (sends_sendLnt ..)) (sends_meter ..)
  exact (Sending.refl n s).change fun _ => ⟨rfl, fun _ => ⟨rfl, rfl⟩⟩

/-- An engine that refuses is engine 4. -/
theorem qpError_sending (h : (getQp s n).engine = 4) (status : Nat) : Sending n s (qpError n status s) := by
  unfold qpError; dsimp only; split
  · obtain ⟨k, os, hw, -⟩ := qpFail_work n status (qpDetail s (getQp s n) status) none s
    exact ⟨_, _, hw, rfl, fun h4 => absurd h h4⟩
  · exact .refl n s

theorem pumpLoop_sending (k : Nat) : Sending n s (pumpLoop n k s) := by
  induction k generalizing s with
  | zero => exact .refl n s
  | succ k ih =>
    unfold pumpLoop; dsimp only
    repeat' split
    case h_1 st hr =>
      by_cases he : (getQp s n).engine = 4
      · exact qpError_sending n s he st
      · rw [lntRefused_ethernet he] at hr; cases hr
    case h_2 p _ _ _ _ _ => exact (sendFirst_sending n s p).trans (ih _)
    case isFalse d _ _ => exact (startSend_sending n s d).trans (ih _)
    all_goals exact .refl n s

theorem pump_sending : Sending n s (pump n s) := pumpLoop_sending ..

end

/-! The queue pairs of an engine (12 R252). -/

/-- A key that reads as something is listed with it. -/
theorem tabGet_listed {α : Type} (d : α) (t : Tab α) (k : Nat) (h : tabGet d t k ≠ d) : (k, tabGet d t k) ∈ t := by
  induction t with
  | nil => exact absurd rfl h
  | cons e t ih =>
    obtain ⟨j, v⟩ := e
    by_cases hj : j = k
    · simp [tabGet, hj]
    · simp only [tabGet, if_neg hj] at h ⊢
      exact List.mem_cons_of_mem _ (ih h)

/-- A canonical table reads what it lists. -/
theorem tabGet_of_mem {α : Type} [DecidableEq α] (d : α) {t : Tab α} (hw : tabWf d t = true) {e : Nat × α} (he : e ∈ t) : tabGet d t e.1 = e.2 := by
  obtain ⟨hp, -⟩ := (tabWf_iff d t).1 hw
  clear hw
  induction t with
  | nil => cases he
  | cons a t ih =>
    obtain ⟨ha, hp⟩ := List.pairwise_cons.1 hp
    rcases List.mem_cons.1 he with rfl | he
    · simp [tabGet]
    · have := ha e he
      simp only [tabGet, if_neg (show a.1 ≠ e.1 by omega), ih he hp]

theorem mem_qpsOn {s : State} {e n : Nat} (h : (getQp s n).st ≠ 0) (he : (getQp s n).engine = e) : n ∈ qpsOn s e := by
  have hd : getQp s n ≠ Qp.init := fun hi => h (by rw [hi]; rfl)
  exact List.mem_map.2 ⟨_, List.mem_filter.2 ⟨tabGet_listed Qp.init s.lnt.qps n hd, by rw [← he]; simpa using ⟨h, rfl⟩⟩, rfl⟩

theorem qpsOn_of_wf {s : State} {e n : Nat} (hw : tabWf Qp.init s.lnt.qps = true) (h : n ∈ qpsOn s e) : (getQp s n).engine = e := by
  obtain ⟨x, hx, rfl⟩ := List.mem_map.1 h
  obtain ⟨hm, hc⟩ := List.mem_filter.1 hx
  have hg : getQp s x.1 = x.2 := tabGet_of_mem Qp.init hw hm
  simp only [Bool.and_eq_true, beq_iff_eq] at hc
  rw [hg]; exact hc.2

/-- Of the queue pairs only `n` may change, and no port does. -/
def OneQp (n : Nat) (s t : State) : Prop := (∀ m, m ≠ n → getQp t m = getQp s m) ∧ ∀ e, getEth t e = getEth s e

theorem OneQp.refl (n : Nat) (s : State) : OneQp n s s := ⟨fun _ _ => rfl, fun _ => rfl⟩
theorem QpWork.one {n : Nat} {v : Qp} {os : List Out} {s t : State} (h : QpWork n v os s t) : OneQp n s t := ⟨h.others, h.port⟩
theorem Sending.one {n : Nat} {s t : State} (h : Sending n s t) : OneQp n s t := by obtain ⟨v, os, hw, -⟩ := h; exact hw.one

section
variable {f : State → Nat → State} (hf : ∀ t n, OneQp n t (f t n))
include hf

theorem foldl_one (l : List Nat) (s : State) : (∀ m, m ∉ l → getQp (l.foldl f s) m = getQp s m) ∧ ∀ e, getEth (l.foldl f s) e = getEth s e := by
  induction l generalizing s with
  | nil => exact ⟨fun _ _ => rfl, fun _ => rfl⟩
  | cons n l ih =>
    obtain ⟨hq, he⟩ := ih (f s n)
    refine ⟨fun m hm => ?_, fun e => (he e).trans ((hf s n).2 e)⟩
    obtain ⟨hn, hl⟩ := not_or.1 (mt List.mem_cons.2 hm)
    exact (hq m hl).trans ((hf s n).1 m hn)

/-- What each step makes of its own queue pair, a second time as the first, holds of all in the end. -/
theorem foldl_each {R : Nat → Qp → Prop} (s : State) (hset : ∀ t n, getQp t n = getQp s n → R n (getQp (f t n) n))
    (hkeep : ∀ t n, R n (getQp t n) → R n (getQp (f t n) n)) (l : List Nat) : ∀ n ∈ l, R n (getQp (l.foldl f s) n) := by
  have hstep : ∀ t n, (getQp t n = getQp s n ∨ R n (getQp t n)) → R n (getQp (f t n) n) := fun t n h => h.elim (hset t n) (hkeep t n)
  refine foldl_establishes (I := fun t => ∀ n, getQp t n = getQp s n ∨ R n (getQp t n)) (P := fun n t => R n (getQp t n)) (fun t n hI m => ?_)
    (fun t n m _ hm => ?_) (fun t n hI => hstep t n (hI n)) l s fun _ => .inl rfl
  · by_cases hmn : m = n
    · subst hmn; exact .inr (hstep t m (hI m))
    · rw [(hf t n).1 m hmn]; exact hI m
  · by_cases hmn : m = n
    · subst hmn; exact hkeep t m hm
    · rw [(hf t n).1 m hmn]; exact hm

end

/-- A Connected queue pair is held. -/
def heldQp (v : Qp) : Qp := if v.st = 3 then { v with st := 4 } else v

theorem heldQp_heldQp (v : Qp) : heldQp (heldQp v) = heldQp v := by
  by_cases h : v.st = 3 <;> simp [heldQp, h]

/-- The hold of one queue pair. -/
def holdOne (s : State) (n : Nat) : State := if (getQp s n).st = 3 then modQp n (fun v => { v with st := 4 }) s else s

theorem getQp_holdOne (s : State) (n : Nat) : getQp (holdOne s n) n = heldQp (getQp s n) := by
  by_cases h : (getQp s n).st = 3 <;> simp [holdOne, heldQp, h]

theorem holdOne_one (s : State) (n : Nat) : OneQp n s (holdOne s n) := by
  unfold holdOne; split
  · exact ((QpWork.refl n s).change rfl).one
  · exact .refl n s

/-- Holding writes queue pairs alone. -/
theorem foldl_holdOne_frame (l : List Nat) (s : State) : l.foldl holdOne s = { s with lnt := { s.lnt with qps := (l.foldl holdOne s).lnt.qps } } := by
  induction l generalizing s with
  | nil => rfl
  | cons n l ih =>
    rw [List.foldl_cons, ih]
    unfold holdOne; split <;> rfl

/-- 12 R252: the Connected queue pairs of the engine are held, and no other changes. -/
theorem foldl_holdOne {s : State} {e : Nat} (hw : tabWf Qp.init s.lnt.qps = true) (n : Nat) : getQp ((qpsOn s e).foldl holdOne s) n =
    if (getQp s n).engine = e ∧ (getQp s n).st = 3 then { getQp s n with st := 4 } else getQp s n := by
  by_cases hn : n ∈ qpsOn s e
  · have hheld := foldl_each (f := holdOne) holdOne_one (R := fun n v => v = heldQp (getQp s n)) s (fun t n ht => by rw [getQp_holdOne, ht])
      (fun t n ht => by rw [getQp_holdOne, ht, heldQp_heldQp]) (qpsOn s e) n hn
    simp only [hheld, heldQp, qpsOn_of_wf hw hn, true_and]
  · have hs : ¬ ((getQp s n).engine = e ∧ (getQp s n).st = 3) := fun h => hn (mem_qpsOn (by omega) h.1)
    rw [if_neg hs]; exact (foldl_one holdOne_one _ s).1 n hn

/-- The hold's expiry of one queue pair: its end with 0x0702. -/
def expireOne (e : Nat) (s : State) (n : Nat) : State :=
  if (getQp s n).st = 2 ∨ (getQp s n).st = 3 ∨ (getQp s n).st = 4 then
    qpFail n 0x0702 (abortDetail s) (if (getQp s n).prot then otherPort s e else none) s
  else s

theorem expireOne_one (e : Nat) (s : State) (n : Nat) : OneQp n s (expireOne e s n) := by
  unfold expireOne; split
  · obtain ⟨k, os, h, -⟩ := qpFail_work n 0x0702 (abortDetail s) (if (getQp s n).prot then otherPort s e else none) s
    exact h.one
  · exact .refl n s

theorem holdExpired_eq (e : Nat) (s : State) : holdExpired e s = raisePlain 0x0702 none (unitId 9 e)
    ((qpsOn s e).foldl (expireOne e) (modEth e (fun v => { v with st := 0, expired := true }) s)) := rfl

/-- A queue pair that has ended with 0x0702, where it was live before. -/
def ExpiredFrom (v w : Qp) : Prop := v.st = 2 ∨ v.st = 3 ∨ v.st = 4 → w.st = 5 ∧ w.errStatus = 0x0702 ∧ w.sq = []

/-- 12 R252: every live queue pair of the engine ends with 0x0702. -/
theorem foldl_expireOne (e : Nat) (s : State) (l : List Nat) : ∀ n ∈ l, ExpiredFrom (getQp s n) (getQp (l.foldl (expireOne e) s) n) := by
  refine foldl_each (R := fun n => ExpiredFrom (getQp s n)) (expireOne_one e) s (fun t n ht hl => ?_) (fun t n ht hl => ?_) l
  · rw [← ht] at hl
    obtain ⟨hst, herr, hsq, -⟩ := qpFail_ended n 0x0702 (abortDetail t) (if (getQp t n).prot then otherPort t e else none) t
    rw [expireOne, if_pos hl]; exact ⟨hst, herr, hsq⟩
  · have h5 := (ht hl).1
    rw [expireOne, if_neg (by omega)]; exact ht hl

/-- 12 R252: what the expiry at a port makes of the ports and the queue pairs. -/
theorem holdExpired_ends {s : State} (e : Nat) (hw : tabWf Qp.init s.lnt.qps = true) :
    ∃ t, holdExpired e s = raisePlain 0x0702 none (unitId 9 e) t ∧ (getEth t e).st = 0 ∧ (getEth t e).expired = true ∧
      (∀ j, j ≠ e → getEth t j = getEth s j) ∧ (∀ n, (getQp s n).engine = e → ExpiredFrom (getQp s n) (getQp t n)) ∧
      ∀ n, (getQp s n).engine ≠ e → getQp t n = getQp s n := by
  obtain ⟨hq, he⟩ := foldl_one (expireOne_one e) (qpsOn s e) (modEth e (fun v => { v with st := 0, expired := true }) s)
  refine ⟨_, holdExpired_eq e s, ?_, ?_, fun j hj => ?_, fun n hn hl => ?_, fun n hn => ?_⟩
  · rw [he, modEth_eq, getEth_putEth_same]
  · rw [he, modEth_eq, getEth_putEth_same]
  · rw [he, modEth_eq, getEth_putEth, if_neg hj]
  · exact foldl_expireOne e _ (qpsOn s e) n (mem_qpsOn (by omega) hn) hl
  · exact hq n fun hm => hn (qpsOn_of_wf hw hm)

theorem putQp_qps (n : Nat) (v : Qp) (s : State) : (putQp n v s).lnt.qps = tabPut Qp.init s.lnt.qps n v := rfl

theorem foldl_holdOne_wf (l : List Nat) {s : State} (hw : tabWf Qp.init s.lnt.qps = true) : tabWf Qp.init (l.foldl holdOne s).lnt.qps = true := by
  refine List.foldlRecOn l holdOne (motive := fun t => tabWf Qp.init t.lnt.qps = true) hw fun t ht n _ => ?_
  unfold holdOne; split
  · rw [modQp_eq, putQp_qps]; exact tabWf_put _ _ _ _ ht
  · exact ht

/-- A port that has lost its link, its queue pairs held. -/
def lossHeld (e : Nat) (s : State) : State :=
  (qpsOn s e).foldl holdOne (modEth e (fun v => { v with st := 2, downAt := s.lark.time, losses := v.losses + 1 }) s)

theorem ethLoss_eq {s : State} {e : Nat} (h : (getEth s e).st = 1) :
    ethLoss e s = if (getEth (lossHeld e s) e).hold = 0 then holdExpired e (lossHeld e s) else lossHeld e s := by
  unfold ethLoss; rw [if_neg (not_not.2 h)]; rfl

/-- 12 R252: what a loss makes of the ports and the queue pairs. -/
theorem lossHeld_holds {s : State} (e : Nat) (hw : tabWf Qp.init s.lnt.qps = true) : 
    getEth (lossHeld e s) e = { getEth s e with st := 2, downAt := s.lark.time, losses := (getEth s e).losses + 1 } ∧
      (∀ j, j ≠ e → getEth (lossHeld e s) j = getEth s j) ∧
      (∀ n, getQp (lossHeld e s) n = if (getQp s n).engine = e ∧ (getQp s n).st = 3 then { getQp s n with st := 4 } else getQp s n) ∧
      lossHeld e s = { s with lnt := (lossHeld e s).lnt } := by
  obtain ⟨-, he⟩ := foldl_one holdOne_one (qpsOn s e) (modEth e (fun v => { v with st := 2, downAt := s.lark.time, losses := v.losses + 1 }) s)
  refine ⟨?_, fun j hj => ?_, foldl_holdOne (s := modEth e (fun v => { v with st := 2, downAt := s.lark.time, losses := v.losses + 1 }) s) hw, ?_⟩
  · rw [lossHeld, he, modEth_eq, getEth_putEth_same]
  · rw [lossHeld, he, modEth_eq, getEth_putEth, if_neg hj]
  · rw [lossHeld, foldl_holdOne_frame]; rfl

/-- A held queue pair is Connected again, and sends. -/
def resumeOne (s : State) (n : Nat) : State :=
  if (getQp s n).st = 4 then
    pump n (modQp n (fun v => { v with st := 3, cwnd := v.cc.cwndInit, unacked := v.unacked.map fun u => { u with at_ := s.lark.time } }) s)
  else s

theorem resumeOne_one (s : State) (n : Nat) : OneQp n s (resumeOne s n) := by
  unfold resumeOne; split
  · have hm := (QpWork.refl n s).change (f := fun v => { v with
      st := 3, cwnd := v.cc.cwndInit, unacked := v.unacked.map fun u => { u with at_ := s.lark.time } }) rfl
    obtain ⟨w, os, hw, -⟩ := pump_sending n (modQp n (fun v => { v with
      st := 3, cwnd := v.cc.cwndInit, unacked := v.unacked.map fun u => { u with at_ := s.lark.time } }) s)
    exact (hm.trans hw).one
  · exact .refl n s

/-- 12 R252: held queue pairs of an Ethernet engine are Connected with the initial window. -/
theorem foldl_resumeOne (s : State) (l : List Nat) : ∀ n ∈ l, (getQp s n).engine ≠ 4 → (getQp s n).st = 4 →
    (getQp (l.foldl resumeOne s) n).st = 3 ∧ (getQp (l.foldl resumeOne s) n).cwnd = (getQp s n).cc.cwndInit := by
  refine foldl_each (R := fun n v => (getQp s n).engine ≠ 4 → (getQp s n).st = 4 → v.st = 3 ∧ v.cwnd = (getQp s n).cc.cwndInit) resumeOne_one s
    (fun t n ht he hst => ?_) (fun t n ht he hst => ?_) l
  · rw [← ht] at he hst ⊢
    obtain ⟨w, os, hw, -, hk⟩ := pump_sending n (modQp n (fun v => { v with
      st := 3, cwnd := v.cc.cwndInit, unacked := v.unacked.map fun u => { u with at_ := t.lark.time } }) t)
    rw [modQp_eq, getQp_putQp_same] at hk
    rw [resumeOne, if_pos hst, hw.qp]; exact hk he
  · have h3 := (ht he hst).1
    rw [resumeOne, if_neg (by omega)]; exact ht he hst

section
variable {s : State} {e : Nat}

/-- 12 R252: the hold has expired at a port that loses its link with a hold of 0, or whose hold has passed. -/
theorem ethExpiry_ends (he : e < 4) (hp : powered s = true) (hw : tabWf Qp.init s.lnt.qps = true)
    (h : (getEth s e).st = 1 ∧ (getEth s e).hold = 0 ∨ (getEth s e).st = 2 ∧ (getEth s e).downAt + (getEth s e).hold * 100000 ≤ s.lark.time) :
    ∃ t, exec (if (getEth s e).st = 1 then .ethLinkDown e else .ethHoldExpiry e) s = .next (raisePlain 0x0702 none (unitId 9 e) t) ∧
      (getEth t e).st = 0 ∧ (getEth t e).expired = true ∧ (∀ j, j ≠ e → getEth t j = getEth s j) ∧
      (∀ n, (getQp s n).engine = e → 2 ≤ (getQp s n).st → (getQp s n).st ≤ 4 → (getQp t n).st = 5 ∧ (getQp t n).errStatus = 0x0702 ∧ (getQp t n).sq = []) ∧
      ∀ n, (getQp s n).engine ≠ e → getQp t n = getQp s n := by
  rcases h with ⟨h1, h0⟩ | ⟨h2, hd⟩
  · obtain ⟨hport, hports, hqps, -⟩ := lossHeld_holds (s := s) e hw
    obtain ⟨t, ht, hst, hex, hj, hl, ho⟩ := holdExpired_ends (s := lossHeld e s) e (foldl_holdOne_wf _ hw)
    refine ⟨t, ?_, hst, hex, fun j hje => (hj j hje).trans (hports j hje), fun n hn hlo hhi => ?_, fun n hn => ?_⟩
    · rw [if_pos h1]
      show (.next (if powered s && decide (e < 4) then ethLoss e s else s) : Res) = _
      rw [if_pos (by simp [hp, he]), ethLoss_eq h1, hport, if_pos h0, ht]
    · have hq := hqps n
      by_cases h3 : (getQp s n).st = 3
      · rw [if_pos ⟨hn, h3⟩] at hq
        exact hl n (by rw [hq]; exact hn) (by rw [hq]; simp)
      · rw [if_neg fun h => h3 h.2] at hq
        exact hl n (by rw [hq]; exact hn) (by rw [hq]; omega)
    · have hq := hqps n
      rw [if_neg fun h => hn h.1] at hq
      rw [ho n (by rw [hq]; exact hn), hq]
  · obtain ⟨t, ht, hst, hex, hj, hl, ho⟩ := holdExpired_ends e hw
    refine ⟨t, ?_, hst, hex, hj, fun n hn hlo hhi => hl n hn (by omega), ho⟩
    rw [if_neg (by omega)]
    show (.next (if powered s && decide (e < 4) && (getEth s e).st == 2 && decide ((getEth s e).downAt + (getEth s e).hold * 100000 ≤ s.lark.time) then
      holdExpired e s else s) : Res) = _
    rw [if_pos (by simp [hp, he, h2, hd]), ht]

theorem ethLinkUp_resumes (he : e < 4) (hp : powered s = true) (hst : (getEth s e).st ≠ 1) (hw : s.pwr.warmBusy = false)
    (hpw : s.pwr.st = .idle ∨ s.pwr.st = .run) (hr : s.pwr.removing = false) : ∃ t, exec (.ethLinkUp e) s = .next t ∧
      (getEth t e).st = 1 ∧ ∀ n, (getQp s n).engine = e → (getQp s n).st = 4 → (getQp t n).st = 3 ∧ (getQp t n).cwnd = (getQp s n).cc.cwndInit := by
  have hopen : (!(regsOpen s && (s.pwr.st == .idle || s.pwr.st == .run)) || decide (3 < e) || (getEth s e).st == 1 || s.pwr.removing) = false := by
    have h3 : ¬ 3 < e := by omega
    rcases hpw with h | h <;> simp [regsOpen, hp, hw, h, h3, hst, hr]
  refine ⟨(qpsOn s e).foldl resumeOne (modEth e (fun v => { v with st := 1 }) s), ?_, ?_, fun n hn h4 => ?_⟩
  · show (.next (if _ then s else _) : Res) = _
    rw [hopen]; rfl
  · rw [(foldl_one resumeOne_one _ _).2, modEth_eq, getEth_putEth_same]
  · exact foldl_resumeOne (modEth e (fun v => { v with st := 1 }) s) (qpsOn s e) n (mem_qpsOn (by omega) hn) (by show (getQp s n).engine ≠ 4; omega) h4

end

/-- 12 Table 12.5: QP_DESTROY's end of a queue pair. -/
theorem removeQp_ends {s : State} {n : Nat} (h : (getQp s n).st ≠ 0) (status : Nat) : getQp (removeQp status n s) n = Qp.init ∧
    (∀ m, m ≠ n → getQp (removeQp status n s) m = getQp s m) ∧ n ∈ (removeQp status n s).lnt.freedQp ∧ TellsPeer n status s (removeQp status n s) ∧
    (removeQp status n s).mem = s.mem := by
  obtain ⟨k, os, hw, ht⟩ := qpFail_work n status (qpDetail s (getQp s n) status) none s
  rw [removeQp_eq h]
  exact ⟨tabGet_del_same .., fun m hm => (tabGet_del_other _ _ hm).trans (hw.others m hm), List.mem_append_right _ (List.mem_singleton.2 rfl), ht rfl, hw.mem⟩

/-- Settles O47: each command and packet is one step of the queue pair's record with the packets it sends (`QpWork`), and a port's loss, expiry
and return fold that step over the engine's queue pairs. -/
theorem queuePairsConnectAndEnd : Obligations.QueuePairsConnectAndEnd := by
  refine ⟨?create, ?modify, ?named, ?connect, ?answers, ?retry, ?bound, ?reject, ?terminate, ?ports⟩
  case create =>
    rintro s q p _ _ _ n base ht rfl rfl rfl he hq
    refine ⟨fun h1 h2 h3 h4 h5 hn hb => ⟨_, exec_finishes ht rfl (qpCreate_makes q he hq ⟨h1, h2⟩ ⟨h3, h4⟩ h5 hn hb) nofun nofun,
      getQp_putQp_same .., fun m hm => ?_, rfl⟩, fun h => ?_⟩
    · rw [getQp_putQp, if_neg hm]; rfl
    · obtain ⟨d, hd⟩ := qpCreate_refused q he hq h
      exact ⟨d, exec_finishes ht rfl hd nofun nofun⟩
  case modify =>
    rintro s q p _ _ _ ht rfl rfl rfl hst hsc
    refine ⟨fun h2 h1 he => ⟨fun hk hc => ?_, fun hk => ?_⟩, fun h5 h3 => ?_, fun h1 h5 => ?_, fun h => ?_⟩
    · have hm := qpModify_connects q h1 hsc h2 he
      rw [if_pos (by simp [hk, hc])] at hm
      exact ⟨_, exec_finishes ht rfl hm nofun nofun⟩
    · have hm := qpModify_connects q h1 hsc h2 he
      rw [if_neg (by rcases hk with hk | hk <;> simp [hk])] at hm
      have hw := startConnect_work he (linkKeyOf s (getQp s (bits (p.w 0) 0 24)).ctx)
      refine ⟨_, exec_finishes ht rfl hm nofun nofun, by rw [hw.qp]; rfl, by rw [hw.qp]; rfl, by rw [hw.qp]; rfl, ?_, hw.others, fun hl =>
        ⟨connectPkt (connecting (bits (p.w 0) 0 24) (linkKeyOf s (getQp s (bits (p.w 0) 0 24)).ctx) s) (bits (p.w 0) 0 24), ?_, rfl, rfl, ?_⟩⟩
      · rw [hw.qp]; simp [connectingQp, drawBytes]
      · rw [hw.out, if_pos hl]
      · rw [hw.qp, connectPkt, (connecting_work ..).qp]
    · exact ⟨_, exec_finishes ht rfl (qpModify_errs q h3 hsc h5) nofun nofun, qpError_ended (.inr (.inl h3)) _, qpError_tells (.inr (.inl h3)) _⟩
    · have hw : QpWork _ _ [] s (modQp (bits (p.w 0) 0 24) qpReinit s) := (QpWork.refl _ s).change rfl
      exact ⟨_, exec_finishes ht rfl (qpModify_reinits q h5 hsc h1) nofun nofun, by rw [hw.qp]; rfl, by rw [hw.qp]; rfl, by rw [hw.qp]; rfl,
        by rw [hw.qp]; rfl, by rw [hw.qp]; rfl, by rw [hw.qp]; rfl, by rw [hw.qp]; rfl, rfl⟩
    · exact exec_finishes ht rfl (qpModify_refused q hst hsc h) nofun nofun
  case named =>
    rintro s q p _ rfl hst hsc
    refine ⟨fun ht => ?_, fun ht hn h2 h4 => ?_⟩
    · have hd : qpDestroy q p s = (.done Done.ok, removeQp 0x0403 (bits (p.w 0) 0 24) s) := withQp_live hst hsc _
      obtain ⟨hi, ho, hf, hp, hm⟩ := removeQp_ends hst 0x0403
      exact ⟨_, exec_finishes ht rfl hd nofun nofun, hi, ho, hf, hp, hm⟩
    · have hc := ccConfig_named q hst hsc hn h2 h4
      refine ⟨fun hf => ?_, fun hf => ?_⟩
      · rw [hf] at hc
        refine ⟨_, exec_finishes ht rfl hc nofun nofun, by simp, fun m hm => ?_, rfl, ccFault_none hf⟩
        rw [modQp_eq, getQp_putQp, if_neg hm]
      · obtain ⟨e, he⟩ := Option.ne_none_iff_exists'.1 hf
        rw [he] at hc
        exact ⟨_, exec_finishes ht rfl hc nofun nofun⟩
  case connect =>
    intro s p ha hr
    have hexec : exec (.connect p) s = .next (connectIn p s) := congrArg _ (rxPkt_arrives ha rfl _)
    refine ⟨?_, fun hn => ?_⟩
    · rintro n _ hn rfl
      obtain ⟨he, hp⟩ := accepts_true (List.find?_some (p := fun e : Nat × Qp => accepts s p e.2) hn)
      obtain ⟨pkt, hw, htyp, hdest, hsrc, hpay⟩ := sendAccept_work (s := s) (n := n) (p := p) (by rw [he]; exact Nat.ne_of_lt ha.1)
      rw [connectIn_binds hr hn] at hexec
      refine ⟨_, pkt, hexec, by rw [hw.qp]; rfl, by rw [hw.qp]; rfl, ?_, by rw [hw.qp]; rfl, hw.others, by rw [hw.out, he, hp], htyp, hdest, hsrc,
        by rw [hw.qp, hpay]; rfl⟩
      rw [hw.qp]; simp [provQp, drawBytes]
    · obtain ⟨pkt, hc, htyp, hdest⟩ := connectIn_rejects hr hn (Nat.ne_of_lt ha.1)
      exact ⟨pkt, by rw [hexec, hc], htyp, hdest⟩
  case answers =>
    rintro s p n _ ks hn rfl he hp hc
    refine ⟨fun ha hst hks => ?_, fun ha hst ⟨at_, hb⟩ => ?_⟩
    · have hexec : exec (.accept p) s = .next (acceptIn p s) := congrArg _ (rxPkt_arrives ha rfl _)
      refine ⟨fun hprot htag => ?_, fun htag hsq htx => ?_⟩
      · rw [hexec, acceptIn_drops hn he hp hc hst hprot (hks ▸ htag)]
      · obtain ⟨pkt, hw, htyp⟩ := acceptIn_connects hn he hp hc hst (Nat.ne_of_lt ha.1) hks htag hsq htx
        exact ⟨_, pkt, hexec, by rw [hw.qp]; rfl, by rw [hw.qp]; rfl, by rw [hw.qp]; rfl, by rw [hw.qp]; rfl, by rw [hw.qp]; rfl, by rw [hw.qp]; rfl,
          by rw [hw.out], htyp, hw.others⟩
    · have hexec : exec (.confirm p) s = .next (confirmIn p s) := congrArg _ (rxPkt_arrives ha rfl _)
      rw [confirmIn_eq hn he hp hst hb] at hexec
      refine ⟨fun hprot htag => ?_, fun htag hsq htx => ?_⟩
      · rw [hexec, if_pos (by simp [hprot, htag])]
      · rw [if_neg (by cases hpr : (getQp s n).prot <;> simp [hpr, htag]), connected_idle htx hsq] at hexec
        have hw : QpWork n _ [] s (modQp n (fun v => connectedQp v (p.src % 2 ^ 24)) s) := (QpWork.refl n s).change rfl
        exact ⟨_, hexec, by rw [hw.qp]; rfl, by rw [hw.qp]; rfl, by rw [hw.qp]; rfl, by rw [hw.qp]; rfl, hw.others, rfl⟩
  case retry =>
    intro s n hst he
    have hexec : exec (.connectRetry n) s =
      .next (if (getQp s n).st ≠ 2 then s else if (getQp s n).connSince + 100000000 ≤ s.lark.time then qpError n 0x0801 s else sendConnect n s) := rfl
    rw [if_neg (not_not.2 hst)] at hexec
    refine ⟨fun h => ⟨_, by rw [hexec, if_pos h], qpError_ended (.inl hst) _⟩, fun h hl => ⟨connectPkt s n, ?_, rfl, rfl⟩⟩
    rw [hexec, if_neg (by omega), sendConnect_ethernet he, if_pos hl]; rfl
  case bound =>
    intro s n peer at_ hb
    have hexec : exec (.provisionalBindTimeout n) s = .next (if at_ + 1000000 ≤ s.lark.time then modQp n (fun v => { v with prov := none }) s else s) := by
      show (.next (match (getQp s n).prov with
        | some (_, at_) => if at_ + 1000000 ≤ s.lark.time then modQp n (fun v => { v with prov := none }) s else s | none => s) : Res) = _
      rw [hb]
    refine ⟨fun h => ?_, fun h => by rw [hexec, if_neg (by omega)]⟩
    have hw : QpWork n _ [] s (modQp n (fun v => { v with prov := none }) s) := (QpWork.refl n s).change rfl
    exact ⟨_, by rw [hexec, if_pos h], hw.qp, hw.others, rfl⟩
  case reject =>
    intro s p ha
    exact congrArg _ (rxPkt_arrives ha rfl rejectIn)
  case terminate =>
    rintro s p n _ ha hn rfl hst hp hc
    have hexec : exec (.terminate p) s = .next (terminateIn p s) := congrArg _ (rxPkt_arrives ha rfl _)
    refine ⟨fun hpr hs => ?_, fun h => ⟨_, hexec, terminateIn_ends hn hst hp hc h⟩⟩
    rw [hexec, terminateIn_drops hn hst hp hc hpr hs]
  case ports =>
    intro s e he hp hw
    have hdown : exec (.ethLinkDown e) s = .next (ethLoss e s) := next_if_pos (by simp [hp, he])
    refine ⟨fun h => ?_, fun h1 h0 => ?_, fun h => ethExpiry_ends he hp hw h, fun h2 h => ?_, fun hst hwb hpw hr => ethLinkUp_resumes he hp hst hwb hpw hr⟩
    · rw [hdown, ethLoss, if_pos h]
    · obtain ⟨hport, hports, hqps, hframe⟩ := lossHeld_holds (s := s) e hw
      exact ⟨_, by rw [hdown, ethLoss_eq h1, hport, if_neg h0], hport, hports, hqps, hframe⟩
    · show (.next (if powered s && decide (e < 4) && (getEth s e).st == 2 && decide ((getEth s e).downAt + (getEth s e).hold * 100000 ≤ s.lark.time) then
        holdExpired e s else s) : Res) = _
      rw [if_neg (by simp [h])]

end Sys2Proof.Machine
end

section
/-! SUPPORT. What an address means, and what events and counters do, whatever Linnet's engines and the meters hold (06 R109 to R113, 18 R346). -/

namespace Sys2Proof.Machine

/-- The state with Linnet's engines and the meters replaced. -/
def aside (l : Lnt) (m : Metering) (s : State) : State := { s with lnt := l, mtr := m }

section
variable (l : Lnt) (m : Metering) (s : State)

theorem walkTable_aside (acc : Acc) (a k t : Nat) : walkTable (aside l m s) acc a k t = walkTable s acc a k t := by
  induction k generalizing t with
  | zero => rfl
  | succ k ih => simp only [walkTable, ih]; rfl

@[simp] theorem translate_aside (c a : Nat) (acc : Acc) (bus : Bool) : translate (aside l m s) c a acc bus = translate s c a acc bus := by
  unfold translate; rw [walkTable_aside]; rfl

@[simp] theorem rangeErr_aside (c a n : Nat) (acc : Acc) (bus : Bool) : rangeErr (aside l m s) c a n acc bus = rangeErr s c a n acc bus := by
  unfold rangeErr; simp only [translate_aside]; rfl

@[simp] theorem dvaGet_aside (c a : Nat) (acc : Acc) (bus : Bool) : dvaGet (aside l m s) c a acc bus = dvaGet s c a acc bus := by
  unfold dvaGet; rw [translate_aside]; cases translate s c a acc bus with
  | error _ => rfl
  | ok x => cases x <;> rfl

@[simp] theorem dvaRead_aside (c a n : Nat) (acc : Acc) (bus : Bool) : dvaRead (aside l m s) c a n acc bus = dvaRead s c a n acc bus := by
  unfold dvaRead; simp only [rangeErr_aside, dvaGet_aside]

end

end Sys2Proof.Machine
end

section
/-! O48. Queue pairs: posted descriptors, the sender, its timers, and the rings (12 R238, R241, R242, R244, R249 to R251). -/

namespace Sys2Proof.Machine

/-! A message of one packet (12 R227). -/

/-- The only packet of a message. -/
def onlyPkt (s : State) (n typ off wkey imm msn : Nat) (bytes : List Byte) : LntPkt :=
  { qpPkt s n typ with flags := 11, len := bytes.length, offset := off, wkey := wkey, imm := imm, msn := msn % 2 ^ 32, payload := bytes }

theorem msgPkts_single {bytes : List Byte} (h : bytes.length ≤ 8192) (s : State) (n typ off wkey imm msn : Nat) :
    msgPkts s n typ off wkey imm msn bytes = [onlyPkt s n typ off wkey imm msn bytes] := by
  have hc : chunks 8192 (bytes.length / 8192 + 1) bytes = [bytes] := if_pos h
  unfold msgPkts; rw [hc]; rfl

/-- A packet under the next PSN of a queue pair. -/
def numbered (v : Qp) (p : LntPkt) : LntPkt := { p with psn := v.txPsn }

/-- The queue pair when a descriptor's message of one packet waits to leave. -/
def loadedQp (v : Qp) (d : SendDesc) (p : LntPkt) : Qp :=
  { v with sq := v.sq.map (fun x => if x = d then { d with started := true, msn := v.msn } else x), msn := v.msn + 1
           txq := v.txq ++ [numbered v p], txPsn := v.txPsn + 1 }

/-- The packet as it leaves: its time and what it acknowledges. -/
def stamped (s : State) (v : Qp) (p : LntPkt) : LntPkt := { p with ts := s.lark.time, apsn := apsnOf v.rxPsn }

/-- The queue pair after its first waiting packet has left. -/
def firstSent (s : State) (v : Qp) (p : LntPkt) : Qp :=
  { v with txq := v.txq.drop 1, unacked := v.unacked ++ [{ psn := p.psn, pkt := wirePkt v (stamped s v p), at_ := s.lark.time }] }

/-- A queue pair that an Ethernet engine can send for, with nothing in flight. -/
def CanSend (s : State) (v : Qp) : Prop :=
  v.st = 3 ∧ v.engine < 4 ∧ linkUp s v.engine = true ∧ v.unacked = [] ∧ 0 < v.cwnd ∧ v.rfull = none ∧ v.nr = none

section
variable {n : Nat} {v : Qp} {os : List Out} {s t : State} (h : QpWork n v os s t)
include h

theorem QpWork.loaded (d : SendDesc) (p : LntPkt) : QpWork n (loadedQp v d p) os s (queuePkts n [p] (markSent n d t)) := by
  have hm : QpWork n { v with sq := v.sq.map (fun x => if x = d then { d with started := true, msn := v.msn } else x), msn := v.msn + 1 } os s (markSent n d t) :=
    h.change rfl
  exact hm.change rfl

theorem QpWork.maySend (hc : CanSend s v) : Machine.maySend t v = true := by
  obtain ⟨hst, -, hl, -, -, hf, hn⟩ := hc
  simp [Machine.maySend, hst, h.up, hl, hf, hn]

/-- The first packet leaves, and what was in it is counted. -/
theorem QpWork.first (he : v.engine ≠ 4) (p : LntPkt) : ∃ t', QpWork n (firstSent s v p) (os ++ [.lnt v.engine v.peer (wirePkt v (stamped s v p))]) s t' ∧
    sendFirst n p t = leftEngine n p t' := by
  have hs : QpWork n (firstSent s v p) os s (modQp n (fun v => { v with
      txq := v.txq.drop 1, unacked := v.unacked ++ [{ psn := p.psn, pkt := wirePkt (getQp t n) (stamped t (getQp t n) p), at_ := t.lark.time }] }) t) :=
    h.change (by rw [h.qp, stamped, h.lark]; rfl)
  refine ⟨_, (hs.send he v.ctx v.peer (wirePkt v (stamped s v p))).meteredTx v.ctx p.len, ?_⟩
  unfold sendFirst; dsimp only
  rw [← stamped, h.qp, stamped, h.lark]; rfl

/-- The first waiting packet leaves. -/
theorem QpWork.pumpFirst (hc : CanSend s v) {p : LntPkt} {ps : List LntPkt} (htx : v.txq = p :: ps) (k : Nat) :
    ∃ t', QpWork n (firstSent s v p) (os ++ [.lnt v.engine v.peer (wirePkt v (stamped s v p))]) s t' ∧
      pumpLoop n (k + 1) t = pumpLoop n k (leftEngine n p t') := by
  have he : v.engine ≠ 4 := Nat.ne_of_lt hc.2.1
  obtain ⟨-, -, -, hu, hcw, -, -⟩ := id hc
  obtain ⟨t', hw, hf⟩ := h.first he p
  refine ⟨t', hw, ?_⟩
  rw [pumpLoop_send (by rw [h.qp]; exact h.maySend hc) (by rw [h.qp, htx]) (by rw [h.qp]; simp [sendRoom, unackedBytes, hu, hcw]) (by rw [h.qp]; exact he), hf]

/-- The only descriptor of a ring starts. -/
theorem QpWork.pumpStart (hc : CanSend s v) {d : SendDesc} (hf : v.sfault = none) (he : v.edge = none) (hsq : v.sq = [d])
    (hd : d.started = false) (htx : v.txq = []) : pump n t = pumpLoop n 1025 (startSend n d t) := by
  unfold pump
  rw [h.qp, hsq]
  exact pumpLoop_start (by rw [h.qp]; exact h.maySend hc) (by rw [h.qp, htx]) (by rw [h.qp, hsq]; simp [hd]) (by rw [h.qp, hf]) (by rw [h.qp, he]) 1025

/-- A descriptor whose message is one packet starts, and the packet leaves. -/
theorem QpWork.pumpOne (hc : CanSend s v) {d : SendDesc} {p : LntPkt} (hf : v.sfault = none) (he : v.edge = none) (hsq : v.sq = [d])
    (hd : d.started = false) (htx : v.txq = []) (hs : startSend n d t = queuePkts n [p] (markSent n d t)) :
    ∃ t', QpWork n (firstSent s (loadedQp v d p) (numbered v p)) (os ++ [.lnt v.engine v.peer (wirePkt v (stamped s v (numbered v p)))]) s t' ∧
      pump n t = pumpLoop n 1024 (leftEngine n (numbered v p) t') := by
  have hl : QpWork n (loadedQp v d p) os s (startSend n d t) := hs ▸ h.loaded d p
  obtain ⟨t', hw, hp⟩ := hl.pumpFirst hc (show (loadedQp v d p).txq = numbered v p :: [] by simp [loadedQp, htx]) 1024
  exact ⟨t', hw, (h.pumpStart hc hf he hsq hd htx).trans hp⟩

end

/-! What a posted descriptor sends (12 R242, R244, R247). -/

section
variable {s : State} {n : Nat} {d : SendDesc}

/-- A descriptor in form with no wait sends its message at its turn. -/
theorem startSend_eq (hf : (getQp s n).failed = 0) (hop : d.op < 0x100) (hw : bitOf d.flags 1 = false) : startSend n d s = sendMsg n d s := by
  unfold startSend; dsimp only
  rw [if_neg (not_not.2 hf), if_neg (by omega), if_neg (by simp [hw])]

theorem sendMsg_write {bs : List Byte} (hop : d.op = 1 ∨ d.op = 2 ∨ d.op = 5) (hl : bs.length ≤ 8192)
    (hr : dvaRead s (getQp s n).ctx d.loc d.length .read false = .ok bs) : sendMsg n d s =
      queuePkts n [onlyPkt s n (opTyp d.op) d.remote d.wkey (if d.op = 5 then d.fmt else d.imm) (getQp s n).msn bs] (markSent n d s) := by
  unfold sendMsg; dsimp only
  rw [if_neg (by omega), if_neg (by omega), if_neg (by omega), hr, ← msgPkts_single hl]

theorem sendMsg_read (hop : d.op = 3) (hl : d.length ≠ 0) : sendMsg n d s =
    queuePkts n [onlyPkt s n 3 d.remote d.wkey 0 (getQp s n).msn (natLE 8 d.length)] (markSent n d s) := by
  unfold sendMsg; dsimp only
  rw [if_neg (by omega), if_pos hop, msgPkts_single (by rw [natLE_length]; omega)]

theorem sendMsg_flush (hop : d.op = 4) : sendMsg n d s = queuePkts n [onlyPkt s n 5 0 0 0 (getQp s n).msn []] (markSent n d s) := by
  unfold sendMsg; dsimp only
  rw [if_neg (by omega), if_neg (by omega), if_pos hop, msgPkts_single (by simp)]

end

/-- A write's last packet completes its descriptor as it leaves (12 R242). -/
theorem leftEngine_write {n : Nat} {p : LntPkt} {s : State} {d : SendDesc} (ht : p.typ = 1 ∨ p.typ = 2 ∨ p.typ = 6) (hl : p.flags.getLsbD 1 = true)
    (hs : (getQp s n).sq = [d]) (hd : d.started = true) (hm : d.msn % 2 ^ 32 = p.msn) (ho : opTyp d.op = p.typ) :
    leftEngine n p s = finishSend n d 0 0 d.length s := by
  unfold leftEngine
  rw [if_pos ⟨ht, hl⟩, hs]
  simp only [List.find?_cons, hd, hm, ho, BEq.rfl, Bool.and_self]

theorem leftEngine_request {n : Nat} {p : LntPkt} {s : State} (ht : p.typ = 3 ∨ p.typ = 4 ∨ p.typ = 5) : leftEngine n p s = s := by
  unfold leftEngine
  rw [if_neg (by omega)]

/-! Posts (12 R238). -/

section
variable {s : State} {f : Fn} {n op : Nat} {b : List Byte}

theorem postCmd_runs {c : Instr} (h : PostCmd op f n b c) : exec c s = .next (postRow op f n b s) := by
  rcases h with ⟨rfl, rfl⟩ | ⟨rfl, rfl⟩ | ⟨rfl, rfl⟩ | ⟨rfl, rfl⟩ | ⟨rfl, rfl⟩ <;> rfl

theorem postRow_posts (h : PostOk s f n b op) : postRow op f n b s = postDesc n b s := by
  obtain ⟨hr, hp, hq, hl, -, -, ho, -⟩ := h
  have hst : ¬ (s.pwr.st = .standby ∨ s.pwr.st = .tripped) := by rcases hp with hp | hp <;> simp [hp]
  unfold postRow
  rw [if_neg (by simp [hr]), if_neg hst, if_neg (by simp [hq]), if_neg (not_not.2 hl), if_pos (.inl ho)]

/-- A descriptor joins a queue pair's ring. -/
def postedQp (b : List Byte) (v : Qp) : Qp := { v with sq := v.sq ++ [parseSend b] }
def posted (n : Nat) (b : List Byte) (s : State) : State := modQp n (postedQp b) s

/-- A descriptor in form on a ring with space. -/
theorem postDesc_good (h : PostOk s f n b op) (hv : (getQp s n).sq.length < 2 ^ (getQp s n).s) : postDesc n b s =
    if (getQp s n).st = 5 then finishSend n (parseSend b) 0x0401 5 0 (posted n b s) else pump n (posted n b s) := by
  obtain ⟨-, -, -, -, -, -, -, hm⟩ := h
  unfold postDesc; dsimp only
  rw [hm, if_neg (by omega)]; rfl

theorem postDesc_full (hv : 2 ^ (getQp s n).s ≤ (getQp s n).sq.length) : postDesc n b s = modQp n (fun v => { v with overrun := true }) s := if_pos hv

theorem posted_work (s : State) (n : Nat) (b : List Byte) : QpWork n (postedQp b (getQp s n)) [] s (posted n b s) := (QpWork.refl n s).change rfl

theorem dvaRead_posted (s : State) (n : Nat) (b : List Byte) (c a k : Nat) (acc : Acc) (bus : Bool) :
    dvaRead (posted n b s) c a k acc bus = dvaRead s c a k acc bus := dvaRead_aside (posted n b s).lnt s.mtr s c a k acc bus

theorem onlyPkt_posted (s : State) (n : Nat) (b : List Byte) (typ off wkey imm msn : Nat) (bs : List Byte) :
    onlyPkt (posted n b s) n typ off wkey imm msn bs = onlyPkt s n typ off wkey imm msn bs := by
  unfold onlyPkt qpPkt; rw [(posted_work s n b).qp]; rfl

end

/-- A descriptor that has started with a message number. -/
def startedDesc (d : SendDesc) (msn : Nat) : SendDesc := { d with started := true, msn := msn }

theorem loadedQp_sq {v : Qp} {d : SendDesc} (h : v.sq = [d]) (p : LntPkt) : (loadedQp v d p).sq = [startedDesc d v.msn] := by
  simp [loadedQp, h, startedDesc]

theorem dvaRead_length {s : State} {c a k : Nat} {acc : Acc} {bus : Bool} {bs : List Byte} (h : dvaRead s c a k acc bus = .ok bs) : bs.length = k := by
  unfold dvaRead at h; split at h
  · cases h
  · cases h; simp

/-- The packet of a posted descriptor, as it leaves: that of its operation, or of a request for its bytes. -/
def postPkt (s : State) (n : Nat) (p : LntPkt) : LntPkt := stamped s (getQp s n) (numbered (getQp s n) p)

/-- The queue pair when that packet has left. -/
def postSent (s : State) (n : Nat) (b : List Byte) (p : LntPkt) : Qp :=
  firstSent s (loadedQp (postedQp b (getQp s n)) (parseSend b) p) (numbered (getQp s n) p)

section
variable {s : State} {f : Fn} {n op : Nat} {b : List Byte}

/-- A queue pair that can send can do so with a descriptor posted. -/
theorem canSend_posted (h : QpReady s n) (b : List Byte) : CanSend s (postedQp b (getQp s n)) := by
  obtain ⟨hst, he, hl, -, -, hu, hc, hf, hn, -⟩ := h
  exact ⟨hst, he, hl, hu, hc, hf, hn⟩

theorem postedQp_sq (h : QpReady s n) : (postedQp b (getQp s n)).sq = [parseSend b] := by
  obtain ⟨-, -, -, hsq, -⟩ := h
  rw [postedQp, hsq]; rfl

theorem postOk_op (h : PostOk s f n b op) : (parseSend b).op = op ∧ op ≤ 5 := by
  obtain ⟨-, -, -, -, -, hle, ho, -⟩ := h
  exact ⟨ho, hle⟩

/-- On a ready queue pair a posted descriptor sends its message. -/
theorem postRow_ready (hr : QpReady s n) (ho : PostOk s f n b op) : postRow op f n b s = pump n (posted n b s) := by
  obtain ⟨hst, -, -, hsq, -⟩ := hr
  rw [postRow_posts ho, postDesc_good ho (by rw [hsq]; exact Nat.two_pow_pos _), if_neg (by omega)]

theorem startSend_posted (hr : QpReady s n) (ho : PostOk s f n b op) (hw : bitOf (field b 2 2) 1 = false) :
    startSend n (parseSend b) (posted n b s) = sendMsg n (parseSend b) (posted n b s) := by
  obtain ⟨-, -, -, -, -, -, -, -, -, -, -, hfail⟩ := hr
  obtain ⟨hop, hle⟩ := postOk_op ho
  exact startSend_eq (by rw [(posted_work s n b).qp]; exact hfail) (by omega) hw

/-- The packet of a descriptor posted on a ready queue pair leaves. -/
theorem post_sends (hr : QpReady s n) (ho : PostOk s f n b op) (hw : bitOf (field b 2 2) 1 = false) {p : LntPkt}
    (hs : sendMsg n (parseSend b) (posted n b s) = queuePkts n [p] (markSent n (parseSend b) (posted n b s))) :
    ∃ t, QpWork n (postSent s n b p) [.lnt (getQp s n).engine (getQp s n).peer (wirePkt (getQp s n) (postPkt s n p))] s t ∧
      postRow op f n b s = pumpLoop n 1024 (leftEngine n (numbered (getQp s n) p) t) := by
  obtain ⟨-, -, -, -, htx, -, -, -, -, hsf, hed, -⟩ := id hr
  obtain ⟨t, ht, hpump⟩ := (posted_work s n b).pumpOne (canSend_posted hr b) hsf hed (postedQp_sq hr) rfl htx ((startSend_posted hr ho hw).trans hs)
  exact ⟨t, ht, (postRow_ready hr ho).trans hpump⟩

theorem postSent_sq (hr : QpReady s n) (p : LntPkt) : (postSent s n b p).sq = [startedDesc (parseSend b) (getQp s n).msn] :=
  loadedQp_sq (postedQp_sq hr) p

theorem postSent_txq (hr : QpReady s n) (p : LntPkt) : (postSent s n b p).txq = [] := by
  obtain ⟨-, -, -, -, htx, -⟩ := hr
  show ((getQp s n).txq ++ [_]).drop 1 = []
  rw [htx]; rfl

/-- The packet of a write (12 R242, R244, R247). -/
def writePkt (s : State) (n op : Nat) (b bs : List Byte) : LntPkt :=
  onlyPkt s n (opTyp op) (field b 0x18 8) (field b 0x28 4) (if op = 5 then field b 6 1 else field b 0x2C 4) (getQp s n).msn bs

/-- A written message leaves as one packet and completes (12 R242, R244, R247). -/
theorem post_write (hr : QpReady s n) (ho : PostOk s f n b op) (hw : bitOf (field b 2 2) 1 = false) (hop : op = 1 ∨ op = 2 ∨ op = 5)
    (hl : field b 0x20 8 ≤ 8192) {bs : List Byte} (hrd : dvaRead s (getQp s n).ctx (field b 0x10 8) (field b 0x20 8) .read false = .ok bs) :
    QpWork n (sentQp (postSent s n b (writePkt s n op b bs)) (startedDesc (parseSend b) (getQp s n).msn) 0 0 (field b 0x20 8))
      ([.lnt (getQp s n).engine (getQp s n).peer (wirePkt (getQp s n) (postPkt s n (writePkt s n op b bs)))] ++
        sendIrqs s n (startedDesc (parseSend b) (getQp s n).msn)) s (postRow op f n b s) := by
  have hpo := (postOk_op ho).1
  have hp := (posted_work s n b).qp
  have hs : sendMsg n (parseSend b) (posted n b s) = queuePkts n [writePkt s n op b bs] (markSent n (parseSend b) (posted n b s)) := by
    rw [sendMsg_write (by rw [hpo]; exact hop) (by rw [dvaRead_length hrd]; exact hl) (by rw [hp, dvaRead_posted]; exact hrd), onlyPkt_posted, hpo, hp]; rfl
  obtain ⟨t, ht, hrow⟩ := post_sends hr ho hw hs
  have htyp : opTyp op = 1 ∨ opTyp op = 2 ∨ opTyp op = 6 := by rcases hop with rfl | rfl | rfl <;> simp [opTyp]
  have hlast : (11 : BitVec 8).getLsbD 1 = true := by decide
  have hleft : leftEngine n (numbered (getQp s n) (writePkt s n op b bs)) t = finishSend n (startedDesc (parseSend b) (getQp s n).msn) 0 0 (field b 0x20 8) t :=
    leftEngine_write htyp hlast (by rw [ht.qp, postSent_sq hr]) rfl rfl (by rw [startedDesc, hpo]; rfl)
  have hdone := ht.complete (startedDesc (parseSend b) (getQp s n).msn) 0 0 (field b 0x20 8)
  have hidle : pumpLoop n 1024 (leftEngine n (numbered (getQp s n) (writePkt s n op b bs)) t) =
      finishSend n (startedDesc (parseSend b) (getQp s n).msn) 0 0 (field b 0x20 8) t := by
    rw [hleft]
    exact pumpLoop_idle (by rw [hdone.qp]; exact postSent_txq hr _) (by rw [hdone.qp, sentQp, postSent_sq hr]; simp) 1024
  rw [hrow, hidle]; exact hdone

/-- A request leaves and its descriptor waits (12 R242). -/
theorem post_request (hr : QpReady s n) (ho : PostOk s f n b op) (hw : bitOf (field b 2 2) 1 = false) {p : LntPkt} (ht : p.typ = 3 ∨ p.typ = 4 ∨ p.typ = 5)
    (hs : sendMsg n (parseSend b) (posted n b s) = queuePkts n [p] (markSent n (parseSend b) (posted n b s))) :
    QpWork n (postSent s n b p) [.lnt (getQp s n).engine (getQp s n).peer (wirePkt (getQp s n) (postPkt s n p))] s (postRow op f n b s) := by
  obtain ⟨t, hw, hrow⟩ := post_sends hr ho hw hs
  rw [hrow, leftEngine_request (p := numbered (getQp s n) p) ht, pumpLoop_idle (by rw [hw.qp]; exact postSent_txq hr _) (by rw [hw.qp, postSent_sq hr]; simp [startedDesc])]
  exact hw

theorem sendMsg_empty {d : SendDesc} (hop : d.op = 3) (hl : d.length = 0) : sendMsg n d s = finishSend n { d with msn := (getQp s n).msn } 0 0 0
    (modQp n (fun v => { v with sq := v.sq.map fun x => if x = d then { d with msn := v.msn } else x }) s) := if_pos ⟨hop, hl⟩

/-- A READ of no bytes completes at once (12 R242). -/
theorem post_empty (hr : QpReady s n) (ho : PostOk s f n b 3) (hw : bitOf (field b 2 2) 1 = false) (hl : field b 0x20 8 = 0) :
    ∃ d : SendDesc, d.tag = field b 8 4 ∧
      QpWork n (sentQp { getQp s n with sq := [d] } d 0 0 0) (sendIrqs s n d) s (postRow 3 f n b s) := by
  obtain ⟨-, -, -, -, htx, -, -, -, -, hsf, hed, -⟩ := id hr
  have hp := posted_work s n b
  refine ⟨{ parseSend b with msn := (getQp s n).msn }, rfl, ?_⟩
  have hm : QpWork n { getQp s n with sq := [{ parseSend b with msn := (getQp s n).msn }] } [] s (modQp n (fun v => { v with
      sq := v.sq.map fun x => if x = parseSend b then { parseSend b with msn := v.msn } else x }) (posted n b s)) :=
    hp.change (by rw [postedQp_sq hr]; simp [postedQp])
  have hdone := hm.complete { parseSend b with msn := (getQp s n).msn } 0 0 0
  have hidle := pumpLoop_idle (by rw [hdone.qp]; exact htx) (by rw [hdone.qp]; simp [sentQp]) 1025
  rw [postRow_ready hr ho, hp.pumpStart (canSend_posted hr b) hsf hed (postedQp_sq hr) rfl htx, startSend_posted hr ho hw,
    sendMsg_empty (postOk_op ho).1 hl, hp.qp]
  exact hidle.symm ▸ hdone

end

end Sys2Proof.Machine
end

section
/-! O48, the sender: acknowledgements, NAKs and timers (12 R244, R249 to R251). -/

namespace Sys2Proof.Machine

/-! Control packets at a queue pair (12 R228). -/

section
variable {s : State} {p : LntPkt} {n : Nat}

theorem rxQp_some (h : rxQp p s = some n) : n = p.dest % 2 ^ 24 ∧ (getQp s n).st = 3 ∧ (getQp s n).engine = p.engine := by
  unfold rxQp at h; dsimp only at h; split at h
  · rename_i hc
    cases h
    simp only [Bool.and_eq_true, beq_iff_eq] at hc
    exact ⟨rfl, hc.1.1.1.1, hc.1.1.2⟩
  · cases h

theorem ctlIn_drops (body : Nat → LntPkt → State → State) (h : rxQp p s = some n) (hp : (getQp s n).prot = true)
    (hs : ctlSeq (getQp s n).kRx (rxDir (getQp s n)) (getQp s n).ctlRx p = none) : ctlIn body p s = dropLnt p.engine s := by
  unfold ctlIn; rw [h]; dsimp only
  rw [if_neg (by simp [hp]), hs]

/-- The queue pair under the next count of control packets. -/
def countedQp (v : Qp) (k : Nat) : Qp := { v with ctlRx := k }

/-- A control packet that verifies reaches its rule; only the count of control packets has moved. -/
theorem ctlIn_runs {typ : Nat} (h : CtlArrives s p typ n) (body : Nat → LntPkt → State → State) :
    ∃ k t, QpWork n (countedQp (getQp s n) k) [] s t ∧ ctlIn body p s = body n p t := by
  obtain ⟨-, hr, hv⟩ := h
  unfold ctlIn; rw [hr]; dsimp only
  by_cases hp : (getQp s n).prot = true
  · obtain ⟨c, hc⟩ := hv hp
    exact ⟨c + 1, _, (QpWork.refl n s).change rfl, by rw [if_neg (by simp [hp]), hc]⟩
  · exact ⟨_, s, .refl n s, by simp [hp]⟩

theorem nakIn_runs (h : CtlArrives s p 0x09 n) {code : Nat} (hc : p.imm % 256 = code) (body : Nat → LntPkt → State → State) :
    ∃ k t, QpWork n (countedQp (getQp s n) k) [] s t ∧ nakIn code body p s = body n p t := by
  obtain ⟨k, t, hw, hb⟩ := ctlIn_runs h body
  exact ⟨k, t, hw, by rw [nakIn, if_pos hc, rxPkt_arrives h.1 rfl, hb]⟩

end

/-! Acknowledgements (12 R250). -/

/-- The queue pair with the packets up to a PSN freed. -/
def freedQp (v : Qp) (a : Nat) : Qp :=
  if (v.unacked.filter fun e => decide (a < e.psn)).length = v.unacked.length then v
  else { v with unacked := v.unacked.filter fun e => decide (a < e.psn), retries := 0, nr := v.nr.filter fun r => decide (a < r.psn)
                rfull := v.rfull.filter fun r => decide (a < r.1) }

section
variable {apsn : Nat} {v : Qp}

/-! `freeAcked` is unfolded as a function: to compare its value at `v` with a match makes the kernel evaluate `ackedTo`. -/

theorem freeAcked_none (h : ackedTo v apsn = none) : freeAcked apsn v = v := by
  have hd : freeAcked = freeAcked := rfl
  conv at hd => rhs; delta freeAcked
  rw [hd]; beta_reduce; rw [h]

theorem freeAcked_some {a : Nat} (h : ackedTo v apsn = some a) : freeAcked apsn v = freedQp v a := by
  have hd : freeAcked = freeAcked := rfl
  conv at hd => rhs; delta freeAcked
  rw [hd]; beta_reduce; rw [h]; rfl

theorem freedQp_keeps (v : Qp) (a : Nat) : ∃ r nr rf, freedQp v a =
    { v with unacked := v.unacked.filter fun e => decide (a < e.psn), retries := r, nr := nr, rfull := rf } := by
  unfold freedQp; split
  · rename_i hl
    have hu := List.filter_eq_self.2 (List.length_filter_eq_length_iff.1 hl)
    exact ⟨v.retries, v.nr, v.rfull, by rw [hu]⟩
  · exact ⟨_, _, _, rfl⟩

theorem freeAcked_unacked {a : Nat} (h : ackedTo v apsn = some a) : (freeAcked apsn v).unacked = v.unacked.filter fun e => decide (a < e.psn) := by
  obtain ⟨r, nr, rf, hf⟩ := freedQp_keeps v a
  rw [freeAcked_some h, hf]

/-- Freeing writes the packets in flight, the retries and the waits alone. -/
theorem freeAcked_keeps (apsn : Nat) (v : Qp) : ∃ u r nr rf, freeAcked apsn v = { v with unacked := u, retries := r, nr := nr, rfull := rf } := by
  cases h : ackedTo v apsn with
  | none => exact ⟨v.unacked, v.retries, v.nr, v.rfull, freeAcked_none h⟩
  | some a =>
    obtain ⟨r, nr, rf, hf⟩ := freedQp_keeps v a
    exact ⟨_, r, nr, rf, (freeAcked_some h).trans hf⟩

end

/-- The queue pair after `cwnd` has moved and the rtt is known. -/
def movedQp (w : Qp) (rtt bytes now srtt : Nat) : Qp := { cwndAfter w rtt bytes now with srtt := srtt }

section
variable {w : Qp} {rtt bytes now srtt : Nat}

theorem movedQp_keeps (w : Qp) (rtt bytes now srtt : Nat) : ∃ c l, movedQp w rtt bytes now srtt = { w with cwnd := c, lastCut := l, srtt := srtt } := by
  unfold movedQp cwndAfter; split
  · exact ⟨_, w.lastCut, rfl⟩
  · split
    · exact ⟨_, _, rfl⟩
    · exact ⟨w.cwnd, w.lastCut, rfl⟩

theorem movedQp_below (h : rtt ≤ w.cc.target) : (movedQp w rtt bytes now srtt).cwnd = min w.cc.cwndMax (w.cwnd + w.cc.ai * bytes / w.cwnd) := by
  unfold movedQp cwndAfter; rw [if_pos h]

theorem movedQp_waits (h : w.cc.target < rtt) (hl : now < w.lastCut + rtt) : (movedQp w rtt bytes now srtt).cwnd = w.cwnd := by
  unfold movedQp cwndAfter; rw [if_neg (by omega), if_neg (by omega)]

theorem movedQp_cuts (h : w.cc.target < rtt) (hl : w.lastCut + rtt ≤ now) : w.cc.cwndMin ≤ (movedQp w rtt bytes now srtt).cwnd ∧
    (movedQp w rtt bytes now srtt).lastCut = now ∧ (w.cc.cwndMin ≤ w.cwnd → (movedQp w rtt bytes now srtt).cwnd ≤ w.cwnd) := by
  unfold movedQp cwndAfter; rw [if_neg (by omega), if_pos hl]
  exact ⟨le_max_left _ _, rfl, fun hm => max_le hm (Nat.sub_le _ _)⟩

end

theorem unackedBytes_congr {v w : Qp} (h : v.unacked = w.unacked) : unackedBytes v = unackedBytes w := by unfold unackedBytes; rw [h]

/-- The queue pair after an ACK. -/
def ackQp (p : LntPkt) (now srtt : Nat) (v : Qp) : Qp :=
  movedQp (freeAcked p.apsn v) (now - p.ts) (unackedBytes v - unackedBytes (freeAcked p.apsn v)) now srtt

/-- What an ACK makes of a queue pair, as the packets in flight, the window and the rest. -/
structure AckedAs (p : LntPkt) (now : Nat) (v w : Qp) : Prop where
  unheard : ackedTo v p.apsn = none → w.unacked = v.unacked
  freed : ∀ a, ackedTo v p.apsn = some a → w.unacked = v.unacked.filter fun e => decide (a < e.psn)
  below : now - p.ts ≤ v.cc.target → w.cwnd = min v.cc.cwndMax (v.cwnd + v.cc.ai * (unackedBytes v - unackedBytes w) / v.cwnd)
  waits : v.cc.target < now - p.ts → now < v.lastCut + (now - p.ts) → w.cwnd = v.cwnd
  cuts : v.cc.target < now - p.ts → v.lastCut + (now - p.ts) ≤ now → v.cc.cwndMin ≤ w.cwnd ∧ w.lastCut = now ∧ (v.cc.cwndMin ≤ v.cwnd → w.cwnd ≤ v.cwnd)
  ring : (w.sq, w.cq, w.sendCnt, w.txq) = (v.sq, v.cq, v.sendCnt, v.txq)

/-- The window moves over whatever `f` an ACK leaves. -/
theorem movedQp_acked {p : LntPkt} {now srtt : Nat} {v f : Qp} (hnone : ackedTo v p.apsn = none → f.unacked = v.unacked)
    (hsome : ∀ a, ackedTo v p.apsn = some a → f.unacked = v.unacked.filter fun e => decide (a < e.psn))
    (hk : ∃ u r nr rf, f = { v with unacked := u, retries := r, nr := nr, rfull := rf }) :
    AckedAs p now v (movedQp f (now - p.ts) (unackedBytes v - unackedBytes f) now srtt) := by
  obtain ⟨c, l, hm⟩ := movedQp_keeps f (now - p.ts) (unackedBytes v - unackedBytes f) now srtt
  have hu : (movedQp f (now - p.ts) (unackedBytes v - unackedBytes f) now srtt).unacked = f.unacked := by rw [hm]
  have hring : (f.sq, f.cq, f.sendCnt, f.txq) = (v.sq, v.cq, v.sendCnt, v.txq) := by obtain ⟨u, r, nr, rf, rfl⟩ := hk; rfl
  obtain ⟨hcc, hcw, hlc⟩ : f.cc = v.cc ∧ f.cwnd = v.cwnd ∧ f.lastCut = v.lastCut := by obtain ⟨u, r, nr, rf, rfl⟩ := hk; exact ⟨rfl, rfl, rfl⟩
  refine ⟨fun h => hu.trans (hnone h), fun a h => hu.trans (hsome a h), fun h => ?_, fun h hl => ?_, fun h hl => ?_, ?_⟩
  · rw [unackedBytes_congr hu, movedQp_below (by rw [hcc]; exact h), hcc, hcw]
  · rw [← hcc] at h
    rw [← hlc] at hl
    rw [movedQp_waits h hl, hcw]
  · rw [← hcc] at h ⊢
    rw [← hlc] at hl
    rw [← hcw]
    exact movedQp_cuts h hl
  · rw [← hring, hm]

theorem ackQp_acked (p : LntPkt) (now srtt : Nat) (v : Qp) : AckedAs p now v (ackQp p now srtt v) :=
  movedQp_acked (fun h => congrArg Qp.unacked (freeAcked_none h)) (fun _ h => freeAcked_unacked h) (freeAcked_keeps p.apsn v)

/-- An ACK without its FLUSH's completion and what may be sent after. -/
def acked (n : Nat) (p : LntPkt) (s : State) : State := modQp n (ackQp p s.lark.time (drawNat s).1) (drawNat s).2

/-- An ACK ends with what it frees, and with a FLUSH that it completes. -/
theorem onAck_cases (n : Nat) (p : LntPkt) (s : State) :
    (onAck n p s = pump n (acked n p s) ∧ ∀ d, (getQp (acked n p s) n).sq = [d] → d.started = true → d.op = 4 → ¬ (p.imm % 2 = 1 ∧ d.msn % 2 ^ 32 = p.msn)) ∨
    ∃ d ∈ (getQp (acked n p s) n).sq, onAck n p s = pump n (finishSend n d 0 0 0 (acked n p s)) ∧ p.imm % 2 = 1 ∧ d.msn % 2 ^ 32 = p.msn := by
  unfold onAck; dsimp only; split
  · rename_i hi
    split
    · rename_i d hd
      have hp := List.find?_some hd
      simp only [Bool.and_eq_true, beq_iff_eq] at hp
      exact .inr ⟨d, List.mem_of_find?_eq_some hd, rfl, hi, hp.2⟩
    · rename_i hn
      refine .inl ⟨rfl, fun d hs ho h4 hm => ?_⟩
      have hq : ∀ d ∈ (getQp (acked n p s) n).sq, ¬ (d.started && d.op == 4 && d.msn % 2 ^ 32 == p.msn) = true := List.find?_eq_none.1 hn
      exact hq d (by rw [hs]; exact List.mem_singleton.2 rfl) (by simp only [ho, h4, hm.2, BEq.rfl, Bool.and_self])
  · rename_i hi; exact .inl ⟨rfl, fun d _ _ _ hm => hi hm.1⟩

section
variable {n : Nat} {v : Qp} {os : List Out} {s t : State} (h : QpWork n v os s t)
include h

theorem QpWork.drawn1 : QpWork n v os s (drawNat t).2 := by
  have hd : QpWork n v [] t (drawNat t).2 := ⟨h.qp, fun _ _ => rfl, (List.append_nil _).symm, rfl⟩
  simpa using h.trans hd

theorem QpWork.acked (p : LntPkt) : QpWork n (ackQp p s.lark.time (drawNat t).1 v) os s (acked n p t) := by
  rw [← h.lark]; exact h.drawn1.change rfl

/-- An ACK on a queue pair with nothing to send but a FLUSH that waits. -/
theorem QpWork.onAck (hos : os = []) (htx : v.txq = []) (hsq : v.sq = [] ∨ ∃ d, v.sq = [d] ∧ d.started = true ∧ d.op = 4 ∧ bitOf d.flags 3 = false) (p : LntPkt) :
    ∃ w a, QpWork n w [] s (Machine.onAck n p t) ∧ AckedAs p s.lark.time v a ∧
      (w = a ∧ (∀ d, v.sq = [d] → ¬ (p.imm % 2 = 1 ∧ d.msn % 2 ^ 32 = p.msn)) ∨ ∃ d, v.sq = [d] ∧ p.imm % 2 = 1 ∧ w = sentQp a d 0 0 0) := by
  subst hos
  have hall : ∀ d ∈ v.sq, d.started = true := by
    rcases hsq with hs | ⟨d, hs, ho, -⟩
    · rw [hs]; nofun
    · rw [hs]; simpa using ho
  have hw := h.acked p
  have ha := ackQp_acked p s.lark.time (drawNat t).1 v
  obtain ⟨hsq', -, -, htx'⟩ := by simpa only [Prod.mk.injEq] using ha.ring
  rcases onAck_cases n p t with ⟨he, hd⟩ | ⟨d, hd, he, hi, -⟩
  · rw [hw.qp, hsq'] at hd
    refine ⟨_, _, ?_, ha, .inl ⟨rfl, fun d hs => ?_⟩⟩
    · rw [he, hw.idle (by rw [htx', htx]) (by rw [hsq']; exact hall)]
      exact hw
    · rcases hsq with h0 | ⟨d', hs', ho, h4, -⟩
      · rw [h0] at hs; cases hs
      · rw [hs'] at hs; cases hs
        exact hd d hs' ho h4
  · rw [hw.qp, hsq'] at hd
    rcases hsq with h0 | ⟨d', hs', -, -, hf⟩
    · rw [h0] at hd; cases hd
    · rw [hs'] at hd; cases List.mem_singleton.1 hd
      have hc := hw.complete d 0 0 0
      rw [sendIrqs_none hf] at hc
      have hi0 := hc.idle (by rw [sentQp, htx', htx]) (by rw [sentQp, hsq', hs']; simp)
      exact ⟨_, _, by rw [he, hi0]; exact hc, ha, .inr ⟨d, hs', hi, rfl⟩⟩

end

/-! NAKs (12 Table 12.7, R249). -/

theorem ackedTo_congr {v w : Qp} (h : v.txPsn = w.txPsn) (apsn : Nat) : ackedTo v apsn = ackedTo w apsn := by unfold ackedTo; rw [h]

/-- Packets go out again as their queue pair's engine, peer and next expected PSN say. -/
theorem resent_congr {s : State} {v w : Qp} (h : (v.engine, v.peer, v.rxPsn) = (w.engine, w.peer, w.rxPsn)) (es : List Sent) : resent s v es = resent s w es := by
  simp only [Prod.mk.injEq] at h
  obtain ⟨he, hp, hr⟩ := h
  simp only [resent, resendPkt, he, hp, hr]

theorem map_psn_retimed (es : List Sent) (psn now : Nat) :
    (es.map fun e => if psn ≤ e.psn then { e with at_ := now } else e).map Sent.psn = es.map Sent.psn := by
  rw [List.map_map]
  refine List.map_congr_left fun e _ => ?_
  simp only [Function.comp]; split <;> rfl

theorem filter_acked (es : List Sent) (a : Nat) :
    ((es.filter fun e => decide (a < e.psn)).filter fun e => decide (a + 1 ≤ e.psn)) = es.filter fun e => decide (a < e.psn) := by
  rw [List.filter_filter]
  exact congrArg (es.filter ·) (funext fun e => Bool.and_self _)

/-- 12 R229: every packet after APSN goes out again. -/
theorem QpWork.onNakSequence {n : Nat} {v : Qp} {os : List Out} {s t : State} (h : QpWork n v os s t) (he : v.engine ≠ 4) {p : LntPkt} {a : Nat}
    (ha : ackedTo v p.apsn = some a) :
    ∃ w, QpWork n w (os ++ resent s v (v.unacked.filter fun e => decide (a < e.psn))) s (Machine.onNakSequence n p t) ∧
      w.unacked.map Sent.psn = (v.unacked.filter fun e => decide (a < e.psn)).map Sent.psn := by
  have hf : QpWork n (freeAcked p.apsn v) os s (modQp n (freeAcked p.apsn) t) := h.change rfl
  have hu := freeAcked_unacked ha
  obtain ⟨u, r, nr, rf, hk⟩ := freeAcked_keeps p.apsn v
  generalize freeAcked p.apsn v = f at hf hu hk
  have hr := hf.resend (by rw [hk]; exact he) (a + 1)
  rw [hu, filter_acked, resent_congr (w := v) (by rw [hk])] at hr
  have hto : ackedTo (getQp (modQp n (freeAcked p.apsn) t) n) p.apsn = some a := by rw [hf.qp, ackedTo_congr (w := v) (by rw [hk]), ha]
  have hnak : Machine.onNakSequence n p t = resendFrom n (a + 1) (modQp n (freeAcked p.apsn) t) := by
    unfold Machine.onNakSequence; dsimp only
    rw [hto]
  rw [hnak]; exact ⟨_, hr, map_psn_retimed _ (a + 1) s.lark.time⟩

theorem onNakAccess_ends (n : Nat) (p : LntPkt) (s : State) : QpEnded n 0x0204 s (onNakAccess n p s) ∧ TellsPeer n 0x0204 s (onNakAccess n p s) := by
  obtain ⟨os, hw⟩ := (QpWork.refl n s).sends (sends_raiseEv 0x0204 (some (getQp s n).ctx) (unitId 9 (getQp s n).engine) (Config.eventDetail 0x0204) s)
  exact ⟨hw.thenEnded rfl (qpFail_ended ..), hw.thenTells rfl (qpFail_tells n 0x0204 _ _)⟩

/-- 12 R249: the backoff of a page that is not ready, first and again. -/
theorem QpWork.onNotReady {n : Nat} {v : Qp} {os : List Out} {s t : State} (h : QpWork n v os s t) (p : LntPkt) :
    ∃ w, QpWork n w os s (Machine.onNotReady n p t) ∧
      (v.nr = none → w.nr = some { psn := sentPsn v p.psn, since := s.lark.time, backoff := 500000, due := s.lark.time + 500000, waiting := true }) ∧
      (∀ r, v.nr = some r → r.psn = sentPsn v p.psn → w.nr = some { r with
        backoff := min (2 * r.backoff) 8000000, due := s.lark.time + min (2 * r.backoff) 8000000, waiting := true }) := by
  refine ⟨_, h.change rfl, fun hn => ?_, fun r hr hp => ?_⟩
  · dsimp only; rw [hn, h.lark]
  · dsimp only; rw [hr]; dsimp only; rw [if_pos hp, h.lark]

section
variable {s : State} {p : LntPkt} {n : Nat} (ha : CtlArrives s p 0x09 n)
include ha

theorem nakSequence_work (he : (getQp s n).engine ≠ 4) (hc : p.imm % 256 = 1) {a : Nat} (hto : ackedTo (getQp s n) p.apsn = some a) :
    ∃ w, QpWork n w (resent s (getQp s n) ((getQp s n).unacked.filter fun e => decide (a < e.psn))) s (nakIn 1 onNakSequence p s) ∧
      w.unacked.map Sent.psn = ((getQp s n).unacked.filter fun e => decide (a < e.psn)).map Sent.psn := by
  obtain ⟨k, u, hw, hb⟩ := nakIn_runs ha hc onNakSequence
  rw [hb]; exact hw.onNakSequence he hto

theorem nakAccess_ends (hc : p.imm % 256 = 2) : QpEnded n 0x0204 s (nakIn 2 onNakAccess p s) ∧ TellsPeer n 0x0204 s (nakIn 2 onNakAccess p s) := by
  obtain ⟨k, u, hw, hb⟩ := nakIn_runs ha hc onNakAccess
  obtain ⟨hend, htell⟩ := onNakAccess_ends n p u
  rw [hb]; exact ⟨hw.thenEnded rfl hend, hw.thenTells rfl htell⟩

theorem nakStalled_work (hc : p.imm % 256 = 3) : ∃ w, QpWork n w [] s (nakIn 3 onNakStalled p s) ∧ w.retries = 0 ∧
    w.unacked = (getQp s n).unacked.map fun e => { e with at_ := s.lark.time } := by
  obtain ⟨k, u, hw, hb⟩ := nakIn_runs ha hc onNakStalled
  rw [hb, ← hw.lark]; exact ⟨_, hw.change rfl, rfl, rfl⟩

theorem nakFull_work (hc : p.imm % 256 = 4) : ∃ w, QpWork n w [] s (nakIn 4 onNakFull p s) ∧ w.rfull = some (sentPsn (getQp s n) p.psn, s.lark.time) := by
  obtain ⟨k, u, hw, hb⟩ := nakIn_runs ha hc onNakFull
  rw [hb, ← hw.lark]; exact ⟨_, hw.change rfl, rfl⟩

/-- A NAK whose cause ends the queue pair. -/
theorem nakCause_ends {code : Nat} (hc : p.imm % 256 = code) (status : Nat) : QpEnded n status s (nakIn code (fun n _ s => qpError n status s) p s) ∧
    TellsPeer n status s (nakIn code (fun n _ s => qpError n status s) p s) := by
  obtain ⟨k, u, hw, hb⟩ := nakIn_runs ha hc (fun n _ s => qpError n status s)
  have h3 : (getQp u n).st = 3 := by rw [hw.qp]; exact (rxQp_some ha.2.1).2.1
  rw [hb]; exact ⟨hw.thenEnded rfl (qpError_ended (.inr (.inl h3)) _), hw.thenTells rfl (qpError_tells (.inr (.inl h3)) _)⟩

end

section
variable {n : Nat} {v : Qp} {os : List Out} {s t : State} (h : QpWork n v os s t)
include h

theorem QpWork.nak (he : v.engine ≠ 4) (code psn : Nat) : QpWork n { v with ctlTx := v.ctlTx + 1 }
    (os ++ [.lnt v.engine v.peer (ctlPkt t n v.engine 0x09 code 0 t.lark.time (some psn))]) s (sendNak n code psn t) := by
  unfold sendNak; rw [h.qp]; exact h.control he ..

theorem QpWork.ack (he : v.engine ≠ 4) (ts : Nat) : QpWork n { v with ctlTx := v.ctlTx + 1 }
    (os ++ [.lnt v.engine v.peer (ctlPkt t n v.engine 0x08 0 0 ts none)]) s (sendAck n ts t) := by
  unfold sendAck; rw [h.qp]; exact h.control he ..

/-- One packet goes out again. -/
theorem QpWork.resendOne (he : v.engine ≠ 4) (e : Sent) : QpWork n v (os ++ resent s v [e]) s
    (meterTx v.ctx e.pkt.len (sendLnt v.ctx v.engine v.peer (resendPkt t v e.pkt) t)) := by
  have hp : resendPkt t v e.pkt = resendPkt s v e.pkt := by unfold resendPkt; rw [h.lark]
  rw [hp]; exact (h.send he v.ctx v.peer _).meteredTx ..

/-- A queue pair with nothing else to send sends again from a PSN. -/
theorem QpWork.resendIdle (he : v.engine ≠ 4) (htx : v.txq = []) (hsq : v.sq = []) (psn : Nat) :
    QpWork n { v with unacked := v.unacked.map fun e => if psn ≤ e.psn then { e with at_ := s.lark.time } else e }
      (os ++ resent s v (v.unacked.filter fun e => decide (psn ≤ e.psn))) s (pump n (resendFrom n psn t)) := by
  have hr := h.resend he psn
  rw [hr.idle htx (by show ∀ d ∈ v.sq, _; rw [hsq]; nofun)]; exact hr

end

/-! Timers (12 R244, R249, R250). -/

section
variable {s : State} {n : Nat}

theorem notReadyResend_eq {r : NotReady} (h : (getQp s n).nr = some r) : execNotReadyResend n s =
    .next (if !(qpLive s n && r.waiting && decide (r.due ≤ s.lark.time)) then s
      else if r.since + 1000000000 ≤ s.lark.time then qpFail n 0x0204 (nakRights (getQp s n) r.psn) none s
      else pump n (resendFrom n r.psn (modQp n (fun v => { v with nr := some { r with waiting := false } }) s))) := by
  unfold execNotReadyResend; rw [h]

theorem stallNakTimer_stalled {psn : Nat} {fl : QFault} (h : (getQp s n).stall = some (psn, fl)) (hl : qpLive s n = true) :
    execStallNakTimer n s = .next (sendNak n 3 psn s) := by
  unfold execStallNakTimer; rw [h]; dsimp only; rw [if_pos hl]

theorem stallNakTimer_idle (h : (getQp s n).stall = none) : execStallNakTimer n s = .next s := by
  unfold execStallNakTimer; rw [h]

theorem retransmitTimeout_early {e : Sent} {es : List Sent} (h : (getQp s n).unacked = e :: es) (ht : s.lark.time < e.at_ + rtoOf (getQp s n)) : execRetransmitTimeout n s = .next s := by
  unfold execRetransmitTimeout; dsimp only
  rw [h]; simp only [List.head?_cons]
  rw [if_pos (by simp [ht])]

section
variable {e : Sent} {es : List Sent} (h : (getQp s n).unacked = e :: es) (hl : qpLive s n = true) (hf : (getQp s n).rfull = none)
  (hn : (getQp s n).nr = none)
include h hl hf hn

theorem retransmitTimeout_fails (ht : e.at_ + rtoOf (getQp s n) ≤ s.lark.time) (hr : (getQp s n).cc.retry ≤ (getQp s n).retries) :
    execRetransmitTimeout n s = .next (qpError n 0x0801 s) := by
  unfold execRetransmitTimeout; dsimp only
  rw [h]; simp only [List.head?_cons]
  rw [if_neg (by simp [hl, hf, hn, ht]), if_pos hr]

theorem retransmitTimeout_resends (he : (getQp s n).engine ≠ 4) (ht : e.at_ + rtoOf (getQp s n) ≤ s.lark.time)
    (hr : (getQp s n).retries < (getQp s n).cc.retry) : ∃ t, execRetransmitTimeout n s = .next t ∧
    QpWork n { getQp s n with retries := (getQp s n).retries + 1, unacked := { e with at_ := s.lark.time } :: es } (resent s (getQp s n) [e]) s t := by
  have hw := (QpWork.refl n s).resendOne he e
  refine ⟨_, ?_, hw.change (f := fun v => { v with retries := v.retries + 1, unacked := { e with at_ := s.lark.time } :: v.unacked.drop 1 }) (by rw [h]; rfl)⟩
  unfold execRetransmitTimeout; dsimp only
  rw [h]; simp only [List.head?_cons]
  rw [if_neg (by simp [hl, hf, hn, ht]), if_neg (by omega), hw.lark]

end

theorem receiveFullResend_eq {psn at_ : Nat} (h : (getQp s n).rfull = some (psn, at_)) : execReceiveFullResend n s =
    .next (if qpLive s n && decide (at_ + 100000 ≤ s.lark.time) then pump n (resendFrom n psn (modQp n (fun v => { v with rfull := none }) s)) else s) := by
  unfold execReceiveFullResend; rw [h]

theorem qpLive_st (h : qpLive s n = true) : (getQp s n).st = 3 := by
  simp only [qpLive, Bool.and_eq_true, beq_iff_eq] at h
  exact h.1

end

/-! The rings (12 R238; 19 R359). -/

theorem emit_if_width (c : Bool) (o : Out) (s : State) : (if c then emit o s else s).glb.width = s.glb.width := by cases c <;> rfl

theorem evNotify_width (code g seq : Nat) (s : State) : (evNotify code g seq s).glb.width = s.glb.width :=
  emit_if_width ..

/-- An event leaves the flag of an access of a wrong width. -/
theorem raiseEv_width (code : Nat) (ctx : Option Nat) (unit detail : Nat) (s : State) : (raiseEv code ctx unit detail s).glb.width = s.glb.width := by
  unfold raiseEv; dsimp only; split
  · rfl
  · rw [evNotify_width]; rfl

theorem setLastRead_value (k : Nat) (s : State) : (setLastRead k s).lastRead = k := rfl
theorem setLastRead_qp (k n : Nat) (s : State) : getQp (setLastRead k s) n = getQp s n := rfl
theorem setLastRead_only {n : Nat} {s t : State} (k : Nat) (h : OnlyQp n s t) : OnlyQp n s (setLastRead k t) := h

section
variable {s : State} {f : Fn} {n : Nat} {off : Nat} {get : Qp → List StatusRec} {pop : Qp → Qp}
  (hr : regsOpen s = true) (hp : s.pwr.st = .idle ∨ s.pwr.st = .run) (hq : qpReach f n s = true)
include hr hp hq

theorem readRing_popped {r : StatusRec} {rs : List StatusRec} (h : get (getQp s n) = r :: rs) :
    readRing off get pop f n 32 s = setLastRead (leNat (recBytes r)) (modQp n pop s) := by
  have hst : ¬ (s.pwr.st = .standby ∨ s.pwr.st = .tripped) := by rcases hp with hp | hp <;> simp [hp]
  unfold readRing
  rw [if_neg (by simp [hr]), if_neg hst, if_neg (by simp [hq]), if_neg (by simp), h]; rfl

/-- A read of 32 bytes returns and removes the next record. -/
theorem readRing_pops {r : StatusRec} {rs : List StatusRec} (h : get (getQp s n) = r :: rs) :
    ∃ t, readRing off get pop f n 32 s = t ∧ t.lastRead = leNat (recBytes r) ∧ getQp t n = pop (getQp s n) ∧ OnlyQp n s t := by
  have hw : QpWork n (pop (getQp s n)) [] s (modQp n pop s) := (QpWork.refl n s).change rfl
  exact ⟨_, readRing_popped hr hp hq h, setLastRead_value .., (setLastRead_qp ..).trans hw.qp, setLastRead_only _ hw.only⟩

theorem readRing_empty (h : get (getQp s n) = []) : readRing off get pop f n 32 s = setLastRead 0 s := by
  have hst : ¬ (s.pwr.st = .standby ∨ s.pwr.st = .tripped) := by rcases hp with hp | hp <;> simp [hp]
  unfold readRing
  rw [if_neg (by simp [hr]), if_neg hst, if_neg (by simp [hq]), if_neg (by simp), h]; rfl

/-- A read of another width returns zero and removes nothing. -/
theorem readRing_width {width : Nat} (h : width ≠ 32) :
    ∃ t, readRing off get pop f n width s = t ∧ t.lastRead = 0 ∧ t.glb.width = true ∧ getQp t n = getQp s n := by
  have hst : ¬ (s.pwr.st = .standby ∨ s.pwr.st = .tripped) := by rcases hp with hp | hp <;> simp [hp]
  have hl : (raiseDev 0x0108 (qpPage s n + off) (onGlb (fun g => { g with width := true }) s)).lnt = s.lnt := by
    have hf := raiseEv_frame 0x0108 none 0xFFFF (qpPage s n + off) (onGlb (fun g => { g with width := true }) s)
    unfold raiseDev; rw [hf]; rfl
  refine ⟨setLastRead 0 (raiseDev 0x0108 (qpPage s n + off) (onGlb (fun g => { g with width := true }) s)), ?_, rfl, raiseEv_width .., ?_⟩
  · unfold readRing
    rw [if_neg (by simp [hr]), if_neg hst, if_neg (by simp [hq]), if_pos h]
  · show tabGet Qp.init (raiseDev 0x0108 (qpPage s n + off) (onGlb (fun g => { g with width := true }) s)).lnt.qps n = _
    rw [hl]; rfl

end

end Sys2Proof.Machine
end

section
/-! O48: the statement from the rules of posts, the sender, its timers and the rings. -/

namespace Sys2Proof.Machine

theorem field_imm_write {op : Nat} {b : List Byte} (h : op = 2) : (if op = 5 then field b 6 1 else field b 0x2C 4) = field b 0x2C 4 := if_neg (by omega)

/-- Settles O48: each command, packet and timer is one step of the queue pair's record with the packets it sends (`QpWork`); a post runs the
sender over the one descriptor of the ring. -/
theorem queuePairsSendAndRetransmit : Obligations.QueuePairsSendAndRetransmit := by
  refine ⟨?post, ?ring, ?tag, ?ack, ?naks, ?notReady, ?timers, ?reads⟩
  case post =>
    rintro s f n b op _ _ c hr ho hc rfl rfl hw
    refine ⟨fun bs hop hl hrd => ?_, ?_, fun hop => ?_⟩
    · have hwork := post_write hr ho hw hop hl hrd
      obtain ⟨-, -, -, -, -, hu, -⟩ := id hr
      refine ⟨_, postPkt s n (writePkt s n op b bs), _, postCmd_runs hc, by rw [hwork.out, List.append_assoc], fun h3 => sendIrqs_none (d := startedDesc (parseSend b) (getQp s n).msn) h3 s n, rfl, rfl, rfl, rfl, rfl, rfl, rfl,
        fun h2 => field_imm_write h2, fun h5 => if_pos h5, rfl, ⟨?_, ?_⟩, ?_, ?_, ?_, ?_, hwork.only⟩
      · rw [hwork.qp]; rfl
      · exact ⟨_, by rw [hwork.qp]; rfl, rfl, rfl, rfl⟩
      · rw [hwork.qp, sentQp, postSent_sq hr]; simp
      · rw [hwork.qp]; rfl
      · rw [hwork.qp]; rfl
      · rw [hwork.qp]
        show List.map Sent.psn ((getQp s n).unacked ++ [_]) = _
        rw [hu]; rfl
    · rintro rfl hl
      obtain ⟨d, hd, hwork⟩ := post_empty hr ho hw hl
      refine ⟨_, postCmd_runs hc, ⟨by rw [hwork.qp]; rfl, _, by rw [hwork.qp]; rfl, hd, rfl, rfl⟩, ?_, by rw [hwork.qp]; rfl, hwork.only⟩
      rw [hwork.qp]; simp [sentQp]
    · have hpo := (postOk_op ho).1
      have hp := (posted_work s n b).qp
      obtain ⟨-, -, -, -, -, hu, -⟩ := id hr
      have hleaves : ∀ p : LntPkt, QpWork n (postSent s n b p) [.lnt (getQp s n).engine (getQp s n).peer (wirePkt (getQp s n) (postPkt s n p))] s
          (postRow op f n b s) → (getQp (postRow op f n b s) n).cq = (getQp s n).cq ∧ (getQp (postRow op f n b s) n).sendCnt = (getQp s n).sendCnt ∧
          (∃ d, (getQp (postRow op f n b s) n).sq = [d] ∧ d.started = true ∧ d.msn = (getQp s n).msn ∧ d.tag = field b 8 4) ∧
          (getQp (postRow op f n b s) n).txPsn = (getQp s n).txPsn + 1 ∧ (getQp (postRow op f n b s) n).unacked.map Sent.psn = [(getQp s n).txPsn] ∧
          OnlyQp n s (postRow op f n b s) := fun p hwork => by
        refine ⟨by rw [hwork.qp]; rfl, by rw [hwork.qp]; rfl, ⟨_, by rw [hwork.qp, postSent_sq hr], rfl, rfl, rfl⟩, by rw [hwork.qp]; rfl, ?_, hwork.only⟩
        rw [hwork.qp]
        show List.map Sent.psn ((getQp s n).unacked ++ [_]) = _
        rw [hu]; rfl
      rcases hop with ⟨rfl, hl⟩ | rfl
      · have hwork := post_request hr ho hw (.inl rfl) (by rw [sendMsg_read hpo hl, onlyPkt_posted, hp])
        exact ⟨_, _, postCmd_runs hc, hwork.out, rfl, rfl, rfl, fun _ => ⟨rfl, rfl, rfl⟩, nofun, hleaves _ hwork⟩
      · have hwork := post_request hr ho hw (.inr (.inr rfl)) (by rw [sendMsg_flush hpo, onlyPkt_posted, hp])
        exact ⟨_, _, postCmd_runs hc, hwork.out, rfl, rfl, rfl, nofun, fun _ => rfl, hleaves _ hwork⟩
  case ring =>
    rintro s f n b op _ c ho hc rfl
    have hrow := (postCmd_runs (s := s) hc).trans (congrArg _ (postRow_posts ho))
    refine ⟨fun hf => ?_, fun h5 hsq => ?_, fun hsp hst => ?_⟩
    · have hw : QpWork n { getQp s n with overrun := true } [] s (modQp n (fun v => { v with overrun := true }) s) := (QpWork.refl n s).change rfl
      rw [postDesc_full hf] at hrow
      exact ⟨_, hrow, hw.qp, rfl, hw.only⟩
    · have hw := (posted_work s n b).complete (parseSend b) 0x0401 5 0
      rw [postDesc_good ho (by rw [hsq]; exact Nat.two_pow_pos _), if_pos h5] at hrow
      refine ⟨_, hrow, ⟨by rw [hw.qp]; rfl, _, by rw [hw.qp]; rfl, rfl, rfl, rfl⟩, ?_, hw.only⟩
      rw [hw.qp, sentQp, postedQp, hsq]; simp
    · have hw := posted_work s n b
      have hshut : maySend (posted n b s) (getQp (posted n b s) n) = false := by
        rw [hw.qp]; rcases hst with hst | hst <;> simp [maySend, postedQp, hst]
      rw [postDesc_good ho hsp, if_neg (by omega), pump, pumpLoop_shut hshut] at hrow
      exact ⟨_, hrow, hw.qp, rfl, hw.only⟩
  case tag =>
    intro s p n ha hr hp hs
    exact congrArg _ ((rxPkt_arrives ha rfl _).trans (ctlIn_drops onAck hr hp hs))
  case ack =>
    rintro s p n _ ha rfl htx hsq
    obtain ⟨k, u, hw, hb⟩ := ctlIn_runs ha onAck
    have hexec : exec (.ack p) s = .next (onAck n p u) := congrArg _ ((rxPkt_arrives ha.1 rfl _).trans hb)
    obtain ⟨w, a, hk, hacked, hend⟩ := hw.onAck rfl htx hsq p
    have hsame : w.unacked = a.unacked ∧ w.cwnd = a.cwnd ∧ w.lastCut = a.lastCut := by
      rcases hend with ⟨rfl, -⟩ | ⟨d, -, -, rfl⟩ <;> exact ⟨rfl, rfl, rfl⟩
    obtain ⟨hu, hcw, hlc⟩ := hsame
    obtain ⟨hasq, hacq, hacnt, -⟩ := by simpa only [Prod.mk.injEq] using hacked.ring
    refine ⟨_, hexec, hk.only, by rw [hk.out, List.append_nil], fun h => ?_, fun b h => ?_, fun h => ?_, fun h hl => ?_, fun h hl => ?_, fun d hd => ⟨fun hi hm => ?_, fun hi => ?_⟩⟩
    · rw [hk.qp, hu]; exact hacked.unheard h
    · rw [hk.qp, hu]; exact hacked.freed b h
    · rw [hk.qp, hcw, unackedBytes_congr hu]; exact hacked.below h
    · rw [hk.qp, hcw]; exact hacked.waits h hl
    · rw [hk.qp, hcw, hlc]; exact hacked.cuts h hl
    · rcases hend with ⟨-, hno⟩ | ⟨d', hd', -, rfl⟩
      · exact absurd ⟨hi, hm⟩ (hno d hd)
      · cases hd.symm.trans hd'
        have hcnt : (sentQp a d 0 0 0).sendCnt = (getQp s n).sendCnt + 1 := congrArg (· + 1) hacnt
        have hcq : (sentQp a d 0 0 0).cq = (getQp s n).cq ++ [sendRec d 0 0 0] := congrArg (· ++ [sendRec d 0 0 0]) hacq
        refine ⟨?_, by rw [hk.qp, hcnt], sendRec d 0 0 0, by rw [hk.qp, hcq], rfl, rfl⟩
        rw [hk.qp, sentQp, hasq, hd']; simp
    · rcases hend with ⟨rfl, -⟩ | ⟨d', -, hodd, -⟩
      · rw [hk.qp]; exact ⟨hasq.trans hd, hacq⟩
      · omega
  case naks =>
    rintro s p n _ ha rfl he
    refine ⟨fun a hc hto => ?_, fun hc => ?_, fun hc => ?_, fun hc => ?_, fun hc => ?_, fun hc => ?_⟩
    · obtain ⟨w, hk, hps⟩ := nakSequence_work ha (Nat.ne_of_lt he) hc hto
      exact ⟨_, rfl, hk.only, hk.out, by rw [hk.qp, hps]⟩
    · exact ⟨_, rfl, nakAccess_ends ha hc⟩
    · obtain ⟨w, hk, hr, hu⟩ := nakStalled_work ha hc
      exact ⟨_, rfl, hk.only, by rw [hk.out, List.append_nil], by rw [hk.qp, hr], by rw [hk.qp, hu]⟩
    · obtain ⟨w, hk, hf⟩ := nakFull_work ha hc
      exact ⟨_, rfl, hk.only, by rw [hk.out, List.append_nil], by rw [hk.qp, hf]⟩
    · exact ⟨_, rfl, nakCause_ends ha hc 0x0401⟩
    · exact ⟨_, rfl, nakCause_ends ha hc 0x0C03⟩
  case notReady =>
    rintro s p n _ _ ha rfl rfl
    obtain ⟨k, u, hw, hb⟩ := ctlIn_runs ha onNotReady
    have hexec : exec (.notReady p) s = .next (onNotReady n p u) := congrArg _ ((rxPkt_arrives ha.1 rfl _).trans hb)
    obtain ⟨w, hk, hfirst, hagain⟩ := hw.onNotReady p
    exact ⟨_, hexec, hk.only, by rw [hk.out, List.append_nil], fun h => by rw [hk.qp]; exact hfirst h, fun r h hp => by rw [hk.qp]; exact hagain r h hp⟩
  case timers =>
    rintro s n _ rfl hl he
    have hne := Nat.ne_of_lt he
    have hst := qpLive_st hl
    have hq := QpWork.refl n s
    refine ⟨fun r hr hwait => ⟨fun h => ?_, fun h hs => ?_, fun h hs htx hsq => ?_⟩, fun psn fl hs => ?_, fun hs => stallNakTimer_idle hs,
      fun e es hu hf hn => ⟨fun h => retransmitTimeout_early hu h, fun h hr => ?_, fun h hr => ?_⟩, fun psn at_ hf => ⟨fun h => ?_, fun h htx hsq => ?_⟩⟩
    · exact (notReadyResend_eq hr).trans (by rw [if_pos (by simp [h])])
    · exact ⟨_, (notReadyResend_eq hr).trans (by rw [if_neg (by simp [hl, hwait, h]), if_pos hs]), qpFail_ended ..⟩
    · have hm : QpWork n { getQp s n with nr := some { r with waiting := false } } [] s (modQp n (fun v => { v with nr := some { r with waiting := false } }) s) :=
        hq.change rfl
      have hk := hm.resendIdle hne htx hsq r.psn
      exact ⟨_, (notReadyResend_eq hr).trans (by rw [if_neg (by simp [hl, hwait, h]), if_neg (by omega)]), hk.only, hk.out, by rw [hk.qp]⟩
    · have hk := hq.nak hne 3 psn
      exact ⟨_, _, stallNakTimer_stalled hs hl, hk.only, hk.out, ctlPkt_typ .., ctlPkt_imm .., ctlPkt_psn ..⟩
    · obtain ⟨t, ht, hk⟩ := retransmitTimeout_resends hu hl hf hn hne h hr
      exact ⟨t, ht, hk.only, hk.out, by rw [hk.qp], by rw [hk.qp]⟩
    · exact ⟨_, retransmitTimeout_fails hu hl hf hn h hr, qpError_ended (.inr (.inl hst)) _⟩
    · exact (receiveFullResend_eq hf).trans (by rw [if_neg (by simp [h])])
    · have hm : QpWork n { getQp s n with rfull := none } [] s (modQp n (fun v => { v with rfull := none }) s) := hq.change rfl
      have hk := hm.resendIdle hne htx hsq psn
      exact ⟨_, (receiveFullResend_eq hf).trans (by rw [if_pos (by simp [hl, h])]), hk.only, by rw [hk.qp], hk.out⟩
  case reads =>
    rintro s f n width _ rfl hr hp hq
    have hcq : exec (.lntQpCqRead f n width) s = .next (readRing 0x80 Qp.cq (fun v => { v with cq := v.cq.drop 1 }) f n width s) := rfl
    have hrq : exec (.lntQpRqRead f n width) s = .next (readRing 0xC0 Qp.rq (fun v => { v with rq := v.rq.drop 1 }) f n width s) := rfl
    refine ⟨?_, ?_, ?_, ?_, fun h => ?_, fun h => ?_⟩
    · rintro r rs rfl h
      obtain ⟨t, ht, hl, hv, hon⟩ := readRing_pops (off := 0x80) (get := Qp.cq) (pop := fun v => { v with cq := v.cq.drop 1 }) hr hp hq h
      exact ⟨t, hcq.trans (congrArg _ ht), hl, by rw [hv, h]; rfl, hon⟩
    · rintro r rs rfl h
      obtain ⟨t, ht, hl, hv, hon⟩ := readRing_pops (off := 0xC0) (get := Qp.rq) (pop := fun v => { v with rq := v.rq.drop 1 }) hr hp hq h
      exact ⟨t, hrq.trans (congrArg _ ht), hl, by rw [hv, h]; rfl, hon⟩
    · rintro rfl h
      exact hcq.trans (congrArg _ (readRing_empty hr hp hq h))
    · rintro rfl h
      exact hrq.trans (congrArg _ (readRing_empty hr hp hq h))
    · obtain ⟨t, ht, hl, hwd, hv⟩ := readRing_width (off := 0x80) (get := Qp.cq) (pop := fun v => { v with cq := v.cq.drop 1 }) hr hp hq h
      exact ⟨t, hcq.trans (congrArg _ ht), hl, hwd, hv⟩
    · obtain ⟨t, ht, hl, hwd, hv⟩ := readRing_width (off := 0xC0) (get := Qp.rq) (pop := fun v => { v with rq := v.rq.drop 1 }) hr hp hq h
      exact ⟨t, hrq.trans (congrArg _ ht), hl, hwd, hv⟩

end Sys2Proof.Machine
end

section
/-! SUPPORT. Operations on memory, tiles, counters and events that neither read nor write Linnet's engines and the meters (06 R109, 10 R213, 12 R247,
18 R346), and what they leave of what was sent. -/

namespace Sys2Proof.Machine

/-- An operation that does the same whatever Linnet's engines and the meters hold, and leaves them. -/
def Blind (F : State → State) : Prop := ∀ l m s, F (aside l m s) = aside l m (F s)

theorem Blind.id : Blind fun s => s := fun _ _ _ => rfl

theorem Blind.comp {F G : State → State} (hF : Blind F) (hG : Blind G) : Blind fun s => G (F s) := fun l m s => by
  show G (F (aside l m s)) = _
  rw [hF, hG]

theorem Blind.foldl {α : Type} {f : State → α → State} (hf : ∀ a, Blind fun s => f s a) (as : List α) : Blind fun s => as.foldl f s := by
  induction as with
  | nil => exact .id
  | cons a as ih => exact (hf a).comp ih

/-- Such an operation leaves Linnet's engines. -/
theorem Blind.lnt {F : State → State} (h : Blind F) (s : State) : (F s).lnt = s.lnt := by
  have hs : F s = aside s.lnt s.mtr (F s) := h s.lnt s.mtr s
  rw [hs]; rfl

section
variable (l : Lnt) (m : Metering)

theorem ite_aside {c : Prop} [Decidable c] {s t s' t' : State} (hs : s' = aside l m s) (ht : t' = aside l m t) :
    (if c then s' else t') = aside l m (if c then s else t) := by split <;> assumption

end

theorem evNotify_blind (code g seq : Nat) : Blind (evNotify code g seq) := fun l m s => by
  unfold evNotify; dsimp only
  exact ite_aside l m (t := syncAlert (onGlb (fun b => { b with
    evSince := b.evSince + 1, alerts := if code / 256 = 0x0C then b.alerts ++ [(g, seq)] else b.alerts }) s)) rfl rfl

/-- The log with an event in it. -/
def evLogged (code : Nat) (ctx : Option Nat) (unit detail : Nat) (s : State) : State :=
  setEvlog (tabPut EvGroup.init s.evlog (evGroup s ctx) (evAdd (evQuota s) (tabGet EvGroup.init s.evlog (evGroup s ctx)) s.lark.time code ctx
    (if s.host.shared then (match ctx with | some c => (getCtx s c).part | none => 0) else 0) unit detail)) s

theorem raiseEv_blind (code : Nat) (ctx : Option Nat) (unit detail : Nat) : Blind (raiseEv code ctx unit detail) := fun l m s =>
  ite_aside l m (s := evLogged code ctx unit detail s) rfl (evNotify_blind code _ _ l m (evLogged code ctx unit detail s))

theorem slotAdd_blind (blk inst slot n : Nat) : Blind (slotAdd blk inst slot n) := fun l m s => by
  unfold slotAdd; dsimp only
  exact ite_aside l m (raiseEv_blind 0x0611 none 0xFFFF (hscOffset blk inst slot) l m (setSlots _ s)) rfl

theorem countFrom_blind (c blk inst code n k : Nat) : Blind (countFrom c blk inst code n k) := by
  induction k with
  | zero => exact .id
  | succ k ih =>
    intro l m s
    unfold countFrom; dsimp only
    rw [ih l m s]
    exact ite_aside l m (slotAdd_blind blk inst k n l m (countFrom c blk inst code n k s)) rfl

theorem count_blind (c blk inst code n : Nat) : Blind (count c blk inst code n) := fun l m s =>
  ite_aside l m (s := s) rfl (countFrom_blind c blk inst code n (slotCount blk) l m s)

theorem countStl_blind (r : Roost) (code n : Nat) : Blind (countStl r code n) := fun l m s =>
  ite_aside l m (count_blind r.ctx 3 0 code n l m s) (count_blind r.ctx 4 r.w code n l m s)

theorem markLimit_blind (r : Roost) (t : Nat) : Blind (markLimit r t) := fun l m s =>
  raiseEv_blind 0x0607 (some r.ctx) (unitId 1 r.w) (Config.eventDetail 0x0607) l m
    (stick r { getTsw r t s with termLimit := true } [] (putTsw r t { getTsw r t s with termLimit := true } s))

theorem ingressAdd_blind (r : Roost) (f : AccFmt) (t : Nat) (raw : List Byte) : Blind (ingressAdd r f t raw) := fun l m s => by
  unfold ingressAdd; dsimp only
  rw [countStl_blind r (rowEvent f) 1 l m s]
  exact ite_aside l m (markLimit_blind r t l m (countStl r (rowEvent f) 1 s)) (t := storeTile r f t _ _ (countStl r (rowEvent f) 1 s)) rfl

theorem dvaPut_aside (l : Lnt) (m : Metering) (s : State) (c a : Nat) (acc : Acc) (bus : Bool) (b : Byte) :
    dvaPut (aside l m s) c a acc bus b = aside l m (dvaPut s c a acc bus b) := by
  unfold dvaPut; rw [translate_aside]
  cases translate s c a acc bus with
  | error _ => rfl
  | ok x => cases x <;> rfl

theorem dvaStore_blind (c : Nat) (acc : Acc) (bus : Bool) (bs : List Byte) (a : Nat) : Blind (dvaStore c acc bus a bs) := by
  induction bs generalizing a with
  | nil => exact .id
  | cons b bs ih =>
    intro l m s
    unfold dvaStore; rw [dvaPut_aside]; exact ih (a + 1) l m _

theorem dvaWrite_aside (l : Lnt) (m : Metering) {s u : State} {c a : Nat} {bs : List Byte} {acc : Acc} {bus : Bool} (h : dvaWrite s c a bs acc bus = .ok u) :
    dvaWrite (aside l m s) c a bs acc bus = .ok (aside l m u) := by
  unfold dvaWrite at h ⊢
  rw [rangeErr_aside]
  cases hr : rangeErr s c a bs.length acc bus with
  | some e => rw [hr] at h; cases h
  | none => rw [hr] at h; cases h; exact congrArg _ (dvaStore_blind c acc bus bs a l m s)

/-! Windows (12 R245, R246). -/

section
variable (l : Lnt) (m : Metering) (s : State)

theorem winErr_aside (w : Win) (off len : Nat) (acc : Acc) : winErr (aside l m s) w off len acc = winErr s w off len acc := by
  unfold winErr; simp only [translate_aside]; rfl

theorem winGet_aside (w : Win) (acc : Acc) (off : Nat) : winGet (aside l m s) w acc off = winGet s w acc off := by
  unfold winGet
  cases h : winDva s w off with
  | none => rw [show winDva (aside l m s) w off = none from h]
  | some a => rw [show winDva (aside l m s) w off = some a from h]; exact dvaGet_aside ..

end

theorem winStore_blind (w : Win) (acc : Acc) (bs : List Byte) (off : Nat) : Blind (winStore w acc off bs) := by
  induction bs generalizing off with
  | nil => exact .id
  | cons b bs ih =>
    intro l m s
    unfold winStore
    cases h : winDva s w off with
    | none => rw [show winDva (aside l m s) w off = none from h]; exact ih (off + 1) l m s
    | some a =>
      rw [show winDva (aside l m s) w off = some a from h]; dsimp only
      rw [dvaPut_aside]; exact ih (off + 1) l m _

theorem addMemRow_blind (w : Win) (f : AccFmt) (off : Nat) (raw : List Byte) : Blind (addMemRow w f off raw) := fun l m s => by
  unfold addMemRow; dsimp only
  simp only [winGet_aside]
  exact ite_aside l m (raiseEv_blind 0x0607 (some w.ctx) 0xFFFF (Config.eventDetail 0x0607) l m s) (winStore_blind w .accum _ off l m s)

/-! What stays of what was sent. -/

theorem winStore_out (w : Win) (acc : Acc) (bs : List Byte) (off : Nat) (s : State) : (winStore w acc off bs s).out = s.out := by
  induction bs generalizing off s with
  | nil => rfl
  | cons b bs ih =>
    unfold winStore; rw [ih]
    cases winDva s w off with
    | none => rfl
    | some a => dsimp only; rw [dvaPut_frame s w.ctx a acc false b]

theorem addMemRow_grows (w : Win) (f : AccFmt) (off : Nat) (raw : List Byte) (s : State) : OutGrows s (addMemRow w f off raw s) := by
  unfold addMemRow; dsimp only; split
  · exact raiseEv_grows ..
  · exact .of_eq (winStore_out ..)

theorem countStl_grows (r : Roost) (code n : Nat) (s : State) : OutGrows s (countStl r code n s) := by
  unfold countStl; split <;> exact count_grows ..

theorem ingressAdd_grows (r : Roost) (f : AccFmt) (t : Nat) (raw : List Byte) (s : State) : OutGrows s (ingressAdd r f t raw s) := by
  unfold ingressAdd; dsimp only
  refine (countStl_grows r (rowEvent f) 1 s).trans ?_
  split
  · unfold markLimit; dsimp only
    exact OutGrows.trans (t := stick r _ [] (putTsw r t _ _)) (.of_eq (by rfl)) (raiseEv_grows ..)
  · exact .of_eq (by rfl)

end Sys2Proof.Machine
end

section
/-! O49, windows: rows added through a window, and the window check (12 R245 to R247). -/

namespace Sys2Proof.Machine

/-- What an operation through a window does whatever Linnet's engines and the meters hold: it keeps what was sent, and leaves them. -/
def PlacesBlind (F : State → Placed) (s : State) (P : Placed) : Prop :=
  ∀ u, P = .ok u → OutGrows s u ∧ u.lnt = s.lnt ∧ ∀ l m, F (aside l m s) = .ok (aside l m u)

/-- The fold of an operation over rows. -/
theorem foldl_places {α : Type} {f : State → α → State} (hb : ∀ a, Blind fun s => f s a) (hg : ∀ s a, OutGrows s (f s a)) (as : List α) (s : State) :
    OutGrows s (as.foldl f s) ∧ (as.foldl f s).lnt = s.lnt ∧ ∀ l m, as.foldl f (aside l m s) = aside l m (as.foldl f s) :=
  ⟨.foldl hg as s, (Blind.foldl hb as).lnt s, fun l m => Blind.foldl hb as l m s⟩

theorem addRoost_places (p : Prog) (c : Nat) (f : AccFmt) (off : Nat) (bs : List Byte) (s : State) :
    PlacesBlind (addRoost p c f off bs) s (addRoost p c f off bs s) := by
  intro u h
  unfold addRoost at h; dsimp only at h
  split at h
  · cases h
  · rename_i w hw
    split at h
    · cases h
    · rename_i hfit
      split at h
      · cases h
      · rename_i hopen
        cases h
        obtain ⟨hg, hl, hb⟩ := foldl_places (f := fun s (e : Nat × List Byte) => ingressAdd { w := w, size := roostSize p.roost, ctx := c, ingress := false } f
          (off % 2 ^ 19 / 256 + e.1 * granules f) e.2 s) (fun e => ingressAdd_blind _ f _ e.2) (fun s e => ingressAdd_grows ..) (rowsOf f bs) s
        refine ⟨hg, hl, fun l m => ?_⟩
        unfold addRoost; dsimp only
        rw [hw]; dsimp only
        rw [if_neg hfit, if_neg (show ¬ inOpenRange (aside l m s) w f (off % 2 ^ 19 / 256) (bs.length / tileBytes f) = true from hopen), hb l m]

/-- A check that fails places nothing. -/
theorem winErr_fails {s : State} {w : Win} {off len : Nat} {acc : Acc} {e : Placed} (h : winErr s w off len acc = some e) (u : State) : e ≠ .ok u := by
  unfold winErr at h; split at h
  · cases h
  · obtain ⟨x, -, hx⟩ := List.exists_of_findSome?_eq_some h
    repeat' split at hx
    all_goals cases hx
    all_goals exact nofun

/-- Rows added into memory (12 R247). -/
theorem addRows_memory {w : Win} {code off : Nat} {f : AccFmt} {bs : List Byte} {s : State} (hf : fmtOf code = some f)
    (hok : (!ingressFmt f || bs.length % tileBytes f != 0) = false) (hk : ∀ p, (getObj? s w.obj).map Obj.kind ≠ some (.prog p))
    (hoff : (w.off + off) % 256 = 0) (he : winErr s w off bs.length .accum = none) :
    addRows w code off bs s = .ok ((rowsOf f bs).foldl (fun s e => addMemRow w f (off + e.1 * tileBytes f) e.2 s) s) := by
  unfold addRows; rw [hf]; dsimp only
  rw [if_neg (by simp [hok])]; split
  · rename_i p hp; exact absurd hp (hk p)
  · rw [if_neg (not_not.2 hoff), he]

theorem addRows_places (w : Win) (code off : Nat) (bs : List Byte) (s : State) : PlacesBlind (addRows w code off bs) s (addRows w code off bs s) := by
  intro u h
  unfold addRows at h
  split at h
  · cases h
  · rename_i f hf
    split at h
    · cases h
    · rename_i hok
      split at h
      · rename_i p hp
        obtain ⟨hg, hl, hb⟩ := addRoost_places p w.ctx f (w.off + off) bs s u h
        refine ⟨hg, hl, fun l m => ?_⟩
        unfold addRows
        rw [hf]; dsimp only
        rw [if_neg hok, show (getObj? (aside l m s) w.obj).map Obj.kind = some (.prog p) from hp]
        exact hb l m
      · rename_i hk
        split at h
        · cases h
        · rename_i hoff
          split at h
          · rename_i e he; exact absurd h (winErr_fails he u)
          · rename_i he
            cases h
            obtain ⟨hg, hl, hb⟩ := foldl_places (f := fun s (e : Nat × List Byte) => addMemRow w f (off + e.1 * tileBytes f) e.2 s)
              (fun e => addMemRow_blind w f _ e.2) (fun s e => addMemRow_grows ..) (rowsOf f bs) s
            refine ⟨hg, hl, fun l m => ?_⟩
            rw [addRows_memory (s := aside l m s) hf (by simpa using hok) (fun p => hk p) (not_not.1 hoff) (by rw [winErr_aside]; exact he), hb l m]

/-! The window check. -/

/-- It asks of the queue pair its context and its engine. -/
theorem winCheck_congr {s t : State} {n : Nat} (hh : t.host = s.host) (hv : ((getQp t n).ctx, (getQp t n).engine) = ((getQp s n).ctx, (getQp s n).engine))
    (off len key : Nat) (acc : Acc) : winCheck t n off len key acc = winCheck s n off len key acc := by
  simp only [Prod.mk.injEq] at hv
  obtain ⟨hc, he⟩ := hv
  unfold winCheck winOf peersAdmit; rw [hh, hc, he]

end Sys2Proof.Machine
end

section
/-! O49, packets: a data packet at its place in PSN order (12 R229, R243). -/

namespace Sys2Proof.Machine

/-! A data packet that is dropped, or answered with nothing placed. -/

section
variable {s : State} {p : LntPkt} {n typ : Nat}

theorem dataCmd_runs {c : Instr} (ha : Arrives s p typ) (hc : DataCmd typ p c) : exec c s = .next (dataIn p s) := by
  rcases hc with ⟨rfl, rfl⟩ | ⟨rfl, rfl⟩ | ⟨rfl, rfl⟩ | ⟨rfl, rfl⟩ | ⟨rfl, rfl⟩ | ⟨rfl, rfl⟩ <;> exact congrArg _ (rxPkt_arrives ha rfl dataIn)

/-- A dropped packet at an Ethernet port changes nothing but the port's count. -/
theorem dropLnt_keeps {e : Nat} (he : e < 4) (s : State) : (∀ m, getQp (dropLnt e s) m = getQp s m) ∧ (dropLnt e s).mem = s.mem ∧
    (dropLnt e s).hostMem = s.hostMem ∧ (dropLnt e s).out = s.out := by
  unfold dropLnt; rw [if_neg (by omega)]; exact ⟨fun _ => rfl, rfl, rfl, rfl⟩

/-- The plaintext of a data packet at a queue pair. -/
def plainOf (v : Qp) (p : LntPkt) : Option (List Byte) := if v.prot then openData v.kRx (rxDir v) (psnExt v.rxPsn p.psn) p else some p.payload

/-- 12 R229: the next PSN, one beyond the window, and one received before. -/
theorem psnCheck_next {x q : Nat} (h : psnDist x q = 0) : psnCheck x q = .ok x := by unfold psnCheck; dsimp only; rw [h]; rfl
theorem psnCheck_beyond {x q : Nat} (h : 1024 ≤ psnDist x q) (hb : psnDist x q < 2 ^ 31) : psnCheck x q = .beyond := by
  unfold psnCheck; dsimp only; rw [if_neg (by omega), if_pos hb]
theorem psnCheck_already {x q : Nat} (h : 2 ^ 31 ≤ psnDist x q) : psnCheck x q = .already := by
  unfold psnCheck; dsimp only; rw [if_neg (by omega), if_neg (by omega)]

section
variable (h : DataArrives s p typ n)
include h

/-! The plaintext and the PSN are rewritten before any match on them is reduced: to reduce first makes the kernel evaluate the decryption. -/

theorem dataIn_drops (ht : plainOf (getQp s n) p = none) : dataIn p s = dropLnt p.engine s := by
  obtain ⟨-, hr, hst, -⟩ := h
  unfold plainOf at ht
  unfold dataIn; rw [hr]
  show (if (getQp s n).stall.isSome = true then s else _) = _
  rw [if_neg (by simp [hst]), ht]

theorem dataIn_beyond {text : List Byte} (ht : plainOf (getQp s n) p = some text) (hc : psnCheck (getQp s n).rxPsn p.psn = .beyond) :
    dataIn p s = sendNak n 1 p.psn (dropLnt p.engine s) := by
  obtain ⟨-, hr, hst, -⟩ := h
  unfold plainOf at ht
  unfold dataIn; rw [hr]
  show (if (getQp s n).stall.isSome = true then s else _) = _
  rw [if_neg (by simp [hst]), ht, hc]

theorem dataIn_already {text : List Byte} (ht : plainOf (getQp s n) p = some text) (hc : psnCheck (getQp s n).rxPsn p.psn = .already) :
    dataIn p s = sendAck n p.ts (dropLnt p.engine s) := by
  obtain ⟨-, hr, hst, -⟩ := h
  unfold plainOf at ht
  unfold dataIn; rw [hr]
  show (if (getQp s n).stall.isSome = true then s else _) = _
  rw [if_neg (by simp [hst]), ht, hc]

end

/-- A packet as the reorder buffer holds it: its extended PSN and its plaintext. -/
def heldPkt (p : LntPkt) (x : Nat) (text : List Byte) : LntPkt := { p with psn := x, payload := text, tag := [] }

/-- The next packet is at hand. -/
def arrived (n : Nat) (p : LntPkt) (text : List Byte) (s : State) : State :=
  meterRx (getQp s n).ctx text.length (modQp n (fun v => { v with reorder := heldPkt p (getQp s n).rxPsn text :: v.reorder }) s)

/-- What was placed is acknowledged, and the queue pair sends what it may. -/
def acknowledged (n : Nat) (p : LntPkt) (s : State) : State := pump n (if (getQp s n).st = 3 then sendAck n p.ts s else s)

/-- The queue pair with the next packet at hand. -/
def arrivedQp (v : Qp) (p : LntPkt) (text : List Byte) : Qp := { v with reorder := [heldPkt p v.rxPsn text] }

theorem arrived_work (hr : (getQp s n).reorder = []) (text : List Byte) : QpWork n (arrivedQp (getQp s n) p text) [] s (arrived n p text s) := by
  have hw : QpWork n (arrivedQp (getQp s n) p text) [] s (modQp n (fun v => { v with reorder := heldPkt p (getQp s n).rxPsn text :: v.reorder }) s) :=
    (QpWork.refl n s).change (by rw [hr]; rfl)
  exact hw.metered _ _

/-- The arrival touches Linnet's engines and the meters alone. -/
theorem arrived_aside (n : Nat) (p : LntPkt) (text : List Byte) (s : State) : arrived n p text s = aside (arrived n p text s).lnt (arrived n p text s).mtr s := by
  unfold arrived meterRx meter; split <;> rfl

theorem plain_of_inOrder {text : List Byte} (h : InOrder s p n text) : plainOf (getQp s n) p = some text := by
  obtain ⟨hd, ht⟩ := h
  have hx : psnExt (getQp s n).rxPsn p.psn = (getQp s n).rxPsn := by unfold psnExt; dsimp only; rw [hd, if_pos (Nat.two_pow_pos 31)]; rfl
  unfold plainOf; rw [hx]
  split at ht
  · rw [if_pos ‹_›, ht]
  · rw [if_neg ‹_›, ht]

/-- The next packet in order is placed and answered. -/
theorem dataIn_inOrder (h : DataArrives s p typ n) {text : List Byte} (ho : InOrder s p n text) :
    dataIn p s = acknowledged n p (placeLoop n 1 (arrived n p text s)) := by
  have ht := plain_of_inOrder ho
  obtain ⟨-, hr, hst, hre, -⟩ := h
  have hl : (getQp (modQp n (fun v => { v with reorder := heldPkt p (getQp s n).rxPsn text :: v.reorder }) s) n).reorder.length = 1 := by
    rw [modQp_eq, getQp_putQp_same]; simp [hre]
  unfold plainOf at ht
  unfold dataIn; rw [hr]
  show (if (getQp s n).stall.isSome = true then s else _) = _
  rw [if_neg (by simp [hst]), ht, psnCheck_next ho.1]
  show (if ((getQp s n).reorder.any fun x => x.psn == (getQp s n).rxPsn) = true then _ else _) = _
  rw [if_neg (by simp [hre])]
  show acknowledged n p (placeLoop n (getQp (modQp n (fun v => { v with reorder := heldPkt p (getQp s n).rxPsn text :: v.reorder }) s) n).reorder.length
    (arrived n p text s)) = _
  rw [hl]

end

end Sys2Proof.Machine
end

section
/-! O49, order: what is placed is acknowledged, and what is not admitted ends the queue pair (12 R229, R243, R251). -/

namespace Sys2Proof.Machine

/-- A queue pair after the packet of a PSN has taken effect. -/
def takenQp (x : State) (psn : Nat) (v : Qp) : Qp :=
  { v with rxPsn := v.rxPsn + 1, reorder := v.reorder.filter fun e => e.psn != psn, pagesTold := v.pagesTold.filter (stillAbsent x v.ctx) }

/-- And after the ACK of it. -/
def ackedQp (x : State) (psn : Nat) (v : Qp) : Qp := { takenQp x psn v with ctlTx := v.ctlTx + 1 }

/-- A queue pair without the packet of a PSN. -/
def refusedQp (psn : Nat) (v : Qp) : Qp := { v with reorder := v.reorder.filter fun e => e.psn != psn }

/-! The place in PSN order. -/

section
variable {s x : State} {n : Nat} {q : LntPkt} (hr : (getQp s n).reorder = [q]) (hq : q.psn = (getQp s n).rxPsn) (hst : (getQp s n).stall = none)
include hr hq hst

theorem placeLoop_takes (ho : placeOne n q s = .ok x) : placeLoop n 1 s = modQp n (takenQp x q.psn) x := by
  unfold placeLoop; dsimp only
  rw [hr, atPsn, List.find?_cons, hq, BEq.rfl]; dsimp only
  rw [if_neg (by simp [hst]), ho, ← hq]; rfl

theorem placeLoop_access (ho : placeOne n q s = .access) : placeLoop n 1 s = targetError n 2 0x0204 q.psn s := by
  unfold placeLoop; dsimp only
  rw [hr, atPsn, List.find?_cons, hq, BEq.rfl]; dsimp only
  rw [if_neg (by simp [hst]), ho, ← hq]

theorem placeLoop_full (ho : placeOne n q s = .full) : placeLoop n 1 s = sendNak n 4 q.psn (modQp n (refusedQp q.psn) s) := by
  unfold placeLoop; dsimp only
  rw [hr, atPsn, List.find?_cons, hq, BEq.rfl]; dsimp only
  rw [if_neg (by simp [hst]), ho, ← hq]; rfl

end

/-! What is acknowledged. -/

/-- The ACK of a packet: what has been received, echoing a TS. -/
def IsAck (ts apsn : Nat) (p : LntPkt) : Prop := p.typ = 0x08 ∧ p.imm = 0 ∧ p.ts = ts ∧ p.apsn = apsn

section
variable {s u x : State} {n : Nat} {v w : Qp} {os : List Out} {p : LntPkt}

theorem apsnOf_succ (k : Nat) : apsnOf (k + 1) = k % 2 ^ 32 := by unfold apsnOf; omega

/-- The work of a packet that took effect, and its ACK. -/
theorem QpWork.acknowledged (h : QpWork n w os u x) (hst : w.st = 3) (he : w.engine ≠ 4) (p : LntPkt) (psn : Nat) :
    ∃ pkt y, QpWork n (ackedQp x psn w) (os ++ [.lnt w.engine w.peer pkt]) u y ∧ IsAck p.ts (w.rxPsn % 2 ^ 32) pkt ∧
      Machine.acknowledged n p (modQp n (takenQp x psn) x) = pump n y := by
  have ht : QpWork n (takenQp x psn w) os u (modQp n (takenQp x psn) x) := h.change rfl
  refine ⟨_, _, ht.ack he p.ts, ?_, ?_⟩
  · simp only [IsAck, ctlPkt_typ, ctlPkt_imm, ctlPkt_ts, ctlPkt_apsn, ht.qp, true_and]
    exact apsnOf_succ w.rxPsn
  · unfold Machine.acknowledged
    rw [if_pos (by rw [ht.qp]; exact hst)]

end

/-! A packet at hand over another state of memory. -/

section
variable {s u x : State} {n typ : Nat} {p : LntPkt} {text : List Byte}

/-- The arrival over a state of other memory. -/
def arrivedOver (n : Nat) (p : LntPkt) (text : List Byte) (s u : State) : State := aside (arrived n p text s).lnt (arrived n p text s).mtr u

theorem arrivedOver_work (hr : (getQp s n).reorder = []) (hl : u.lnt = s.lnt) : QpWork n (arrivedQp (getQp s n) p text) [] u (arrivedOver n p text s u) := by
  have h := arrived_work (p := p) hr text
  have hu : ∀ m, getQp u m = getQp s m := fun m => by unfold getQp; rw [hl]
  refine ⟨h.qp, fun m hm => (h.others m hm).trans (hu m).symm, (List.append_nil _).symm, ?_⟩
  have ha : (arrivedOver n p text s u).lnt = { u.lnt with qps := (arrivedOver n p text s u).lnt.qps } := by rw [hl]; exact h.lnt
  unfold SendOnly
  rw [← ha]; rfl

theorem dataArrives_qp (h : DataArrives s p typ n) : (getQp s n).st = 3 ∧ (getQp s n).engine ≠ 4 ∧ (getQp s n).stall = none ∧
    (getQp s n).reorder = [] ∧ (getQp s n).txq = [] := by
  obtain ⟨⟨he, -⟩, hr, hs, hre, htx⟩ := h
  obtain ⟨-, hst, hen⟩ := rxQp_some hr
  exact ⟨hst, by omega, hs, hre, htx⟩

/-- The packet at hand is the next, and the queue pair is not stalled. -/
theorem arrived_hand (h : DataArrives s p typ n) (text : List Byte) : (getQp (arrived n p text s) n).reorder = [heldPkt p (getQp s n).rxPsn text] ∧
    (heldPkt p (getQp s n).rxPsn text).psn = (getQp (arrived n p text s) n).rxPsn ∧ (getQp (arrived n p text s) n).stall = none := by
  obtain ⟨-, -, hs, hre, -⟩ := dataArrives_qp h
  rw [(arrived_work hre text).qp]
  exact ⟨rfl, rfl, hs⟩

section
variable (h : DataArrives s p typ n) (ho : InOrder s p n text)
include h ho

/-- What becomes of the packet at hand. -/
theorem dataIn_takes (hp : placeOne n (heldPkt p (getQp s n).rxPsn text) (arrived n p text s) = .ok x) :
    dataIn p s = acknowledged n p (modQp n (takenQp x (getQp s n).rxPsn) x) := by
  obtain ⟨hr, hq, hs⟩ := arrived_hand h text
  rw [dataIn_inOrder h ho, placeLoop_takes hr hq hs hp]; rfl

/-- A packet that took effect over a state, as work from that state: the ACK leaves next. -/
theorem dataIn_acknowledged {w : Qp} {os : List Out} (hp : placeOne n (heldPkt p (getQp s n).rxPsn text) (arrived n p text s) = .ok x)
    (hw : QpWork n w os u x) (hk : (w.st, w.engine, w.peer, w.rxPsn) = ((getQp s n).st, (getQp s n).engine, (getQp s n).peer, (getQp s n).rxPsn)) :
    ∃ pkt y, QpWork n (ackedQp x (getQp s n).rxPsn w) (os ++ [.lnt (getQp s n).engine (getQp s n).peer pkt]) u y ∧
      IsAck p.ts ((getQp s n).rxPsn % 2 ^ 32) pkt ∧ dataIn p s = pump n y := by
  obtain ⟨hst, he, -⟩ := dataArrives_qp h
  simp only [Prod.mk.injEq] at hk
  obtain ⟨kst, ke, kp, kx⟩ := hk
  obtain ⟨pkt, y, hy, ha, hd⟩ := hw.acknowledged (kst.trans hst) (by rw [ke]; exact he) p (getQp s n).rxPsn
  rw [ke, kp] at hy
  rw [kx] at ha
  exact ⟨pkt, y, hy, ha, (dataIn_takes h ho hp).trans hd⟩

/-- The packet is taken, and with nothing to send that is all. -/
theorem dataIn_taken {w : Qp} {os : List Out} (hl : u.lnt = s.lnt) (hg : OutGrows s u)
    (hp : placeOne n (heldPkt p (getQp s n).rxPsn text) (arrived n p text s) = .ok x)
    (hw : QpWork n w os u x) (hk : (w.st, w.engine, w.peer, w.rxPsn) = ((getQp s n).st, (getQp s n).engine, (getQp s n).peer, (getQp s n).rxPsn))
    (htx : w.txq = []) (hsq : ∀ d ∈ w.sq, d.started = true) :
    Taken n p s (dataIn p s) ∧ (dataIn p s).mem = u.mem ∧ (dataIn p s).hostMem = u.hostMem ∧
      getQp (dataIn p s) n = ackedQp x (getQp s n).rxPsn w ∧
      ∃ pkt, (dataIn p s).out = u.out ++ os ++ [.lnt (getQp s n).engine (getQp s n).peer pkt] ∧ IsAck p.ts ((getQp s n).rxPsn % 2 ^ 32) pkt := by
  obtain ⟨hst, -⟩ := dataArrives_qp h
  obtain ⟨pkt, y, hy, ha, hd⟩ := dataIn_acknowledged h ho hp hw hk
  rw [hy.idle htx hsq] at hd
  simp only [Prod.mk.injEq] at hk
  obtain ⟨kst, -, -, kx⟩ := hk
  obtain ⟨ht, hi, hts, hap⟩ := id ha
  obtain ⟨o, hu⟩ := hg
  rw [hd]
  refine ⟨⟨by rw [hy.qp, ← kx]; rfl, by rw [hy.qp, ← hst, ← kst]; rfl, fun m hm => (hy.others m hm).trans (by unfold getQp; rw [hl]),
    o ++ os, pkt, by rw [hy.out, ← hu]; simp, ht, hi, hts, hap⟩, hy.mem, hy.hostMem, hy.qp, pkt, by rw [hy.out, List.append_assoc], ha⟩

/-- A packet that a window refuses ends the queue pair (12 R251). -/
theorem dataIn_refused (hp : placeOne n (heldPkt p (getQp s n).rxPsn text) (arrived n p text s) = .access) :
    QpEnded n 0x0204 s (dataIn p s) ∧ ∃ pkt, Out.lnt (getQp s n).engine (getQp s n).peer pkt ∈ (dataIn p s).out ∧ pkt.typ = 0x09 ∧ pkt.imm = 2 := by
  obtain ⟨hst, he, -, hre, -⟩ := dataArrives_qp h
  obtain ⟨hr', hq, hs⟩ := arrived_hand h text
  have hw := arrived_work (p := p) hre text
  have hn := hw.nak he 2 (getQp s n).rxPsn
  obtain ⟨os, hr⟩ := hn.sends (sends_raiseEv 0x0204 (some (getQp s n).ctx) (unitId 9 (getQp s n).engine) (Config.eventDetail 0x0204) _)
  have ht : targetError n 2 0x0204 (getQp s n).rxPsn (arrived n p text s) = qpError n 0x0204 (raiseEv 0x0204 (some (getQp s n).ctx)
      (unitId 9 (getQp s n).engine) (Config.eventDetail 0x0204) (sendNak n 2 (getQp s n).rxPsn (arrived n p text s))) := by
    unfold targetError; dsimp only
    rw [if_pos rfl, hn.qp]; rfl
  obtain ⟨k, os', hf, -⟩ := qpFail_work n 0x0204 (qpDetail _ _ 0x0204) none (raiseEv 0x0204 (some (getQp s n).ctx)
      (unitId 9 (getQp s n).engine) (Config.eventDetail 0x0204) (sendNak n 2 (getQp s n).rxPsn (arrived n p text s)))
  rw [← qpError_live (by rw [hr.qp]; exact .inr (.inl hst)), ← ht] at hf
  have hd : dataIn p s = targetError n 2 0x0204 (getQp s n).rxPsn (arrived n p text s) := by
    rw [dataIn_inOrder h ho, placeLoop_access hr' hq hs hp]
    unfold acknowledged pump
    rw [if_neg (by rw [show (heldPkt p (getQp s n).rxPsn text).psn = (getQp s n).rxPsn from rfl, hf.qp]; exact (nofun : ¬ (5 = 3)))]
    exact pumpLoop_shut (by rw [show (heldPkt p (getQp s n).rxPsn text).psn = (getQp s n).rxPsn from rfl, hf.qp]; rfl) _
  rw [hd]
  refine ⟨hr.thenEnded rfl hf.ended, ctlPkt (arrived n p text s) n (getQp s n).engine 0x09 2 0 (arrived n p text s).lark.time (some (getQp s n).rxPsn), ?_,
    ctlPkt_typ .., ctlPkt_imm ..⟩
  rw [hf.out, hr.out]; simp [arrivedQp]

/-- A WRITE_IMM that finds the receive ring full is not taken (12 R244). -/
theorem dataIn_full (hp : placeOne n (heldPkt p (getQp s n).rxPsn text) (arrived n p text s) = .full) (hsq : ∀ d ∈ (getQp s n).sq, d.started = true) :
    ∃ pkt ack, QpWork n { getQp s n with reorder := [], ctlTx := (getQp s n).ctlTx + 1 + 1 }
      [.lnt (getQp s n).engine (getQp s n).peer pkt, .lnt (getQp s n).engine (getQp s n).peer ack] s (dataIn p s) ∧
      pkt.typ = 0x09 ∧ pkt.imm = 4 ∧ ack.typ = 0x08 := by
  obtain ⟨hst, he, -, hre, htx⟩ := dataArrives_qp h
  obtain ⟨hr', hq, hs⟩ := arrived_hand h text
  have hw := arrived_work (p := p) hre text
  have hr : QpWork n { getQp s n with reorder := [] } [] s (modQp n (refusedQp (getQp s n).rxPsn) (arrived n p text s)) :=
    hw.change (by simp [refusedQp, arrivedQp, heldPkt])
  have hn := hr.nak he 4 (getQp s n).rxPsn
  have ha := hn.ack he p.ts
  have hd : dataIn p s = sendAck n p.ts (sendNak n 4 (getQp s n).rxPsn (modQp n (refusedQp (getQp s n).rxPsn) (arrived n p text s))) := by
    rw [dataIn_inOrder h ho, placeLoop_full hr' hq hs hp]
    unfold acknowledged
    rw [show (heldPkt p (getQp s n).rxPsn text).psn = (getQp s n).rxPsn from rfl, if_pos (by rw [hn.qp]; exact hst), ha.idle htx hsq]
  rw [hd]
  exact ⟨_, _, ha, ctlPkt_typ .., ctlPkt_imm .., ctlPkt_typ ..⟩

end

end

end Sys2Proof.Machine
end

section
/-! O49, placement: what each data packet does at its place (12 R242 to R247). -/

namespace Sys2Proof.Machine

/-! One packet at a state. -/

section
variable {s : State} {n : Nat} {q : LntPkt} {w : Win}

/-- The record of a WRITE_IMM of one packet (12 R244). -/
def immRec (q : LntPkt) : StatusRec :=
  { tag := q.imm, status := 0, dup := false, sealed := false, phase := false, detail := q.src % 2 ^ 24, rlen := q.offset + q.len - q.offset, res0 := q.msn, res1 := q.offset }

/-- A queue pair with the record of a WRITE_IMM. -/
def immQp (q : LntPkt) (v : Qp) : Qp := { v with rq := v.rq ++ [immRec q], recvCnt := v.recvCnt + 1 }

/-- A queue pair that holds no packet of a message. -/
def unheldQp (v : Qp) : Qp := { v with held := [] }

/-- What a write of one packet leaves of the queue pair. -/
def wrote (n : Nat) (q : LntPkt) (s : State) : State := modQp n unheldQp (if q.typ = 2 then modQp n (immQp q) s else s)

/-- The queue pair then. -/
def wroteQp (q : LntPkt) (v : Qp) : Qp := unheldQp (if q.typ = 2 then immQp q v else v)

theorem wrote_work {t : State} {v : Qp} {os : List Out} (h : QpWork n v os s t) (q : LntPkt) : QpWork n (wroteQp q v) os s (wrote n q t) := by
  unfold wrote wroteQp; split
  · exact (h.change rfl).change rfl
  · exact h.change rfl

theorem wroteQp_write {q : LntPkt} (h : q.typ ≠ 2) (v : Qp) : wroteQp q v = unheldQp v := by unfold wroteQp; rw [if_neg h]
theorem wroteQp_imm {q : LntPkt} (h : q.typ = 2) (v : Qp) : wroteQp q v = unheldQp (immQp q v) := by unfold wroteQp; rw [if_pos h]

/-- A write leaves what sends and receives. -/
theorem wroteQp_keeps (q : LntPkt) (v : Qp) : ((wroteQp q v).st, (wroteQp q v).engine, (wroteQp q v).peer, (wroteQp q v).rxPsn) = (v.st, v.engine, v.peer, v.rxPsn) ∧
    (wroteQp q v).txq = v.txq ∧ (wroteQp q v).sq = v.sq ∧ (wroteQp q v).cq = v.cq := by
  unfold wroteQp; split <;> exact ⟨rfl, rfl, rfl, rfl⟩

theorem placeWrite_full (h2 : q.typ = 2) (hlast : q.flags.getLsbD 1 = true) (hf : 2 ^ (getQp s n).r ≤ (getQp s n).rq.length) : placeWrite n q s = .full :=
  if_pos ⟨h2, hlast, hf⟩

theorem placeWrite_stores (hh : (getQp s n).held = []) (hlast : q.flags.getLsbD 1 = true) (hlen : q.len ≠ 0)
    (hf : q.typ = 2 → (getQp s n).rq.length < 2 ^ (getQp s n).r) (hc : winCheck s n q.offset q.len q.wkey .write = some w) (hm : WinMem s w)
    (he : winErr s w q.offset q.len .write = none) : placeWrite n q s = .ok (wrote n q (winStore w .write q.offset q.payload s)) := by
  obtain ⟨k, b, z, g, hk⟩ := hm
  have hfull : ¬ (q.typ = 2 ∧ q.flags.getLsbD 1 = true ∧ 2 ^ (getQp s n).r ≤ (getQp s n).rq.length) := fun ⟨h2, _, hle⟩ => Nat.not_le.2 (hf h2) hle
  unfold placeWrite; dsimp only
  rw [if_neg hfull, if_neg hlen, hc]; dsimp only
  rw [hk]; dsimp only
  rw [he, hh, hlast]
  simp only [and_true]
  rfl

theorem placeWrite_access (h1 : q.typ = 1) (hlen : q.len ≠ 0) (hc : winCheck s n q.offset q.len q.wkey .write = none) : placeWrite n q s = .access := by
  unfold placeWrite; dsimp only
  rw [if_neg (by omega), if_neg hlen, hc]

theorem placeReadReq_access (hlen : field q.payload 0 8 ≠ 0) (hc : winCheck s n q.offset (field q.payload 0 8) q.wkey .read = none) :
    placeReadReq n q s = .access := by
  unfold placeReadReq; dsimp only
  rw [if_neg hlen, hc]

/-- A READ_REQ of at most 8,192 bytes is answered with one packet (12 R243). -/
theorem placeReadReq_answers (hlen : field q.payload 0 8 ≠ 0) (hl : field q.payload 0 8 ≤ 8192)
    (hc : winCheck s n q.offset (field q.payload 0 8) q.wkey .read = some w) (hm : WinMem s w) (he : winErr s w q.offset (field q.payload 0 8) .read = none) :
    placeReadReq n q s = .ok (queuePkts n [onlyPkt s n 4 q.offset q.wkey 0 q.msn
      ((List.range (field q.payload 0 8)).map fun i => winGet s w .read (q.offset + i))] s) := by
  obtain ⟨k, b, z, g, hk⟩ := hm
  unfold placeReadReq; dsimp only
  rw [if_neg hlen, hc]; dsimp only
  rw [hk]; dsimp only
  rw [he]; dsimp only
  rw [msgPkts_single (by simpa using hl)]

/-- READ_RESP data that is all of a READ completes it (12 R242). -/
theorem placeResp_completes {d : SendDesc} {u : State} (hsq : (getQp s n).sq = [d]) (hd : d.started = true) (hop : d.op = 3) (hm : d.msn % 2 ^ 32 = q.msn)
    (h0 : d.moved = 0) (hl : q.payload.length = d.length) (hoff : q.offset = d.remote) (hw : dvaWrite s (getQp s n).ctx d.loc q.payload .write false = .ok u) :
    placeResp n q s = .ok (finishSend n { d with moved := d.length } 0 0 d.length (modQp n (fun v => { v with
      sq := v.sq.map fun x => if x = d then { d with moved := d.length } else x }) u)) := by
  have hf : ([d].find? fun e => e.started && e.op == 3 && e.msn % 2 ^ 32 == q.msn) = some d := by rw [List.find?_cons, hd, hop, hm]; simp
  unfold placeResp; dsimp only
  rw [hsq, hf]; dsimp only
  rw [hoff, Nat.sub_self, Nat.add_zero, hw]; dsimp only
  rw [h0, hl, Nat.zero_add, if_pos (Nat.le_refl _)]

theorem placeAcc_access (hlen : q.len ≠ 0) (hc : winCheck s n q.offset q.len q.wkey .accum = none) : placeAcc n q s = .access :=
  if_pos ⟨hlen, by rw [hc]; rfl⟩

/-- A packet before the last of an ACC_WRITE is held (12 R247). -/
theorem placeAcc_holds (hc : winCheck s n q.offset q.len q.wkey .accum = some w) (hlast : q.flags.getLsbD 1 = false) :
    placeAcc n q s = .ok (modQp n (fun v => { v with held := v.held ++ [q] }) s) := by
  unfold placeAcc; dsimp only
  rw [if_neg (by simp [hc]), if_pos (by rw [hlast]; rfl)]

/-- A message of one packet is added (12 R247). -/
theorem placeAcc_adds (hh : (getQp s n).held = []) (hne : q.payload ≠ []) (hl : q.payload.length = q.len)
    (hc : winCheck s n q.offset q.len q.wkey .accum = some w) (hlast : q.flags.getLsbD 1 = true) :
    placeAcc n q s = addRows w (q.imm % 8) q.offset q.payload (modQp n (fun v => { v with held := [] }) s) := by
  have hp : [q].flatMap LntPkt.payload = q.payload := by simp
  unfold placeAcc; dsimp only
  rw [if_neg (by simp [hc]), if_neg (by rw [hlast]; nofun), hh, List.nil_append, hp, if_neg (by simpa using hne)]
  simp only [List.head?_cons, Option.getD_some, hl, hc]

end

/-! The packets of a type at hand. -/

section
variable {s : State} {n : Nat} {p q : LntPkt}

theorem placeOne_write (h : q.typ = 1 ∨ q.typ = 2) : placeOne n q s = placeWrite n q s := if_pos h
theorem placeOne_readReq (h : q.typ = 3) : placeOne n q s = placeReadReq n q s := by simp [placeOne, h]
theorem placeOne_readResp (h : q.typ = 4) : placeOne n q s = placeResp n q s := by simp [placeOne, h]
theorem placeOne_flush (h : q.typ = 5) : placeOne n q s = .ok (sendCtl n (getQp s n).engine 0x08 1 q.msn q.ts none s) := by simp [placeOne, h]
theorem placeOne_acc (h : q.typ = 6) : placeOne n q s = placeAcc n q s := by simp [placeOne, h]

end

end Sys2Proof.Machine
end

section
/-! O49: a packet at hand, and what each type does at its place (12 R243 to R247). -/

namespace Sys2Proof.Machine

/-! Windows see the state before the arrival. -/

section
variable {s : State} {n typ : Nat} {p : LntPkt} {text : List Byte}

theorem Blind.over {F : State → State} (h : Blind F) : F (arrived n p text s) = arrivedOver n p text s (F s) :=
  (congrArg F (arrived_aside n p text s)).trans (h _ _ s)

theorem arrived_winErr (w : Win) (off len : Nat) (acc : Acc) : winErr (arrived n p text s) w off len acc = winErr s w off len acc :=
  (congrArg (fun t => winErr t w off len acc) (arrived_aside n p text s)).trans (winErr_aside ..)

theorem arrived_winGet (w : Win) (acc : Acc) (off : Nat) : winGet (arrived n p text s) w acc off = winGet s w acc off :=
  (congrArg (fun t => winGet t w acc off) (arrived_aside n p text s)).trans (winGet_aside ..)

section
variable (h : DataArrives s p typ n)
include h

theorem arrived_here : QpWork n (arrivedQp (getQp s n) p text) [] s (arrived n p text s) := by
  obtain ⟨-, -, -, hre, -⟩ := dataArrives_qp h
  exact arrived_work hre text

theorem arrived_qp : getQp (arrived n p text s) n = arrivedQp (getQp s n) p text := (arrived_here h).qp

theorem arrived_winCheck (off len key : Nat) (acc : Acc) : winCheck (arrived n p text s) n off len key acc = winCheck s n off len key acc :=
  winCheck_congr (arrived_here h).host (by rw [arrived_qp h]; rfl) ..

theorem arrived_winMem {w : Win} (hm : WinMem s w) : WinMem (arrived n p text s) w := by
  unfold WinMem getObj? at *; rw [(arrived_here h).host]; exact hm

theorem arrived_over {u : State} (hl : u.lnt = s.lnt) : QpWork n (arrivedQp (getQp s n) p text) [] u (arrivedOver n p text s u) := by
  obtain ⟨-, -, -, hre, -⟩ := dataArrives_qp h
  exact arrivedOver_work hre hl

end

/-! The packet at hand, one theorem for each outcome. -/

section
variable (h : DataArrives s p typ n)
include h

/-- Its window refuses it. -/
theorem placeOne_arrived_access (hc : typ = 1 ∧ p.len ≠ 0 ∧ winCheck s n p.offset p.len p.wkey .write = none ∨
      typ = 3 ∧ field text 0 8 ≠ 0 ∧ winCheck s n p.offset (field text 0 8) p.wkey .read = none ∨
      typ = 6 ∧ p.len ≠ 0 ∧ winCheck s n p.offset p.len p.wkey .accum = none) :
    placeOne n (heldPkt p (getQp s n).rxPsn text) (arrived n p text s) = .access := by
  obtain ⟨⟨-, -, -, ht⟩, -⟩ := id h
  rcases hc with ⟨rfl, hlen, hw⟩ | ⟨rfl, hlen, hw⟩ | ⟨rfl, hlen, hw⟩
  · exact Eq.trans (placeOne_write (.inl ht)) (placeWrite_access ht hlen ((arrived_winCheck h ..).trans hw))
  · exact Eq.trans (placeOne_readReq ht) (placeReadReq_access hlen ((arrived_winCheck h ..).trans hw))
  · exact Eq.trans (placeOne_acc ht) (placeAcc_access hlen ((arrived_winCheck h ..).trans hw))

theorem placeOne_arrived_write {w : Win} (ht : typ = 1 ∨ typ = 2) (hh : (getQp s n).held = []) (hlen : p.len ≠ 0) (hlast : p.flags.getLsbD 1 = true)
    (hc : winCheck s n p.offset p.len p.wkey .write = some w) (hm : WinMem s w) (he : winErr s w p.offset p.len .write = none)
    (hf : typ = 1 ∨ (getQp s n).rq.length < 2 ^ (getQp s n).r) :
    placeOne n (heldPkt p (getQp s n).rxPsn text) (arrived n p text s) =
      .ok (wrote n (heldPkt p (getQp s n).rxPsn text) (arrivedOver n p text s (winStore w .write p.offset text s))) := by
  obtain ⟨⟨-, -, -, hp⟩, -⟩ := id h
  have hqp := arrived_qp (text := text) h
  rw [← (winStore_blind w .write text p.offset).over]
  refine Eq.trans (placeOne_write (hp ▸ ht)) (placeWrite_stores (by rw [hqp]; exact hh) hlast hlen (fun h2 => ?_) ((arrived_winCheck h ..).trans hc)
    (arrived_winMem h hm) ((arrived_winErr ..).trans he))
  have h2' : p.typ = 2 := h2
  rw [hqp]; exact hf.resolve_left (by omega)

theorem placeOne_arrived_full (ht : typ = 2) (hlast : p.flags.getLsbD 1 = true) (hf : 2 ^ (getQp s n).r ≤ (getQp s n).rq.length) :
    placeOne n (heldPkt p (getQp s n).rxPsn text) (arrived n p text s) = .full := by
  obtain ⟨⟨-, -, -, hp⟩, -⟩ := id h
  exact Eq.trans (placeOne_write (.inr (hp.trans ht))) (placeWrite_full (hp.trans ht) hlast (by rw [arrived_qp h]; exact hf))

theorem placeOne_arrived_read {w : Win} (ht : typ = 3) (hlen : 0 < field text 0 8) (hl : field text 0 8 ≤ 8192)
    (hc : winCheck s n p.offset (field text 0 8) p.wkey .read = some w) (hm : WinMem s w) (he : winErr s w p.offset (field text 0 8) .read = none) :
    placeOne n (heldPkt p (getQp s n).rxPsn text) (arrived n p text s) = .ok (queuePkts n [onlyPkt (arrived n p text s) n 4 p.offset p.wkey 0 p.msn
      ((List.range (field text 0 8)).map fun i => winGet s w .read (p.offset + i))] (arrived n p text s)) := by
  obtain ⟨⟨-, -, -, hp⟩, -⟩ := id h
  refine Eq.trans (placeOne_readReq (hp.trans ht)) ((placeReadReq_answers (Nat.ne_of_gt hlen) hl ((arrived_winCheck h ..).trans hc)
    (arrived_winMem h hm) ((arrived_winErr ..).trans he)).trans ?_)
  simp only [arrived_winGet]; rfl

theorem placeOne_arrived_resp {d : SendDesc} {u : State} (ht : typ = 4) (hsq : (getQp s n).sq = [d]) (hd : d.started = true) (hop : d.op = 3)
    (hm : d.msn % 2 ^ 32 = p.msn) (h0 : d.moved = 0) (hl : text.length = d.length) (hoff : p.offset = d.remote)
    (hw : dvaWrite s (getQp s n).ctx d.loc text .write false = .ok u) :
    placeOne n (heldPkt p (getQp s n).rxPsn text) (arrived n p text s) = .ok (finishSend n { d with moved := d.length } 0 0 d.length (modQp n (fun v => { v with
      sq := v.sq.map fun x => if x = d then { d with moved := d.length } else x }) (arrivedOver n p text s u))) := by
  obtain ⟨⟨-, -, -, hp⟩, -⟩ := id h
  have hqp := arrived_qp (text := text) h
  have hwa : dvaWrite (arrived n p text s) (getQp s n).ctx d.loc text .write false = .ok (arrivedOver n p text s u) := by
    rw [arrived_aside]; exact dvaWrite_aside _ _ hw
  exact Eq.trans (placeOne_readResp (hp.trans ht)) (placeResp_completes (by rw [hqp]; exact hsq) hd hop hm h0 hl hoff (by rw [hqp]; exact hwa))

theorem placeOne_arrived_holds {w : Win} (ht : typ = 6) (hc : winCheck s n p.offset p.len p.wkey .accum = some w) (hlast : p.flags.getLsbD 1 = false) :
    placeOne n (heldPkt p (getQp s n).rxPsn text) (arrived n p text s) =
      .ok (modQp n (fun v => { v with held := v.held ++ [heldPkt p (getQp s n).rxPsn text] }) (arrived n p text s)) := by
  obtain ⟨⟨-, -, -, hp⟩, -⟩ := id h
  exact Eq.trans (placeOne_acc (hp.trans ht)) (placeAcc_holds ((arrived_winCheck h ..).trans hc) hlast)

theorem placeOne_arrived_adds {w : Win} {u : State} (ht : typ = 6) (hh : (getQp s n).held = []) (hne : text ≠ []) (hl : text.length = p.len)
    (hc : winCheck s n p.offset p.len p.wkey .accum = some w) (hlast : p.flags.getLsbD 1 = true) (ha : addRows w (p.imm % 8) p.offset text s = .ok u) :
    placeOne n (heldPkt p (getQp s n).rxPsn text) (arrived n p text s) = .ok (modQp n unheldQp (arrivedOver n p text s u)) := by
  obtain ⟨⟨-, -, -, hp⟩, -⟩ := id h
  obtain ⟨-, -, hb⟩ := addRows_places w (p.imm % 8) p.offset text s u ha
  refine Eq.trans (placeOne_acc (hp.trans ht)) ((placeAcc_adds (q := heldPkt p (getQp s n).rxPsn text) (by rw [arrived_qp h]; exact hh) hne hl ((arrived_winCheck h ..).trans hc) hlast).trans ?_)
  have hx : modQp n unheldQp (arrived n p text s) = aside (modQp n unheldQp (arrived n p text s)).lnt (arrived n p text s).mtr s :=
    (congrArg (modQp n unheldQp) (arrived_aside n p text s)).trans rfl
  exact (congrArg (addRows w (p.imm % 8) p.offset text) hx).trans (hb _ _)

end

end

end Sys2Proof.Machine
end

section
/-! O49: the statement from the rules of PSN order, placement and windows. -/

namespace Sys2Proof.Machine

section
variable {s : State} {n typ : Nat} {p : LntPkt} {text : List Byte}

/-- A packet out of the window, or one received before, is answered, and that is all (12 R229). -/
theorem dataIn_answered (h : DataArrives s p typ n) (hp : plainOf (getQp s n) p = some text) (hd : 1024 ≤ psnDist (getQp s n).rxPsn p.psn) :
    ∃ pkt, (dataIn p s).out = s.out ++ [Out.lnt (getQp s n).engine (getQp s n).peer pkt] ∧
      (psnDist (getQp s n).rxPsn p.psn < 2 ^ 31 → pkt.typ = 0x09 ∧ pkt.imm = 1) ∧ (2 ^ 31 ≤ psnDist (getQp s n).rxPsn p.psn → pkt.typ = 0x08) ∧
      getQp (dataIn p s) n = { getQp s n with ctlTx := (getQp s n).ctlTx + 1 } ∧ OnlyQp n s (dataIn p s) := by
  obtain ⟨-, he, -⟩ := dataArrives_qp h
  obtain ⟨hq, hm, hh, hout⟩ := dropLnt_keeps h.1.1 s
  have hw := QpWork.refl n (dropLnt p.engine s)
  rw [hq n] at hw
  have honly : ∀ {v os t}, QpWork n v os (dropLnt p.engine s) t → OnlyQp n s t := fun k =>
    ⟨fun m hm => (k.others m hm).trans (hq m), k.mem.trans hm, k.hostMem.trans hh⟩
  by_cases hb : psnDist (getQp s n).rxPsn p.psn < 2 ^ 31
  · have hn := hw.nak he 1 p.psn
    rw [dataIn_beyond h hp (psnCheck_beyond hd hb)]
    exact ⟨_, by rw [hn.out, hout]; rfl, fun _ => ⟨ctlPkt_typ .., ctlPkt_imm ..⟩, fun hb' => absurd hb (Nat.not_lt.2 hb'), hn.qp, honly hn⟩
  · have ha := hw.ack he p.ts
    rw [dataIn_already h hp (psnCheck_already (Nat.not_lt.1 hb))]
    exact ⟨_, by rw [ha.out, hout]; rfl, fun hb' => absurd hb' hb, fun _ => ctlPkt_typ .., ha.qp, honly ha⟩

/-- The receive ring after a WRITE, and after a WRITE_IMM. -/
theorem wroteQp_ring (x : State) (psn : Nat) {q : LntPkt} (v : Qp) : (ackedQp x psn (wroteQp q (arrivedQp v p text))).cq = v.cq ∧
    (q.typ ≠ 2 → (ackedQp x psn (wroteQp q (arrivedQp v p text))).rq = v.rq ∧ (ackedQp x psn (wroteQp q (arrivedQp v p text))).recvCnt = v.recvCnt) ∧
    (q.typ = 2 → (ackedQp x psn (wroteQp q (arrivedQp v p text))).recvCnt = v.recvCnt + 1 ∧
      (ackedQp x psn (wroteQp q (arrivedQp v p text))).rq = v.rq ++ [immRec q]) :=
  ⟨(wroteQp_keeps q _).2.2.2, fun h => by rw [wroteQp_write h]; exact ⟨rfl, rfl⟩, fun h => by rw [wroteQp_imm h]; exact ⟨rfl, rfl⟩⟩

/-- A write that its window admits is stored and taken (12 R243, R244). -/
theorem dataIn_writes (h : DataArrives s p typ n) (ho : InOrder s p n text) {w : Win} (ht : typ = 1 ∨ typ = 2) (hsq : (getQp s n).sq = [])
    (hh : (getQp s n).held = []) (hlen : p.len ≠ 0) (hlast : p.flags.getLsbD 1 = true) (hc : winCheck s n p.offset p.len p.wkey .write = some w)
    (hm : WinMem s w) (he : winErr s w p.offset p.len .write = none) (hf : typ = 1 ∨ (getQp s n).rq.length < 2 ^ (getQp s n).r) :
    Taken n p s (dataIn p s) ∧ (dataIn p s).mem = (winStore w .write p.offset text s).mem ∧ (dataIn p s).hostMem = (winStore w .write p.offset text s).hostMem ∧
      ∃ x, getQp (dataIn p s) n = ackedQp x (getQp s n).rxPsn (wroteQp (heldPkt p (getQp s n).rxPsn text) (arrivedQp (getQp s n) p text)) := by
  obtain ⟨-, -, -, -, htx⟩ := dataArrives_qp h
  have hu : (winStore w .write p.offset text s).lnt = s.lnt := (winStore_blind w .write text p.offset).lnt s
  obtain ⟨hk, ktx, ksq, -⟩ := wroteQp_keeps (heldPkt p (getQp s n).rxPsn text) (arrivedQp (getQp s n) p text)
  obtain ⟨htaken, hmem, hhost, hq, -⟩ := dataIn_taken h ho hu (.of_eq (winStore_out ..)) (placeOne_arrived_write h ht hh hlen hlast hc hm he hf)
    (wrote_work (arrived_over h hu) _) hk (ktx.trans htx) (by rw [ksq]; exact fun d hd => absurd (hsq ▸ hd) nofun)
  exact ⟨htaken, hmem, hhost, _, hq⟩

/-! What is sent after the ACK. -/

/-- A queue pair with one more packet to send. -/
def queuedQp (v : Qp) (q : LntPkt) : Qp := { v with txq := v.txq ++ [numbered v q], txPsn := v.txPsn + 1 }

theorem QpWork.queued {t : State} {v : Qp} {os : List Out} (h : QpWork n v os s t) (q : LntPkt) : QpWork n (queuedQp v q) os s (queuePkts n [q] t) := h.change rfl

/-- Protection asks of the queue pair its key and its role. -/
theorem wirePkt_congr {v w : Qp} (h : (w.prot, w.kTx, w.initiator) = (v.prot, v.kTx, v.initiator)) (q : LntPkt) : wirePkt w q = wirePkt v q := by
  simp only [Prod.mk.injEq] at h
  obtain ⟨hp, hk, hi⟩ := h
  unfold wirePkt txDir; rw [hp, hk, hi]

/-- The one packet that waits leaves, where the queue pair can send. -/
theorem QpWork.pumpAnswer {t : State} {v : Qp} {os : List Out} (h : QpWork n v os s t) (hc : CanSend s v) {q : LntPkt} (htx : v.txq = [q]) (hsq : v.sq = [])
    (ht : q.typ = 3 ∨ q.typ = 4 ∨ q.typ = 5) :
    QpWork n (firstSent s v q) (os ++ [.lnt v.engine v.peer (wirePkt v (stamped s v q))]) s (pump n t) := by
  obtain ⟨t', hw, hp⟩ := h.pumpFirst hc htx 1024
  have hpump : pump n t = t' := by
    unfold pump
    rw [h.qp, hsq]
    exact hp.trans (by rw [leftEngine_request ht]; exact pumpLoop_idle (by rw [hw.qp, firstSent, htx]; rfl) (by rw [hw.qp, firstSent, hsq]; nofun) 1024)
  rw [hpump]; exact hw

/-- The answer to a request leaves after the ACK, under the next PSN. -/
theorem QpWork.answers {x y : State} {v : Qp} {os : List Out} {psn : Nat} {q : LntPkt}
    (h : QpWork n (ackedQp x psn (queuedQp (arrivedQp v p text) q)) os s y) (hc : CanSend s v) (htx : v.txq = []) (hsq : v.sq = [])
    (ht : q.typ = 3 ∨ q.typ = 4 ∨ q.typ = 5) : ∃ w, QpWork n w (os ++ [.lnt v.engine v.peer (wirePkt v { q with
      psn := v.txPsn, ts := s.lark.time, apsn := apsnOf (v.rxPsn + 1) })]) s (pump n y) ∧ w.rxPsn = v.rxPsn + 1 := by
  have hw := h.pumpAnswer hc (congrArg (· ++ [numbered v q]) htx) hsq ht
  exact ⟨_, wirePkt_congr (v := v) (w := ackedQp x psn (queuedQp (arrivedQp v p text) q)) rfl _ ▸ hw, rfl⟩

/-- A READ_REQ that its window admits is acknowledged and answered (12 R243). -/
theorem dataIn_reads (h : DataArrives s p 3 n) (ho : InOrder s p n text) (hr : QpReady s n) {w : Win} (hlen : 0 < field text 0 8) (hl : field text 0 8 ≤ 8192)
    (hc : winCheck s n p.offset (field text 0 8) p.wkey .read = some w) (hm : WinMem s w) (he : winErr s w p.offset (field text 0 8) .read = none) :
    ∃ v ack pkt, QpWork n v [.lnt (getQp s n).engine (getQp s n).peer ack, .lnt (getQp s n).engine (getQp s n).peer (wirePkt (getQp s n) pkt)] s (dataIn p s) ∧
      v.rxPsn = (getQp s n).rxPsn + 1 ∧ ack.typ = 0x08 ∧ pkt.typ = 4 ∧ pkt.psn = (getQp s n).txPsn ∧ pkt.offset = p.offset ∧ pkt.msn = p.msn % 2 ^ 32 ∧
      pkt.payload = (List.range (field text 0 8)).map fun i => winGet s w .read (p.offset + i) := by
  obtain ⟨hst, hen, hup, hsq, htx, hun, hcw, hrf, hnr, -⟩ := hr
  have hq := (arrived_here (text := text) h).queued (onlyPkt (arrived n p text s) n 4 p.offset p.wkey 0 p.msn
    ((List.range (field text 0 8)).map fun i => winGet s w .read (p.offset + i)))
  obtain ⟨ack, y, hy, ⟨htyp, -⟩, hd⟩ := dataIn_acknowledged h ho (placeOne_arrived_read h rfl hlen hl hc hm he) hq rfl
  obtain ⟨v, hw, hv⟩ := hy.answers ⟨hst, hen, hup, hun, hcw, hrf, hnr⟩ htx hsq (.inr (.inl rfl))
  rw [← hd] at hw
  exact ⟨v, ack, _, hw, hv, htyp, rfl, rfl, rfl, rfl, rfl⟩

/-- A queue pair whose one READ has all its data. -/
def readQp (d : SendDesc) (v : Qp) : Qp := { v with sq := v.sq.map fun x => if x = d then { d with moved := d.length } else x }

theorem readQp_done {d : SendDesc} {v : Qp} (hsq : v.sq = [d]) (p : LntPkt) (text : List Byte) :
    (sentQp (readQp d (arrivedQp v p text)) { d with moved := d.length } 0 0 d.length).sq = [] := by
  show ((v.sq.map _).erase _) = []
  rw [hsq]; simp

/-- READ_RESP data is placed at its address, and completes the READ (12 R242). -/
theorem dataIn_completes (h : DataArrives s p 4 n) (ho : InOrder s p n text) {d : SendDesc} {u : State} (hsq : (getQp s n).sq = [d]) (hd : d.started = true)
    (hop : d.op = 3) (hm : d.msn % 2 ^ 32 = p.msn) (h0 : d.moved = 0) (hl : text.length = d.length) (hoff : p.offset = d.remote)
    (hw : dvaWrite s (getQp s n).ctx d.loc text .write false = .ok u) :
    Taken n p s (dataIn p s) ∧ (dataIn p s).mem = u.mem ∧ (dataIn p s).hostMem = u.hostMem ∧
      ∃ x, getQp (dataIn p s) n = ackedQp x (getQp s n).rxPsn (sentQp (readQp d (arrivedQp (getQp s n) p text)) { d with moved := d.length } 0 0 d.length) := by
  obtain ⟨-, -, -, -, htx⟩ := dataArrives_qp h
  have hf := dvaWrite_frame hw
  have hu : u.lnt = s.lnt := by rw [hf]
  have hwork := ((arrived_over (text := text) h hu).change (f := readQp d) rfl).complete { d with moved := d.length } 0 0 d.length
  obtain ⟨htaken, hmem, hhost, hq, -⟩ := dataIn_taken h ho hu (.of_eq (by rw [hf])) (placeOne_arrived_resp h rfl hsq hd hop hm h0 hl hoff hw) hwork rfl htx
    (by rw [readQp_done hsq]; nofun)
  exact ⟨htaken, hmem, hhost, _, hq⟩

/-- A FLUSH is answered before its ACK (12 R243). -/
theorem dataIn_flushes (h : DataArrives s p 5 n) (ho : InOrder s p n text) (hsq : (getQp s n).sq = []) :
    ∃ v pkt ack, QpWork n v [.lnt (getQp s n).engine (getQp s n).peer pkt, .lnt (getQp s n).engine (getQp s n).peer ack] s (dataIn p s) ∧
      v.rxPsn = (getQp s n).rxPsn + 1 ∧ pkt.typ = 0x08 ∧ pkt.imm = 1 ∧ pkt.msn = p.msn % 2 ^ 32 ∧ pkt.ts = p.ts ∧ ack.typ = 0x08 ∧ ack.imm = 0 := by
  obtain ⟨-, he, -, -, htx⟩ := dataArrives_qp h
  have hqp := arrived_qp (text := text) h
  have hwork := (arrived_here (text := text) h).control he 0x08 1 p.msn p.ts none
  obtain ⟨ack, y, hy, ⟨htyp, himm, -⟩, hd⟩ := dataIn_acknowledged h ho (Eq.trans (placeOne_flush h.1.2.2.2) (by rw [hqp]; rfl)) hwork rfl
  rw [hy.idle htx (fun d hd => absurd (hsq ▸ hd) nofun)] at hd
  rw [hd]
  exact ⟨_, _, ack, hy, rfl, ctlPkt_typ .., ctlPkt_imm .., ctlPkt_msn .., ctlPkt_ts .., htyp, himm⟩

/-- A packet before the last of an ACC_WRITE is held (12 R247). -/
theorem dataIn_holds (h : DataArrives s p 6 n) (ho : InOrder s p n text) {w : Win} (hsq : (getQp s n).sq = []) (hh : (getQp s n).held = [])
    (hc : winCheck s n p.offset p.len p.wkey .accum = some w) (hlast : p.flags.getLsbD 1 = false) :
    Taken n p s (dataIn p s) ∧ (dataIn p s).mem = s.mem ∧ (dataIn p s).hostMem = s.hostMem ∧ (getQp (dataIn p s) n).held.map LntPkt.payload = [text] := by
  obtain ⟨-, -, -, -, htx⟩ := dataArrives_qp h
  have hwork := (arrived_here (text := text) h).change (f := fun v => { v with held := v.held ++ [heldPkt p (getQp s n).rxPsn text] }) rfl
  obtain ⟨htaken, hmem, hhost, hq, -⟩ := dataIn_taken h ho rfl (.refl s) (placeOne_arrived_holds h rfl hc hlast) hwork rfl htx
    (fun d hd => absurd (hsq ▸ hd) nofun)
  refine ⟨htaken, hmem, hhost, ?_⟩
  rw [hq]
  show ((getQp s n).held ++ [heldPkt p (getQp s n).rxPsn text]).map LntPkt.payload = [text]
  rw [hh]; rfl

/-- The rows of an ACC_WRITE of one packet are added (12 R247). -/
theorem dataIn_adds (h : DataArrives s p 6 n) (ho : InOrder s p n text) {w : Win} {u : State} (hsq : (getQp s n).sq = []) (hh : (getQp s n).held = [])
    (hne : text ≠ []) (hl : text.length = p.len) (hc : winCheck s n p.offset p.len p.wkey .accum = some w) (hlast : p.flags.getLsbD 1 = true)
    (ha : addRows w (p.imm % 8) p.offset text s = .ok u) :
    Taken n p s (dataIn p s) ∧ (dataIn p s).mem = u.mem ∧ (dataIn p s).hostMem = u.hostMem ∧ (getQp (dataIn p s) n).held = [] := by
  obtain ⟨-, -, -, -, htx⟩ := dataArrives_qp h
  obtain ⟨hg, hu, -⟩ := addRows_places w (p.imm % 8) p.offset text s u ha
  have hwork := (arrived_over (text := text) h hu).change (f := unheldQp) rfl
  obtain ⟨htaken, hmem, hhost, hq, -⟩ := dataIn_taken h ho hu hg (placeOne_arrived_adds h rfl hh hne hl hc hlast ha) hwork rfl htx
    (fun d hd => absurd (hsq ▸ hd) nofun)
  exact ⟨htaken, hmem, hhost, by rw [hq]; rfl⟩

end

/-- Settles O49: the packet at hand is the next in PSN order; its placement commutes with Linnet's engines and the meters (`Blind`), so what it does to
memory is what the statement names, and its answers are work on one queue pair (`QpWork`). -/
theorem targetsPlaceInOrderOnce : Obligations.TargetsPlaceInOrderOnce := by
  refine ⟨?unplaced, ?write, ?refused, ?read, ?resp, ?flush, ?acc, ?rows⟩
  case unplaced =>
    rintro s p typ n _ c h hc rfl
    refine ⟨fun hp hn => ?_, fun hx hd => ?_⟩
    · rw [dataCmd_runs h.1 hc, dataIn_drops h (by unfold plainOf; rw [if_pos hp, hn])]
    · obtain ⟨text, ht⟩ : ∃ text, plainOf (getQp s n) p = some text := by
        unfold plainOf; split
        · exact Option.ne_none_iff_exists'.1 (hx ‹_›)
        · exact ⟨_, rfl⟩
      obtain ⟨pkt, hout, hb, ha, hq, honly⟩ := dataIn_answered h ht hd
      obtain ⟨-, -, -, hre, -⟩ := dataArrives_qp h
      exact ⟨_, pkt, dataCmd_runs h.1 hc, hout, hb, ha, by rw [hq], by rw [hq]; exact hre, honly⟩
  case write =>
    intro s p typ n text w c h ho hc ht hsq hh hlen hlast hwin hm he
    obtain ⟨-, -, -, hre, htx⟩ := dataArrives_qp h
    have hp : p.typ = typ := h.1.2.2.2
    refine ⟨fun hf => ?_, fun h2 hf => ?_⟩
    · obtain ⟨htaken, hmem, hhost, x, hq⟩ := dataIn_writes h ho ht hsq hh hlen hlast hwin hm he hf
      obtain ⟨hcq, hwr, himm⟩ := wroteQp_ring (p := p) (text := text) x (getQp s n).rxPsn (q := heldPkt p (getQp s n).rxPsn text) (getQp s n)
      rw [← hq] at hcq hwr himm
      exact ⟨_, dataCmd_runs h.1 hc, htaken, hmem, hhost, hcq, fun h1 => hwr (show p.typ ≠ 2 by omega),
        fun h2 => ⟨(himm (hp.trans h2)).1, _, (himm (hp.trans h2)).2, rfl, rfl, Nat.add_sub_cancel_left .., rfl, rfl, rfl⟩⟩
    · obtain ⟨pkt, ack, hw, htyp, himm, hack⟩ := dataIn_full h ho (placeOne_arrived_full h h2 hlast hf) (by rw [hsq]; nofun)
      exact ⟨_, pkt, ack, dataCmd_runs h.1 hc, hw.only, hw.out, htyp, himm, hack, by rw [hw.qp], by rw [hw.qp]⟩
  case refused =>
    intro s p typ n text c h ho hc hw
    obtain ⟨hend, pkt, hmem, htyp, himm⟩ := dataIn_refused h ho (placeOne_arrived_access h hw)
    exact ⟨_, pkt, dataCmd_runs h.1 hc, hend, hmem, htyp, himm⟩
  case read =>
    intro s p n text w h ho hr hlen hl hc hm he
    obtain ⟨v, ack, pkt, hw, hv, hrest⟩ := dataIn_reads h ho hr hlen hl hc hm he
    exact ⟨_, ack, pkt, dataCmd_runs h.1 (.inr (.inr (.inl ⟨rfl, rfl⟩))), hw.only, by rw [hw.qp]; exact hv, hw.out, hrest⟩
  case resp =>
    intro s u p n text d h ho hsq hd hop hmsn h0 hl hfl hoff hw
    obtain ⟨htaken, hmem, hhost, x, hq⟩ := dataIn_completes h ho hsq hd hop hmsn h0 hl hoff hw
    exact ⟨_, dataCmd_runs h.1 (.inr (.inr (.inr (.inl ⟨rfl, rfl⟩)))), htaken, hmem, hhost, by rw [hq]; exact readQp_done hsq p text, by rw [hq]; rfl,
      sendRec { d with moved := d.length } 0 0 d.length, by rw [hq]; rfl, rfl, rfl, rfl⟩
  case flush =>
    intro s p n text h ho hsq
    obtain ⟨v, pkt, ack, hw, hv, hrest⟩ := dataIn_flushes h ho hsq
    exact ⟨_, ack, pkt, dataCmd_runs h.1 (.inr (.inr (.inr (.inr (.inl ⟨rfl, rfl⟩))))), hw.only, by rw [hw.qp]; exact hv, hw.out, hrest⟩
  case acc =>
    intro s p n text w h ho hsq hh hlen hne hc hl
    have hrun := dataCmd_runs h.1 (.inr (.inr (.inr (.inr (.inr ⟨rfl, rfl⟩)))))
    exact ⟨fun hlast => ⟨_, hrun, dataIn_holds h ho hsq hh hc hlast⟩, fun u hlast ha => ⟨_, hrun, dataIn_adds h ho hsq hh hne hl hc hlast ha⟩⟩
  case rows =>
    rintro s _ w code off f bs ⟨k, b, z, g, hk⟩ hf hi hb hoff he rfl
    exact addRows_memory hf (by simp [hi, hb]) (fun p hp => by rw [hk] at hp; cases hp) hoff he

end Sys2Proof.Machine
end
